-- ==== Sys2Proof/Word.lean ====
section
/-!
DEFINITION. The native word of the controller and its plainest arithmetic (R2: 32-bit words; R7: little-endian).
-/
namespace Sys2Proof

/-- The native 32-bit register word (R2). -/
abbrev Word := BitVec 32
/-- One byte. -/
abbrev Byte := BitVec 8

/-- `x` held between `lo` and `hi`. -/
def clampN (lo hi x : Nat) : Nat := max lo (min hi x)
/-- `x` held between `lo` and `hi`, signed. -/
def clampI (lo hi x : Int) : Int := max lo (min hi x)
/-- Signed saturation to `w` bits. -/
def satI (w : Nat) (x : Int) : Int := clampI (-(2 ^ (w - 1))) (2 ^ (w - 1) - 1) x
/-- The two's-complement value of the low `w` bits of `n`. -/
def sext (w n : Nat) : Int :=
  let m := n % 2 ^ w
  if m < 2 ^ (w - 1) then (m : Int) else (m : Int) - (2 ^ w : Nat)
/-- The low `w` bits of `x` in two's complement. -/
def toBits (w : Nat) (x : Int) : Nat := (x % ((2 ^ w : Nat) : Int)).toNat
/-- Bit `i` of `n`. -/
def bit (n i : Nat) : Bool := n.testBit i
/-- Bits `lo` to `lo + w - 1` of `n`. -/
def slice (lo w n : Nat) : Nat := n / 2 ^ lo % 2 ^ w
/-- `n` with bit `i` set to `b`. -/
def setBit (n i : Nat) (b : Bool) : Nat :=
  if n.testBit i = b then n else n ^^^ 2 ^ i
/-- Quotient rounded to the nearest integer, halves away from zero; 0 for a divisor of 0. -/
def divRound (a b : Int) : Int :=
  if b = 0 then 0
  else
    let q := (2 * a.natAbs + b.natAbs) / (2 * b.natAbs)
    if (0 ≤ a) = (0 ≤ b) then (q : Int) else -(q : Int)
/-- Quotient rounded up. -/
def divUp (a b : Nat) : Nat := (a + b - 1) / b
/-- Arithmetic shift right by `n` (rounding towards minus infinity). -/
def sar (x : Int) (n : Nat) : Int := x / ((2 ^ n : Nat) : Int)
/-- Number of ones among the low `w` bits. -/
def popCount : Nat → Nat → Nat
  | 0, _ => 0
  | w + 1, n => (if n.testBit w then 1 else 0) + popCount w n
/-- 0 or 1. -/
def b2n (b : Bool) : Nat := if b then 1 else 0

end Sys2Proof
end

