-- ==== Sys2Proof/Machine/Sparse.lean ====
section
/-!
DEFINITION. Sparse stores of words: a list of (key, word) pairs with strictly rising keys in which no entry equals what an
unlisted key reads as. Register fields, engine memories and sample buffers are held this way.
-/
namespace Sys2Proof.Machine

/-- A sparse store. -/
abbrev Sparse := List (Nat × Word)

/-- What key `k` holds, `d` being what an unlisted key reads as. -/
def Sparse.get (d : Word) : Sparse → Nat → Word
  | [], _ => d
  | (k', v) :: r, k => if k = k' then v else Sparse.get d r k

/-- `s` with the entry of key `k` replaced, or added in key order. -/
def Sparse.insert : Sparse → Nat → Word → Sparse
  | [], k, v => [(k, v)]
  | (k', v') :: r, k, v =>
    if k = k' then (k, v) :: r
    else if k < k' then (k, v) :: (k', v') :: r
    else (k', v') :: Sparse.insert r k v

/-- `s` with `v` at key `k`; writing what an unlisted key reads as removes the entry. -/
def Sparse.set (d : Word) (s : Sparse) (k : Nat) (v : Word) : Sparse :=
  if v = d then s.filter (fun e => e.1 != k) else Sparse.insert s k v

/-- The keys rise strictly and all lie above `lo`. -/
def Sparse.wfFrom : Nat → Sparse → Bool
  | _, [] => true
  | lo, (k, _) :: r => decide (lo ≤ k) && Sparse.wfFrom (k + 1) r

/-- The canonical form: strictly rising keys. -/
def Sparse.wf (s : Sparse) : Bool := Sparse.wfFrom 0 s

/-- The entries of `s` with `lo ≤ key < hi` replaced by those of `t` in the same range. -/
def Sparse.copyRange (lo hi : Nat) (s t : Sparse) : Sparse :=
  s.filter (fun e => e.1 < lo) ++ t.filter (fun e => lo ≤ e.1 && e.1 < hi) ++ s.filter (fun e => hi ≤ e.1)

/-- `s` with what `t` holds at key `k`, an entry or none. -/
def Sparse.copyKey (k : Nat) (s t : Sparse) : Sparse :=
  match t.find? (fun e => e.1 == k) with
  | some e => Sparse.insert s k e.2
  | none => s.filter (fun e => e.1 != k)

/-- `s` without its entries with `lo ≤ key < hi`. -/
def Sparse.dropRange (lo hi : Nat) (s : Sparse) : Sparse :=
  s.filter (fun e => !(lo ≤ e.1 && e.1 < hi))

/-- Replaces or adds the entry of key `k` in a list of keyed data kept in rising key order. -/
def assocSet {α : Type} (k : Nat) (v : α) : List (Nat × α) → List (Nat × α)
  | [] => [(k, v)]
  | (k', v') :: r =>
    if k = k' then (k, v) :: r
    else if k < k' then (k, v) :: (k', v') :: r
    else (k', v') :: assocSet k v r

/-- The entry of key `k`. -/
def assocGet {α : Type} (k : Nat) : List (Nat × α) → Option α
  | [] => none
  | (k', v) :: r => if k = k' then some v else assocGet k r

/-- The list without the entry of key `k`. -/
def assocDel {α : Type} (k : Nat) (l : List (Nat × α)) : List (Nat × α) := l.filter fun e => !(e.1 == k)

end Sys2Proof.Machine
end

