-- ==== Sys2Proof/Units.lean ====
section
/-!
DEFINITION. The units of the controller as the commands name them: ports, beams, spindles, axes, engines, requesters,
clock islands and register pages (R10, R11, R14, R34, R137).
-/
namespace Sys2Proof

/-- OPU port H0 to H15 (R10). -/
abbrev Port := Fin 16
/-- Beam B0 to B4 within a port (R10). -/
abbrev BeamNo := Fin 5
/-- Spindle S0 to S7 (R10). -/
abbrev Spin := Fin 8
/-- Axis 0 to 21 (R10). -/
abbrev Axis := Fin 22
/-- Loop engine or trace unit 0 to 3 (R11). -/
abbrev Eng := Fin 4
/-- Hallmark unit 0 to 112 (R138). -/
abbrev HallNo := Fin 113
/-- A controller (function) of the subsystem: 0 the physical function, 1 to 15 the virtual ones (R677). -/
abbrev Ctrl := Fin 16

/-- The requesters of register accesses (R34). -/
inductive Requester where
  | host | mgmt | i3c
  deriving DecidableEq, Repr

/-- LOCK.OWNER and ARM_OWNER encoding (R153, R154). -/
def Requester.code : Requester → Nat
  | .host => 0
  | .mgmt => 1
  | .i3c => 2

/-- The 108 clock islands (R14). -/
inductive Island where
  | aon | host | cmd | mem | polder | rstore | mgmt | ctrl | spindle | axis | assay | peer
  | head (h : Port) | beam (h : Port) (b : BeamNo)
  deriving DecidableEq, Repr

/-- The 260 register pages (R137). -/
inductive Page where
  | sys | clk | fault | assay | host | cmd | mem | cache | sluice | polder | inv | rstore | peer
  | loop (e : Eng) | trace (t : Eng) | spin (s : Spin) | axis (a : Axis)
  | head (h : Port) | beam (h : Port) (b : BeamNo) | hall (n : HallNo)
  deriving DecidableEq, Repr

/-- The page number of R137. -/
def Page.num : Page → Nat
  | .sys => 0x010
  | .clk => 0x011
  | .fault => 0x012
  | .assay => 0x013
  | .host => 0x014
  | .cmd => 0x015
  | .mem => 0x016
  | .cache => 0x017
  | .sluice => 0x018
  | .polder => 0x019
  | .inv => 0x01A
  | .rstore => 0x01B
  | .peer => 0x01C
  | .loop e => 0x020 + e.val
  | .trace t => 0x024 + t.val
  | .spin s => 0x030 + s.val
  | .axis a => 0x040 + a.val
  | .head h => 0x080 + h.val
  | .beam h b => 0x100 + 8 * h.val + b.val
  | .hall n => 0x200 + n.val

/-- `n - base` as a unit number where it lies below `m`. -/
def unitOf (m base n : Nat) : Option (Fin m) :=
  if h : base ≤ n ∧ n - base < m then some ⟨n - base, h.2⟩ else none

/-- The page of a page number, none for an unmapped one (R137, R139). -/
def Page.ofNum (n : Nat) : Option Page :=
  if n < 0x010 then none
  else if n < 0x020 then
    match n with
    | 0x010 => some .sys
    | 0x011 => some .clk
    | 0x012 => some .fault
    | 0x013 => some .assay
    | 0x014 => some .host
    | 0x015 => some .cmd
    | 0x016 => some .mem
    | 0x017 => some .cache
    | 0x018 => some .sluice
    | 0x019 => some .polder
    | 0x01A => some .inv
    | 0x01B => some .rstore
    | 0x01C => some .peer
    | _ => none
  else if n < 0x024 then (unitOf 4 0x020 n).map .loop
  else if n < 0x028 then (unitOf 4 0x024 n).map .trace
  else if n < 0x040 then (unitOf 8 0x030 n).map .spin
  else if n < 0x080 then (unitOf 22 0x040 n).map .axis
  else if n < 0x100 then (unitOf 16 0x080 n).map .head
  else if n < 0x180 then
    match unitOf 16 0 ((n - 0x100) / 8), unitOf 5 0 ((n - 0x100) % 8) with
    | some h, some b => some (.beam h b)
    | _, _ => none
  else (unitOf 113 0x200 n).map .hall

/-- All 16 ports. -/
def allPorts : List Port := List.finRange 16
/-- All 5 beams of a port. -/
def allBeams : List BeamNo := List.finRange 5
/-- All 8 spindles. -/
def allSpins : List Spin := List.finRange 8
/-- All 22 axes. -/
def allAxes : List Axis := List.finRange 22
/-- All 4 engines. -/
def allEngs : List Eng := List.finRange 4

/-- Every populated page, in page-number order (R137). -/
def allPages : List Page :=
  [.sys, .clk, .fault, .assay, .host, .cmd, .mem, .cache, .sluice, .polder, .inv, .rstore, .peer]
    ++ allEngs.map .loop ++ allEngs.map .trace ++ allSpins.map .spin ++ allAxes.map .axis
    ++ allPorts.map .head ++ allPorts.flatMap (fun h => allBeams.map (.beam h))
    ++ (List.finRange 113).map .hall

/-- The beam a beam hallmark unit serves, nnn = 5 × hh + b (R138). -/
def hallBeam (n : Nat) : Option (Port × BeamNo) :=
  match unitOf 16 0 (n / 5), unitOf 5 0 (n % 5) with
  | some h, some b => some (h, b)
  | _, _ => none

/-- The clock island of a page (R14, R138). -/
def Page.island : Page → Island
  | .sys | .clk | .fault => .aon
  | .assay => .assay
  | .host => .host
  | .cmd => .cmd
  | .mem | .cache | .sluice => .mem
  | .polder | .inv => .polder
  | .rstore => .rstore
  | .peer => .peer
  | .loop _ | .trace _ => .ctrl
  | .spin _ => .spindle
  | .axis _ => .axis
  | .head h => .head h
  | .beam h b => .beam h b
  | .hall n =>
    if n.val < 80 then
      match hallBeam n.val with
      | some (h, b) => .beam h b
      | none => .rstore
    else if n.val < 96 then
      match unitOf 16 80 n.val with
      | some h => .head h
      | none => .rstore
    else if n.val < 104 then .host
    else if n.val < 108 then .peer
    else .rstore

/-- The spindle a port serves: H(2s) and H(2s+1) serve Ss (R12). -/
def Port.spin (h : Port) : Spin := ⟨h.val / 2, by omega⟩
/-- The sled axis of a port: axis n serves Hn (R12). -/
def Port.sled (h : Port) : Axis := ⟨h.val, by omega⟩
/-- The upper-side port of a spindle (R12). -/
def Spin.upper (s : Spin) : Port := ⟨2 * s.val, by omega⟩
/-- The lower-side port of a spindle (R12). -/
def Spin.lower (s : Spin) : Port := ⟨2 * s.val + 1, by omega⟩
/-- Beam number hh, b as a flat index 5 × hh + b (R138). -/
def beamIx (h : Port) (b : BeamNo) : Fin 80 := ⟨5 * h.val + b.val, by omega⟩
/-- The axes that move the picker: 16 to 21 (R2). -/
def pickerAxes : List Axis := [16, 17, 18, 19, 20, 21]

end Sys2Proof
end

