-- ==== Sys2Proof/Payload.lean ====
section
/-!
DEFINITION. What commands carry from outside the controller: samples, frames, answers and data blocks (log 5).
-/
namespace Sys2Proof

/-- Eight codes of each phase voltage of a spindle in one PWM period (R512). -/
abbrev PhaseVolts := Vector (Vector (BitVec 12) 8) 3

/-- What an OPU and its lanes answer during training (R265 to R267). -/
structure OpuAnswer where
  /-- Step of R266 at which lock or alignment failed, 0 where all were reached. -/
  failStep : Nat
  /-- Every housekeeping step answered 0x00 and read back as written. -/
  hkOk : Bool
  opuId : Word
  caps : Word
  txLat : Nat
  dlMargin : Nat
  ulMargin : Nat
  /-- Where training stands after this command: 1 LOCKING, 2 SETUP, else at its end (R283). -/
  reach : Nat := 3
  deriving DecidableEq, Repr

/-- One link frame as it stands in the elastic buffers at its release (R248, R260 to R262). -/
structure Uplink where
  lane0 : List Byte
  lane1 : List Byte
  /-- Sync header and multiblock lock held on both lanes. -/
  locked : Bool
  /-- All 75 blocks present on both lanes. -/
  complete : Bool
  /-- Multiblocks of this frame whose CRC-12 failed. -/
  crcErrors : Nat
  /-- The lane 0 multiblock that carries the servo set failed. -/
  servoCrcBad : Bool
  /-- Margin in H of the last block. -/
  margin : Nat
  deriving DecidableEq, Repr

/-- What passes under a beam at one servo field (R190, R318, R371). -/
structure FieldMark where
  /-- Sliced periods -4 to 131 of the segment, true for a pit. -/
  bits : List Bool
  /-- Where the clock pits are found: τ_f, the time of the centre of C1 on the port time grid, in 2^-24 H (R371). -/
  tau : Option Nat
  deriving DecidableEq, Repr

/-- Rise times in ns of the pulses of each test vector, one per repetition; none where I_TEST was not reached within 100 us (R519). -/
abbrev DetectRises := Vector (List (Option Nat)) 12

/-- A pulse of a servo field: amplitude, and time on the sample count of the beam, in 1/256 sample. -/
structure Pulse where
  amp : Nat
  t : Int
  deriving DecidableEq, Repr

/-- What a field demodulator finds in its window (R190, R193, R466, R467). -/
structure FieldPulses where
  /-- Sliced periods -4 to 131 of the segment, true for a pit. -/
  bits : List Bool
  /-- Amplitude of the largest pulse in the window. -/
  top : Nat
  c1 : Pulse
  c2 : Pulse
  a1 : Pulse
  a2 : Pulse
  b1 : Pulse
  b2 : Pulse
  deriving DecidableEq, Repr

/-- What the LDPC decoder yields for a sector descrambled with one seed (R322, R326). -/
structure Decode where
  /-- Zero syndrome within the iterations it took. -/
  converged : Bool
  iters : Nat
  payload : List Byte
  deriving DecidableEq, Repr

/-- What a field or a sector read from the disc yields: whether its LDPC decode converged, and its 4,160-byte payload. -/
structure MediaSector where
  ok : Bool
  payload : List Byte
  deriving DecidableEq, Repr

/-- One control slot as read (R227, R228): layer, zone, place in the order of use, and the user bytes of its sectors 0 to 15, none
for an incomplete slot. -/
structure CtrlRead where
  layer : Nat
  leading : Bool
  ix : Nat
  user : Option (List Byte)
  deriving DecidableEq, Repr

/-- An ingot as the polder island names it to a beam (R206, R355). -/
structure IngotRef where
  polder : Nat
  zone : Nat
  row : Nat
  member : Nat
  /-- Metadata FLAGS (R206). -/
  flags : Nat
  deriving DecidableEq, Repr

/-- A work item (R355). -/
structure WorkItem where
  side : Nat
  layer : Nat
  spiral : Nat
  slot : Nat
  ingots : List IngotRef
  burn : Bool
  deriving DecidableEq, Repr

/-- The outcome of one sector read back: status, iterations, changed bits (R330, R385). -/
structure SectorCheck where
  status : Nat
  iters : Nat
  changed : Nat
  deriving DecidableEq, Repr

/-- The last period of a mark run under the write monitor (R378): length of the run, the symbol emitted, and the conditioned sample
nearest three quarters of the period. -/
structure MonMark where
  len : Nat
  sym : Byte
  y : BitVec 10
  deriving DecidableEq, Repr

/-- What the write monitor samples in the header words and codeword parts of one sector (R378): the conditioned samples of the space
periods emitted at BIAS, and the last periods of the mark runs. -/
structure MonitorSample where
  spaces : List (BitVec 10)
  marks : List MonMark
  deriving DecidableEq, Repr

/-- Sums of the 768 codes of each level in one calibration slot (R595). -/
structure SlotSums where
  lo : Nat
  hi : Nat
  mid : Nat
  deriving DecidableEq, Repr

/-- One calibration slot (R594, R595): which buses held trimmed levels in every phase, and the sums of the three islands'
converters under calibration. -/
structure CalSlotIn where
  trimM : Bool
  trimH : Bool
  spin : SlotSums
  axis : SlotSums
  assay : SlotSums
  deriving DecidableEq, Repr

/-- What the port over one side of a disc reads at step 9 of a mount (R222, R226, R231, R648): the sectors of the pressed information
area of L0, the control slots, and the RSNs in the last recorded slots. -/
structure SideFound where
  pressed : List MediaSector
  ctrl : List CtrlRead
  rsns : List (BitVec 64)
  deriving DecidableEq, Repr

/-- What the controller finds on a disc after a mount: under H(2s), and under H(2s+1). -/
structure DiscFound where
  upper : SideFound
  lower : SideFound
  deriving DecidableEq, Repr

/-- The steps of a mount (R648). -/
inductive MountStep where
  /-- Steps 1 and 2: the move begins. -/
  | take
  /-- Step 3: the grip has closed and stalled `off` microsteps from the closed position of a disc (R647). -/
  | grip (off : Int)
  /-- Steps 4 and 5: the disc has been placed. -/
  | place
  /-- Step 9. -/
  | check (d : DiscFound)
  deriving DecidableEq, Repr

/-- The steps of an unmount (R650). -/
inductive UnmountStep where
  | take
  | grip (off : Int)
  | place
  deriving DecidableEq, Repr

/-- A sector that a dike walk read (R661, R662): side, sector and what the read gave. -/
structure WalkSector where
  side : Fin 2
  sec : Fin 16
  check : SectorCheck
  deriving DecidableEq, Repr

/-- One logical block: 4,096 data bytes and 0, 8 or 16 metadata bytes (R686). -/
structure Block where
  data : List Byte
  md : List Byte
  deriving DecidableEq, Repr

/-- One SGL descriptor, with its length in bytes (R701). -/
inductive SglDesc where
  | block (len : Nat)
  | bucket (len : Nat)
  | other
  deriving DecidableEq, Repr

/-- A submission entry as fetched: opcode, command identifier, NSID, the pointers to its data and metadata in host memory, and CDW10
to CDW15 (R679, R680, R701). -/
structure Sqe where
  opc : Byte
  cid : BitVec 16
  nsid : Word
  /-- PSDT: PRP, SGL with one metadata buffer, SGL with a metadata SGL. -/
  psdt : BitVec 2 := 0
  mptr : BitVec 64 := 0
  dptr : BitVec 128 := 0
  cdw3 : Word := 0
  cdw10 : Word := 0
  cdw11 : Word := 0
  cdw12 : Word := 0
  cdw13 : Word := 0
  cdw14 : Word := 0
  cdw15 : Word := 0
  deriving DecidableEq, Repr

/-- How a data transfer faulted (R702, R729). -/
inductive DmaFault where
  | abort | unsupported | poison | timeout
  deriving DecidableEq, Repr

/-- The end of one command's data transfer (R702 to R704). -/
structure DmaResult where
  fault : Option DmaFault := none
  /-- Blocks received from the host, or admin data. -/
  blocks : List Block := []
  /-- The segments of the data's SGL as fetched. -/
  sgl : List (List SglDesc) := []
  /-- The metadata's SGL as fetched. -/
  mdSgl : List SglDesc := []
  /-- Writing the completion entry faulted (R704). -/
  cqFault : Bool := false
  /-- The transfer ran through host DMA engine B (R769). -/
  engineB : Bool := false
  deriving DecidableEq, Repr

/-- What the loader finds in one image slot of the boot flash (R111). -/
structure ImageSlot where
  seq : Nat
  /-- Header present, CRC-64 right and signature right. -/
  ok : Bool
  /-- Version string of the image (R682). -/
  version : Nat := 0
  deriving DecidableEq, Repr

/-- What the hardware steps of start-up measure (R106, R107, R109, R111). -/
structure BootIn where
  /-- REXT voltage in mV. -/
  rextMv : Nat
  pllOk : Bool
  hbmOk : Bool
  /-- An uncorrectable word was found in the retained region (R105). -/
  retainBad : Bool
  /-- The cipher known-answer test passed (R729). -/
  xtsOk : Bool
  /-- Levels that hold from the arming of the detectors for the time of R70: VDD_CORE and VDD_AON below their thresholds, PWR_GOOD
  low. -/
  coreLow : Bool := false
  aonLow : Bool := false
  pgLow : Bool := false
  /-- Ticks from step 2 to the beginning of frame 0 in step 4 (R38, R106). -/
  frame0 : Nat := 250000
  deriving DecidableEq, Repr

/-- Header of a Daxlink frame that has passed its check (R814): its number and the numbers it acknowledges. -/
structure DaxHead where
  seq : Nat
  ackCtl : Nat
  ackMir : Nat
  deriving DecidableEq, Repr

/-- A batch as MIRROR_DATA frames and flush records carry it (R759, R815): descriptor, and blocks as staged. -/
structure BatchCopy where
  seq : Nat
  kind : Nat
  nsid : Nat
  zone : Nat
  ofs : Nat
  nlb : Nat
  keyTag : Nat
  data : List Block
  deriving DecidableEq, Repr

/-- What a HELLO carries (R815). -/
structure Hello where
  serial : BitVec 64
  role1 : Bool
  version : BitVec 16
  geometry : List (List Int)
  /-- The partner's lowest charged BATCH_SEQ. -/
  lowest : Nat
  deriving DecidableEq, Repr

/-- What a HEARTBEAT carries (R817, R828): its number, the pair state, the lease as last read, the status flags, the number of
the last HEARTBEAT received, and the groups that the partner owns and that it holds in Change, bit 0 group 3, bit 1 group 4. -/
structure Heartbeat where
  num : Nat
  state : Fin 8
  lease : BitVec 64
  flags : BitVec 16
  echo : Nat
  own : Fin 4
  change : Fin 4
  deriving DecidableEq, Repr

/-- Why the Daxlink is lost (R817). -/
inductive LossCause where
  | heartbeat | echo | lane | mirror
  deriving DecidableEq, Repr

/-- A completion as FWD_CPL carries it (R830), with the data of a read. -/
structure FwdCpl where
  sct : Nat
  sc : Nat
  crd : Nat
  dnr : Bool
  dw0 : Nat
  dw1 : Nat
  data : List Byte
  deriving DecidableEq, Repr

/-- What a record-store package answers to an ONFI reset: spare blocks and rated endurance (R115, R852). -/
structure PkgInfo where
  spare : Nat
  rated : Nat
  deriving DecidableEq, Repr

/-- Erase counts of a package after a move: least, most, mean (R851). -/
structure EraseCounts where
  least : Nat
  most : Nat
  mean : Nat
  deriving DecidableEq, Repr

/-- How a flush went: its duration in ms; and, where power failed before its end marker, how many batches were programmed. -/
structure FlushEnd where
  ms : BitVec 16
  cut : Option Nat
  deriving DecidableEq, Repr

/-- What the mount finds in a package that answers its ONFI reset (R115, R849): a valid superblock, contents that differ from the
chosen records, reads that needed retry levels, reads served from the other package. -/
structure PkgFound where
  info : PkgInfo
  superblock : Bool
  differs : Bool
  retry : Bool
  uncorr : Bool
  deriving DecidableEq, Repr

/-- A transfer on the witness bus as it ended (R824, R826). -/
inductive WitAnswer where
  /-- LEASE as read. -/
  | lease (v : BitVec 64)
  /-- Result and LEASE of a CAS. -/
  | cas (result : Byte) (v : BitVec 64)
  /-- The partner's status word. -/
  | status (v : BitVec 128)
  /-- An answer that is malformed. -/
  | bad
  deriving DecidableEq, Repr

/-- A message on the management bus for the register access handler (R177): MCTP message type, PCI vendor ID, whether it carries
its integrity check, and the body. -/
structure McMsg where
  typ : BitVec 7
  vendor : BitVec 16
  check : Bool
  body : List Byte
  deriving DecidableEq, Repr

/-- Width of a register access (R140). -/
inductive AccSize where
  | b1 | b2 | b4 | b8
  deriving DecidableEq, Repr

/-- What the outside answers to the actions a register write starts: the OPU to TRAIN (R266), the package to REPLACE (R852), and
the level of PEER_FENCE_N at UNFENCE (R838). -/
structure WriteEnv where
  opu : OpuAnswer
  found : Option PkgInfo
  high : Bool
  deriving DecidableEq, Repr

end Sys2Proof
end

