-- ==== Sys2Proof/Machine/StateHost.lean ====
section
/-!
DEFINITION. State of the NVMe controllers, command slots, namespaces and zones (chapter 15).
-/
namespace Sys2Proof.Machine

/-- A completion entry as posted, with the data that the command transferred to the host. -/
structure Cpl where
  ctrl : Nat
  sq : Nat
  cid : Nat
  dw0 : Nat := 0
  dw1 : Nat := 0
  sct : Nat := 0
  sc : Nat := 0
  crd : Nat := 0
  dnr : Bool := false
  data : List Byte := []
  /-- Metadata transferred to a separate buffer (R686, R701). -/
  md : List Byte := []
  deriving DecidableEq, Repr

/-- A submission queue; number 0 is the admin queue (R678). -/
structure SQueue where
  id : Nat
  size : Nat
  cq : Nat
  prio : Nat := 0
  tail : Nat := 0
  head : Nat := 0
  deriving DecidableEq, Repr

/-- A completion queue; entries not yet released by the host, oldest first (R678). -/
structure CQueue where
  id : Nat
  size : Nat
  ien : Bool := true
  vector : Nat := 0
  tail : Nat := 0
  head : Nat := 0
  entries : List Cpl := []
  deriving DecidableEq, Repr

/-- One NVMe controller (R676 to R681, R719 to R722). -/
structure CtrlSt where
  /-- The controller is online. -/
  online : Bool := false
  /-- CC.EN. -/
  en : Bool := false
  /-- CSTS.RDY. -/
  rdy : Bool := false
  /-- CSTS.CFS. -/
  cfs : Bool := false
  /-- CSTS.PP and CSTS.SHST. -/
  pp : Bool := false
  shst : Nat := 0
  /-- CC.AMS. -/
  ams : Nat := 0
  /-- Submission queues. -/
  sqs : List SQueue := []
  /-- Completion queues. -/
  cqs : List CQueue := []
  /-- Flexible queue pairs and vectors assigned to it (R677); of the primary from its next reset on. -/
  vq : Nat := 0
  vi : Nat := 0
  vqNext : Option Nat := none
  viNext : Option Nat := none
  /-- Feature values by identifier, and by identifier × 65,536 + selector where a feature has several. -/
  feats : List (Nat × Nat) := []
  /-- Event kinds not posted again until their log is read: 1 SMART, 2 vendor, 3 ANA, 4 namespace (R856). -/
  masked : List Nat := []
  /-- Events that wait for an Asynchronous Event Request: type, information, log. -/
  events : List (Nat × Nat × Nat) := []
  /-- Start of the keep-alive period (R722). -/
  kaAt : Option Nat := none
  /-- Namespaces of the Changed Namespace List. -/
  changedNs : List Nat := []
  /-- Changed zones: NSID and start LBA (R692). -/
  changedZones : List (Nat × Nat) := []
  /-- The queue that the arbitration serves next, and the weights left (R698). -/
  next : Nat := 0
  credits : List Nat := []
  /-- Properties of the register window as last written, by byte offset (R136). -/
  props : List (Nat × Nat) := []
  /-- Error log entries, newest first (R682), and how many there have been. -/
  errors : List Cpl := []
  errCount : Nat := 0
  deriving DecidableEq, Repr

/-- What a command in flight waits for (R697 to R700). -/
inductive CmdPhase where
  /-- It has been fetched and has not started. -/
  | fetched
  /-- Admission by the sluice, or space in the write-through region. -/
  | admission
  /-- A mount, or data from the media. -/
  | mount
  | media
  /-- Its data transfer. -/
  | dma
  /-- Verification of its rows (write-through), or the partner's acknowledgement. -/
  | verify
  | mirror
  /-- Execution by firmware that takes time (format, sanitize, migration, self-test, activation). -/
  | firmware
  /-- An Asynchronous Event Request. -/
  | event
  /-- Forwarded to the partner (R830). -/
  | forwarded
  deriving DecidableEq, Repr

/-- A command in flight. -/
structure Cmd where
  /-- Controller, queue and the 64-byte entry of the command. -/
  ctrl : Nat
  sq : Nat
  sqe : Sqe
  /-- Fetch order. -/
  seq : Nat
  /-- Where the command stands. -/
  phase : CmdPhase := .fetched
  /-- Moment the phase began. -/
  since : Nat
  /-- Its batch, by id. -/
  batch : Option Nat := none
  /-- Its execution has begun (R47, R719). -/
  begun : Bool := false
  /-- Its controller was reset: no completion is posted (R719). -/
  silent : Bool := false
  /-- What a read found when its data path started: binding, write pointer, blocks (R696, R726). -/
  from' : Option (Nat × Nat) := none
  upTo : Nat := 0
  /-- Blocks found so far, by place in the command: deciphered, and whether they were ever written. -/
  got : List (Nat × Block × Bool) := []
  /-- It came from the partner or over NVMe-MI (R176, R830): 0 no, 1 partner, 2 NVMe-MI. -/
  origin : Nat := 0
  deriving DecidableEq, Repr

/-- Zone states (R692). -/
inductive ZState where
  | empty | iOpen | eOpen | closed | full | offline
  deriving DecidableEq, Repr

/-- A zone of a standard namespace; an absent zone is Empty (R689 to R692, R870). -/
structure ZoneSt where
  /-- Zone state. -/
  st : ZState
  /-- Write pointer and end of the host data, as offsets in the zone. -/
  wp : Nat := 0
  dataEnd : Nat := 0
  /-- Write pointer as recorded in the record store. -/
  wpRec : Nat := 0
  /-- POLDER_ID and polder zone. -/
  bind : Option (Nat × Nat) := none
  /-- Order of the last write, for the implicit close. -/
  touched : Nat := 0
  /-- First row of the zone that has not been assembled in full (R635). -/
  rowNext : Nat := 0
  /-- Moment the last data was staged, and the data end at which a partial row was last recorded (R756). -/
  lastAt : Nat := 0
  padAt : Nat := 0
  /-- A migration runs: the new POLDER_ID and polder zone (R724). -/
  moving : Option (Nat × Nat) := none
  deriving DecidableEq, Repr

/-- A namespace (R685 to R688, R707, R717). -/
structure NsSt where
  /-- NSID. -/
  nsid : Nat
  /-- A standard namespace, not a maintenance one. -/
  std : Bool
  /-- Size in blocks. -/
  size : Nat
  /-- LBA format. -/
  lbaf : Nat := 0
  /-- Metadata is transferred in extended LBAs, not in a separate buffer (R686). -/
  extLba : Bool := false
  /-- End-to-end protection settings as created. -/
  dps : Nat := 0
  /-- Key tag. -/
  keyTag : Nat := 1
  /-- The namespace key, a value drawn from the random generator (R707). -/
  key : Nat := 0
  /-- ANA group. -/
  ana : Nat := 2
  /-- Attached controllers, one bit each. -/
  attached : Nat := 0
  /-- Zones that are not Empty, by number. -/
  zones : List (Nat × ZoneSt) := []
  /-- A format or an erase is in progress: percentage remaining (R713, R715). -/
  fpi : Option Nat := none
  /-- The erase was interrupted by a power loss: commands meet Namespace Not Ready (R715). -/
  notReady : Bool := false
  deriving DecidableEq, Repr

/-- A firmware image being downloaded: pieces received so far in units of 4 KiB (R716). -/
structure FwDownload where
  pieces : List Nat := []
  deriving DecidableEq, Repr

/-- A firmware activation (R863, R864). -/
structure Activation where
  slot : Nat
  /-- The command's slot, and the warm restart. -/
  cmd : Option Nat
  at' : Nat
  old : ImageSlot
  deriving DecidableEq, Repr

/-- The host side: controllers, slots and namespaces. -/
structure HostSt where
  /-- At reset all flexible resources are the primary's (R677). -/
  ctrls : Vector CtrlSt 16 := (Vector.replicate 16 {}).set 0 { online := true, vq := 480, vi := 480 }
  /-- PCIe link in L0 (R731, R871). -/
  linkUp : Bool := false
  /-- Command slots in use, by number. -/
  slots : List (Nat × Cmd) := []
  /-- Order number of the next fetch. -/
  fetchSeq : Nat := 0
  /-- Controller that the round robin serves next (R698). -/
  nextCtrl : Nat := 0
  /-- Completions that wait for a free entry of their completion queue. -/
  cplWait : List Cpl := []
  /-- Namespaces. -/
  nss : List NsSt := []
  /-- Order number of the next zone write. -/
  touchSeq : Nat := 0
  /-- Pieces of a firmware image downloaded so far. -/
  download : FwDownload := {}
  /-- A firmware activation in progress. -/
  activation : Option Activation := none
  /-- The last activation, for the 10 minutes of R863. -/
  lastActivation : Option Nat := none
  /-- A kept image runs again after the next warm restart (R864). -/
  revert : Bool := false
  /-- Device self-test: code, start and results, newest first (R679). -/
  selfTest : Option (Nat × Nat) := none
  selfTests : List (Nat × Nat) := []
  /-- Power state (R684). -/
  ps : Nat := 0
  /-- Sanitize command accepted and waiting for commands in flight (R713). -/
  sanWait : Bool := false
  /-- NVMe-MI responses passed to the host or the management bus. -/
  miOut : List (List Byte) := []
  deriving DecidableEq, Repr

end Sys2Proof.Machine
end

