-- ==== Sys2Proof/Machine/StateHead.lean ====
section
/-!
DEFINITION. State of the OPU ports and of the beams that no register shows (chapters 06, 07, 08 and 10).
-/
namespace Sys2Proof.Machine

/-- The check of a regenerated sector for the polder island: polder, row, sector position, and whether the check value differs (R632,
R770). -/
structure ReconCheck where
  polder : Nat
  q : Nat
  sec : Nat
  bad : Bool
  deriving DecidableEq, Repr

/-- An item a beam delivered over X8 (R330). -/
structure ReadItem where
  port : Nat
  beam : Nat
  side : Nat
  layer : Nat
  spiral : Nat
  slot : Nat
  sec : Nat
  status : Nat
  seed : Nat
  sync : Nat
  iters : Nat
  changed : Nat
  payload : List Byte
  verify : Bool
  /-- Checks of regenerated sectors that return with the item (R770). -/
  checks : List ReconCheck := []
  deriving DecidableEq, Repr

/-- A sector that has passed the spot and waits for its decode; `ended` is a status that the sector already has. -/
structure Passed where
  slot : Nat
  sec : Nat
  turn : Nat
  layer : Nat
  ended : Option Nat
  /-- Place in the beam's data bits of the nominal start of its primary sync mark (R217). -/
  start : Int := 0
  /-- Probe of the margin scan over the sector: sum and number of squares, in 1/256 LSB² (R334). -/
  probeSum : Nat := 0
  probeN : Nat := 0
  deriving DecidableEq, Repr

/-- A sector in a beam's write buffers (R361, R362). -/
structure WriteSector where
  sec : Nat
  payload : List Byte
  /-- Header word and scrambled codeword once encoded (R363). -/
  coded : Option (Nat × List Bool) := none
  deriving DecidableEq, Repr

/-- A recorded ingot that waits for verify (R385, R390). -/
structure Recorded where
  ingot : IngotRef
  layer : Nat
  spiral : Nat
  slot : Nat
  rsn : Nat
  beam : Nat
  /-- Every sector's monitor error count was within MON_LIMIT. -/
  monOk : Bool
  /-- It waits for a second-pass readback. -/
  second : Bool
  deriving DecidableEq, Repr

/-- A slot that was consumed, with its Slot Map reason (R219, R391). -/
structure Consumed where
  port : Nat
  layer : Nat
  spiral : Nat
  slot : Nat
  reason : Nat
  deriving DecidableEq, Repr

/-- A run in progress (R355, R359, R360). -/
structure Run where
  item : WorkItem
  /-- Ingots still to record, the current one first. -/
  queue : List IngotRef
  /-- Slot of the current ingot. -/
  slot : Nat
  rsn : Nat
  /-- RSN of the next ingot, once a payload of it has been asked for. -/
  rsnNext : Option Nat := none
  /-- The run stops after the current ingot (STOP, R402). -/
  stop : Bool := false
  /-- The next ingot was armed at the start of sector 17 (R360). -/
  goOn : Bool := false
  monOk : Bool := true
  /-- RPC_LIMIT has been sent in this run (R379). -/
  rpcSent : Bool := false
  deriving DecidableEq, Repr

/-- An entry of the neighbour exchange (R29, R309, R314): an equalised sample, or a marker. -/
inductive XEntry where
  | sample (w : Int)
  | absent
  | idle
  | write
  deriving DecidableEq, Repr

/-- What adaptation has moved below the last place of its registers (R302, R306, R313): 2^-17 of O_A, 2^-15 of G_A, and 2^-27 of each tap
(log 188). -/
structure AdaptRest where
  ofs : Int := 0
  gain : Int := 0
  eq : List Int := []
  xtL : List Int := []
  xtR : List Int := []
  deriving DecidableEq, Repr

/-- One beam (chapters 07 and 08). -/
structure BeamSt where
  /-- Checks of regenerated sectors that wait for the beam's next item (R770). -/
  checks : List ReconCheck := []
  /-- Conditioned samples of the last 2,048 indices, newest first (R301, R305, R306). -/
  ys : List Int := []
  /-- The beam's slot of the neighbour exchange, newest first, at most 2,048 entries (R28, R309). -/
  exch : List XEntry := []
  /-- Canceller output of the last link frame, in the order of the indices, and the sample index of its first (R26, R313). -/
  vs : List Int := []
  vIx : Nat := 0
  /-- The last index of the inner and of the outer side was absent, and indices for which that side's taps are frozen (R314). -/
  absent : Bool × Bool := (false, false)
  frozen : Nat × Nat := (0, 0)
  /-- Of the last 2,048 indices of the canceller those whose inner, and whose outer, taps were frozen (R314). -/
  frozenL : List Nat := []
  frozenR : List Nat := []
  /-- Canceller samples that the interpolator has yet to use, oldest first; μ_k from the first of them and F_k, in 2^-30 sample
  (R315). -/
  vq : List Int := []
  mu : Nat := 1073741824
  freq : Int := 0
  /-- The oscillator's period in 2^-24 H, and what steers it: 0 nothing, 1 timing recovery, 2 the write reference (R17). -/
  osc : Nat := 31457280
  oscBy : Nat := 0
  /-- Period c of the segment counter, and periods of acquisition left (R316, R318). -/
  per : Nat := 0
  acqLeft : Nat := 0
  /-- Early decisions: z of the last 17 periods and probe samples, newest first; path metrics and survivors by state (R306, R315). -/
  zs : List Int := []
  pzs : List Int := []
  paths : List Int := []
  surv : List (List Bool) := []
  /-- Sample index and fraction of these periods, in 2^-30 sample (R306). -/
  zpos : List (Nat × Nat) := []
  /-- A sync mark of the sector under the spot has been found (R302, R323). -/
  found : Bool := false
  /-- ε of the indices that later periods may still add to, in 2^-24 LSB, and of those complete that have yet to move the taps
  (R306). -/
  eps : List (Nat × Int) := []
  due : List (Nat × Int) := []
  /-- Sum and number of the errors of the block of 256 bits that runs (in 1/16 LSB), the blocks complete in this link frame, and the
  sum of e × ẑ in 1/256 LSB² (R302). -/
  block : Int × Nat := (0, 0)
  blocks : Int := 0
  gains : Int := 0
  /-- What lies below the registers' last places. -/
  rest : AdaptRest := {}
  /-- z of the data periods, newest first, at most four sectors; and their number (R317). -/
  zd : List Int := []
  zn : Nat := 0
  /-- |Δφ_k| of the last 1,024 data bits in 2^-30 sample (R319), and e_k² of the last 65,536 in 1/256 LSB² (R333). -/
  dphi : List Nat := []
  sq : List Nat := []
  /-- Probe of the margin scan in this sector: sum and number of squares (R334). -/
  probeSum : Nat := 0
  probeN : Nat := 0
  /-- Place in the data bits at which the slot being read starts (R196). -/
  slotStart : Int := 0
  /-- Data-order turn and field of the counters (R304, R318). -/
  turn : Nat := 0
  field : Nat := 0
  /-- Successive fields without a mark, and successive identity words that disagree in SPIRAL (R294, R318). -/
  marksMissed : Nat := 0
  spiralBad : Nat := 0
  /-- A discontinuity: ZONE_SEED is used until a header is valid (R304). -/
  seeded : Bool := false
  /-- Pending layer and zone, which apply at the next sector boundary (R304). -/
  newLayer : Option Nat := none
  newZone : Option Nat := none
  /-- The slot being read, its state (0 none, 1 recorded, 2 blank, 3 burned, 4 abandoned) and its sector. -/
  slot : Nat := 0
  slotKind : Nat := 0
  sector : Nat := 0
  /-- The slot has yet to be classified; least and greatest v of its preamble (R325). -/
  unclassed : Bool := false
  swing : Option (Int × Int) := none
  /-- Sector at whose primary sync position a linking mark has been read (R324). -/
  linkAt : Option Nat := none
  /-- A status that ends the current sector (R331). -/
  ended : Option Nat := none
  passed : List Passed := []
  /-- Payloads of the ingot's decoded sectors and the statuses of all, for the outer code (R328, R329). -/
  goods : List (Nat × List Byte) := []
  stats : List (Nat × Nat) := []
  outerSent : Bool := false
  /-- Slot and layer of these payloads. -/
  outSlot : Nat := 0
  outLayer : Nat := 0
  /-- Adaptation has been on and no zone, layer or commit has changed since the slot began; the same at its end; layer and
  zone of an ingot whose 16 data sectors were all GOOD under it (R604). -/
  steady : Bool := false
  steadyEnd : Bool := false
  /-- Layer and zone of an ingot that qualifies for capture. -/
  capReady : Option (Nat × Nat) := none
  /-- c_8 − c_6 as last committed (R307). -/
  slope : Int := 0
  /-- Block of 1,024 sectors (R335): delivered, failed, bits, errors. -/
  blkN : Nat := 0
  blkFail : Nat := 0
  blkBits : Nat := 0
  blkErrs : Nat := 0
  /-- Iterations of the last 256 converged sectors (R333). -/
  iters : List Nat := []
  /-- Margin scan: results so far, in the order of the steps (R334). -/
  scan : List Bool := []
  /-- Clock-pit grid (R373): successive good fields, successive missing fields. -/
  gridGood : Nat := 0
  /-- τ_f of the latest measured field, in 2^-24 H since the alignment (R371). -/
  tau : Option Nat := none
  gridMiss : Nat := 0
  /-- Work items that wait, and the run in progress (R355). -/
  items : List WorkItem := []
  run : Option Run := none
  /-- Write buffers and the next sector to load (R362). -/
  bufs : List WriteSector := []
  loadSec : Nat := 0
  /-- Outer parity accumulators of sectors 16 and 17 (R215, R361). -/
  par16 : List Byte := []
  par17 : List Byte := []
  /-- Write symbols not yet sent over X5, and the head island's FIFO (R31, R374). -/
  stream : List Nat := []
  /-- The run of equal channel bits not yet mapped, the space run before it, and the COOL symbol owed to the first space
  period (R368). -/
  lastRun : Option (Bool × Nat) := none
  lastSpace : Nat := 4
  cool : Option Nat := none
  fifo : List Nat := []
  /-- Linking mark symbols in the link buffer (R393). -/
  link : List Nat := []
  /-- Time of the next symbol after the coming release, in 2^-24 H (R374). -/
  symTime : Nat := 0
  /-- Early ends and verify failures in succession of one ingot (R396). -/
  fails : Nat := 0
  failIngot : Option IngotRef := none
  /-- The beam takes no work items (R396). -/
  refused : Bool := false
  /-- Work items returned unexecuted, with their causes (R356, R359). -/
  returned : List (WorkItem × Nat) := []
  /-- BANK that waits for the next ingot boundary (R398). -/
  bank : Nat := 0
  deriving DecidableEq, Repr

/-- One OPU port (chapters 06 and 08). -/
structure HeadSt where
  /-- Values in force since the last alignment (R246, R279, R284). -/
  rate : Nat := 0
  ulDelay : Nat := 240
  dlRelease : Nat := 300
  /-- Servo frame in which link frame 0 began (R266). -/
  alignFrame : Nat := 0
  /-- The next uplink and downlink frame numbers. -/
  ulNext : Nat := 0
  dlNext : Nat := 0
  /-- Training waits for DEVCLK (R266); its t0; it is the third automatic attempt in succession (R268). -/
  trainWait : Bool := false
  trainT0 : Nat := 0
  trainLast : Bool := false
  /-- Timebase since which DEVCLK has run. -/
  clkSince : Option Nat := none
  /-- Failed automatic attempts in succession, and when LOST was entered (R268). -/
  tries : Nat := 0
  lostAt : Nat := 0
  /-- OPU_ID of the OPU trained. -/
  opuId : Word := 0
  /-- Its capabilities. -/
  caps : Word := 0
  /-- Its transmit latency. -/
  txLat : Nat := 0
  /-- OPU_FAULT as last received. -/
  opuFault : Bool := false
  /-- Samples of the frame last deframed, by beam (R248), and the 32-bit index of the newest of them (R26, R245). -/
  rf : List (List Byte) := []
  sampleIx : Nat := 0
  /-- Housekeeping: a request to place into the next downlink frame, its tag, and when the last one was sent and when GO was taken (R264). -/
  hkSend : Bool := false
  hkTag : Nat := 0
  hkSent : Option Nat := none
  hkAt : Nat := 0
  /-- OPU die temperature of the last STATUS read, °C (R265, R603). -/
  opuTemp : Option Int := none
  /-- The actuator group of the last frame with GVALID 1 (R259), and the group closed at the last cut-off (R30). -/
  lastGroup : List Int := List.replicate 20 0
  /-- Beams whose power fields a clamp changed in that group (R483, R487), one bit each. -/
  groupHit : Nat := 0
  nextGroup : List Int := List.replicate 20 0
  /-- Normal groups wait for the next servo frame after a quench (R259). -/
  held : Bool := false
  /-- The group for the carrying frame of this servo frame is complete (R257). -/
  groupReady : Bool := false
  /-- The octets of the last downlink frame. -/
  lastFrame : List Byte := []
  /-- Write reference T̂ in 2^-24 H (R372). -/
  tHat : Nat := 31457280
  /-- Recorded ingots that wait for verify (R390). -/
  recorded : List Recorded := []
  /-- Outcomes of the last 256 readback-verified ingots: monitor escapes (R387). -/
  escapes : List Bool := []
  /-- Slots recorded since the last verify pass, by spiral, and whether a second-pass read is in progress (R388). -/
  passLen : List (Nat × Nat) := []
  verifying : Bool := false
  /-- Side of the mounted disc under this port (R183). -/
  side : Nat := 0
  /-- Next recording sequence number of the surface (R222). -/
  nextRsn : Nat := 1
  /-- Corrections of the power tests by (beam, area) in 1/1,000 (R377, R381). -/
  corr : List (Nat × Nat × Nat) := []
  /-- Start powers of the layer by zone: peak and bias (R225). -/
  startPow : List (Nat × Nat) := []
  /-- A layer has been opened for recording. -/
  layerOpen : Option Nat := none
  /-- A trail-out is owed: ingots recorded under trailing verify await their readback (R389). -/
  trailOut : Bool := false
  /-- Highest slot whose recording has begun, by layer × 4 + spiral (R220). -/
  topSlot : List (Nat × Nat) := []
  /-- When PRESENT_N last rose, and when it last fell. -/
  riseAt : Option Nat := none
  fallAt : Option Nat := none
  /-- INSERT_MS and REMOVE_MS as last written, held in the always-on island (R869). -/
  insertMs : Nat := 200
  removeMs : Nat := 2
  deriving DecidableEq, Repr

end Sys2Proof.Machine
end

