-- ==== Sys2Proof/Machine/StateLib.lean ====
section
/-!
DEFINITION. State of the polder island and of the inventory engine (chapter 14).
-/
namespace Sys2Proof.Machine

/-- A run of a zone's rows (R635). -/
structure RowRun where
  q : Nat
  r : Nat
  n : Nat
  deriving DecidableEq, Repr

/-- A row that is assembled and being recorded (R635, R653). -/
structure RowSt where
  q : Nat
  /-- Polder zone and row; 0xFFFF a directory row, 0xFFFE a repair row. -/
  zone : Nat
  r : Nat
  /-- Members that have verified their ingot, one bit each. -/
  got : Nat := 0
  /-- Members that recorded the row without it (deferred, R653), one bit each. -/
  skipped : Nat := 0
  /-- First offset in the row that holds PAD, 192 for none. -/
  pad : Nat := 192
  deriving DecidableEq, Repr

/-- One segment of a position (R628): library slot and first row. -/
structure Seg where
  disc : Nat
  first : Nat
  deriving DecidableEq, Repr

/-- A completion target (R654, R655): member, next row, library slot of the disc it records on. -/
structure Target where
  member : Nat
  next : Nat
  disc : Nat
  deriving DecidableEq, Repr

/-- States of a polder (R629). -/
inductive PState where
  | opened | closed | degraded | completing | retired
  deriving DecidableEq, Repr

/-- A polder (R625 to R640). -/
structure Polder where
  /-- POLDER_ID. -/
  id : Nat
  /-- The namespace whose zones it records. -/
  nsid : Nat
  /-- Its state. -/
  st : PState := .opened
  /-- It still records new rows (a DEGRADED polder may be OPEN or CLOSED beneath). -/
  recording : Bool := true
  /-- Next row sequence number q. -/
  nextQ : Nat := 0
  /-- Segments by position, oldest first. -/
  segs : List (List Seg) := List.replicate 8 []
  /-- Run tables by polder zone. -/
  runs : List (Nat × List RowRun) := []
  /-- Bound polder zones: (polder zone, namespace zone); the next free polder zone; zones released (R693). -/
  zones : List (Nat × Nat) := []
  nextZone : Nat := 0
  /-- Zones released by resets. -/
  released : Nat := 0
  /-- Lagging members: member and first row not recorded, and since when (R652, R657). -/
  lag : List (Nat × Nat) := []
  lagSince : Option Nat := none
  /-- Targets of a completion. -/
  targets : List Target := []
  /-- Rows assembled and being recorded. -/
  rows : List RowSt := []
  /-- The zone whose rows are being recorded and how many in succession (R636). -/
  curZone : Nat := 0
  curCount : Nat := 0
  /-- Directory rows: first row and count; whether they are in buffer memory (R637, R638). -/
  dir : Option (Nat × Nat) := none
  dirLoaded : Bool := true
  /-- Repair map: row, member, repair polder, repair row and the member that holds the copy there; repair rows it holds for
  others (R663, R664). -/
  repairs : List (Nat × Nat × Nat × Nat × Nat) := []
  /-- Repair rows of the polder. -/
  repairRows : Nat := 0
  /-- Sectors that have been declared unrecoverable: q and member × 16 + sector (R642, R656). -/
  dead : List (Nat × Nat) := []
  /-- Completion starts at once (R657). -/
  compNow : Bool := false
  /-- The polder belongs to a shared namespace of group 3 or 4. -/
  shared : Bool := false
  deriving DecidableEq, Repr

/-- One inventory record (R644). -/
structure InvRec where
  state : Nat := 0
  spindle : Nat := 0xFF
  media : Nat := 0
  position : Nat := 0xFF
  discId : Nat := 0
  polder : Nat := 0
  firstRow : Nat := 0
  lastRow : Nat := 0xFFFFFFFF
  maker : Nat := 0
  batch : Nat := 0
  mounts : Nat := 0
  tRecorded : Nat := 0
  tMounted : Nat := 0
  tWalked : Nat := 0
  walkNext : Nat := 0xFFFFFFFF
  weak : Nat := 0
  repaired : Nat := 0
  marginA : Nat := 0
  marginB : Nat := 0
  pderMax : Nat := 0
  /-- Walk entries, newest first: end time, rows, weak, repaired. -/
  history : List (Nat × Nat × Nat × Nat) := []
  /-- Per side × 8 + layer: weak ingots in the last walk. -/
  weakLayer : List Nat := List.replicate 16 0
  /-- Of the walk in progress: rows read, weak ingots, lowest margins and highest error rate, weak by side × 8 + layer. -/
  nowRows : Nat := 0
  nowWeak : Nat := 0
  nowMarginA : Nat := 65535
  nowMarginB : Nat := 65535
  nowPder : Nat := 0
  nowLayer : List Nat := List.replicate 16 0
  /-- Reserved for a polder that is being created (R690). -/
  reserved : Bool := false
  deriving DecidableEq, Repr

/-- A request for a spindle or a picker move (R651). -/
structure SpinReq where
  cls : Nat
  /-- 0 mount, 1 unmount. -/
  kind : Nat
  /-- The spindle granted, 8 for none. -/
  spin : Nat
  disc : Nat
  at' : Nat
  /-- It came from the partner (R829), with the partner's number. -/
  peer : Option Nat := none
  deriving DecidableEq, Repr

/-- A picker move in progress (R646): the disc's slot, the place it goes to (slot, or 2^20 + station), its kind as PICK_LAST
gives it, and the station it serves, 8 and above for the partner's. -/
structure PickMove where
  disc : Nat
  dest : Nat
  kind : Nat
  station : Nat
  holding : Bool := false
  deriving DecidableEq, Repr

/-- A burn of a region on all four spirals (R235, R400): INTENT_ID and sanitize operation, disc, side, layer, first and last slot. -/
structure BurnSt where
  id : Nat := 0
  op : Nat := 0
  disc : Nat
  side : Nat
  layer : Nat
  first : Nat
  last : Nat
  /-- 0 the intent stands in the record store alone, 1 in the control zones too where they have room, 2 burned once. -/
  step : Nat := 1
  /-- Slots that were not read back as burned: spiral and slot. -/
  bad : List (Nat × Nat) := []
  sanitize : Bool := false
  deriving DecidableEq, Repr

/-- A consumed slot with its Slot Map reason (R230). -/
structure MapEntry where
  layer : Nat
  spiral : Nat
  slot : Nat
  reason : Nat
  deriving DecidableEq, Repr

/-- A control slot that has been recorded (R227 to R229): its place, what record and part it holds, the RSN of its ingot, and the
record's bytes in it, none for an incomplete slot. -/
structure CtrlSlot where
  layer : Nat
  leading : Bool
  ix : Nat
  typ : Nat
  csn : Nat
  part : Nat
  parts : Nat
  rsn : Nat
  user : Option (List Byte)
  deriving DecidableEq, Repr

/-- A control record (R229, R230): type, CSN, layer of its zones, and payload. -/
structure CtrlRec where
  typ : Nat
  csn : Nat
  layer : Nat
  body : List Byte
  deriving DecidableEq, Repr

/-- An open surface's recording state beyond what the head holds, by library slot × 2 + side (R221, R230 to R233). -/
structure Surface where
  /-- Last slot recorded, and ingots counted at the closure, per layer and spiral (layer × 4 + spiral). -/
  top : List (Nat × Nat) := []
  ingots : List (Nat × Nat) := []
  /-- Consumed slots in Slot Map records. -/
  consumed : List MapEntry := []
  /-- Consumed slots not yet in a Slot Map record. -/
  pending : List MapEntry := []
  /-- Control slots recorded, in the order of their recording (R227, R228). -/
  ctrl : List CtrlSlot := []
  /-- The last CSN (R229). -/
  csn : Nat := 0
  /-- Records of a finalisation that an interruption has left to append (R240). -/
  plan : List CtrlRec := []
  /-- POLDER_ID and MEMBER of its Surface Information record (R230). -/
  info : Option (Nat × Nat) := none
  /-- Test slots used in the leading and the trailing power test area, by layer × 2 + area (R380), and entries of the Power Test Log
  that wait for their record: layer and the 16 bytes (R383). -/
  tests : List (Nat × Nat) := []
  testLog : List (Nat × List Byte) := []
  /-- Layers closed. -/
  closed : List Nat := []
  /-- The surface is finalised. -/
  finalised : Option Nat := none
  /-- Burn regions completed: layer, first, last, result. -/
  burns : List (Nat × Nat × Nat × Nat) := []
  /-- Next recording sequence number (R222); the first is 1 (DESIGN CHOICE, log 174). -/
  nextRsn : Nat := 1
  deriving DecidableEq, Repr

/-- A sector of a stripe row in the stripe buffer, placed by address: its 4,112 bytes under the cross-surface code, none for
an erasure (R209, R631). -/
structure RowSector where
  polder : Nat
  q : Nat
  member : Nat
  sec : Nat
  data : Option (List Byte)
  /-- RSN of the ingot it was read from, and its layer, spiral and slot (R223). -/
  rsn : Nat := 0
  src : Option (Nat × Nat × Nat) := none
  deriving DecidableEq, Repr

/-- The library: polders, records, spindles and the picker. -/
structure LibSt where
  /-- The polders. -/
  polders : List Polder := []
  /-- POLDER_IDs in the active table, none for a free entry (R667). -/
  active : List (Option Nat) := List.replicate 16 none
  /-- Inventory records that differ from an empty one, by library slot. -/
  inv : List (Nat × InvRec) := []
  /-- Surfaces by disc x 2 + side. -/
  surfaces : List (Nat × Surface) := []
  /-- Library slot of the disc on each spindle, and the spindles whose disc has been found ready (R648). -/
  mounted : Vector (Option Nat) 8 := Vector.replicate 8 none
  /-- Spindles whose disc has been identified. -/
  ready : Nat := 0
  /-- Ports whose OPU is retired (R659), one bit each. -/
  retiredPorts : Nat := 0
  /-- Requests for mounts and unmounts, oldest first. -/
  reqs : List SpinReq := []
  /-- The picker's move in progress. -/
  move : Option PickMove := none
  /-- Burns of discs in progress, and the next INTENT_ID. -/
  burns : List BurnSt := []
  intentNext : Nat := 1
  /-- Spindle-time used by the walk: starts, lengths in ticks and spindles, of the last hour (R847). -/
  walkUse : List (Nat × Nat × Nat) := []
  /-- Ingots that wait for a repair row: polder, row, member (R663). -/
  toRepair : List (Nat × Nat × Nat) := []
  /-- Repair rows being recorded: host polder, row, and the ingots they hold in the order of their members. -/
  repairing : List (Nat × Nat × List (Nat × Nat × Nat)) := []
  /-- Weak sectors found in rows under walk: polder, row, member, sectors as bits. -/
  weakFound : List (Nat × Nat × Nat × Nat) := []
  /-- The read cache (R734): NSID, LBA and the decoded block as recorded, ciphertext with its 16 HOST_MD bytes. -/
  cache : List (Nat × Nat × Block) := []
  /-- The stripe buffer by address. -/
  sectors : List RowSector := []
  /-- Rows that the walk reads at once (R643): polder, row and the positions still to read, one bit each. -/
  walkNow : List (Nat × Nat × Nat) := []
  /-- Positions whose retry has run (R643): polder, row, sector position. -/
  retried : List (Nat × Nat × Nat) := []
  /-- Polders proposed for migration (R664). -/
  proposed : List Nat := []
  deriving DecidableEq, Repr

end Sys2Proof.Machine
end

