-- ==== Sys2Proof/Machine/StateStore.lean ====
section
/-!
DEFINITION. State of buffer memory, the buffer cache, the sluice and the record store (chapters 03, 16 and 20).
-/
namespace Sys2Proof.Machine

/-- One valid way of the buffer cache (R742 to R744): 8 sub-words of 137 stored bits. -/
structure CacheLine where
  tag : Nat
  dirty : Bool
  sub : List (BitVec 137)
  /-- Parity of the tag copies fails. -/
  badA : Bool := false
  badB : Bool := false
  /-- Order of the last use. -/
  used : Nat := 0
  deriving DecidableEq, Repr

/-- The memory island's stores that no register shows (R735, R739, R742, R745). -/
structure MemSt where
  /-- Stored words of 144 bits by word address; an unlisted word is a zero word with valid check bits. -/
  ram : List (Nat × BitVec 144) := []
  /-- Word the scrub reads next, and its corrected passes. -/
  scrubAt : Nat := 0
  /-- Moment the present pass of the scrub began (R739). -/
  scrubFrom : Nat := 0
  /-- Ways by set × 16 + way. -/
  lines : List (Nat × CacheLine) := []
  /-- Order number of the next use of a line. -/
  uses : Nat := 0
  /-- Victim entries, oldest first: line address (byte address / 128) and its sub-words. -/
  victims : List (Nat × List (BitVec 137)) := []
  /-- A zero-a-line that waits for the writeback of its line (R746). -/
  zeroWait : Option Nat := none
  /-- CACHE.FLIP is armed (R748). -/
  cacheFlip : Bool := false
  /-- The pad ring holds the stack in self-refresh (R103). -/
  selfRefresh : Bool := false
  deriving DecidableEq, Repr

/-- One batch (R753, R756, R759). -/
structure Batch where
  /-- Order of the requests. -/
  id : Nat
  /-- Admission order, BATCH_SEQ; none until admitted. -/
  seq : Option Nat := none
  /-- 1 Write, 2 Write Zeroes, 3 Zone Append, 0 calibration store. -/
  kind : Nat
  /-- Command slot while the command is in flight. -/
  slot : Option Nat
  /-- Namespace and zone it writes. -/
  nsid : Nat
  zone : Nat
  /-- Offset in the zone, once assigned. -/
  ofs : Nat
  /-- Blocks of the batch. -/
  nlb : Nat
  /-- Key tag of its blocks. -/
  keyTag : Nat
  /-- Its blocks. -/
  data : List Block := []
  /-- The data transfer has completed. -/
  staged : Bool := false
  /-- It is staged in write-through, without a charge. -/
  wt : Bool := false
  /-- Timebase of the request, for WT_DELAY_MS. -/
  since : Nat
  /-- Rows of the zone that hold one of its blocks and are not verified. -/
  rows : List Nat := []
  /-- The partner holds its copy; it was passed to the partner; it waits for RELEASE_ACK (R819, R822). -/
  mirrored : Bool := false
  sent : Bool := false
  releasing : Bool := false
  /-- Reinstated from a flush record, with its FLUSH_SEQ (R119). -/
  replay : Option Nat := none
  deriving DecidableEq, Repr

/-- A capacitance test in progress (R750): the codes before the load, newest first; the setting of HOLD_TEST and its length in
ms once it is high; and the codes from then on, newest first. -/
structure CapTest where
  before : List Nat := []
  t0 : Option Nat := none
  len : Nat := 10
  codes : List Nat := []
  deriving DecidableEq, Repr

/-- One stored copy of the calibration set (R612, R613). -/
structure CalCopy where
  seq : Nat
  hours : Nat
  cal : Sparse
  opuIds : List (Nat × Word)
  deriving DecidableEq, Repr

/-- A calibration store in progress (R614): its batch, whether it writes copy B, its start and the snapshot. -/
structure CalStore where
  batch : Nat
  copyB : Bool
  since : Nat
  snap : CalCopy
  /-- Its blocks have been erased, with the intents open (step 3). -/
  erased : Bool := false
  deriving DecidableEq, Repr

/-- The sluice (R749 to R758). -/
structure SluiceSt where
  /-- Batches waiting, admitted or staged in write-through, in the order of their requests. -/
  batches : List Batch := []
  /-- The model's number of the next batch. -/
  nextId : Nat := 0
  /-- Next BATCH_SEQ. -/
  nextSeq : Nat := 1
  /-- B_max and Budget in bytes. -/
  bMax : Nat := 0
  budget : Nat := 0
  /-- Next VHOLD sample. -/
  nextSample : Nat := 0
  /-- A test is due; moment at which the next falls due (R751). -/
  due : Bool := false
  /-- Moment at which the next test falls due. -/
  dueAt : Option Nat := none
  /-- The capacitance test in progress. -/
  test : Option CapTest := none
  /-- ENERGY_SHORT has been sent in this excursion. -/
  shortSent : Bool := false
  /-- Namespaces that entered write-through under R756. -/
  wt : List Nat := []
  /-- Since when Budget − A has stood at a quarter of STAGE_LIMIT or more (R757). -/
  roomSince : Option Nat := none
  /-- The calibration store in progress. -/
  calStore : Option CalStore := none
  deriving DecidableEq, Repr

/-- One record-store package (R115, R851, R852). -/
structure PkgSt where
  present : Bool := true
  /-- It holds a valid superblock. -/
  superblock : Bool := false
  /-- Its contents equal the chosen records. -/
  current : Bool := true
  /-- It is mounted and takes programs. -/
  mounted : Bool := false
  /-- PKG_CTL.HOLD is in force. -/
  held : Bool := false
  /-- It has been retired. -/
  retired : Bool := false
  /-- Spare blocks at first format and now. -/
  spareInit : Nat := 1000
  spare : Nat := 1000
  /-- SPARE_LOW has been sent. -/
  spareSent : Bool := false
  /-- Failed programs. -/
  programFails : Nat := 0
  /-- Erase counts of its blocks, and rated endurance. -/
  eraseMin : Nat := 0
  eraseMax : Nat := 0
  eraseMean : Nat := 0
  rated : Nat := 1
  deriving DecidableEq, Repr

/-- A flush record in the staging journal (R759). -/
structure FlushRec where
  seq : Nat
  half : Nat
  tb : Nat
  batches : List Batch
  /-- Its end marker checks; batches that its header counts and of which no descriptor is found (R760). -/
  complete : Bool := true
  missing : Nat := 0
  retired : Bool := false
  deriving DecidableEq, Repr

/-- Batches asked of the partner (R105, R121, R760, R823): the range of BATCH_SEQ, how many are still to come, the flush record they
belong to (none for retained staging), and the descriptor where one was found: NSID, zone, offset, blocks. -/
structure Wanted where
  lo : Nat
  hi : Nat
  left : Nat := 1
  flush : Option Nat := none
  desc : Option (Nat × Nat × Nat × Nat) := none
  deriving DecidableEq, Repr

/-- An erase intent without a completion record (R117): its package, and its blocks (0 of a wear-levelling move, 1 of a calibration copy,
or others). -/
structure NandIntent where
  pkg : Nat
  what : Nat
  deriving DecidableEq, Repr

/-- A sanitize in progress or its last result (R709 to R712). -/
structure SanState where
  /-- 0 never, 1 completed, 2 in progress, 3 failed. -/
  status : Nat := 0
  action : Nat := 0
  ause : Bool := false
  /-- The subsystem is in the failure mode of a failed sanitize (R709). -/
  failMode : Bool := false
  /-- Crypto erase has been done, regions fixed at the start and regions completed. -/
  erased : Bool := false
  total : Nat := 0
  done : Nat := 0
  /-- Number of the operation, which its Burn Intents carry (R230). -/
  op : Nat := 0
  deriving DecidableEq, Repr

/-- What the record store keeps besides tables with a structure of their own (R113). -/
structure RStore where
  /-- The two packages. -/
  pkg0 : PkgSt := {}
  pkg1 : PkgSt := {}
  /-- Sequence number of the newest mount checkpoint in the superblock ring (R113, R115). -/
  seq : Nat := 0
  /-- The record store is mounted in this start-up. -/
  mounted : Bool := false
  /-- Open erase intents. -/
  intents : List NandIntent := []
  /-- Flush records. -/
  flushes : List FlushRec := []
  /-- FLUSH_SEQ of the newest flush record. -/
  flushSeq : Nat := 0
  /-- Batches asked of the partner and not received (R105, R121, R760). -/
  recover : List Wanted := []
  /-- Every batch found has been reinstated or handled in this start-up (R119, R134). -/
  replayed : Bool := false
  /-- The replay of this start-up has asked the partner and waits for its answers (R121). -/
  asked : Bool := false
  /-- Packages mounted and half of the next flush, as the always-on island keeps them (R759). -/
  aonPkgs : Nat := 0
  aonHalf : Nat := 0
  /-- The retention marker: base and length of the retained staging region, where it is set (R103). -/
  retain : Option (Nat × Nat) := none
  /-- C_meas last written, in µF (R751). -/
  capStored : Option Nat := none
  /-- The two copies of the calibration set. -/
  calA : Option CalCopy := none
  calB : Option CalCopy := none
  /-- Counts of stores, deferrals and failures (R858). -/
  calStores : Nat := 0
  calDefers : Nat := 0
  calFails : Nat := 0
  /-- Contents of the maintenance namespaces by nsid × 2^22 + LBA; an absent block is zeros (R685). -/
  maint : List (Nat × Block) := []
  /-- Low word of the next POLDER_ID (R626). -/
  polderNext : Nat := 0
  /-- Fault history: records copied from the always-on memory (R127). -/
  history : List (List Word) := []
  /-- The last sanitize. -/
  san : SanState := {}
  /-- Formats whose completion record is missing: NSID and Secure Erase Settings (R715). -/
  formats : List (Nat × Nat) := []
  /-- Geometry entries of the racks and stations by number (R645). -/
  geometry : List (Nat × List Int) := []
  /-- Power-on hours of earlier power cycles. -/
  hours : Nat := 0
  /-- Firmware image slots of the boot flash and the image being downloaded (R111, R716). -/
  slotA : ImageSlot := ⟨1, true, 0⟩
  slotB : ImageSlot := ⟨0, false, 0⟩
  deriving DecidableEq, Repr

end Sys2Proof.Machine
end

