-- ==== Sys2Proof/Machine/StatePeer.lean ====
section
/-!
DEFINITION. State of the peer island: Daxlink, mirror, lease engine, pair state; and of the logs (chapters 19 and 20).
-/
namespace Sys2Proof.Machine

/-- A Daxlink frame sent and not yet acknowledged (R814, R816): its sequence number, type, payload bytes, a summary of the
payload, and when it was first sent. -/
structure DaxFrame where
  seq : Nat
  typ : Nat
  len : Nat
  arg : List Nat := []
  at' : Nat
  deriving DecidableEq, Repr

/-- One channel of the Daxlink (R814, R816). -/
structure DaxChan where
  /-- Next sequence number to send, the next one expected. -/
  tx : Nat := 0
  rx : Nat := 0
  /-- Frames not acknowledged, oldest first, and when the oldest was last sent. -/
  unacked : List DaxFrame := []
  /-- Frames that wait for space in the 1 MiB of unacknowledged frames, without a number yet. -/
  waiting : List DaxFrame := []
  sentAt : Nat := 0
  deriving DecidableEq, Repr

/-- What a witness transfer in progress does (R824). -/
inductive WitOp where
  | readLease
  /-- CAS with the expected and the new value; `renew` a renewal, else an acquisition. -/
  | cas (expected new : Nat) (renew : Bool)
  | readStatus
  deriving DecidableEq, Repr

/-- The peer island. -/
structure PeerSt where
  /-- The control channel. -/
  ctl : DaxChan := {}
  /-- The mirror channel. -/
  mir : DaxChan := {}
  /-- A HELLO of the partner has been received since the lanes trained; HELLO sent. -/
  helloIn : Bool := false
  helloOut : Bool := false
  /-- Lanes trained, 0 while training, and since when. -/
  lanes : Nat := 0
  trainAt : Nat := 0
  /-- Time of the next HEARTBEAT, number of the last one sent and of the last one received, the partner's echo. -/
  hbNext : Nat := 0
  hbSent : Nat := 0
  hbGot : Nat := 0
  hbEcho : Nat := 0
  /-- Moments: last valid HEARTBEAT, last advance of the echo, last HEARTBEAT or end of a period without one. -/
  hbAt : Nat := 0
  echoAt : Nat := 0
  missAt : Nat := 0
  /-- When a batch whose MIRROR_ACK refused it was sent (R820). -/
  refused : Option Nat := none
  /-- The partner's state, groups it owns, status flags and stations as last received; SHARED_RELEASED or FENCED read since t_L. -/
  pState : Nat := 0
  pOwn : Nat := 0
  pFreed : Bool := false
  pFlags : Nat := 0
  pStations : Nat := 0
  /-- Status sequence number last read at the witness and the moment it changed. -/
  pStatusSeq : Nat := 0
  pStatusAt : Nat := 0
  /-- The partner's station geometry (R815). -/
  pGeometry : List (List Int) := []
  /-- t_L of the last loss; 0 while none. -/
  tL : Option Nat := none
  /-- Mirror entries of the partner's batches by BATCH_SEQ (R819); those not mirrored again in the join that runs (R822). -/
  mirror : List (Nat × BatchCopy) := []
  /-- Mirror entries of an earlier connection. -/
  stale : List Nat := []
  /-- Batches of this controller that the partner sends back, as far as received, by BATCH_SEQ (R823). -/
  ownIn : List (Nat × BatchCopy) := []
  /-- Write data of forwarded commands, by the partner's slot (R830). -/
  fwdHeld : List (Nat × List Block) := []
  /-- Discs of picker requests sent to the owner and not answered. -/
  pickOut : List Nat := []
  /-- Lease engine: moment s, the transfers asked for with their moments, oldest first, last poll, next renewal, last status
  write. -/
  s : Nat := 0
  /-- Witness transfers in progress, with their moments. -/
  ops : List (WitOp × Nat) := []
  polledAt : Nat := 0
  renewAt : Nat := 0
  statusAt : Nat := 0
  statusSeq : Nat := 0
  statusWord : Nat := 0
  /-- The lease has been read at least once; the moment at which the value read last changed; renewals of the holder seen
  since t_L. -/
  leaseRead : Bool := false
  changeAt : Nat := 0
  advanced : Bool := false
  /-- The picker axes have been stopped under R827; homed and recovered since the acquisition (R828). -/
  stopped : Bool := false
  acquiredAt : Option Nat := none
  /-- Takeover of the partner's groups: 0 none, 1 in progress, 2 done; the group being handed back (R833, R839). -/
  takeover : Nat := 0
  /-- The group that a hand-back moves. -/
  handback : Option Nat := none
  /-- Join step of R839, 0 none. -/
  join : Nat := 0
  deriving DecidableEq, Repr

/-- A change that a TABLE_UPDATE brings (R815). -/
inductive TableChange where
  | inv (slot : Nat) (r : InvRec)
  | ns (n : NsSt)
  | nsGone (nsid : Nat)
  | polder (p : Polder)
  | zone (nsid z : Nat) (x : ZoneSt)
  deriving DecidableEq, Repr

/-- One entry of the Event log (R860). -/
structure EventEntry where
  tb : Nat
  code : Nat
  unit : Nat
  arg : Nat
  deriving DecidableEq, Repr

/-- One entry of the Lost LBA log (R859). -/
structure LostEntry where
  nsid : Nat
  cause : Nat
  slba : Nat
  nlb : Nat
  tb : Nat
  deriving DecidableEq, Repr

/-- Logs and figures of telemetry (R853 to R862), kept in the record store. -/
structure LogSt where
  /-- Event log, newest first, at most 1,024 entries; generation counters of C0h to C3h. -/
  events : List EventEntry := []
  gen0 : Nat := 0
  gen1 : Nat := 0
  gen2 : Nat := 0
  gen3 : Nat := 0
  lost : List LostEntry := []
  lostTotal : Nat := 0
  /-- Critical Warning causes that stand until Sanitize (R854). -/
  unreliable : Bool := false
  /-- Critical Warning as last reported. -/
  warning : Nat := 0
  /-- Temperature bins in minutes, life sum in 1/60,000,000 of an hour (R855), highest Tj and OPU temperature in °C. -/
  bins : List Nat := List.replicate 20 0
  life : Nat := 0
  maxTj : Option Int := none
  maxOpu : Option Int := none
  /-- Minutes at or above WCTEMP and CCTEMP. -/
  warnMin : Nat := 0
  critMin : Nat := 0
  minutes : Nat := 0
  /-- Wear readings by beam, newest first, at most 720 (R853), and hours left by port. -/
  wear : List (Nat × List Nat) := []
  hoursLeft : List (Nat × Nat) := []
  /-- Moments of the last wear reading and of the last addition to the life sum. -/
  wearAt : Nat := 0
  lifeAt : Nat := 0
  /-- Blocks read and written by hosts, unsafe shutdowns, media errors. -/
  blocksRead : Nat := 0
  blocksWritten : Nat := 0
  unsafeShutdowns : Nat := 0
  mediaErrors : Nat := 0
  /-- Controller-initiated telemetry captures (R862). -/
  captures : Nat := 0
  /-- The captured telemetry, host-initiated and controller-initiated. -/
  hostTel : List Byte := []
  ctrlTel : List Byte := []
  /-- Changes of ANA states (R718). -/
  anaChanges : Nat := 0
  /-- Detector margins of the last hour: port, time, milli-UI (R334, R858). -/
  margins : List (Nat × Nat × Nat) := []
  deriving DecidableEq, Repr

end Sys2Proof.Machine
end

