-- ==== Sys2Proof/Syntax.lean ====
section
/-!
DEFINITION. The commands of the controller: one constructor per row of the command table, with its operands (log 1, log 4, log 5).
-/
namespace Sys2Proof
/-- A command. Each constructor names the rule of its row. -/
inductive Instr where
  /-- R95: VDD_AON rises from below 0.40 V and resets everything, including the timebase, the always-on fault memory and RESET_CAUSE. -/
  | powerOn
  /-- R86: A low pulse on RESET_N of 10 us or longer, after step 2 of start-up, is recognised as a full reset. -/
  | resetNPulse
  /-- R106: Release of RESET_N, or the end of an internal reset, starts the hardware start-up sequence. -/
  | resetNRelease (i : BootIn) (e : FlushEnd)
  /-- R130: A write of RESET_CTL.CHIP with KEY 0x5A requests a full reset; any other key is ignored. -/
  | softChipReset (r : Requester) (key : Byte) (retainEn : Bool)
  /-- R87: PERST_N held low for 1 us resets the host island and the NVMe controller state; every other activity continues. -/
  | perstNAssert
  /-- R87: PERST_N held high for 1 us is acted on, and the host ready bounds count from this moment. -/
  | perstNDeassert
  /-- R95: A write of NSSR.NSSRC with the NVMe value resets the host side as PERST_N does. -/
  | nvmSubsystemReset (nssrc : Word)
  /-- R95: TRST_N held low for 100 ns resets the IEEE 1149.1 test logic only. -/
  | trstNLow
  /-- R70: VDD_CORE stays below its threshold for the recognition time and sets the flush trigger. -/
  | brownoutCore (e : FlushEnd)
  /-- R70: VDD_AON stays below its threshold for the recognition time and sets the flush trigger. -/
  | brownoutAon (e : FlushEnd)
  /-- R70: PWR_GOOD stays low for more than 200 ns and sets the flush trigger. -/
  | pwrGoodLoss (e : FlushEnd)
  /-- R100: After PWR_GOOD has been high for 10 ms with no detection, the held controller takes a full reset with cause FLUSH_RESTART. -/
  | flushRestart
  /-- R108: The scrub of a newly ungated head or peer island completes, and its pages become reachable. -/
  | islandScrubDone (h : Option Port)
  /-- R115: Resets the NAND packages, scans the superblock rings and chooses the newest valid record of each region. -/
  | rstoreMount (f0 : Option PkgFound) (f1 : Option PkgFound)
  /-- R117: Every NAND erase intent without a completion record is erased again and completed. -/
  | nandIntentRecovery
  /-- R122: The newest valid calibration set is loaded into buffer memory before ready. -/
  | calibrationLoad
  /-- R125: The inventory map and the zone and polder tables are loaded into buffer memory. -/
  | inventoryZoneLoad
  /-- R119: Each batch of a flush record is reinstated into staging in sequence order and the zone write pointers are restored. -/
  | journalReplay (bad : List Nat)
  /-- R115: Bringing a differing package up to date completes; RESYNC clears and PKGn_OK is set. -/
  | rstoreResync (pkg : Fin 2)
  /-- R127: Firmware copies an always-on fault record into the fault history region and marks it copied. -/
  | faultRecordCopy (i : Fin 1024)
  /-- R868: A write to a register without a row of its own updates its RW, RWS and W1C fields, checking alignment, mapping, gating, lock and shadow freeze. -/
  | registerWrite (r : Requester) (n : Ctrl) (size : AccSize) (addr : BitVec 24) (lo : Word) (hi : Word) (env : WriteEnv)
  /-- R33: SYS.FENCE.START starts a register fence, a data fence or both for the writing requester. -/
  | fenceStart (r : Requester) (scope : Fin 4)
  /-- R33: The fence's writes have taken effect or its items have been delivered; DONE is set and SKIPPED is reported. -/
  | fenceComplete (r : Requester)
  /-- R36: A fence not complete 100 us after START ends with TIMEOUT set and sends fence timeout. -/
  | fenceTimeout (r : Requester)
  /-- R38: A read of SYS.FRAME_NUM latches the timebase of the frame start into FRAME_TB for that requester. -/
  | frameNumRead (r : Requester)
  /-- R37: Every 250 ticks the servo frame counter advances, and frame-boundary commits and per-frame work take place. -/
  | frameBoundary
  /-- R157: SHADOW_CTL.COMMIT freezes the shadow and schedules a local commit at the next boundary of BOUNDARY. -/
  | localCommit (r : Requester) (p : Page) (b : Fin 8)
  /-- R164: A COMMIT with BOUNDARY 0b100 arms the page for the requester's global commit, or sends arm conflict. -/
  | pageArm (r : Requester) (p : Page)
  /-- R153: SHADOW_CTL.DISCARD sets every shadow equal to its active value and disarms the page, unless the shadow is frozen. -/
  | shadowDiscard (r : Requester) (p : Page)
  /-- R39: GO checks the lead of the target frame and either accepts the armed pages or rejects the commit. -/
  | globalCommitGo (r : Requester)
  /-- R39: The always-on island delivers the arm of an accepted commit to every armed page's island. -/
  | globalCommitArmDistribute (r : Requester)
  /-- R166: A CANCEL at least 2 frames before the target frame cancels the commit, with RESULT 0x4. -/
  | globalCommitCancel (r : Requester)
  /-- R154: LOCK.ACQUIRE takes the page lock for the writer if it is free. -/
  | lockAcquire (r : Requester) (p : Page)
  /-- R154: LOCK.RELEASE frees the lock if the writer holds it. -/
  | lockRelease (r : Requester) (p : Page)
  /-- R154: LOCK.BREAK with KEY 0xC3 from the management or I3C requester frees the lock whoever holds it. -/
  | lockBreak (r : Requester) (p : Page) (key : Byte)
  /-- R144: A write of PAGE_CTL.EN enables or disables the block, with the effects its chapter states. -/
  | pageEnable (r : Requester) (p : Page) (en : Bool)
  /-- R144: PAGE_CTL.QUIESCE asks the block to finish its current unit of work and accept no new work. -/
  | quiesceRequest (r : Requester) (p : Page) (on : Bool)
  /-- R170: The block finishes its unit of work and reports quiesced. -/
  | quiesceDone (p : Page)
  /-- R169: SOFT_RESET of a disabled or quiesced block returns its registers to reset values and holds accesses back. -/
  | pageSoftReset (r : Requester) (p : Page)
  /-- R169: The block soft reset completes within 10 us and held accesses proceed. -/
  | softResetDone (p : Page)
  /-- R148: A 1 in INT_FORCE sets the INT_STAT bit of the same position without the event's other effects. -/
  | intForce (r : Requester) (p : Page) (m : Word)
  /-- R786: A 1 in FAULT_FORCE makes the block send a forced message of source n, with KIND 0xFF. -/
  | faultForce (r : Requester) (p : Page) (m : Word)
  /-- R177: An MCTP register read request reads COUNT words from a page as the I3C requester. -/
  | mctpRead (m : McMsg)
  /-- R177: An MCTP register write request writes COUNT words to a page and reports the first word not completed. -/
  | mctpWrite (m : McMsg) (env : WriteEnv)
  /-- R177: An MCTP fence request runs a fence of the given scope for the I3C requester. -/
  | mctpFence (m : McMsg)
  /-- R281: A write of CLK.HEAD_GATE gates or ungates head islands, but only those whose HEAD page is disabled. -/
  | headGateWrite (r : Requester) (gate : BitVec 16)
  /-- R21: An item placed into a crossing becomes usable in the receiving island. -/
  | crossingDelivery (x : Fin 22) (dest : Island) (unit : Fin 80) (overflow : Bool)
  /-- R43: SYS.WDOG_CTL.KICK starts a new watchdog period. -/
  | watchdogKick (r : Requester)
  /-- R43: Setting EN from 0 to 1, or changing TIMEOUT_MS, starts a new watchdog period. -/
  | watchdogConfigWrite (r : Requester) (en : Bool) (timeoutMs : BitVec 16)
  /-- R43: A watchdog period ending unkicked warm-restarts the management island. -/
  | watchdogExpiry
  /-- R44: WDOG_CTL.RESTART requests a warm restart at once, with no effect before the island's first release. -/
  | mgmtRestartRequest (r : Requester)
  /-- R43: The management cores execute again after a warm restart and start a new watchdog period. -/
  | mgmtCoresResume
  /-- R47: Resumed firmware re-executes each held admin command from its start. -/
  | adminResume
  /-- R266: HEAD.LINK_CTL.TRAIN aligns an OPU port through lock, SYSREF, housekeeping setup and RUNNING. -/
  | linkTrain (r : Requester) (h : Port) (a : OpuAnswer)
  /-- R268: A port in LOST trains again 1 ms after entering it, up to 3 attempts. -/
  | autoRetrain (h : Port) (a : OpuAnswer)
  /-- R248: An uplink link frame is released from the elastic buffers; its RF samples, servo set and header are deframed and checked. -/
  | uplinkFrame (h : Port) (u : Uplink)
  /-- R252: At each link frame start, the head island assembles and sends a downlink frame with write symbols, housekeeping and the actuator group. -/
  | downlinkFrame (h : Port)
  /-- R30: At 230 ticks into a frame, each complete group is transmitted, and a group without its GCLOSE is a group miss. -/
  | frameCutoff
  /-- R289: HK_CTL.GO sends one housekeeping request to the OPU. -/
  | hkRequest (r : Requester) (h : Port) (wr : Bool) (count : Fin 8) (addr : BitVec 16)
  /-- R264: A housekeeping response in the uplink completes the request and stores its status and data. -/
  | hkResponse (h : Port) (status : Byte) (data : Vector Word 8)
  /-- R269: No response within 64 link frames sets HK_CTL.ERROR and STATUS 0xFF. -/
  | hkTimeout (h : Port)
  /-- R285: Every 100 ms the head island reads the OPU's DL_MARGIN into LAT_STAT. -/
  | dlMarginPoll (h : Port) (m : BitVec 10)
  /-- R603: At least once per second, the controller reads the OPU die temperature from its housekeeping STATUS. -/
  | opuTempPoll (h : Port) (status : Word)
  /-- R271: A write of LASER_CTL.ARM permits or forbids LASER_KILL_N high. -/
  | laserArm (r : Requester) (h : Port) (on : Bool)
  /-- R272: PRESENT_N rising after the 50 ns filter drives LASER_KILL_N low within 1 us. -/
  | presentNRise (h : Port)
  /-- R276: PRESENT_N high for REMOVE_MS makes the port ABSENT, stops its clocks and stops its sled. -/
  | opuRemoved (h : Port)
  /-- R275: A high excursion shorter than REMOVE_MS sends PRESENT_GLITCH. -/
  | presentGlitch (h : Port)
  /-- R277: PRESENT_N low for INSERT_MS moves the port from absent to off and resets its calibration items. -/
  | opuInserted (h : Port)
  /-- R318: A beam checks the servo mark at each field to confirm, correct or lose its segment counter. -/
  | beamSegmentField (h : Port) (b : BeamNo) (m : FieldMark)
  /-- R325: At each slot start, the beam classifies the slot as burned, blank or recorded. -/
  | slotStart (h : Port) (b : BeamNo)
  /-- R304: At a sector boundary, zone or layer changes take effect and sector or ingot commits apply. -/
  | sectorBoundary (h : Port) (b : BeamNo)
  /-- R29: A canceller that has not consumed index n by deframing n + 832 sends DEADLINE and counts DL_MISS. -/
  | cancellerDeadline (h : Port) (b : BeamNo) (absent : Option BeamNo) (newRun : Bool)
  /-- R326: An LDPC decode ends, the CHECK is verified, and the sector is delivered over X8 as GOOD or FAILED. -/
  | sectorDecodeDone (h : Port) (b : BeamNo) (ks : Vector Decode 4)
  /-- R327: A decode still running when the following sector needs its buffer ends FAILED and sends DEADLINE. -/
  | decodeDeadline (h : Port) (b : BeamNo)
  /-- R329: At the end of sector 17, the outer RS code recovers up to two erasures or corrects a single error. -/
  | outerRecovery (h : Port) (b : BeamNo)
  /-- R341: EQ_CTL.SNAP copies the active equaliser and canceller taps into their shadows. -/
  | eqSnap (r : Requester) (h : Port) (b : BeamNo)
  /-- R356: A beam accepts a run handed by the polder island, or returns it REJECTED. -/
  | writeWorkItem (h : Port) (b : BeamNo) (w : WorkItem)
  /-- R359: A beam not armed 10 us before its first slot ends the work item with RUN_MISSED. -/
  | runMissed (h : Port) (b : BeamNo)
  /-- R361: Sector data arrives over X9, and the beam computes CHECK, accumulates outer parity and encodes. -/
  | sectorPayload (h : Port) (b : BeamNo)
  /-- R363: Encoding, seed selection and header formation of a sector complete. -/
  | sectorEncodeDone (h : Port) (b : BeamNo)
  /-- R362: A payload incomplete by its deadline ends the write with a linking end and sends DEADLINE. -/
  | dataLate (h : Port) (b : BeamNo)
  /-- R379: After each written sector, the monitor values are formed and running power control updates m_b. -/
  | writeSectorEnd (h : Port) (b : BeamNo) (mon : MonitorSample)
  /-- R402: WR_CTL.STOP ends the run after the current ingot. -/
  | writeStop (r : Requester) (h : Port) (b : BeamNo)
  /-- R402: WR_CTL.ABORT ends the write with a linking end, cause 0x5. -/
  | writeAbort (r : Requester) (h : Port) (b : BeamNo)
  /-- R392: The linking mark is placed at the next unassembled primary sync position, then WRITE_EN clears and the FIFO is discarded. -/
  | writeLinkingEnd (h : Port) (b : BeamNo)
  /-- R390: A verify result is matched to its recorded ingot by address and RSN and judged pass or fail. -/
  | verifyResult (h : Port) (b : BeamNo) (layer : Fin 8) (spiral : Fin 4) (slot : BitVec 19) (rsn : BitVec 64) (checks : List SectorCheck)
  /-- R388: After PASS_LEN slots, the port is repositioned and reads back every ingot since the last pass. -/
  | secondPassVerify (h : Port)
  /-- R389: The OPU follows the spirals for one revolution plus an ingot so that the verify beam reads the last ingot. -/
  | verifyTrailOut (h : Port)
  /-- R380: Firmware records a test ingot at stepped powers on all four spirals, reads it back and sets the corrections. -/
  | powerTest (h : Port) (area : Fin 2) (e : List (BeamNo × List Nat))
  /-- R398: Before a new layer, firmware loads and commits the bank, power table and spare, appends Layer Opening and runs the power tests. -/
  | layerOpen (h : Port) (layer : Fin 8) (sectors : List MediaSector) (bank : Fin 2)
  /-- R410: WR_HCTL.MIN_RESET sets every FIFO_MIN field to 127. -/
  | fifoMinReset (r : Requester) (h : Port)
  /-- R429: The schedule READ instruction copies an input and marks its chain missed when the value is stale. -/
  | opRead (e : Eng) (ecc : Fin 3)
  /-- R431: The BIQUAD instruction computes one filter section and advances its states. -/
  | opBiquad (e : Eng) (ecc : Fin 3)
  /-- R428: The ADD instruction saturates the sum of two local words. -/
  | opAdd (e : Eng) (ecc : Fin 3)
  /-- R428: The SUB instruction saturates the difference of two local words. -/
  | opSub (e : Eng) (ecc : Fin 3)
  /-- R428: The MUL instruction saturates the rounded product of two local words. -/
  | opMul (e : Eng) (ecc : Fin 3)
  /-- R428: The SHIFT instruction scales a local word by 2^n with saturation. -/
  | opShift (e : Eng) (ecc : Fin 3)
  /-- R428: The LIMIT instruction clamps a local word to a limit pair. -/
  | opLimit (e : Eng) (ecc : Fin 3)
  /-- R434: The MINSEL instruction selects the minimum or maximum input and rolls back the windup of the losing sections. -/
  | opMinsel (e : Eng) (ecc : Fin 3)
  /-- R430: The WRITE instruction sends an output value to its island and keeps it as LAST, or stores an exchange word. -/
  | opWrite (e : Eng) (ecc : Fin 3)
  /-- R438: The GCLOSE instruction closes a head's actuator group for the frame. -/
  | opGclose (e : Eng) (ecc : Fin 3)
  /-- R428: The MARK instruction raises a trace event. -/
  | opMark (e : Eng) (ecc : Fin 3)
  /-- R428: The NOP instruction does nothing for one cycle. -/
  | opNop (e : Eng) (ecc : Fin 3)
  /-- R448: ENG_CTL.COPY copies the active bank into the standby bank with its VALID bit. -/
  | bankCopy (r : Requester) (e : Eng)
  /-- R448: The bank copy completes and sets COPY_DONE. -/
  | bankCopyDone (e : Eng)
  /-- R444: ENG_CTL.VALIDATE checks the named bank against the schedule, timing and ownership rules. -/
  | bankValidate (r : Requester) (e : Eng) (valBank : Fin 2)
  /-- R444: Validation ends with a RESULT code and sets VALID on a pass. -/
  | bankValidateDone (e : Eng)
  /-- R443: A MEM_DATA access reads or writes the word at ADDR, refusing writes to the active or armed bank, and auto-increments. -/
  | engineMemAccess (r : Requester) (e : Eng) (w : Option Word)
  /-- R445: A write of OWN_HEAD or OWN_AXIS clears VALID of both banks, or is discarded while the page is armed. -/
  | ownershipWrite (r : Requester) (e : Eng) (axes : Bool) (v : Word)
  /-- R446: A write of ENG_CTL.BANK naming an invalid bank while armed is discarded with BANK_INVALID. -/
  | bankSelectWrite (r : Requester) (e : Eng) (b : Fin 2)
  /-- R450: TR_CTL.ARM reads the node and trigger configuration and starts recording. -/
  | traceArm (r : Requester) (t : Eng)
  /-- R451: TR_CTL.STOP ends recording and enters done. -/
  | traceStop (r : Requester) (t : Eng)
  /-- R450: TR_CTL.FORCE triggers the trace unit. -/
  | traceForce (r : Requester) (t : Eng)
  /-- R449: Every DECIM + 1 frames the unit stores one sample of each node and evaluates its trigger. -/
  | traceSample (t : Eng)
  /-- R452: A read of TR_RD_DATA returns sample INDEX of NODE and increments INDEX. -/
  | traceRead (r : Requester) (t : Eng)
  /-- R467: A field demodulator decodes or predicts a servo field and forms PES, field lock, counters and lock states. -/
  | servoFieldDecode (h : Port) (b : BeamNo) (f : FieldPulses)
  /-- R493: ACQUIRE sweeps focus to the target layer, refines kappa, captures track and seeks the target turn. -/
  | srvAcquire (h : Port) (layer : Fin 8) (turn : BitVec 16)
  /-- R494: SEEK jumps layers if needed, then walks or coarse-seeks to the target turn and enters FOLLOW. -/
  | srvSeek (h : Port) (layer : Fin 8) (turn : BitVec 16)
  /-- R494: A coarse phase without its fields within 500 ms ends the seek with RESULT 0x6 and enters RECOVER. -/
  | seekFail (h : Port)
  /-- R496: PARK retracts the lens, sets the sled to the park radius and enters PARKING. -/
  | srvPark (h : Port)
  /-- R496: The port enters PARKED 100 ms after PARK. -/
  | parkDone (h : Port)
  /-- R496: STOP enters OFF at once with FOC_FF unchanged. -/
  | srvStop (h : Port)
  /-- R491: A servo command in the wrong state, without its preconditions, or with a reserved code is rejected. -/
  | srvCommandReject (h : Port) (cmd : Fin 16) (layer : Fin 8) (turn : BitVec 16)
  /-- R470: After one revolution with tracking open, the refined kappa is written, or KAPPA_FAIL is sent. -/
  | kappaRefine (h : Port)
  /-- R498: A recovery that exceeds its limit, or a third within 1 s, enters FAILED and clears ARM. -/
  | servoFail (h : Port)
  /-- R479: RRO_CTL.CLEAR clears both runout tables. -/
  | runoutClear (r : Requester) (h : Port)
  /-- R517: START selects CATCH, DETECT or SHORT from the reported speed, after a driver wake when in OFF. -/
  | spinStart (n : Spin)
  /-- R539: BRAKE drives negative current until SHORT_RPM, then shorts the windings to standstill. -/
  | spinBrake (n : Spin)
  /-- R516: COAST enters IDLE at once and ends the command in progress. -/
  | spinCoast (n : Spin)
  /-- R516: OFF in IDLE enters OFF. -/
  | spinOff (n : Spin)
  /-- R516: CLEAR in FAULT with DRV_FAULT_N high enters OFF. -/
  | spinClear (n : Spin)
  /-- R516: A spindle command in a state not listed for it, or a reserved code, ends with RESULT 0x2 or 0x3. -/
  | spinCommandReject (n : Spin) (cmd : Fin 8)
  /-- R515: After a 1 ms driver wake with DRV_EN high, a START from OFF proceeds to selection. -/
  | driverWake (n : Spin)
  /-- R509: Each PWM period converts currents and voltages and runs the back-EMF observer and the current loop. -/
  | pwmPeriod (n : Spin) (i : Vector (BitVec 12) 3) (v : PhaseVolts) (late : Bool)
  /-- R520: After 12 test vectors, the commutator computes the flux angle, or counts a failed attempt and repeats or aligns. -/
  | detectAttempt (n : Spin) (t : DetectRises)
  /-- R522: After 2 ms of current along the flux axis, R_MEAS is recorded and RAMP begins. -/
  | rmeasDone (n : Spin) (ampl : Nat) (mean : Nat)
  /-- R521: After 300 ms of ALIGN, the angle is set to 90 degrees and RAMP begins. -/
  | alignDone (n : Spin)
  /-- R524: No edge BREAKAWAY_MS into RAMP raises I_RAMP by 1.25 and returns to DETECT. -/
  | breakawayTimeout (n : Spin)
  /-- R526: A CATCH not locked within 100 ms enters SHORT. -/
  | catchTimeout (n : Spin)
  /-- R527: A start that misses RUN within START_TIMEOUT, or fails detection or breakaway, enters IDLE with RESULT 0x4. -/
  | startFail (n : Spin)
  /-- R534: In RUN, 400 frames without a setpoint enter BRAKE and send SETPOINT_LOST. -/
  | setpointLost (n : Spin)
  /-- R536: A back-EMF sign change continuing the edge sequence updates SPEED, SPEED_REV and AT_SPEED. -/
  | backEmfEdge (n : Spin) (x : Fin 3) (mv : BitVec 16) (dt : BitVec 32)
  /-- R536: No edge for EDGE_TIMEOUT_MS reports SPEED 0 valid (standstill). -/
  | spinEdgeTimeout (n : Spin)
  /-- R514: DRV_FAULT_N low takes every gate and DRV_EN low and enters FAULT. -/
  | drvFault (n : Spin) (high : Bool)
  /-- R571: HOME drives to the hard stop, finds the stall, sets the reference and backs off. -/
  | axisHome (a : Axis)
  /-- R571: SETTLE_MS after the stall, HOME_COUNT is captured, p is set and the back-off starts. -/
  | homeSettle (a : Axis)
  /-- R558: MOVE starts a profile to AX_TARGET. -/
  | axisMove (a : Axis)
  /-- R569: FOLLOW makes the axis take its targets from the owning engine. -/
  | axisFollow (a : Axis)
  /-- R576: STOP issues a stop request with cause 0x1. -/
  | axisStop (a : Axis)
  /-- R568: HOLD energises the axis at standstill. -/
  | axisHold (a : Axis)
  /-- R568: RELEASE returns the axis to IDLE. -/
  | axisRelease (a : Axis)
  /-- R568: CLEAR in FAULT enters IDLE and resynchronises p. -/
  | axisClear (a : Axis)
  /-- R568: A command in the wrong state, with a failed precondition or under quench ends with RESULT 0x2 or 0x3. -/
  | axisCommandReject (a : Axis) (cmd : Fin 16)
  /-- R557: Each servo frame, the generator chooses acceleration, advances p and phi, and checks arrival and stall. -/
  | axisFrameUpdate (a : Axis)
  /-- R552: Each chopper period forms the coil demands, samples the currents and runs the duty loop. -/
  | chopperPeriod (a : Axis) (iA : BitVec 12) (iB : BitVec 12) (late : Bool)
  /-- R555: HOLD_DELAY after standstill, the current drops from I_QUIET to I_HOLD. -/
  | holdDelayExpiry (a : Axis)
  /-- R562: An accepted quadrature change counts up or down and updates the encoder speed. -/
  | encoderEdge (a : Axis) (A : Bool) (B : Bool) (n : Nat)
  /-- R565: An index rise is compared with INDEX_REF and corrects minor slips or clears HOMED. -/
  | indexEvent (a : Axis) (n : Nat)
  /-- R564: No edge for SPEED_TIMEOUT_MS reports encoder SPEED 0 valid. -/
  | encoderSpeedTimeout (a : Axis)
  /-- R573: A debounced limit level is accepted, and an active limit in the direction of motion stops the axis. -/
  | limitAccept (a : Axis) (hi : Bool) (level : Bool)
  /-- R575: A limit input changing more than CHATTER_K times in one window is declared faulty. -/
  | limitChatter (a : Axis) (hi : Bool) (n : Nat)
  /-- R575: LIMIT_CLR.CLR_LO or CLR_HI clears a faulty declaration if the input has been quiet for 1 s. -/
  | limitClear (r : Requester) (a : Axis) (hi : Bool)
  /-- R570: In FOLLOW, 400 frames without a target issue a stop request with cause 0x6. -/
  | targetLost (a : Axis)
  /-- R578: BRG_FAULT_N low takes the bridge inputs low and the axis to FAULT. -/
  | brgFault (a : Axis) (high : Bool)
  /-- R595: Every 4,096 frames a calibration slot substitutes the spare, averages LO, HI and MID, and judges new corrections. -/
  | calSlot (i : CalSlotIn)
  /-- R592: Every 1 s the reference converter measures its own offset; REF_DEV is updated and REF_DRIFT judged. -/
  | refOffsetMeasure (ppm : Int)
  /-- R600: Every 100 us each temperature sensor is converted, stamped and delivered, and Tj updated. -/
  | tempConversion (dv : Vector (BitVec 32) 12)
  /-- R600: A reading not converted within 150 us keeps its old value, clears VALID and sends DEADLINE. -/
  | tempDeadline (n : Fin 12)
  /-- R752: Every 1,000 ticks VHOLD is sampled, the budget is recomputed, and queued batches are admitted. -/
  | vholdSample (raw : BitVec 14)
  /-- R750: A capacitance test falls due every PERIOD_MIN minutes and 1 s after ready. -/
  | capTestDue
  /-- R765: SLUICE_CTL.TEST_REQ requests a capacitance test. -/
  | capTestRequest (r : Requester)
  /-- R750: At TEST_MS, HOLD_TEST falls and C_meas and ESR are computed and accepted or rejected. -/
  | capTestEnd
  /-- R756: A namespace whose oldest write has waited WT_DELAY_MS enters write-through. -/
  | writeThroughEnter (nsid : Fin 1025)
  /-- R757: Budget - A at a quarter of STAGE_LIMIT for RESUME_MS takes a namespace out of write-through. -/
  | writeThroughLeave (nsid : Fin 1025)
  /-- R757: SLUICE_CTL.WT_FORCE holds or releases every standard namespace in write-through. -/
  | wtForceWrite (r : Requester) (b : Bool)
  /-- R756: A write-through row idle for 10 ms is recorded with PAD sectors. -/
  | partialRowTimeout (nsid : Fin 1025) (zone : Nat)
  /-- R604: After a GOOD ingot, the controller captures zone, equaliser and separation values into the temperature point. -/
  | captureCalibration (h : Port) (b : BeamNo)
  /-- R610: The set is interpolated at the OPU temperature and committed to the port's pages in one global commit. -/
  | interpolationCommit (h : Port)
  /-- R611: Before a port is enabled, its calibration values are committed after ungating. -/
  | portEnableCommit (ports : BitVec 16)
  /-- R723: Vendor command C1h writes SKEW, the monitor scale or the edge trim for a port, beam and point. -/
  | calibrationItemWrite (slot : Fin 3072)
  /-- R623: SET_CFG.STORE_REQ requests a store of the calibration set. -/
  | calStoreRequest (r : Requester)
  /-- R614: The set is snapshotted, admitted, and written into the older copy with its validity word last. -/
  | calStore
  /-- R616: A store not admitted within 60 s is abandoned and logged as deferred. -/
  | calStoreAbandon
  /-- R778: TEST_CTL.RESTART sets the test register to INIT. -/
  | hallRestart (r : Requester) (n : HallNo)
  /-- R779: TEST_CTL.FEED feeds BYTE into the test register. -/
  | hallFeed (r : Requester) (n : HallNo) (d : Byte)
  /-- R776: A held commit of a configurable instance applies when its stream becomes idle. -/
  | hallCommitRelease (n : HallNo)
  /-- R781: A parity error fails the message in progress and inverts an inserted value. -/
  | hallParity (n : HallNo)
  /-- R791: A fault message arrives at the collector and is stamped, counted, classified and reacted to. -/
  | faultMessage (i : Nat) (parity : Bool)
  /-- R802: A queued message is captured into fault memory, merged or opened as a record. -/
  | faultCapture (parity : Bool)
  /-- R793: A source's A or B counting window starts and its count returns to 0. -/
  | faultWindowStart (src : Fin 1024) (b : Bool)
  /-- R799: 20 us after the latest classification, ALERT_N is released unless HOLD is 1. -/
  | alertMinExpiry
  /-- R799: ALERT_CTL.RELEASE releases a held ALERT_N. -/
  | alertRelease (r : Requester)
  /-- R798: A 1 in QUENCH_HEAD releases a port's line, unless an unacknowledged quenched record or the flush quench holds it. -/
  | quenchHeadRelease (r : Requester) (ports : BitVec 16)
  /-- R798: A 1 in QUENCH_SPIN releases a spindle's quench line under the same conditions. -/
  | quenchSpinRelease (r : Requester) (spins : BitVec 8)
  /-- R798: A 1 in QUENCH_AXIS releases an axis's quench line under the same conditions. -/
  | quenchAxisRelease (r : Requester) (axes : BitVec 22)
  /-- R804: REC_ACK.ACK acknowledges a record when its MERGE_COUNT matches COUNT, otherwise sets STALE. -/
  | recAck (r : Requester) (i : Fin 1024) (count : BitVec 14)
  /-- R804: REC_ACK.COPIED marks a valid record as copied. -/
  | recCopied (r : Requester) (i : Fin 1024) (count : BitVec 14)
  /-- R808: A read of REC_DATA returns word WORD of the record and increments WORD. -/
  | recDataRead (r : Requester)
  /-- R807: SRC_SEL.RESTORE restores a source's fused defaults and clears its counts. -/
  | srcRestore (r : Requester) (src : Fin 1024)
  /-- R795: A write of SRC_CFG applies from the next tick and resets both counts. -/
  | srcCfgWrite (r : Requester) (w : Word)
  /-- R803: Each second the collector checks every source's configuration parity and reloads defaults on error. -/
  | configParityCheck (bad : List (Fin 1024))
  /-- R678: A submission queue tail doorbell write makes entries available for fetch. -/
  | sqDoorbell (n : Ctrl) (qid : BitVec 16) (tail : BitVec 16)
  /-- R678: A completion queue head doorbell write frees completion entries. -/
  | cqDoorbell (n : Ctrl) (qid : BitVec 16) (head : BitVec 16)
  /-- R697: The command island fetches a submission entry into a free slot under arbitration and ordering. -/
  | commandFetch (e : Sqe)
  /-- R694: A command's data transfer completes, the write pointer advances, and the command is staged or read. -/
  | cmdDmaDone (slot : Fin 3072) (r : DmaResult)
  /-- R699: A command that waited MOUNT_WAIT seconds completes with Command Interrupted. -/
  | mountTimeout (slot : Fin 3072)
  /-- R694: Write at the zone's write pointer: binding, admission, DMA and acknowledgement. -/
  | ioWrite (slot : Fin 3072)
  /-- R696: Read returns staging, cache or media data below the write pointer, and zeros above it. -/
  | ioRead (slot : Fin 3072)
  /-- R698: Flush acts as an ordering mark for its SQ, or completes at once. -/
  | ioFlush (slot : Fin 3072)
  /-- R680: Compare reads the blocks and compares them with the host data. -/
  | ioCompare (slot : Fin 3072)
  /-- R680: Write Zeroes writes zero blocks at the write pointer. -/
  | ioWriteZeroes (slot : Fin 3072)
  /-- R680: Verify reads and checks the blocks without transfer. -/
  | ioVerify (slot : Fin 3072)
  /-- R694: Zone Append is assigned the write pointer as its starting LBA and written there. -/
  | zoneAppend (slot : Fin 3072)
  /-- R692: Zone Open binds an Empty zone and makes it Explicitly Opened. -/
  | zoneOpen (slot : Fin 3072)
  /-- R692: Zone Close makes the zone Closed. -/
  | zoneClose (slot : Fin 3072)
  /-- R692: Zone Finish pads the partial row and makes the zone Full. -/
  | zoneFinish (slot : Fin 3072)
  /-- R693: Zone Reset completes the zone's commands, discards its staging and returns it to Empty. -/
  | zoneReset (slot : Fin 3072)
  /-- R692: Zone Offline completes with Invalid Zone State Transition. -/
  | zoneOfflineAction (slot : Fin 3072)
  /-- R692: Set Zone Descriptor Extension completes with Invalid Field in Command. -/
  | setZoneDescriptorExtension (slot : Fin 3072)
  /-- R680: Zone Management Receive returns the Report Zones data. -/
  | reportZones (slot : Fin 3072)
  /-- R680: An I/O opcode not listed for the namespace kind completes with Invalid Command Opcode. -/
  | unsupportedIoCommand (slot : Fin 3072)
  /-- R679: Create I/O SQ creates a submission queue. -/
  | createIoSq (slot : Fin 3072)
  /-- R679: Delete I/O SQ deletes a submission queue and aborts its waiting commands. -/
  | deleteIoSq (slot : Fin 3072)
  /-- R679: Create I/O CQ creates a completion queue. -/
  | createIoCq (slot : Fin 3072)
  /-- R679: Delete I/O CQ deletes a completion queue. -/
  | deleteIoCq (slot : Fin 3072)
  /-- R682: Get Log Page returns a supported log, or Invalid Log Page. -/
  | getLogPage (slot : Fin 3072)
  /-- R683: Identify returns the supported CNS structures. -/
  | identify (slot : Fin 3072)
  /-- R700: Abort completes the named command only when it waits for admission, a mount or its DMA. -/
  | abort (slot : Fin 3072)
  /-- R681: Set Features sets a supported feature, or returns Invalid Field. -/
  | setFeatures (slot : Fin 3072) (d : List Byte)
  /-- R681: Get Features returns a supported feature. -/
  | getFeatures (slot : Fin 3072)
  /-- R856: Asynchronous Event Request waits for a SMART, vendor or ANA event. -/
  | asyncEventRequest (slot : Fin 3072)
  /-- R685: Namespace Management creates or deletes a standard namespace and generates its key. -/
  | namespaceManagement (slot : Fin 3072) (d : List Byte)
  /-- R679: Namespace Attachment attaches or detaches a standard namespace. -/
  | namespaceAttachment (slot : Fin 3072) (d : List Byte)
  /-- R716: Firmware Image Download accepts one 4 KiB-multiple piece of an image. -/
  | firmwareImageDownload (slot : Fin 3072)
  /-- R716: Firmware Commit authenticates the image and stores or activates it. -/
  | firmwareCommit (slot : Fin 3072) (img : ImageSlot)
  /-- R864: Two watchdog fires within 10 minutes, or no resume within 250 ms, reload the kept image. -/
  | firmwareRevert
  /-- R679: Device Self-test runs a short or extended self-test. -/
  | deviceSelfTest (slot : Fin 3072)
  /-- R679: Keep Alive restarts the keep-alive timer. -/
  | keepAlive (slot : Fin 3072)
  /-- R722: Expiry of the Keep Alive Timer sends KEEP_ALIVE_EXPIRED. -/
  | keepAliveExpired (n : Ctrl)
  /-- R677: Virtualization Management moves flexible queue and interrupt resources or brings secondaries online. -/
  | virtualizationManagement (slot : Fin 3072)
  /-- R679: NVMe-MI Send passes a management message. -/
  | nvmeMiSend (slot : Fin 3072) (d : List Byte)
  /-- R679: NVMe-MI Receive returns a management response. -/
  | nvmeMiReceive (slot : Fin 3072)
  /-- R714: Format NVM releases bindings or erases blocks of one namespace under intent records. -/
  | formatNvm (slot : Fin 3072) (resumed : Bool)
  /-- R709: Sanitize performs exit-failure, crypto erase or overwrite on the subsystem. -/
  | sanitize (slot : Fin 3072)
  /-- R712: An unfinished sanitize resumes at start-up without a command. -/
  | sanitizeResume
  /-- R723: Vendor command C0h stores geometry entries in the record store. -/
  | libraryGeometryWrite (slot : Fin 3072) (d : List Byte)
  /-- R724: Vendor command C2h copies a Full zone's rows to a new polder zone and moves the binding. -/
  | zoneMigrate (slot : Fin 3072)
  /-- R679: An admin opcode not supported completes with Invalid Command Opcode. -/
  | unsupportedAdminCommand (slot : Fin 3072)
  /-- R124: Setting CC.EN to 1 makes the controller ready within 50 ms once start-up is complete. -/
  | controllerEnable (n : Ctrl) (ams : Fin 8) (asqs : BitVec 12) (acqs : BitVec 12)
  /-- R719: Clearing CC.EN deletes the controller's queues and abandons unstaged work without completions. -/
  | controllerReset (n : Ctrl)
  /-- R719: Function Level Reset resets that function's controller as clearing CC.EN does. -/
  | functionLevelReset (n : Ctrl)
  /-- R721: CC.SHN stops fetching, finishes work, stores the calibration set and sets SHST complete. -/
  | controllerShutdown (n : Ctrl) (abrupt : Bool)
  /-- R673: The PCIe link trains to the best speed and width allowed, and LINK_DEGRADED is sent if below x4 Gen5. -/
  | pcieLinkTraining (speed : Fin 5) (width : Fin 3)
  /-- R731: A loss of L0 not initiated by the host sends LINK_DOWN. -/
  | pcieLinkDown (byHost : Bool)
  /-- R728: HOST.LINK_CTL.RETRAIN retrains the link with the set limits. -/
  | pcieRetrain (r : Requester)
  /-- R631: Erased sectors of a row position are reconstructed by RS(16,12), with regenerated metadata checked. -/
  | stripeRowReconstruct (polder : BitVec 64) (q : BitVec 24) (sec : Fin 16) (h : Port) (b : BeamNo) (differs : Bool)
  /-- R643: Erased sectors are read once more after a new ACQUIRE before a position is declared unrecoverable. -/
  | erasureRetry (polder : BitVec 64) (q : BitVec 24) (sec : Fin 16)
  /-- R637: On polder closure, the run tables are recorded as directory rows and released from the record store. -/
  | directoryWrite (polder : BitVec 64)
  /-- R638: At the first mount of a closed polder, its directory rows are read into buffer memory. -/
  | directoryLoad (polder : BitVec 64) (ok : Bool)
  /-- R651: A request for a spindle or picker move is granted by class, claiming spindles at unit boundaries. -/
  | spindleRequest (n : Spin)
  /-- R648: The picker moves a disc to a spindle, starts it, acquires L0 and checks the disc against its record. -/
  | discMount (n : Spin) (peer : Bool) (st : MountStep)
  /-- R650: Slot Maps completed, trail-out waited, OPUs parked, spindle braked, and the disc returned. -/
  | discUnmount (n : Spin) (peer : Bool) (st : UnmountStep)
  /-- R646: An axis losing HOMED or stopping ends the picker move with PICK_FAIL. -/
  | pickFail
  /-- R651: At start-up, a record on the picker is reconciled by closing the grip and placing the disc back. -/
  | pickerRecovery (off : Int)
  /-- R652: A member begins lagging, and the polder becomes DEGRADED. -/
  | memberLost (polder : BitVec 64) (member : Fin 16) (disc : Bool)
  /-- R657: START_H hours after a lag begins, or at once on a second loss, completion is started. -/
  | completionStart (polder : BitVec 64)
  /-- R654: A missed row is reconstructed and recorded on the target, or recorded failed past 4 erasures. -/
  | completionRow (polder : BitVec 64) (member : Fin 16) (bad : List (Fin 16))
  /-- R661: The walk reads a row of a due polder, finds weak ingots and advances WALK_NEXT. -/
  | dikeWalkUnit (n : Spin) (len : BitVec 32) (now : Option (BitVec 24)) (marginA : BitVec 16) (marginB : BitVec 16) (pder : BitVec 32) (ws : List WalkSector)
  /-- R663: A weak or unrecoverable ingot is reconstructed into a repair row and entered in the repair map. -/
  | ingotRepair
  /-- R658: Firmware retires a degraded beam and moves the spare into its place. -/
  | beamRetire (h : Port) (b : BeamNo)
  /-- R659: An OPU below two live beams, or failed, is retired and its side is no longer served on that spindle. -/
  | opuRetired (h : Port)
  /-- R238: Slot Maps, a Layer Closure and the Surface Finalisation record are recorded. -/
  | surfaceFinalise (h : Port) (reason : Fin 8) (cut : Option Nat)
  /-- R232: A Slot Map covering consumed slots is appended before unmount, layer close or at 1,024 entries. -/
  | slotMapAppend (h : Port) (layer : Fin 8)
  /-- R233: A layer with 8 or fewer blank control slots is closed and the next layer opened. -/
  | layerClose (h : Port) (layer : Fin 8)
  /-- R235: A burn writes its intents, burns the region, reads it back and records its completion. -/
  | burn (n : Spin) (side : Fin 2) (layer : Fin 8) (bad : List (Nat × Nat))
  /-- R739: The scrub reads the next word and rewrites a corrected word by locked read-modify-write. -/
  | memoryScrubStep (upset : BitVec 144) (owner : Nat)
  /-- R740: FLIP_CTL.ARM arms bit inversion for the next write to FLIP_ADDR, skipped in admitted staging. -/
  | memFlipArm (r : Requester) (w : Word)
  /-- R746: OP_CTL GO with OP 0b001 allocates a line of zeros marked dirty. -/
  | cacheZeroLine (r : Requester)
  /-- R746: OP_CTL GO with OP 0b010 writes a dirty line back and keeps it valid. -/
  | cacheCleanLine (r : Requester)
  /-- R746: OP_CTL GO with OP 0b011 drops the line without writeback. -/
  | cacheInvalidateLine (r : Requester)
  /-- R746: OP_CTL GO with OP 0b100 writes back and drops the line. -/
  | cacheCleanInvalidateLine (r : Requester)
  /-- R747: CACHE_CTL.INV_ALL invalidates every way in 4,096 cycles without writeback. -/
  | cacheInvAll (r : Requester)
  /-- R747: CACHE_CTL.CLEAN_ALL writes every dirty line back within 100 us. -/
  | cacheCleanAll (r : Requester)
  /-- R748: CACHE.FLIP.ARM inverts one data or tag parity bit at the next write to the named way. -/
  | cacheFlipArm (r : Requester) (w : Word)
  /-- R745: A victim entry's writeback completes and frees the entry for waiting misses. -/
  | victimWritebackDone
  /-- R744: Both tag copies failing parity invalidate the way and send CACHE_TAG_LOST. -/
  | cacheTagLost (set : Fin 4096) (way : Fin 16)
  /-- R818: A HELLO frame exchanges serial, role, version and geometry, and brings the link up. -/
  | daxHello (h : DaxHead) (m : Hello)
  /-- R817: A HEARTBEAT frame delivers the partner's state, lease, status and echo. -/
  | daxHeartbeat (h : DaxHead) (m : Heartbeat)
  /-- R816: A NAK makes the sender resend from the oldest unacknowledged frame. -/
  | daxNak (h : DaxHead) (mirror : Bool)
  /-- R816: A frame failing its check or out of order is dropped, counted, and answered with a NAK. -/
  | daxFrameDrop (mirror : Bool)
  /-- R816: An unacknowledged frame after 50 us is resent with every later frame of its channel. -/
  | daxResendTimeout (mirror : Bool)
  /-- R817: Every 100 us the controller sends a HEARTBEAT. -/
  | heartbeatSend
  /-- R817: A 100 us period without a valid HEARTBEAT sends HEARTBEAT_MISS. -/
  | heartbeatMiss
  /-- R817: Heartbeat, echo, lane or mirror timeouts lose the link at t_L and start retraining. -/
  | daxLinkLoss (cause : LossCause)
  /-- R819: A MIRROR_DATA frame is stored in the peer mirror region and acknowledged. -/
  | mirrorData (h : DaxHead) (own : Bool) (b : BatchCopy)
  /-- R819: A MIRROR_ACK lets the mirrored command be acknowledged to the host. -/
  | mirrorAck (h : DaxHead) (seq : Nat) (stored : Bool)
  /-- R822: A RELEASE frame frees the mirror copies of the named batches. -/
  | daxRelease (h : DaxHead) (seqs : List Nat)
  /-- R822: A RELEASE_ACK releases the charge of the named batches. -/
  | releaseAck (h : DaxHead) (seqs : List Nat)
  /-- R823: A RECOVER_REQ is answered with mirror copies of the named batches. -/
  | recoverReq (h : DaxHead) (lo : Nat) (hi : Nat)
  /-- R815: A TABLE_UPDATE frame applies a change to the inventory, a shared namespace or shared polder tables. -/
  | tableUpdate (h : DaxHead) (t : Machine.TableChange)
  /-- R829: A partner picker request is queued at the picker owner under the classes of R651. -/
  | pickReq (h : DaxHead) (num : Nat) (cls : Fin 5) (unmount : Bool) (disc : Nat) (station : Spin)
  /-- R829: A PICK_DONE frame reports the result of a served picker request. -/
  | pickDone (h : DaxHead) (unmount : Bool) (disc : Nat) (station : Spin) (result : Fin 4)
  /-- R830: A forwarded command for an owned group is executed at the owner. -/
  | fwdCmd (h : DaxHead) (slot : Fin 3072) (e : Sqe)
  /-- R830: Forwarded write data is admitted and staged at the owner. -/
  | fwdData (h : DaxHead) (slot : Fin 3072) (bs : List Block)
  /-- R830: A forwarded completion is posted by the receiving controller. -/
  | fwdCpl (h : DaxHead) (slot : Fin 3072) (r : FwdCpl)
  /-- R827: Every POLL_MS the lease engine reads LEASE and acquires by CAS when its rules allow. -/
  | leasePoll
  /-- R827: Every 100 ms the holder renews its lease by CAS. -/
  | leaseRenew
  /-- R825: A witness read or CAS result arrives and updates holding, generation and state. -/
  | witnessResponse (a : WitAnswer)
  /-- R826: A witness transfer unanswered in 2 ms sends WITNESS kind TIMEOUT. -/
  | witnessTimeout
  /-- R827: At s + 300 ms with the link down, the holder stops its moving picker axes. -/
  | leasePickerStop
  /-- R827: At s + 400 ms the holder gives up the lease and sends LEASE_LOST. -/
  | leaseLost
  /-- R826: The peer island writes its status word every 100 ms and within 1 ms of a change. -/
  | witnessStatusWrite
  /-- R828: 200 ms after a successful acquisition, and after homing, the new holder opens its picker gate. -/
  | pickerGateOpen
  /-- R828: A non-holder owning the picker closes its gate at t_L + 100 ms. -/
  | pickerGateClose
  /-- R832: The non-holder sets shared groups Inaccessible, releases them and stops and brakes its shared discs. -/
  | splitNonholder
  /-- R833: The holder takes the partner's groups, rebuilds their tables and admits the mirrored batches. -/
  | takeover
  /-- R836: PEER_FENCE_N seen low while not driving it and not holding the lease makes the controller FENCED. -/
  | peerFenceLow (high : Bool)
  /-- R837: With ASSERT_EN, from t_L + 700 ms the holder drives PEER_FENCE_N until the partner releases. -/
  | fenceAssert
  /-- R838: PAIR_CTL.UNFENCE releases the drive, samples the net, and leaves or stays FENCED. -/
  | unfence (r : Requester) (high : Bool)
  /-- R839: On link up, batches are mirrored again, tables brought to the holder's, and the pair becomes PAIRED. -/
  | pairJoin
  /-- R839: PAIR_CTL.HANDBACK returns a group to its home controller after its batches are mirrored. -/
  | handback (r : Requester)
  /-- R851: When the erase spread exceeds WL_SPREAD, the least-erased block's data is moved under an intent. -/
  | wearLevelMove (pkg : Fin 2) (after : Option EraseCounts)
  /-- R849: A failed program or erase moves the block's data to a spare and reports it. -/
  | nandProgramFail (pkg : Fin 2) (erase : Bool)
  /-- R852: PKG_CTL.HOLD_c stops traffic to a package so that it can be exchanged, if the other is current. -/
  | packageHold (r : Requester) (pkg : Fin 2)
  /-- R852: PKG_CTL.REPLACE_c resets and formats a held new package, and resynchronisation follows. -/
  | packageReplace (r : Requester) (pkg : Fin 2) (found : Option PkgInfo)
  /-- R853: Hourly, firmware logs each beam's wear ratio and estimates the hours to the limit. -/
  | laserWearRead
  /-- R855: Each minute, firmware adds a(Tj)/60 to the life sum. -/
  | lifeSumUpdate
  /-- R790: An island PLL loses lock, and the CLK source PLL_UNLOCK is sent with the island in DETAIL. -/
  | pllUnlock (i : Island)
  /-- R813: Daxlink lane training completes at 4, 2 or 1 lanes, and LANE_DEGRADED is sent when fewer than 4 lanes trained. -/
  | daxLinkTrained (lanes : Fin 3)
  /-- R818: When every frame has failed its check for 10 ms of training, LINK_DOWN with detail 0x2 is sent and training goes on. -/
  | daxTrainingFail
  /-- R176: An NVMe-MI message over MCTP on the management I3C bus is taken and passed to firmware, including admin command tunnelling. -/
  | nvmeMiMctpMessage (d : List Byte) (admin : Option Sqe)
  /-- R841: A write of CLK.PEER_GATE gates or ungates the peer island, refused outside UNPAIRED, and sets SOLO_PICKER. -/
  | peerGateWrite (r : Requester) (gate : Bool) (solo : Bool)
  /-- R497: A focus recovery without focus lock within 100 ms runs ACQUIRE steps 1 to 7 on the same layer. -/
  | focusRecoveryTimeout (h : Port)
  /-- R174: A register read clears RC fields, advances auto-incrementing read pointers such as INV.REC_DATA, and sends a fault source when the page is unmapped or gated. -/
  | registerRead (r : Requester) (n : Ctrl) (size : AccSize) (addr : BitVec 24)
  deriving DecidableEq, Repr
end Sys2Proof
end

