-- ==== Sys2Proof/Machine/Regs.lean ====
section
/-!
DEFINITION. The register fields of every page of the controller: offset, place, width, access type and reset value,
as the field tables of the chapters state them (R9, R137, R142 and the table of each register).
A field that one register repeats (one word per turn, zone, node, tap) is one entry with a count and a stride.
-/
namespace Sys2Proof.Machine

/-- The access types of R9. -/
inductive Acc where
  | ro | rw | rws | w1c | w1p | rc
  deriving DecidableEq, Repr

/-- One register field: the byte offset of its word in the page, its lowest bit, its width, its access type and its
reset value; `cnt` words of the same layout follow at `stride` bytes (R9, R142). -/
structure Fld where
  off : Nat
  lo : Nat
  w : Nat
  acc : Acc
  rst : Nat
  cnt : Nat := 1
  stride : Nat := 4
  deriving DecidableEq, Repr


namespace Reg.HDR
/-- R143 -/ def PAGE_ID_TYPE : Fld := ⟨0x000, 0, 8, .ro, 0, 1, 4⟩
/-- R143 -/ def PAGE_ID_INST : Fld := ⟨0x000, 8, 8, .ro, 0, 1, 4⟩
/-- R143 -/ def PAGE_ID_SUB : Fld := ⟨0x000, 16, 4, .ro, 0, 1, 4⟩
/-- R143 -/ def PAGE_ID_MINOR : Fld := ⟨0x000, 24, 4, .ro, 0, 1, 4⟩
/-- R143 -/ def PAGE_ID_MAJOR : Fld := ⟨0x000, 28, 4, .ro, 0, 1, 4⟩
/-- R144 -/ def PAGE_CTL_EN : Fld := ⟨0x004, 0, 1, .rw, 0, 1, 4⟩
/-- R144 -/ def PAGE_CTL_QUIESCE : Fld := ⟨0x004, 1, 1, .rw, 0, 1, 4⟩
/-- R144 -/ def PAGE_CTL_SOFT_RESET : Fld := ⟨0x004, 2, 1, .w1p, 0, 1, 4⟩
/-- R146 -/ def PAGE_STAT_STATE : Fld := ⟨0x008, 0, 3, .ro, 0, 1, 4⟩
/-- R146 -/ def PAGE_STAT_QUIESCED : Fld := ⟨0x008, 3, 1, .ro, 0, 1, 4⟩
/-- R146 -/ def PAGE_STAT_CLK_PRESENT : Fld := ⟨0x008, 4, 1, .ro, 1, 1, 4⟩
/-- R146 -/ def PAGE_STAT_CLK_LOCAL : Fld := ⟨0x008, 5, 1, .ro, 0, 1, 4⟩
/-- R146 -/ def PAGE_STAT_COMMIT_PENDING : Fld := ⟨0x008, 6, 1, .ro, 0, 1, 4⟩
/-- R147 -/ def INT_STAT_BLOCK : Fld := ⟨0x00C, 0, 30, .w1c, 0, 1, 4⟩
/-- R147 -/ def INT_STAT_DL_MISS_INC : Fld := ⟨0x00C, 30, 1, .w1c, 0, 1, 4⟩
/-- R147 -/ def INT_STAT_COMMIT_DONE : Fld := ⟨0x00C, 31, 1, .w1c, 0, 1, 4⟩
/-- R153 -/ def SHADOW_CTL_COMMIT : Fld := ⟨0x024, 0, 1, .w1p, 0, 1, 4⟩
/-- R153 -/ def SHADOW_CTL_DONE : Fld := ⟨0x024, 1, 1, .ro, 1, 1, 4⟩
/-- R153 -/ def SHADOW_CTL_BOUNDARY : Fld := ⟨0x024, 2, 3, .rw, 1, 1, 4⟩
/-- R153 -/ def SHADOW_CTL_ARMED : Fld := ⟨0x024, 5, 1, .ro, 0, 1, 4⟩
/-- R153 -/ def SHADOW_CTL_ARM_OWNER : Fld := ⟨0x024, 6, 2, .ro, 0, 1, 4⟩
/-- R153 -/ def SHADOW_CTL_WRITE_LOST : Fld := ⟨0x024, 8, 1, .w1c, 0, 1, 4⟩
/-- R153 -/ def SHADOW_CTL_CANCELLED : Fld := ⟨0x024, 9, 1, .w1c, 0, 1, 4⟩
/-- R153 -/ def SHADOW_CTL_DISCARD : Fld := ⟨0x024, 10, 1, .w1p, 0, 1, 4⟩
/-- R154 -/ def LOCK_ACQUIRE : Fld := ⟨0x028, 0, 1, .w1p, 0, 1, 4⟩
/-- R154 -/ def LOCK_RELEASE : Fld := ⟨0x028, 1, 1, .w1p, 0, 1, 4⟩
/-- R154 -/ def LOCK_BREAK : Fld := ⟨0x028, 2, 1, .w1p, 0, 1, 4⟩
/-- R154 -/ def LOCK_HELD : Fld := ⟨0x028, 3, 1, .ro, 0, 1, 4⟩
/-- R154 -/ def LOCK_OWNER : Fld := ⟨0x028, 4, 2, .ro, 0, 1, 4⟩
/-- R154 -/ def LOCK_MINE : Fld := ⟨0x028, 6, 1, .ro, 0, 1, 4⟩
/-- R154 -/ def LOCK_KEY : Fld := ⟨0x028, 8, 8, .rw, 0, 1, 4⟩
/-- R154 -/ def LOCK_DENIED : Fld := ⟨0x028, 16, 16, .ro, 0, 1, 4⟩
/-- R148 -/ def INT_EN_EN_BLOCK : Fld := ⟨0x010, 0, 30, .rw, 0, 1, 4⟩
/-- R148 -/ def INT_EN_EN_DL_MISS : Fld := ⟨0x010, 30, 1, .rw, 0, 1, 4⟩
/-- R148 -/ def INT_EN_EN_COMMIT : Fld := ⟨0x010, 31, 1, .rw, 0, 1, 4⟩
/-- R148 -/ def INT_FORCE_FORCE_BLOCK : Fld := ⟨0x014, 0, 30, .w1p, 0, 1, 4⟩
/-- R148 -/ def INT_FORCE_FORCE_DL_MISS : Fld := ⟨0x014, 30, 1, .w1p, 0, 1, 4⟩
/-- R148 -/ def INT_FORCE_FORCE_COMMIT : Fld := ⟨0x014, 31, 1, .w1p, 0, 1, 4⟩
/-- R150 -/ def FAULT_STAT_SRC : Fld := ⟨0x018, 0, 32, .ro, 0, 1, 4⟩
/-- R151 -/ def FAULT_FORCE_SRC : Fld := ⟨0x01C, 0, 32, .w1p, 0, 1, 4⟩
/-- R152 -/ def DL_MISS_COUNT : Fld := ⟨0x020, 0, 32, .ro, 0, 1, 4⟩
/-- R155 -/ def SEQ_COUNT : Fld := ⟨0x02C, 0, 32, .ro, 0, 1, 4⟩
/-- Every field of the HDR registers. -/
def fields : List Fld :=
  [PAGE_ID_TYPE, PAGE_ID_INST, PAGE_ID_SUB, PAGE_ID_MINOR, PAGE_ID_MAJOR, PAGE_CTL_EN, PAGE_CTL_QUIESCE, PAGE_CTL_SOFT_RESET, PAGE_STAT_STATE, PAGE_STAT_QUIESCED, PAGE_STAT_CLK_PRESENT, PAGE_STAT_CLK_LOCAL, PAGE_STAT_COMMIT_PENDING, INT_STAT_BLOCK, INT_STAT_DL_MISS_INC, INT_STAT_COMMIT_DONE, SHADOW_CTL_COMMIT, SHADOW_CTL_DONE, SHADOW_CTL_BOUNDARY, SHADOW_CTL_ARMED, SHADOW_CTL_ARM_OWNER, SHADOW_CTL_WRITE_LOST, SHADOW_CTL_CANCELLED, SHADOW_CTL_DISCARD] ++
  [LOCK_ACQUIRE, LOCK_RELEASE, LOCK_BREAK, LOCK_HELD, LOCK_OWNER, LOCK_MINE, LOCK_KEY, LOCK_DENIED, INT_EN_EN_BLOCK, INT_EN_EN_DL_MISS, INT_EN_EN_COMMIT, INT_FORCE_FORCE_BLOCK, INT_FORCE_FORCE_DL_MISS, INT_FORCE_FORCE_COMMIT, FAULT_STAT_SRC, FAULT_FORCE_SRC, DL_MISS_COUNT, SEQ_COUNT]
end Reg.HDR

namespace Reg.SYS
/-- R35 -/ def FENCE_START : Fld := ⟨0x040, 0, 1, .w1p, 0, 1, 4⟩
/-- R35 -/ def FENCE_DONE : Fld := ⟨0x040, 1, 1, .ro, 1, 1, 4⟩
/-- R35 -/ def FENCE_TIMEOUT : Fld := ⟨0x040, 2, 1, .ro, 0, 1, 4⟩
/-- R35 -/ def FENCE_SCOPE : Fld := ⟨0x040, 8, 2, .rw, 3, 1, 4⟩
/-- R35 -/ def FENCE_SKIPPED : Fld := ⟨0x040, 16, 8, .ro, 0, 1, 4⟩
/-- R38 -/ def FRAME_NUM_NUM : Fld := ⟨0x044, 0, 32, .ro, 0, 1, 4⟩
/-- R38 -/ def FRAME_TB_LO_TB_LO : Fld := ⟨0x048, 0, 32, .ro, 0, 1, 4⟩
/-- R38 -/ def FRAME_TB_HI_TB_HI : Fld := ⟨0x04C, 0, 32, .ro, 0, 1, 4⟩
/-- R44 -/ def WDOG_CTL_EN : Fld := ⟨0x050, 0, 1, .rw, 1, 1, 4⟩
/-- R44 -/ def WDOG_CTL_KICK : Fld := ⟨0x050, 1, 1, .w1p, 0, 1, 4⟩
/-- R44 -/ def WDOG_CTL_RESTART : Fld := ⟨0x050, 2, 1, .w1p, 0, 1, 4⟩
/-- R44 -/ def WDOG_CTL_TIMEOUT_MS : Fld := ⟨0x050, 8, 16, .rw, 100, 1, 4⟩
/-- R44 -/ def WDOG_CTL_RESTART_COUNT : Fld := ⟨0x050, 24, 8, .ro, 0, 1, 4⟩
/-- R129 -/ def RESET_CAUSE_POR : Fld := ⟨0x060, 0, 1, .w1c, 0, 1, 4⟩
/-- R129 -/ def RESET_CAUSE_RESET_PIN : Fld := ⟨0x060, 1, 1, .w1c, 0, 1, 4⟩
/-- R129 -/ def RESET_CAUSE_SOFT_CHIP : Fld := ⟨0x060, 2, 1, .w1c, 0, 1, 4⟩
/-- R129 -/ def RESET_CAUSE_PERST : Fld := ⟨0x060, 3, 1, .w1c, 0, 1, 4⟩
/-- R129 -/ def RESET_CAUSE_NSSR : Fld := ⟨0x060, 4, 1, .w1c, 0, 1, 4⟩
/-- R129 -/ def RESET_CAUSE_FLUSH_RESTART : Fld := ⟨0x060, 5, 1, .w1c, 0, 1, 4⟩
/-- R129 -/ def RESET_CAUSE_WDOG : Fld := ⟨0x060, 6, 1, .w1c, 0, 1, 4⟩
/-- R129 -/ def RESET_CAUSE_MGMT_REQ : Fld := ⟨0x060, 7, 1, .w1c, 0, 1, 4⟩
/-- R129 -/ def RESET_CAUSE_RETAINED : Fld := ⟨0x060, 8, 1, .ro, 0, 1, 4⟩
/-- R129 -/ def RESET_CAUSE_RETAIN_LOST : Fld := ⟨0x060, 9, 1, .w1c, 0, 1, 4⟩
/-- R129 -/ def RESET_CAUSE_FULL_COUNT : Fld := ⟨0x060, 16, 16, .ro, 0, 1, 4⟩
/-- R130 -/ def RESET_CTL_CHIP : Fld := ⟨0x064, 0, 1, .w1p, 0, 1, 4⟩
/-- R130 -/ def RESET_CTL_KEY : Fld := ⟨0x064, 8, 8, .rw, 0, 1, 4⟩
/-- R130 -/ def RESET_CTL_RETAIN_EN : Fld := ⟨0x064, 16, 1, .rw, 1, 1, 4⟩
/-- R131 -/ def BOOT_STAT_PHASE : Fld := ⟨0x068, 0, 4, .ro, 0, 1, 4⟩
/-- R131 -/ def BOOT_STAT_IMAGE : Fld := ⟨0x068, 4, 1, .ro, 0, 1, 4⟩
/-- R131 -/ def BOOT_STAT_FALLBACK : Fld := ⟨0x068, 5, 1, .ro, 0, 1, 4⟩
/-- R131 -/ def BOOT_STAT_READY : Fld := ⟨0x068, 6, 1, .ro, 0, 1, 4⟩
/-- R131 -/ def BOOT_STAT_ERROR : Fld := ⟨0x068, 8, 8, .ro, 0, 1, 4⟩
/-- R163 -/ def GLOBAL_COMMIT_GO : Fld := ⟨0x074, 0, 1, .w1p, 0, 1, 4⟩
/-- R163 -/ def GLOBAL_COMMIT_CANCEL : Fld := ⟨0x074, 1, 1, .w1p, 0, 1, 4⟩
/-- R163 -/ def GLOBAL_COMMIT_STATE : Fld := ⟨0x074, 2, 2, .ro, 0, 1, 4⟩
/-- R163 -/ def GLOBAL_COMMIT_RESULT : Fld := ⟨0x074, 4, 4, .ro, 0, 1, 4⟩
/-- R163 -/ def GLOBAL_COMMIT_ARMED : Fld := ⟨0x074, 16, 9, .ro, 0, 1, 4⟩
/-- R132 -/ def BOOT_TIME_TICKS : Fld := ⟨0x06C, 0, 32, .ro, 0, 1, 4⟩
/-- R162 -/ def GLOBAL_FRAME_TARGET : Fld := ⟨0x070, 0, 32, .rw, 0, 1, 4⟩
/-- Every field of the SYS registers. -/
def fields : List Fld :=
  [FENCE_START, FENCE_DONE, FENCE_TIMEOUT, FENCE_SCOPE, FENCE_SKIPPED, FRAME_NUM_NUM, FRAME_TB_LO_TB_LO, FRAME_TB_HI_TB_HI, WDOG_CTL_EN, WDOG_CTL_KICK, WDOG_CTL_RESTART, WDOG_CTL_TIMEOUT_MS, WDOG_CTL_RESTART_COUNT, RESET_CAUSE_POR, RESET_CAUSE_RESET_PIN, RESET_CAUSE_SOFT_CHIP, RESET_CAUSE_PERST, RESET_CAUSE_NSSR, RESET_CAUSE_FLUSH_RESTART, RESET_CAUSE_WDOG, RESET_CAUSE_MGMT_REQ, RESET_CAUSE_RETAINED, RESET_CAUSE_RETAIN_LOST, RESET_CAUSE_FULL_COUNT] ++
  [RESET_CTL_CHIP, RESET_CTL_KEY, RESET_CTL_RETAIN_EN, BOOT_STAT_PHASE, BOOT_STAT_IMAGE, BOOT_STAT_FALLBACK, BOOT_STAT_READY, BOOT_STAT_ERROR, GLOBAL_COMMIT_GO, GLOBAL_COMMIT_CANCEL, GLOBAL_COMMIT_STATE, GLOBAL_COMMIT_RESULT, GLOBAL_COMMIT_ARMED, BOOT_TIME_TICKS, GLOBAL_FRAME_TARGET]
end Reg.SYS

namespace Reg.CLK
/-- R280 -/ def OPU_CLK_DEVCLK_EN : Fld := ⟨0x040, 0, 16, .rw, 0, 1, 4⟩
/-- R281 -/ def HEAD_GATE_GATE : Fld := ⟨0x044, 0, 16, .rw, 65535, 1, 4⟩
/-- R869 -/ def OPU_PRESENT_PRESENT : Fld := ⟨0x04C, 0, 16, .ro, 0, 1, 4⟩
/-- R869 -/ def OPU_PRESENT_RAW : Fld := ⟨0x04C, 16, 16, .ro, 0, 1, 4⟩
/-- R841 -/ def PEER_GATE_GATE : Fld := ⟨0x048, 0, 1, .rw, 1, 1, 4⟩
/-- R841 -/ def PEER_GATE_SOLO_PICKER : Fld := ⟨0x048, 1, 1, .rw, 0, 1, 4⟩
/-- Every field of the CLK registers. -/
def fields : List Fld :=
  [OPU_CLK_DEVCLK_EN, HEAD_GATE_GATE, OPU_PRESENT_PRESENT, OPU_PRESENT_RAW, PEER_GATE_GATE, PEER_GATE_SOLO_PICKER]
end Reg.CLK

namespace Reg.FAULT
/-- R807 -/ def SRC_SEL_SOURCE : Fld := ⟨0x040, 0, 10, .rw, 0, 1, 4⟩
/-- R807 -/ def SRC_SEL_RESTORE : Fld := ⟨0x040, 16, 1, .w1p, 0, 1, 4⟩
/-- R807 -/ def SRC_SEL_POPULATED : Fld := ⟨0x040, 17, 1, .ro, 1, 1, 4⟩
/-- R807 -/ def SRC_CFG_N : Fld := ⟨0x044, 0, 8, .rw, 0, 1, 4⟩
/-- R807 -/ def SRC_CFG_BASE : Fld := ⟨0x044, 8, 2, .rw, 0, 1, 4⟩
/-- R807 -/ def SRC_CFG_ESC : Fld := ⟨0x044, 10, 2, .rw, 0, 1, 4⟩
/-- R807 -/ def SRC_CFG_HINT_EN : Fld := ⟨0x044, 12, 1, .rw, 1, 1, 4⟩
/-- R807 -/ def SRC_CFG_SCOPE : Fld := ⟨0x044, 13, 2, .rw, 0, 1, 4⟩
/-- R807 -/ def SRC_CFG_T_MANT : Fld := ⟨0x044, 16, 10, .rw, 0, 1, 4⟩
/-- R807 -/ def SRC_CFG_T_EXP : Fld := ⟨0x044, 26, 4, .rw, 0, 1, 4⟩
/-- R807 -/ def SRC_REACT_NOTE : Fld := ⟨0x048, 0, 8, .rw, 0, 1, 4⟩
/-- R807 -/ def SRC_REACT_DEGRADE : Fld := ⟨0x048, 8, 8, .rw, 17, 1, 4⟩
/-- R807 -/ def SRC_REACT_SEVERE : Fld := ⟨0x048, 16, 8, .rw, 17, 1, 4⟩
/-- R807 -/ def SRC_REACT_CRITICAL : Fld := ⟨0x048, 24, 8, .rw, 31, 1, 4⟩
/-- R807 -/ def SRC_STAT_COUNT_A : Fld := ⟨0x04C, 0, 8, .ro, 0, 1, 4⟩
/-- R807 -/ def SRC_STAT_COUNT_B : Fld := ⟨0x04C, 8, 8, .ro, 0, 1, 4⟩
/-- R807 -/ def SRC_STAT_LAST_CLASS : Fld := ⟨0x04C, 16, 2, .ro, 0, 1, 4⟩
/-- R807 -/ def SRC_STAT_RECORD : Fld := ⟨0x04C, 18, 1, .ro, 0, 1, 4⟩
/-- R807 -/ def SRC_STAT_REC_INDEX : Fld := ⟨0x04C, 20, 10, .ro, 0, 1, 4⟩
/-- R808 -/ def REC_SEL_INDEX : Fld := ⟨0x050, 0, 10, .rw, 0, 1, 4⟩
/-- R808 -/ def REC_SEL_WORD : Fld := ⟨0x050, 10, 3, .ro, 0, 1, 4⟩
/-- R808 -/ def REC_DATA_DATA : Fld := ⟨0x054, 0, 32, .ro, 0, 1, 4⟩
/-- R808 -/ def REC_ACK_INDEX : Fld := ⟨0x058, 0, 10, .rw, 0, 1, 4⟩
/-- R808 -/ def REC_ACK_ACK : Fld := ⟨0x058, 10, 1, .w1p, 0, 1, 4⟩
/-- R808 -/ def REC_ACK_COPIED : Fld := ⟨0x058, 11, 1, .w1p, 0, 1, 4⟩
/-- R808 -/ def REC_ACK_STALE : Fld := ⟨0x058, 12, 1, .ro, 0, 1, 4⟩
/-- R808 -/ def REC_ACK_COUNT : Fld := ⟨0x058, 16, 14, .rw, 0, 1, 4⟩
/-- R808 -/ def MEM_STAT_USED : Fld := ⟨0x05C, 0, 11, .ro, 0, 1, 4⟩
/-- R808 -/ def MEM_STAT_UNACKED : Fld := ⟨0x05C, 11, 11, .ro, 0, 1, 4⟩
/-- R808 -/ def MEM_NEXT_OLDEST_UNCOPIED : Fld := ⟨0x060, 0, 10, .ro, 0, 1, 4⟩
/-- R808 -/ def MEM_NEXT_NONE : Fld := ⟨0x060, 10, 1, .ro, 1, 1, 4⟩
/-- R808 -/ def MEM_EVENTS_LOST_UNCOPIED : Fld := ⟨0x064, 0, 8, .rc, 0, 1, 4⟩
/-- R808 -/ def MEM_EVENTS_HANDLING : Fld := ⟨0x064, 8, 8, .rc, 0, 1, 4⟩
/-- R808 -/ def MEM_EVENTS_UNKNOWN : Fld := ⟨0x064, 16, 8, .rc, 0, 1, 4⟩
/-- R808 -/ def MEM_EVENTS_CAPTURE_LOST : Fld := ⟨0x064, 24, 8, .rc, 0, 1, 4⟩
/-- R809 -/ def ALERT_CTL_HOLD : Fld := ⟨0x068, 0, 1, .rw, 0, 1, 4⟩
/-- R809 -/ def ALERT_CTL_RELEASE : Fld := ⟨0x068, 1, 1, .w1p, 0, 1, 4⟩
/-- R809 -/ def ALERT_CTL_LOW : Fld := ⟨0x068, 2, 1, .ro, 0, 1, 4⟩
/-- R809 -/ def ALERT_CTL_HELD : Fld := ⟨0x068, 3, 1, .ro, 0, 1, 4⟩
/-- R809 -/ def ALERT_CTL_PULSES : Fld := ⟨0x068, 16, 16, .ro, 0, 1, 4⟩
/-- R809 -/ def QUENCH_HEAD_PORTS : Fld := ⟨0x06C, 0, 16, .w1c, 0, 1, 4⟩
/-- R809 -/ def QUENCH_SPIN_SPINS : Fld := ⟨0x070, 0, 8, .w1c, 0, 1, 4⟩
/-- R809 -/ def QUENCH_AXIS_AXES : Fld := ⟨0x074, 0, 22, .w1c, 0, 1, 4⟩
/-- R809 -/ def QUENCH_EVENTS_DENIED : Fld := ⟨0x078, 0, 8, .rc, 0, 1, 4⟩
/-- R809 -/ def QUENCH_EVENTS_FLUSH : Fld := ⟨0x078, 8, 1, .ro, 0, 1, 4⟩
/-- R809 -/ def QUENCH_EVENTS_ACTIVATIONS : Fld := ⟨0x078, 16, 16, .ro, 0, 1, 4⟩
/-- R809 -/ def FORCE_CFG_HINT : Fld := ⟨0x07C, 0, 2, .rw, 0, 1, 4⟩
/-- Every field of the FAULT registers. -/
def fields : List Fld :=
  [SRC_SEL_SOURCE, SRC_SEL_RESTORE, SRC_SEL_POPULATED, SRC_CFG_N, SRC_CFG_BASE, SRC_CFG_ESC, SRC_CFG_HINT_EN, SRC_CFG_SCOPE, SRC_CFG_T_MANT, SRC_CFG_T_EXP, SRC_REACT_NOTE, SRC_REACT_DEGRADE, SRC_REACT_SEVERE, SRC_REACT_CRITICAL, SRC_STAT_COUNT_A, SRC_STAT_COUNT_B, SRC_STAT_LAST_CLASS, SRC_STAT_RECORD, SRC_STAT_REC_INDEX, REC_SEL_INDEX, REC_SEL_WORD, REC_DATA_DATA, REC_ACK_INDEX, REC_ACK_ACK] ++
  [REC_ACK_COPIED, REC_ACK_STALE, REC_ACK_COUNT, MEM_STAT_USED, MEM_STAT_UNACKED, MEM_NEXT_OLDEST_UNCOPIED, MEM_NEXT_NONE, MEM_EVENTS_LOST_UNCOPIED, MEM_EVENTS_HANDLING, MEM_EVENTS_UNKNOWN, MEM_EVENTS_CAPTURE_LOST, ALERT_CTL_HOLD, ALERT_CTL_RELEASE, ALERT_CTL_LOW, ALERT_CTL_HELD, ALERT_CTL_PULSES, QUENCH_HEAD_PORTS, QUENCH_SPIN_SPINS, QUENCH_AXIS_AXES, QUENCH_EVENTS_DENIED, QUENCH_EVENTS_FLUSH, QUENCH_EVENTS_ACTIVATIONS, FORCE_CFG_HINT]
end Reg.FAULT

namespace Reg.ASSAY
/-- R619 -/ def ASSAY_CTL_CAL_M_EN : Fld := ⟨0x040, 0, 1, .rw, 1, 1, 4⟩
/-- R619 -/ def ASSAY_CTL_CAL_H_EN : Fld := ⟨0x040, 1, 1, .rw, 1, 1, 4⟩
/-- R620 -/ def ASSAY_STAT_REF_OK : Fld := ⟨0x044, 0, 1, .ro, 0, 1, 4⟩
/-- R620 -/ def ASSAY_STAT_CAL_M_READY : Fld := ⟨0x044, 1, 1, .ro, 0, 1, 4⟩
/-- R620 -/ def ASSAY_STAT_CAL_H_READY : Fld := ⟨0x044, 2, 1, .ro, 0, 1, 4⟩
/-- R620 -/ def ASSAY_STAT_FIRST_CYCLE : Fld := ⟨0x044, 3, 1, .ro, 0, 1, 4⟩
/-- R621 -/ def REF_DEV_PPM : Fld := ⟨0x048, 0, 16, .ro, 0, 1, 4⟩
/-- R621 -/ def CAL_CYCLES_M_SLOTS : Fld := ⟨0x04C, 0, 16, .ro, 0, 1, 4⟩
/-- R621 -/ def CAL_CYCLES_H_SLOTS : Fld := ⟨0x04C, 16, 16, .ro, 0, 1, 4⟩
/-- R621 -/ def TEMP_T : Fld := ⟨0x050, 0, 16, .ro, 0, 12, 4⟩
/-- R621 -/ def TEMP_VALID : Fld := ⟨0x050, 16, 1, .ro, 0, 12, 4⟩
/-- R621 -/ def TJ_T : Fld := ⟨0x080, 0, 16, .ro, 0, 1, 4⟩
/-- R621 -/ def VHOLD_CODE : Fld := ⟨0x084, 0, 14, .ro, 0, 1, 4⟩
/-- R622 -/ def CONV_SEL_INDEX : Fld := ⟨0x088, 0, 4, .rw, 0, 1, 4⟩
/-- R622 -/ def CONV_OFS_OFS : Fld := ⟨0x08C, 0, 16, .ro, 0, 1, 4⟩
/-- R622 -/ def CONV_GAIN_GAIN : Fld := ⟨0x090, 0, 32, .ro, 0, 1, 4⟩
/-- R622 -/ def CONV_STAT_CALS : Fld := ⟨0x094, 0, 16, .ro, 0, 1, 4⟩
/-- R622 -/ def CONV_STAT_REJECTS : Fld := ⟨0x094, 16, 8, .rc, 0, 1, 4⟩
/-- R623 -/ def SET_CFG_CAPTURE_BAND : Fld := ⟨0x098, 0, 4, .rw, 5, 1, 4⟩
/-- R623 -/ def SET_CFG_CH_STEP : Fld := ⟨0x098, 4, 4, .rw, 3, 1, 4⟩
/-- R623 -/ def SET_CFG_STORE_MIN : Fld := ⟨0x098, 8, 8, .rw, 10, 1, 4⟩
/-- R623 -/ def SET_CFG_STORE_REQ : Fld := ⟨0x098, 16, 1, .w1p, 0, 1, 4⟩
/-- Every field of the ASSAY registers. -/
def fields : List Fld :=
  [ASSAY_CTL_CAL_M_EN, ASSAY_CTL_CAL_H_EN, ASSAY_STAT_REF_OK, ASSAY_STAT_CAL_M_READY, ASSAY_STAT_CAL_H_READY, ASSAY_STAT_FIRST_CYCLE, REF_DEV_PPM, CAL_CYCLES_M_SLOTS, CAL_CYCLES_H_SLOTS, TEMP_T, TEMP_VALID, TJ_T, VHOLD_CODE, CONV_SEL_INDEX, CONV_OFS_OFS, CONV_GAIN_GAIN, CONV_STAT_CALS, CONV_STAT_REJECTS, SET_CFG_CAPTURE_BAND, SET_CFG_CH_STEP, SET_CFG_STORE_MIN, SET_CFG_STORE_REQ]
end Reg.ASSAY

namespace Reg.HOST
/-- R727 -/ def LINK_STAT_SPEED : Fld := ⟨0x040, 0, 3, .ro, 0, 1, 4⟩
/-- R727 -/ def LINK_STAT_WIDTH : Fld := ⟨0x040, 3, 3, .ro, 0, 1, 4⟩
/-- R727 -/ def LINK_STAT_UP : Fld := ⟨0x040, 6, 1, .ro, 0, 1, 4⟩
/-- R727 -/ def LINK_STAT_DEGRADED : Fld := ⟨0x040, 7, 1, .ro, 0, 1, 4⟩
/-- R727 -/ def LINK_STAT_RETRAINS : Fld := ⟨0x040, 16, 8, .ro, 0, 1, 4⟩
/-- R728 -/ def LINK_CTL_MAX_SPEED : Fld := ⟨0x044, 0, 3, .rw, 5, 1, 4⟩
/-- R728 -/ def LINK_CTL_MAX_WIDTH : Fld := ⟨0x044, 3, 3, .rw, 4, 1, 4⟩
/-- R728 -/ def LINK_CTL_RETRAIN : Fld := ⟨0x044, 6, 1, .w1p, 0, 1, 4⟩
/-- R729 -/ def IDS_VID : Fld := ⟨0x048, 0, 16, .ro, 8008, 1, 4⟩
/-- R729 -/ def IDS_DID : Fld := ⟨0x048, 16, 16, .ro, 2070, 1, 4⟩
/-- R729 -/ def FUNC_STAT_EN : Fld := ⟨0x04C, 0, 16, .ro, 0, 1, 4⟩
/-- R729 -/ def FUNC_STAT_RDY : Fld := ⟨0x04C, 16, 16, .ro, 0, 1, 4⟩
/-- R729 -/ def DMA_ERR_CA : Fld := ⟨0x050, 0, 8, .rc, 0, 1, 4⟩
/-- R729 -/ def DMA_ERR_UR : Fld := ⟨0x050, 8, 8, .rc, 0, 1, 4⟩
/-- R729 -/ def DMA_ERR_POISON : Fld := ⟨0x050, 16, 8, .rc, 0, 1, 4⟩
/-- R729 -/ def DMA_ERR_TIMEOUT : Fld := ⟨0x050, 24, 8, .rc, 0, 1, 4⟩
/-- R729 -/ def PI_ERR_GUARD : Fld := ⟨0x054, 0, 8, .rc, 0, 1, 4⟩
/-- R729 -/ def PI_ERR_APP : Fld := ⟨0x054, 8, 8, .rc, 0, 1, 4⟩
/-- R729 -/ def PI_ERR_REF : Fld := ⟨0x054, 16, 8, .rc, 0, 1, 4⟩
/-- R729 -/ def XTS_STAT_KEYS : Fld := ⟨0x058, 0, 11, .ro, 0, 1, 4⟩
/-- R729 -/ def XTS_STAT_SELFTEST_OK : Fld := ⟨0x058, 11, 1, .ro, 0, 1, 4⟩
/-- Every field of the HOST registers. -/
def fields : List Fld :=
  [LINK_STAT_SPEED, LINK_STAT_WIDTH, LINK_STAT_UP, LINK_STAT_DEGRADED, LINK_STAT_RETRAINS, LINK_CTL_MAX_SPEED, LINK_CTL_MAX_WIDTH, LINK_CTL_RETRAIN, IDS_VID, IDS_DID, FUNC_STAT_EN, FUNC_STAT_RDY, DMA_ERR_CA, DMA_ERR_UR, DMA_ERR_POISON, DMA_ERR_TIMEOUT, PI_ERR_GUARD, PI_ERR_APP, PI_ERR_REF, XTS_STAT_KEYS, XTS_STAT_SELFTEST_OK]
end Reg.HOST

namespace Reg.CMD
/-- R730 -/ def INFLIGHT_NOW : Fld := ⟨0x040, 0, 12, .ro, 0, 1, 4⟩
/-- R730 -/ def INFLIGHT_HI_HIGH : Fld := ⟨0x044, 0, 12, .rc, 0, 1, 4⟩
/-- R730 -/ def SLOT_CFG_GUAR : Fld := ⟨0x048, 0, 8, .rw, 64, 1, 4⟩
/-- R730 -/ def SLOT_CFG_SQ_MAX : Fld := ⟨0x048, 8, 12, .rw, 256, 1, 4⟩
/-- R730 -/ def MOUNT_WAIT_SECONDS : Fld := ⟨0x04C, 0, 8, .rw, 20, 1, 4⟩
/-- R730 -/ def ORDER_CFG_MARK : Fld := ⟨0x050, 0, 16, .rw, 0, 1, 4⟩
/-- R730 -/ def ZONE_STAT_ACTIVE : Fld := ⟨0x054, 0, 11, .ro, 0, 1, 4⟩
/-- R730 -/ def ZONE_STAT_OPEN : Fld := ⟨0x054, 11, 11, .ro, 0, 1, 4⟩
/-- R730 -/ def STATUS_COUNT_URE : Fld := ⟨0x058, 0, 16, .rc, 0, 1, 4⟩
/-- R730 -/ def STATUS_COUNT_INTERRUPTED : Fld := ⟨0x058, 16, 16, .rc, 0, 1, 4⟩
/-- Every field of the CMD registers. -/
def fields : List Fld :=
  [INFLIGHT_NOW, INFLIGHT_HI_HIGH, SLOT_CFG_GUAR, SLOT_CFG_SQ_MAX, MOUNT_WAIT_SECONDS, ORDER_CFG_MARK, ZONE_STAT_ACTIVE, ZONE_STAT_OPEN, STATUS_COUNT_URE, STATUS_COUNT_INTERRUPTED]
end Reg.CMD

namespace Reg.MEM
/-- R762 -/ def ECC_CTL_SCRUB_EN : Fld := ⟨0x040, 0, 1, .rw, 1, 1, 4⟩
/-- R762 -/ def ECC_CTL_SCRUB_HOURS : Fld := ⟨0x040, 8, 8, .rw, 24, 1, 4⟩
/-- R763 -/ def ECC_STAT_CORR : Fld := ⟨0x044, 0, 16, .rc, 0, 1, 4⟩
/-- R763 -/ def ECC_STAT_UNCORR : Fld := ⟨0x044, 16, 8, .rc, 0, 1, 4⟩
/-- R763 -/ def ECC_STAT_ADDR_ERR : Fld := ⟨0x044, 24, 8, .rc, 0, 1, 4⟩
/-- R763 -/ def ECC_LAST_LO_ADDR : Fld := ⟨0x048, 0, 32, .ro, 0, 1, 4⟩
/-- R763 -/ def ECC_LAST_HI_ADDR : Fld := ⟨0x04C, 0, 3, .ro, 0, 1, 4⟩
/-- R763 -/ def ECC_LAST_HI_KIND : Fld := ⟨0x04C, 4, 2, .ro, 0, 1, 4⟩
/-- R763 -/ def ECC_LAST_HI_BIT : Fld := ⟨0x04C, 8, 8, .ro, 0, 1, 4⟩
/-- R763 -/ def SCRUB_STAT_PASSES : Fld := ⟨0x050, 0, 16, .ro, 0, 1, 4⟩
/-- R763 -/ def SCRUB_STAT_PROGRESS : Fld := ⟨0x050, 16, 16, .ro, 0, 1, 4⟩
/-- R763 -/ def FLIP_ADDR_LO_ADDR : Fld := ⟨0x054, 4, 28, .rw, 0, 1, 4⟩
/-- R763 -/ def FLIP_ADDR_HI_ADDR : Fld := ⟨0x058, 0, 3, .rw, 0, 1, 4⟩
/-- R763 -/ def FLIP_CTL_POS0 : Fld := ⟨0x05C, 0, 8, .rw, 0, 1, 4⟩
/-- R763 -/ def FLIP_CTL_EN0 : Fld := ⟨0x05C, 8, 1, .rw, 0, 1, 4⟩
/-- R763 -/ def FLIP_CTL_POS1 : Fld := ⟨0x05C, 16, 8, .rw, 0, 1, 4⟩
/-- R763 -/ def FLIP_CTL_EN1 : Fld := ⟨0x05C, 24, 1, .rw, 0, 1, 4⟩
/-- R763 -/ def FLIP_CTL_ARM : Fld := ⟨0x05C, 29, 1, .w1p, 0, 1, 4⟩
/-- R763 -/ def FLIP_CTL_ARMED : Fld := ⟨0x05C, 30, 1, .ro, 0, 1, 4⟩
/-- R763 -/ def FLIP_CTL_DONE : Fld := ⟨0x05C, 31, 1, .ro, 0, 1, 4⟩
/-- Every field of the MEM registers. -/
def fields : List Fld :=
  [ECC_CTL_SCRUB_EN, ECC_CTL_SCRUB_HOURS, ECC_STAT_CORR, ECC_STAT_UNCORR, ECC_STAT_ADDR_ERR, ECC_LAST_LO_ADDR, ECC_LAST_HI_ADDR, ECC_LAST_HI_KIND, ECC_LAST_HI_BIT, SCRUB_STAT_PASSES, SCRUB_STAT_PROGRESS, FLIP_ADDR_LO_ADDR, FLIP_ADDR_HI_ADDR, FLIP_CTL_POS0, FLIP_CTL_EN0, FLIP_CTL_POS1, FLIP_CTL_EN1, FLIP_CTL_ARM, FLIP_CTL_ARMED, FLIP_CTL_DONE]
end Reg.MEM

namespace Reg.CACHE
/-- R764 -/ def CACHE_CTL_INV_ALL : Fld := ⟨0x040, 0, 1, .w1p, 0, 1, 4⟩
/-- R764 -/ def CACHE_CTL_CLEAN_ALL : Fld := ⟨0x040, 1, 1, .w1p, 0, 1, 4⟩
/-- R764 -/ def CACHE_CTL_BUSY : Fld := ⟨0x040, 2, 1, .ro, 0, 1, 4⟩
/-- R764 -/ def OP_ADDR_LO_ADDR : Fld := ⟨0x044, 7, 25, .rw, 0, 1, 4⟩
/-- R764 -/ def OP_ADDR_HI_ADDR : Fld := ⟨0x048, 0, 3, .rw, 0, 1, 4⟩
/-- R764 -/ def OP_CTL_OP : Fld := ⟨0x04C, 0, 3, .rw, 0, 1, 4⟩
/-- R764 -/ def OP_CTL_GO : Fld := ⟨0x04C, 3, 1, .w1p, 0, 1, 4⟩
/-- R764 -/ def OP_CTL_DONE : Fld := ⟨0x04C, 4, 1, .ro, 1, 1, 4⟩
/-- R764 -/ def ERR_STAT_DATA_CORR : Fld := ⟨0x050, 0, 16, .rc, 0, 1, 4⟩
/-- R764 -/ def ERR_STAT_DATA_UNCORR : Fld := ⟨0x050, 16, 8, .rc, 0, 1, 4⟩
/-- R764 -/ def ERR_STAT_TAG_PAR : Fld := ⟨0x050, 24, 8, .rc, 0, 1, 4⟩
/-- R764 -/ def ERR_LAST_SET : Fld := ⟨0x054, 0, 12, .ro, 0, 1, 4⟩
/-- R764 -/ def ERR_LAST_WAY : Fld := ⟨0x054, 12, 4, .ro, 0, 1, 4⟩
/-- R764 -/ def ERR_LAST_KIND : Fld := ⟨0x054, 16, 2, .ro, 0, 1, 4⟩
/-- R764 -/ def FLIP_SET : Fld := ⟨0x058, 0, 12, .rw, 0, 1, 4⟩
/-- R764 -/ def FLIP_WAY : Fld := ⟨0x058, 12, 4, .rw, 0, 1, 4⟩
/-- R764 -/ def FLIP_SUB : Fld := ⟨0x058, 16, 3, .rw, 0, 1, 4⟩
/-- R764 -/ def FLIP_BIT : Fld := ⟨0x058, 19, 8, .rw, 0, 1, 4⟩
/-- R764 -/ def FLIP_MODE : Fld := ⟨0x058, 27, 2, .rw, 0, 1, 4⟩
/-- R764 -/ def FLIP_ARM : Fld := ⟨0x058, 29, 1, .w1p, 0, 1, 4⟩
/-- R764 -/ def FLIP_DONE : Fld := ⟨0x058, 30, 1, .ro, 0, 1, 4⟩
/-- Every field of the CACHE registers. -/
def fields : List Fld :=
  [CACHE_CTL_INV_ALL, CACHE_CTL_CLEAN_ALL, CACHE_CTL_BUSY, OP_ADDR_LO_ADDR, OP_ADDR_HI_ADDR, OP_CTL_OP, OP_CTL_GO, OP_CTL_DONE, ERR_STAT_DATA_CORR, ERR_STAT_DATA_UNCORR, ERR_STAT_TAG_PAR, ERR_LAST_SET, ERR_LAST_WAY, ERR_LAST_KIND, FLIP_SET, FLIP_WAY, FLIP_SUB, FLIP_BIT, FLIP_MODE, FLIP_ARM, FLIP_DONE]
end Reg.CACHE

namespace Reg.SLUICE
/-- R765 -/ def SLUICE_CTL_TEST_REQ : Fld := ⟨0x040, 1, 1, .w1p, 0, 1, 4⟩
/-- R765 -/ def SLUICE_CTL_WT_FORCE : Fld := ⟨0x040, 2, 1, .rw, 0, 1, 4⟩
/-- R766 -/ def STAGE_LIMIT_MIB : Fld := ⟨0x044, 0, 12, .rws, 512, 1, 4⟩
/-- R766 -/ def DIVIDER_RATIO : Fld := ⟨0x048, 0, 20, .rws, 50000, 1, 4⟩
/-- R766 -/ def DIVIDER_TOL_PPM : Fld := ⟨0x048, 20, 12, .rws, 1000, 1, 4⟩
/-- R766 -/ def VCUT_V_CUT_MV : Fld := ⟨0x04C, 0, 16, .rws, 24000, 1, 4⟩
/-- R766 -/ def VCUT_EFF_PCT : Fld := ⟨0x04C, 16, 8, .rws, 85, 1, 4⟩
/-- R766 -/ def VCUT_MARGIN_PCT : Fld := ⟨0x04C, 24, 8, .rws, 10, 1, 4⟩
/-- R766 -/ def FLUSH_CFG_P_FLUSH : Fld := ⟨0x050, 0, 16, .rws, 3000, 1, 4⟩
/-- R766 -/ def FLUSH_CFG_RATE : Fld := ⟨0x050, 16, 12, .rws, 350, 1, 4⟩
/-- R766 -/ def TEST_CFG_R_LOAD : Fld := ⟨0x054, 0, 16, .rws, 1000, 1, 4⟩
/-- R766 -/ def TEST_CFG_TEST_MS : Fld := ⟨0x054, 16, 5, .rws, 10, 1, 4⟩
/-- R766 -/ def TEST_CFG_PERIOD_MIN : Fld := ⟨0x054, 21, 11, .rws, 60, 1, 4⟩
/-- R766 -/ def CAP_CFG_CAP_TOL : Fld := ⟨0x058, 0, 8, .rws, 5, 1, 4⟩
/-- R766 -/ def CAP_CFG_CAP_MIN_MF : Fld := ⟨0x058, 16, 16, .rws, 50, 1, 4⟩
/-- R766 -/ def WT_CFG_WT_DELAY_MS : Fld := ⟨0x05C, 0, 16, .rws, 500, 1, 4⟩
/-- R766 -/ def WT_CFG_RESUME_MS : Fld := ⟨0x05C, 16, 16, .rws, 2000, 1, 4⟩
/-- R767 -/ def CAP_MEAS_UF : Fld := ⟨0x060, 0, 24, .ro, 0, 1, 4⟩
/-- R767 -/ def ESR_MEAS_MOHM : Fld := ⟨0x064, 0, 16, .ro, 0, 1, 4⟩
/-- R767 -/ def ESR_MEAS_TESTS : Fld := ⟨0x064, 16, 16, .ro, 0, 1, 4⟩
/-- R767 -/ def ADMITTED_KIB : Fld := ⟨0x068, 0, 24, .ro, 0, 1, 4⟩
/-- R767 -/ def BUDGET_KIB : Fld := ⟨0x06C, 0, 24, .ro, 0, 1, 4⟩
/-- R767 -/ def SLUICE_STAT_WAITING : Fld := ⟨0x070, 0, 1, .ro, 0, 1, 4⟩
/-- R767 -/ def SLUICE_STAT_WT_ACTIVE : Fld := ⟨0x070, 1, 1, .ro, 0, 1, 4⟩
/-- R767 -/ def SLUICE_STAT_SHORT : Fld := ⟨0x070, 2, 1, .ro, 0, 1, 4⟩
/-- R767 -/ def SLUICE_STAT_TESTING : Fld := ⟨0x070, 3, 1, .ro, 0, 1, 4⟩
/-- R767 -/ def SLUICE_STAT_CAP_VALID : Fld := ⟨0x070, 4, 1, .ro, 0, 1, 4⟩
/-- R767 -/ def SLUICE_STAT_FLUSHING : Fld := ⟨0x070, 5, 1, .ro, 0, 1, 4⟩
/-- R767 -/ def SLUICE_STAT_WT_COUNT : Fld := ⟨0x070, 16, 11, .ro, 0, 1, 4⟩
/-- R767 -/ def FLUSH_LAST_MS : Fld := ⟨0x074, 0, 16, .ro, 0, 1, 4⟩
/-- R767 -/ def FLUSH_LAST_MIB : Fld := ⟨0x074, 16, 16, .ro, 0, 1, 4⟩
/-- Every field of the SLUICE registers. -/
def fields : List Fld :=
  [SLUICE_CTL_TEST_REQ, SLUICE_CTL_WT_FORCE, STAGE_LIMIT_MIB, DIVIDER_RATIO, DIVIDER_TOL_PPM, VCUT_V_CUT_MV, VCUT_EFF_PCT, VCUT_MARGIN_PCT, FLUSH_CFG_P_FLUSH, FLUSH_CFG_RATE, TEST_CFG_R_LOAD, TEST_CFG_TEST_MS, TEST_CFG_PERIOD_MIN, CAP_CFG_CAP_TOL, CAP_CFG_CAP_MIN_MF, WT_CFG_WT_DELAY_MS, WT_CFG_RESUME_MS, CAP_MEAS_UF, ESR_MEAS_MOHM, ESR_MEAS_TESTS, ADMITTED_KIB, BUDGET_KIB, SLUICE_STAT_WAITING, SLUICE_STAT_WT_ACTIVE] ++
  [SLUICE_STAT_SHORT, SLUICE_STAT_TESTING, SLUICE_STAT_CAP_VALID, SLUICE_STAT_FLUSHING, SLUICE_STAT_WT_COUNT, FLUSH_LAST_MS, FLUSH_LAST_MIB]
end Reg.SLUICE

namespace Reg.POLDER
/-- R666 -/ def POLDER_CTL_WALK_EN : Fld := ⟨0x040, 0, 1, .rw, 1, 1, 4⟩
/-- R666 -/ def POLDER_CTL_COMP_EN : Fld := ⟨0x040, 1, 1, .rw, 1, 1, 4⟩
/-- R666 -/ def POLDER_CTL_REPAIR_EN : Fld := ⟨0x040, 2, 1, .rw, 1, 1, 4⟩
/-- R666 -/ def POLDER_CTL_DEFER_EN : Fld := ⟨0x040, 3, 1, .rw, 1, 1, 4⟩
/-- R667 -/ def ACT_SEL_ENTRY : Fld := ⟨0x044, 0, 4, .rw, 0, 1, 4⟩
/-- R667 -/ def ACT_ID_LO_ID : Fld := ⟨0x048, 0, 32, .ro, 0, 1, 4⟩
/-- R667 -/ def ACT_ID_HI_ID : Fld := ⟨0x04C, 0, 32, .ro, 0, 1, 4⟩
/-- R667 -/ def ACT_STAT_STATE : Fld := ⟨0x050, 0, 3, .ro, 0, 1, 4⟩
/-- R667 -/ def ACT_STAT_MOUNTED : Fld := ⟨0x050, 3, 8, .ro, 0, 1, 4⟩
/-- R667 -/ def ACT_STAT_LAGGING : Fld := ⟨0x050, 16, 16, .ro, 0, 1, 4⟩
/-- R667 -/ def ACT_ROWS_NEXT_Q : Fld := ⟨0x054, 0, 24, .ro, 0, 1, 4⟩
/-- R667 -/ def ACT_COMP_COMP_Q : Fld := ⟨0x058, 0, 24, .ro, 0, 1, 4⟩
/-- R667 -/ def ACT_COMP_TARGETS : Fld := ⟨0x058, 24, 4, .ro, 0, 1, 4⟩
/-- R668 -/ def WALK_CFG_PERIOD_DAYS : Fld := ⟨0x05C, 0, 16, .rw, 1825, 1, 4⟩
/-- R668 -/ def WALK_CFG_WEAK_ITER : Fld := ⟨0x05C, 16, 8, .rw, 16, 1, 4⟩
/-- R668 -/ def WALK_CFG_REPAIR_WEAK : Fld := ⟨0x05C, 24, 8, .rw, 2, 1, 4⟩
/-- R668 -/ def WALK_CFG2_WEAK_ERRS : Fld := ⟨0x060, 0, 16, .rw, 600, 1, 4⟩
/-- R668 -/ def WALK_CFG2_REPAIR_MAX : Fld := ⟨0x060, 16, 16, .rw, 16384, 1, 4⟩
/-- R668 -/ def COMP_CFG_START_H : Fld := ⟨0x064, 0, 8, .rw, 1, 1, 4⟩
/-- R668 -/ def GRIP_CFG_GRIP_WIN : Fld := ⟨0x068, 0, 16, .rw, 512, 1, 4⟩
/-- R669 -/ def READ_STAT_RECON : Fld := ⟨0x06C, 0, 16, .rc, 0, 1, 4⟩
/-- R669 -/ def READ_STAT_UNRECOVERED : Fld := ⟨0x06C, 16, 16, .rc, 0, 1, 4⟩
/-- R669 -/ def WALK_STAT_WEAK : Fld := ⟨0x070, 0, 16, .rc, 0, 1, 4⟩
/-- R669 -/ def WALK_STAT_REPAIRED : Fld := ⟨0x070, 16, 16, .rc, 0, 1, 4⟩
/-- R866 -/ def BG_CFG_WALK_PCT : Fld := ⟨0x074, 0, 8, .rw, 20, 1, 4⟩
/-- R866 -/ def BG_CFG_WALK_SPINDLES : Fld := ⟨0x074, 8, 4, .rw, 2, 1, 4⟩
/-- R866 -/ def BG_CFG_PAUSE : Fld := ⟨0x074, 12, 1, .rw, 0, 1, 4⟩
/-- Every field of the POLDER registers. -/
def fields : List Fld :=
  [POLDER_CTL_WALK_EN, POLDER_CTL_COMP_EN, POLDER_CTL_REPAIR_EN, POLDER_CTL_DEFER_EN, ACT_SEL_ENTRY, ACT_ID_LO_ID, ACT_ID_HI_ID, ACT_STAT_STATE, ACT_STAT_MOUNTED, ACT_STAT_LAGGING, ACT_ROWS_NEXT_Q, ACT_COMP_COMP_Q, ACT_COMP_TARGETS, WALK_CFG_PERIOD_DAYS, WALK_CFG_WEAK_ITER, WALK_CFG_REPAIR_WEAK, WALK_CFG2_WEAK_ERRS, WALK_CFG2_REPAIR_MAX, COMP_CFG_START_H, GRIP_CFG_GRIP_WIN, READ_STAT_RECON, READ_STAT_UNRECOVERED, WALK_STAT_WEAK, WALK_STAT_REPAIRED] ++
  [BG_CFG_WALK_PCT, BG_CFG_WALK_SPINDLES, BG_CFG_PAUSE]
end Reg.POLDER

namespace Reg.INV
/-- R670 -/ def INV_STAT_PICKER : Fld := ⟨0x040, 0, 3, .ro, 0, 1, 4⟩
/-- R670 -/ def INV_STAT_QUEUE : Fld := ⟨0x040, 8, 8, .ro, 0, 1, 4⟩
/-- R670 -/ def INV_STAT_CLASS : Fld := ⟨0x040, 16, 5, .ro, 0, 1, 4⟩
/-- R671 -/ def REC_SLOT_SLOT : Fld := ⟨0x044, 0, 20, .rw, 0, 1, 4⟩
/-- R671 -/ def REC_SLOT_WORD : Fld := ⟨0x044, 20, 7, .ro, 0, 1, 4⟩
/-- R671 -/ def REC_DATA_DATA : Fld := ⟨0x048, 0, 32, .ro, 0, 1, 4⟩
/-- R671 -/ def PICK_LAST_SLOT : Fld := ⟨0x04C, 0, 20, .ro, 0, 1, 4⟩
/-- R671 -/ def PICK_LAST_KIND : Fld := ⟨0x04C, 20, 4, .ro, 0, 1, 4⟩
/-- R671 -/ def PICK_LAST_RESULT : Fld := ⟨0x04C, 24, 4, .ro, 0, 1, 4⟩
/-- R671 -/ def PICK_COUNT_MOVES : Fld := ⟨0x050, 0, 16, .rc, 0, 1, 4⟩
/-- R671 -/ def PICK_COUNT_FAILS : Fld := ⟨0x050, 16, 16, .rc, 0, 1, 4⟩
/-- Every field of the INV registers. -/
def fields : List Fld :=
  [INV_STAT_PICKER, INV_STAT_QUEUE, INV_STAT_CLASS, REC_SLOT_SLOT, REC_SLOT_WORD, REC_DATA_DATA, PICK_LAST_SLOT, PICK_LAST_KIND, PICK_LAST_RESULT, PICK_COUNT_MOVES, PICK_COUNT_FAILS]
end Reg.INV

namespace Reg.RSTORE
/-- R133 -/ def MOUNT_STAT_STATE : Fld := ⟨0x040, 0, 3, .ro, 0, 1, 4⟩
/-- R133 -/ def MOUNT_STAT_PKG0_OK : Fld := ⟨0x040, 3, 1, .ro, 0, 1, 4⟩
/-- R133 -/ def MOUNT_STAT_PKG1_OK : Fld := ⟨0x040, 4, 1, .ro, 0, 1, 4⟩
/-- R133 -/ def MOUNT_STAT_RESYNC : Fld := ⟨0x040, 5, 1, .ro, 0, 1, 4⟩
/-- R133 -/ def MOUNT_STAT_INTENT_OPEN : Fld := ⟨0x040, 8, 8, .ro, 0, 1, 4⟩
/-- R133 -/ def MOUNT_STAT_INTENT_DONE : Fld := ⟨0x040, 16, 8, .ro, 0, 1, 4⟩
/-- R134 -/ def JOURNAL_STAT_PRESENT : Fld := ⟨0x044, 0, 1, .ro, 0, 1, 4⟩
/-- R134 -/ def JOURNAL_STAT_REPLAYED : Fld := ⟨0x044, 1, 1, .ro, 0, 1, 4⟩
/-- R134 -/ def JOURNAL_STAT_RETIRED : Fld := ⟨0x044, 2, 1, .ro, 0, 1, 4⟩
/-- R134 -/ def JOURNAL_STAT_WARM : Fld := ⟨0x044, 3, 1, .ro, 0, 1, 4⟩
/-- R134 -/ def JOURNAL_STAT_LOST : Fld := ⟨0x044, 4, 1, .ro, 0, 1, 4⟩
/-- R134 -/ def JOURNAL_STAT_SIZE_MIB : Fld := ⟨0x044, 8, 24, .ro, 0, 1, 4⟩
/-- R867 -/ def WEAR_CFG_WL_SPREAD : Fld := ⟨0x048, 0, 12, .rw, 1000, 1, 4⟩
/-- R867 -/ def WEAR_CFG_WL_RATE : Fld := ⟨0x048, 12, 8, .rw, 20, 1, 4⟩
/-- R867 -/ def WEAR_CFG_SPARE_WARN : Fld := ⟨0x048, 20, 7, .rw, 10, 1, 4⟩
/-- R867 -/ def PKG_STAT_SPARE : Fld := ⟨0x04C, 0, 16, .ro, 0, 2, 4⟩
/-- R867 -/ def PKG_STAT_WEAR_PCT : Fld := ⟨0x04C, 16, 8, .ro, 0, 2, 4⟩
/-- R867 -/ def PKG_STAT_STATE : Fld := ⟨0x04C, 24, 3, .ro, 0, 2, 4⟩
/-- R867 -/ def PKG_CTL_HOLD_0 : Fld := ⟨0x054, 0, 1, .w1p, 0, 1, 4⟩
/-- R867 -/ def PKG_CTL_HOLD_1 : Fld := ⟨0x054, 1, 1, .w1p, 0, 1, 4⟩
/-- R867 -/ def PKG_CTL_REPLACE_0 : Fld := ⟨0x054, 2, 1, .w1p, 0, 1, 4⟩
/-- R867 -/ def PKG_CTL_REPLACE_1 : Fld := ⟨0x054, 3, 1, .w1p, 0, 1, 4⟩
/-- Every field of the RSTORE registers. -/
def fields : List Fld :=
  [MOUNT_STAT_STATE, MOUNT_STAT_PKG0_OK, MOUNT_STAT_PKG1_OK, MOUNT_STAT_RESYNC, MOUNT_STAT_INTENT_OPEN, MOUNT_STAT_INTENT_DONE, JOURNAL_STAT_PRESENT, JOURNAL_STAT_REPLAYED, JOURNAL_STAT_RETIRED, JOURNAL_STAT_WARM, JOURNAL_STAT_LOST, JOURNAL_STAT_SIZE_MIB, WEAR_CFG_WL_SPREAD, WEAR_CFG_WL_RATE, WEAR_CFG_SPARE_WARN, PKG_STAT_SPARE, PKG_STAT_WEAR_PCT, PKG_STAT_STATE, PKG_CTL_HOLD_0, PKG_CTL_HOLD_1, PKG_CTL_REPLACE_0, PKG_CTL_REPLACE_1]
end Reg.RSTORE

namespace Reg.PEER
/-- R842 -/ def PAIR_CTL_DRIVE_EN : Fld := ⟨0x040, 0, 1, .rw, 1, 1, 4⟩
/-- R842 -/ def PAIR_CTL_ASSERT_EN : Fld := ⟨0x040, 1, 1, .rw, 0, 1, 4⟩
/-- R842 -/ def PAIR_CTL_UNFENCE : Fld := ⟨0x040, 2, 1, .w1p, 0, 1, 4⟩
/-- R842 -/ def PAIR_CTL_HANDBACK : Fld := ⟨0x040, 3, 1, .w1p, 0, 1, 4⟩
/-- R842 -/ def PAIR_CTL_SHARED_RELEASED : Fld := ⟨0x040, 4, 1, .rw, 0, 1, 4⟩
/-- R842 -/ def PAIR_CTL_STATIONS : Fld := ⟨0x040, 16, 8, .rw, 0, 1, 4⟩
/-- R843 -/ def PAIR_STAT_STATE : Fld := ⟨0x044, 0, 3, .ro, 0, 1, 4⟩
/-- R843 -/ def PAIR_STAT_ROLE : Fld := ⟨0x044, 3, 1, .ro, 0, 1, 4⟩
/-- R843 -/ def PAIR_STAT_LINK_UP : Fld := ⟨0x044, 4, 1, .ro, 0, 1, 4⟩
/-- R843 -/ def PAIR_STAT_LANES : Fld := ⟨0x044, 5, 3, .ro, 0, 1, 4⟩
/-- R843 -/ def PAIR_STAT_HOLDER : Fld := ⟨0x044, 8, 1, .ro, 0, 1, 4⟩
/-- R843 -/ def PAIR_STAT_PICKER_OWN : Fld := ⟨0x044, 9, 1, .ro, 0, 1, 4⟩
/-- R843 -/ def PAIR_STAT_FENCE_NET : Fld := ⟨0x044, 10, 1, .ro, 0, 1, 4⟩
/-- R843 -/ def PAIR_STAT_FENCE_DRIVE : Fld := ⟨0x044, 11, 1, .ro, 0, 1, 4⟩
/-- R843 -/ def PAIR_STAT_ANA_3 : Fld := ⟨0x044, 12, 3, .ro, 2, 1, 4⟩
/-- R843 -/ def PAIR_STAT_ANA_4 : Fld := ⟨0x044, 15, 3, .ro, 2, 1, 4⟩
/-- R843 -/ def PAIR_STAT_OWN_3 : Fld := ⟨0x044, 18, 1, .ro, 0, 1, 4⟩
/-- R843 -/ def PAIR_STAT_OWN_4 : Fld := ⟨0x044, 19, 1, .ro, 0, 1, 4⟩
/-- R844 -/ def LEASE_LO_VALUE : Fld := ⟨0x048, 0, 32, .ro, 0, 1, 4⟩
/-- R844 -/ def LEASE_HI_VALUE : Fld := ⟨0x04C, 0, 32, .ro, 0, 1, 4⟩
/-- R844 -/ def LEASE_STAT_SINCE_MS : Fld := ⟨0x050, 0, 16, .ro, 0, 1, 4⟩
/-- R844 -/ def LEASE_STAT_RENEW_FAILS : Fld := ⟨0x050, 16, 8, .rc, 0, 1, 4⟩
/-- R844 -/ def WIT_CFG_STATIC_ADDR : Fld := ⟨0x054, 0, 7, .rw, 58, 1, 4⟩
/-- R844 -/ def WIT_CFG_POLL_MS : Fld := ⟨0x054, 8, 8, .rw, 20, 1, 4⟩
/-- R844 -/ def WIT_CFG_STATION_COAST_S : Fld := ⟨0x054, 16, 16, .rw, 600, 1, 4⟩
/-- R844 -/ def MIRROR_STAT_HELD_MIB : Fld := ⟨0x058, 0, 16, .ro, 0, 1, 4⟩
/-- R844 -/ def MIRROR_STAT_UNMIRRORED : Fld := ⟨0x058, 16, 16, .ro, 0, 1, 4⟩
/-- R844 -/ def DAX_ERR_CRC_ERR : Fld := ⟨0x05C, 0, 16, .rc, 0, 1, 4⟩
/-- R844 -/ def DAX_ERR_RETRANS : Fld := ⟨0x05C, 16, 16, .rc, 0, 1, 4⟩
/-- R844 -/ def HB_STAT_MISSED : Fld := ⟨0x060, 0, 16, .rc, 0, 1, 4⟩
/-- R844 -/ def PARTNER_SN_LO_SN : Fld := ⟨0x064, 0, 32, .ro, 0, 1, 4⟩
/-- R844 -/ def PARTNER_SN_HI_SN : Fld := ⟨0x068, 0, 32, .ro, 0, 1, 4⟩
/-- R844 -/ def TL_TB_LO_TB : Fld := ⟨0x06C, 0, 32, .ro, 0, 1, 4⟩
/-- R844 -/ def TL_TB_HI_TB : Fld := ⟨0x070, 0, 32, .ro, 0, 1, 4⟩
/-- Every field of the PEER registers. -/
def fields : List Fld :=
  [PAIR_CTL_DRIVE_EN, PAIR_CTL_ASSERT_EN, PAIR_CTL_UNFENCE, PAIR_CTL_HANDBACK, PAIR_CTL_SHARED_RELEASED, PAIR_CTL_STATIONS, PAIR_STAT_STATE, PAIR_STAT_ROLE, PAIR_STAT_LINK_UP, PAIR_STAT_LANES, PAIR_STAT_HOLDER, PAIR_STAT_PICKER_OWN, PAIR_STAT_FENCE_NET, PAIR_STAT_FENCE_DRIVE, PAIR_STAT_ANA_3, PAIR_STAT_ANA_4, PAIR_STAT_OWN_3, PAIR_STAT_OWN_4, LEASE_LO_VALUE, LEASE_HI_VALUE, LEASE_STAT_SINCE_MS, LEASE_STAT_RENEW_FAILS, WIT_CFG_STATIC_ADDR, WIT_CFG_POLL_MS] ++
  [WIT_CFG_STATION_COAST_S, MIRROR_STAT_HELD_MIB, MIRROR_STAT_UNMIRRORED, DAX_ERR_CRC_ERR, DAX_ERR_RETRANS, HB_STAT_MISSED, PARTNER_SN_LO_SN, PARTNER_SN_HI_SN, TL_TB_LO_TB, TL_TB_HI_TB]
end Reg.PEER

namespace Reg.LOOP
/-- R454 -/ def ENG_CTL_COPY : Fld := ⟨0x040, 0, 1, .w1p, 0, 1, 4⟩
/-- R454 -/ def ENG_CTL_VALIDATE : Fld := ⟨0x040, 1, 1, .w1p, 0, 1, 4⟩
/-- R454 -/ def ENG_CTL_VAL_BANK : Fld := ⟨0x040, 2, 1, .rw, 0, 1, 4⟩
/-- R454 -/ def ENG_CTL_BANK : Fld := ⟨0x040, 3, 1, .rws, 0, 1, 4⟩
/-- R454 -/ def ENG_STAT_ACTIVE_BANK : Fld := ⟨0x044, 0, 1, .ro, 0, 1, 4⟩
/-- R454 -/ def ENG_STAT_VALID0 : Fld := ⟨0x044, 1, 1, .ro, 1, 1, 4⟩
/-- R454 -/ def ENG_STAT_VALID1 : Fld := ⟨0x044, 2, 1, .ro, 1, 1, 4⟩
/-- R454 -/ def ENG_STAT_VALIDATING : Fld := ⟨0x044, 3, 1, .ro, 0, 1, 4⟩
/-- R454 -/ def ENG_STAT_COPYING : Fld := ⟨0x044, 4, 1, .ro, 0, 1, 4⟩
/-- R454 -/ def ENG_STAT_RUNNING : Fld := ⟨0x044, 5, 1, .ro, 0, 1, 4⟩
/-- R454 -/ def ENG_STAT_MEM_REFUSED : Fld := ⟨0x044, 6, 1, .w1c, 0, 1, 4⟩
/-- R454 -/ def ENG_STAT_OWN_CONFLICT : Fld := ⟨0x044, 7, 1, .w1c, 0, 1, 4⟩
/-- R454 -/ def ENG_STAT_RESULT : Fld := ⟨0x044, 8, 4, .ro, 0, 1, 4⟩
/-- R454 -/ def ENG_STAT_END_CYCLE : Fld := ⟨0x044, 16, 12, .ro, 0, 1, 4⟩
/-- R456 -/ def OWN_HEAD_HEADS : Fld := ⟨0x04C, 0, 16, .rws, 0, 1, 4⟩
/-- R456 -/ def OWN_HEAD_SPINS : Fld := ⟨0x04C, 16, 8, .rws, 0, 1, 4⟩
/-- R456 -/ def OWN_AXIS_AXES : Fld := ⟨0x050, 0, 22, .rws, 0, 1, 4⟩
/-- R455 -/ def VAL_DETAIL_ENTRY : Fld := ⟨0x048, 0, 10, .ro, 0, 1, 4⟩
/-- R457 -/ def MEM_ADDR_ADDR : Fld := ⟨0x054, 0, 16, .rw, 0, 1, 4⟩
/-- R457 -/ def MEM_ADDR_AUTOINC : Fld := ⟨0x054, 16, 1, .rw, 1, 1, 4⟩
/-- R457 -/ def MEM_DATA_DATA : Fld := ⟨0x058, 0, 32, .rw, 0, 1, 4⟩
/-- R459 -/ def MISS_LAST_CHAIN : Fld := ⟨0x05C, 0, 8, .ro, 0, 1, 4⟩
/-- R459 -/ def MISS_LAST_KIND : Fld := ⟨0x05C, 8, 4, .ro, 0, 1, 4⟩
/-- R459 -/ def MISS_LAST_FRAME : Fld := ⟨0x05C, 12, 20, .ro, 0, 1, 4⟩
/-- R459 -/ def ECC_STAT_CORR : Fld := ⟨0x060, 0, 16, .rc, 0, 1, 4⟩
/-- R459 -/ def ECC_STAT_UNCORR : Fld := ⟨0x060, 16, 16, .rc, 0, 1, 4⟩
/-- Every field of the LOOP registers. -/
def fields : List Fld :=
  [ENG_CTL_COPY, ENG_CTL_VALIDATE, ENG_CTL_VAL_BANK, ENG_CTL_BANK, ENG_STAT_ACTIVE_BANK, ENG_STAT_VALID0, ENG_STAT_VALID1, ENG_STAT_VALIDATING, ENG_STAT_COPYING, ENG_STAT_RUNNING, ENG_STAT_MEM_REFUSED, ENG_STAT_OWN_CONFLICT, ENG_STAT_RESULT, ENG_STAT_END_CYCLE, OWN_HEAD_HEADS, OWN_HEAD_SPINS, OWN_AXIS_AXES, VAL_DETAIL_ENTRY, MEM_ADDR_ADDR, MEM_ADDR_AUTOINC, MEM_DATA_DATA, MISS_LAST_CHAIN, MISS_LAST_KIND, MISS_LAST_FRAME] ++
  [ECC_STAT_CORR, ECC_STAT_UNCORR]
end Reg.LOOP

namespace Reg.TRACE
/-- R461 -/ def TR_CTL_ARM : Fld := ⟨0x040, 0, 1, .w1p, 0, 1, 4⟩
/-- R461 -/ def TR_CTL_STOP : Fld := ⟨0x040, 1, 1, .w1p, 0, 1, 4⟩
/-- R461 -/ def TR_CTL_MODE : Fld := ⟨0x040, 2, 1, .rw, 0, 1, 4⟩
/-- R461 -/ def TR_CTL_FORCE : Fld := ⟨0x040, 3, 1, .w1p, 0, 1, 4⟩
/-- R461 -/ def TR_CTL_TRIG_SRC : Fld := ⟨0x040, 8, 4, .rw, 0, 1, 4⟩
/-- R461 -/ def TR_CTL_EDGE : Fld := ⟨0x040, 12, 2, .rw, 0, 1, 4⟩
/-- R461 -/ def TR_CTL_TRIG_ARG : Fld := ⟨0x040, 16, 10, .rw, 0, 1, 4⟩
/-- R462 -/ def TR_LEVEL_LEVEL : Fld := ⟨0x044, 0, 32, .rw, 0, 1, 4⟩
/-- R462 -/ def TR_PRE_PRE : Fld := ⟨0x048, 0, 14, .rw, 0, 1, 4⟩
/-- R462 -/ def TR_DECIM_DECIM : Fld := ⟨0x04C, 0, 16, .rw, 0, 1, 4⟩
/-- R462 -/ def TR_STAT_STATE : Fld := ⟨0x050, 0, 2, .ro, 0, 1, 4⟩
/-- R462 -/ def TR_STAT_WRAPPED : Fld := ⟨0x050, 2, 1, .ro, 0, 1, 4⟩
/-- R462 -/ def TR_STAT_TRIG_POS : Fld := ⟨0x050, 16, 14, .ro, 0, 1, 4⟩
/-- R462 -/ def TR_TRIG_FRAME_FRAME : Fld := ⟨0x054, 0, 32, .ro, 0, 1, 4⟩
/-- R462 -/ def TR_TRIG_TB_LO_TB_LO : Fld := ⟨0x058, 0, 32, .ro, 0, 1, 4⟩
/-- R462 -/ def TR_TRIG_TB_HI_TB_HI : Fld := ⟨0x05C, 0, 32, .ro, 0, 1, 4⟩
/-- R462 -/ def TR_NODE_KIND : Fld := ⟨0x060, 0, 2, .rw, 0, 8, 4⟩
/-- R462 -/ def TR_NODE_ENGINE : Fld := ⟨0x060, 2, 2, .rw, 0, 8, 4⟩
/-- R462 -/ def TR_NODE_ADDR : Fld := ⟨0x060, 4, 12, .rw, 0, 8, 4⟩
/-- R462 -/ def TR_NODE_CAPTURE : Fld := ⟨0x060, 16, 11, .rw, 1024, 8, 4⟩
/-- R462 -/ def TR_RD_ADDR_INDEX : Fld := ⟨0x080, 0, 14, .rw, 0, 1, 4⟩
/-- R462 -/ def TR_RD_ADDR_NODE : Fld := ⟨0x080, 16, 3, .rw, 0, 1, 4⟩
/-- R462 -/ def TR_RD_DATA_DATA : Fld := ⟨0x084, 0, 32, .ro, 0, 1, 4⟩
/-- Every field of the TRACE registers. -/
def fields : List Fld :=
  [TR_CTL_ARM, TR_CTL_STOP, TR_CTL_MODE, TR_CTL_FORCE, TR_CTL_TRIG_SRC, TR_CTL_EDGE, TR_CTL_TRIG_ARG, TR_LEVEL_LEVEL, TR_PRE_PRE, TR_DECIM_DECIM, TR_STAT_STATE, TR_STAT_WRAPPED, TR_STAT_TRIG_POS, TR_TRIG_FRAME_FRAME, TR_TRIG_TB_LO_TB_LO, TR_TRIG_TB_HI_TB_HI, TR_NODE_KIND, TR_NODE_ENGINE, TR_NODE_ADDR, TR_NODE_CAPTURE, TR_RD_ADDR_INDEX, TR_RD_ADDR_NODE, TR_RD_DATA_DATA]
end Reg.TRACE

namespace Reg.SPIN
/-- R544 -/ def SPIN_STAT_STATE : Fld := ⟨0x044, 0, 4, .ro, 0, 1, 4⟩
/-- R544 -/ def SPIN_STAT_AT_SPEED : Fld := ⟨0x044, 4, 1, .ro, 0, 1, 4⟩
/-- R544 -/ def SPIN_STAT_DRV_FAULT : Fld := ⟨0x044, 5, 1, .ro, 0, 1, 4⟩
/-- R544 -/ def SPIN_STAT_ALIGN_USED : Fld := ⟨0x044, 6, 1, .ro, 0, 1, 4⟩
/-- R544 -/ def SPIN_STAT_RESULT : Fld := ⟨0x044, 8, 4, .ro, 0, 1, 4⟩
/-- R544 -/ def SPIN_STAT_ATTEMPTS : Fld := ⟨0x044, 12, 4, .ro, 0, 1, 4⟩
/-- R545 -/ def MOTOR_CFG_POLE_PAIRS : Fld := ⟨0x048, 0, 4, .rws, 4, 1, 4⟩
/-- R545 -/ def MOTOR_CFG_DIR : Fld := ⟨0x048, 4, 1, .rws, 0, 1, 4⟩
/-- R545 -/ def MOTOR_CFG_PWM_DIV : Fld := ⟨0x048, 5, 5, .rws, 8, 1, 4⟩
/-- R545 -/ def MOTOR_CFG_DEADTIME : Fld := ⟨0x048, 10, 8, .rws, 50, 1, 4⟩
/-- R545 -/ def MOTOR_RL_R_MOHM : Fld := ⟨0x04C, 0, 16, .rws, 1000, 1, 4⟩
/-- R545 -/ def MOTOR_RL_L_UH : Fld := ⟨0x04C, 16, 16, .rws, 200, 1, 4⟩
/-- R545 -/ def MOTOR_V_VBUS_MV : Fld := ⟨0x050, 0, 16, .rws, 12000, 1, 4⟩
/-- R545 -/ def MOTOR_V_VSNS_FS_MV : Fld := ⟨0x050, 16, 16, .rws, 19200, 1, 4⟩
/-- R545 -/ def ISCALE_ISNS_FS_MA : Fld := ⟨0x054, 0, 16, .rws, 8000, 1, 4⟩
/-- R545 -/ def ISCALE_ILIM_HW_MA : Fld := ⟨0x054, 16, 16, .rws, 3000, 1, 4⟩
/-- R545 -/ def LIMIT_CFG_EBRAKE_IMAX_MA : Fld := ⟨0x058, 0, 12, .rws, 4000, 1, 4⟩
/-- R545 -/ def LIMIT_CFG_OC_TRIP_MA : Fld := ⟨0x058, 12, 12, .rws, 4095, 1, 4⟩
/-- R545 -/ def LIMIT_CFG_AT_TOL : Fld := ⟨0x058, 24, 8, .rws, 50, 1, 4⟩
/-- R546 -/ def SPEED_TGT_TGT_RPM : Fld := ⟨0x05C, 0, 13, .rws, 0, 1, 4⟩
/-- R546 -/ def SPEED_TGT_SLEW : Fld := ⟨0x05C, 16, 16, .rws, 6000, 1, 4⟩
/-- R546 -/ def ILOOP_KP : Fld := ⟨0x060, 0, 16, .rws, 2048, 1, 4⟩
/-- R546 -/ def ILOOP_KI : Fld := ⟨0x060, 16, 16, .rws, 1024, 1, 4⟩
/-- R546 -/ def OBS_CFG_PLL_KP : Fld := ⟨0x064, 0, 4, .rws, 2, 1, 4⟩
/-- R546 -/ def OBS_CFG_PLL_KI : Fld := ⟨0x064, 4, 4, .rws, 6, 1, 4⟩
/-- R546 -/ def OBS_CFG_EDGE_HYST : Fld := ⟨0x064, 8, 8, .rws, 10, 1, 4⟩
/-- R546 -/ def OBS_CFG_ADV_K : Fld := ⟨0x064, 16, 8, .rws, 0, 1, 4⟩
/-- R547 -/ def START_CFG_I_TEST_MA : Fld := ⟨0x068, 0, 12, .rws, 2000, 1, 4⟩
/-- R547 -/ def START_CFG_USE_RMEAS : Fld := ⟨0x068, 12, 1, .rws, 1, 1, 4⟩
/-- R547 -/ def START_CFG_ALIGN_EN : Fld := ⟨0x068, 13, 1, .rws, 1, 1, 4⟩
/-- R547 -/ def START_CFG_DETECT_REPS : Fld := ⟨0x068, 14, 2, .rws, 2, 1, 4⟩
/-- R547 -/ def START_CFG_PULSE_SPACING : Fld := ⟨0x068, 16, 8, .rws, 20, 1, 4⟩
/-- R547 -/ def START_CFG_DETECT_MIN : Fld := ⟨0x068, 24, 8, .rws, 8, 1, 4⟩
/-- R547 -/ def RAMP_CFG_I_RAMP_MA : Fld := ⟨0x06C, 0, 12, .rws, 1200, 1, 4⟩
/-- R547 -/ def RAMP_CFG_I_RAMP_MAX_MA : Fld := ⟨0x06C, 12, 12, .rws, 2400, 1, 4⟩
/-- R547 -/ def RAMP_CFG2_RAMP_ACC : Fld := ⟨0x070, 0, 12, .rws, 2000, 1, 4⟩
/-- R547 -/ def RAMP_CFG2_HANDOVER_RPM : Fld := ⟨0x070, 12, 10, .rws, 300, 1, 4⟩
/-- R547 -/ def TIME_CFG_EDGE_TIMEOUT_MS : Fld := ⟨0x074, 0, 8, .rws, 50, 1, 4⟩
/-- R547 -/ def TIME_CFG_BREAKAWAY_MS : Fld := ⟨0x074, 8, 8, .rws, 20, 1, 4⟩
/-- R547 -/ def TIME_CFG_START_TIMEOUT : Fld := ⟨0x074, 16, 8, .rws, 50, 1, 4⟩
/-- R547 -/ def TIME_CFG_HANDOVER_MS : Fld := ⟨0x074, 24, 8, .rws, 20, 1, 4⟩
/-- R547 -/ def BRAKE_CFG_BRAKE_I_MA : Fld := ⟨0x078, 0, 12, .rws, 1500, 1, 4⟩
/-- R547 -/ def BRAKE_CFG_SHORT_RPM : Fld := ⟨0x078, 12, 10, .rws, 200, 1, 4⟩
/-- R548 -/ def SPEED_RPM : Fld := ⟨0x07C, 0, 24, .ro, 0, 1, 4⟩
/-- R548 -/ def SPEED_VALID : Fld := ⟨0x07C, 24, 1, .ro, 0, 1, 4⟩
/-- R548 -/ def SPEED_REV_RPM : Fld := ⟨0x080, 0, 24, .ro, 0, 1, 4⟩
/-- R548 -/ def SPEED_REV_VALID : Fld := ⟨0x080, 24, 1, .ro, 0, 1, 4⟩
/-- R548 -/ def CUR_STAT_IQ_MA : Fld := ⟨0x084, 0, 16, .ro, 0, 1, 4⟩
/-- R548 -/ def CUR_STAT_IPEAK_MA : Fld := ⟨0x084, 16, 16, .ro, 0, 1, 4⟩
/-- R548 -/ def START_STAT_THETA_D : Fld := ⟨0x088, 0, 16, .ro, 0, 1, 4⟩
/-- R548 -/ def START_STAT_CONF : Fld := ⟨0x088, 16, 12, .ro, 0, 1, 4⟩
/-- R548 -/ def START_STAT2_R_MEAS_MOHM : Fld := ⟨0x08C, 0, 16, .ro, 0, 1, 4⟩
/-- R548 -/ def START_STAT2_START_MS : Fld := ⟨0x08C, 16, 16, .ro, 0, 1, 4⟩
/-- R548 -/ def EVENTS_OC_PERIODS : Fld := ⟨0x090, 0, 8, .rc, 0, 1, 4⟩
/-- R548 -/ def EVENTS_SYNC_LOSS : Fld := ⟨0x090, 8, 8, .rc, 0, 1, 4⟩
/-- R548 -/ def EVENTS_EBRAKE_CHOPS : Fld := ⟨0x090, 16, 8, .rc, 0, 1, 4⟩
/-- R548 -/ def EVENTS_SETPT_LOST : Fld := ⟨0x090, 24, 8, .rc, 0, 1, 4⟩
/-- R543 -/ def SPIN_CMD_CMD : Fld := ⟨0x040, 0, 3, .rws, 0, 1, 4⟩
/-- R549 -/ def WAVE_W_LO : Fld := ⟨0x400, 0, 16, .rws, 0, 768, 4⟩
/-- R549 -/ def WAVE_W_HI : Fld := ⟨0x400, 16, 16, .rws, 0, 768, 4⟩
/-- Every field of the SPIN registers. -/
def fields : List Fld :=
  [SPIN_STAT_STATE, SPIN_STAT_AT_SPEED, SPIN_STAT_DRV_FAULT, SPIN_STAT_ALIGN_USED, SPIN_STAT_RESULT, SPIN_STAT_ATTEMPTS, MOTOR_CFG_POLE_PAIRS, MOTOR_CFG_DIR, MOTOR_CFG_PWM_DIV, MOTOR_CFG_DEADTIME, MOTOR_RL_R_MOHM, MOTOR_RL_L_UH, MOTOR_V_VBUS_MV, MOTOR_V_VSNS_FS_MV, ISCALE_ISNS_FS_MA, ISCALE_ILIM_HW_MA, LIMIT_CFG_EBRAKE_IMAX_MA, LIMIT_CFG_OC_TRIP_MA, LIMIT_CFG_AT_TOL, SPEED_TGT_TGT_RPM, SPEED_TGT_SLEW, ILOOP_KP, ILOOP_KI, OBS_CFG_PLL_KP] ++
  [OBS_CFG_PLL_KI, OBS_CFG_EDGE_HYST, OBS_CFG_ADV_K, START_CFG_I_TEST_MA, START_CFG_USE_RMEAS, START_CFG_ALIGN_EN, START_CFG_DETECT_REPS, START_CFG_PULSE_SPACING, START_CFG_DETECT_MIN, RAMP_CFG_I_RAMP_MA, RAMP_CFG_I_RAMP_MAX_MA, RAMP_CFG2_RAMP_ACC, RAMP_CFG2_HANDOVER_RPM, TIME_CFG_EDGE_TIMEOUT_MS, TIME_CFG_BREAKAWAY_MS, TIME_CFG_START_TIMEOUT, TIME_CFG_HANDOVER_MS, BRAKE_CFG_BRAKE_I_MA, BRAKE_CFG_SHORT_RPM, SPEED_RPM, SPEED_VALID, SPEED_REV_RPM, SPEED_REV_VALID, CUR_STAT_IQ_MA] ++
  [CUR_STAT_IPEAK_MA, START_STAT_THETA_D, START_STAT_CONF, START_STAT2_R_MEAS_MOHM, START_STAT2_START_MS, EVENTS_OC_PERIODS, EVENTS_SYNC_LOSS, EVENTS_EBRAKE_CHOPS, EVENTS_SETPT_LOST, SPIN_CMD_CMD, WAVE_W_LO, WAVE_W_HI]
end Reg.SPIN

namespace Reg.AXIS
/-- R583 -/ def AX_STAT_STATE : Fld := ⟨0x048, 0, 4, .ro, 0, 1, 4⟩
/-- R583 -/ def AX_STAT_HOMED : Fld := ⟨0x048, 4, 1, .ro, 0, 1, 4⟩
/-- R583 -/ def AX_STAT_POS_UNCERTAIN : Fld := ⟨0x048, 5, 1, .ro, 0, 1, 4⟩
/-- R583 -/ def AX_STAT_STRONG : Fld := ⟨0x048, 6, 1, .ro, 0, 1, 4⟩
/-- R583 -/ def AX_STAT_LIM_LO : Fld := ⟨0x048, 7, 1, .ro, 0, 1, 4⟩
/-- R583 -/ def AX_STAT_LIM_HI : Fld := ⟨0x048, 8, 1, .ro, 0, 1, 4⟩
/-- R583 -/ def AX_STAT_LO_FAULTY : Fld := ⟨0x048, 9, 1, .ro, 0, 1, 4⟩
/-- R583 -/ def AX_STAT_HI_FAULTY : Fld := ⟨0x048, 10, 1, .ro, 0, 1, 4⟩
/-- R583 -/ def AX_STAT_BRG_FAULT : Fld := ⟨0x048, 11, 1, .ro, 0, 1, 4⟩
/-- R583 -/ def AX_STAT_RESULT : Fld := ⟨0x048, 12, 4, .ro, 0, 1, 4⟩
/-- R583 -/ def AX_STAT_STOP_CAUSE : Fld := ⟨0x048, 16, 4, .ro, 0, 1, 4⟩
/-- R583 -/ def AX_STAT_SOFT_CLAMP : Fld := ⟨0x048, 20, 1, .ro, 0, 1, 4⟩
/-- R584 -/ def AXIS_CFG_KIND : Fld := ⟨0x04C, 0, 1, .rws, 0, 1, 4⟩
/-- R584 -/ def AXIS_CFG_DIR : Fld := ⟨0x04C, 1, 1, .rws, 0, 1, 4⟩
/-- R584 -/ def AXIS_CFG_MODE_SEL : Fld := ⟨0x04C, 2, 2, .rws, 0, 1, 4⟩
/-- R584 -/ def AXIS_CFG_CHOP_DIV : Fld := ⟨0x04C, 4, 5, .rws, 8, 1, 4⟩
/-- R584 -/ def AXIS_CFG_SOFT_EN : Fld := ⟨0x04C, 9, 1, .rws, 0, 1, 4⟩
/-- R585 -/ def VMAX_VMAX : Fld := ⟨0x050, 0, 24, .rws, 256000, 1, 4⟩
/-- R585 -/ def V1_V1 : Fld := ⟨0x054, 0, 24, .rws, 51200, 1, 4⟩
/-- R585 -/ def A1_A1 : Fld := ⟨0x058, 0, 24, .rws, 640000, 1, 4⟩
/-- R585 -/ def A2_A2 : Fld := ⟨0x05C, 0, 24, .rws, 320000, 1, 4⟩
/-- R585 -/ def D1_D1 : Fld := ⟨0x060, 0, 24, .rws, 640000, 1, 4⟩
/-- R585 -/ def D2_D2 : Fld := ⟨0x064, 0, 24, .rws, 320000, 1, 4⟩
/-- R585 -/ def DSTOP_DSTOP : Fld := ⟨0x068, 0, 24, .rws, 640000, 1, 4⟩
/-- R585 -/ def JERK_JERK : Fld := ⟨0x06C, 0, 24, .rws, 250000, 1, 4⟩
/-- R586 -/ def V_MODE_V_STRONG : Fld := ⟨0x070, 0, 16, .rws, 4000, 1, 4⟩
/-- R586 -/ def V_MODE_V_QUIET : Fld := ⟨0x070, 16, 16, .rws, 3000, 1, 4⟩
/-- R586 -/ def CUR_A_I_STRONG_MA : Fld := ⟨0x074, 0, 12, .rws, 1500, 1, 4⟩
/-- R586 -/ def CUR_A_I_QUIET_MA : Fld := ⟨0x074, 12, 12, .rws, 800, 1, 4⟩
/-- R586 -/ def CUR_B_I_HOLD_MA : Fld := ⟨0x078, 0, 12, .rws, 400, 1, 4⟩
/-- R586 -/ def CUR_B_I_HOME_MA : Fld := ⟨0x078, 12, 12, .rws, 600, 1, 4⟩
/-- R586 -/ def CUR_B_HOLD_DELAY : Fld := ⟨0x078, 24, 8, .rws, 20, 1, 4⟩
/-- R586 -/ def CLOOP_KP : Fld := ⟨0x07C, 0, 16, .rws, 2048, 1, 4⟩
/-- R586 -/ def CLOOP_KI : Fld := ⟨0x07C, 16, 16, .rws, 1024, 1, 4⟩
/-- R586 -/ def ISCALE_ISNS_FS_MA : Fld := ⟨0x080, 0, 16, .rws, 4000, 1, 4⟩
/-- R586 -/ def ENC_CFG_ENC_SCALE : Fld := ⟨0x084, 0, 24, .rws, 5120, 1, 4⟩
/-- R586 -/ def ENC_CFG_GLITCH : Fld := ⟨0x084, 24, 4, .rws, 3, 1, 4⟩
/-- R586 -/ def ENC_CFG_INDEX_EN : Fld := ⟨0x084, 28, 1, .rws, 1, 1, 4⟩
/-- R586 -/ def ENC_CFG_ENC_DIR : Fld := ⟨0x084, 29, 1, .rws, 0, 1, 4⟩
/-- R586 -/ def ENC_CPR_CPR : Fld := ⟨0x088, 0, 24, .rws, 4000, 1, 4⟩
/-- R586 -/ def ENC_CPR_SPEED_TIMEOUT_MS : Fld := ⟨0x088, 24, 8, .rws, 50, 1, 4⟩
/-- R586 -/ def STALL_CFG_STALL_WIN : Fld := ⟨0x08C, 0, 12, .rws, 64, 1, 4⟩
/-- R586 -/ def STALL_CFG_HOME_WIN : Fld := ⟨0x08C, 12, 12, .rws, 16, 1, 4⟩
/-- R586 -/ def STALL_CFG_STALL_N : Fld := ⟨0x08C, 24, 8, .rws, 4, 1, 4⟩
/-- R587 -/ def HOME_CFG_HOME_DIR : Fld := ⟨0x090, 0, 1, .rws, 0, 1, 4⟩
/-- R587 -/ def HOME_CFG_SETTLE_MS : Fld := ⟨0x090, 8, 8, .rws, 20, 1, 4⟩
/-- R587 -/ def HOME_CFG_V_HOME : Fld := ⟨0x090, 16, 16, .rws, 3200, 1, 4⟩
/-- R587 -/ def HOME_DIST_MAXDIST : Fld := ⟨0x094, 0, 32, .rws, 4194304, 1, 4⟩
/-- R587 -/ def HOME_BACKOFF_BACKOFF : Fld := ⟨0x098, 0, 24, .rws, 2560, 1, 4⟩
/-- R587 -/ def HOME_STOP_POS_POS : Fld := ⟨0x09C, 0, 32, .rws, 0, 1, 4⟩
/-- R587 -/ def LIMIT_CFG_DEBOUNCE : Fld := ⟨0x0A0, 0, 7, .rws, 10, 1, 4⟩
/-- R587 -/ def LIMIT_CFG_LIM_POL : Fld := ⟨0x0A0, 7, 1, .rws, 0, 1, 4⟩
/-- R587 -/ def LIMIT_CFG_CHATTER_K : Fld := ⟨0x0A0, 8, 8, .rws, 8, 1, 4⟩
/-- R587 -/ def LIMIT_CFG_CHATTER_WIN_MS : Fld := ⟨0x0A0, 16, 16, .rws, 100, 1, 4⟩
/-- R587 -/ def SOFT_LO_POS : Fld := ⟨0x0A4, 0, 32, .rws, 2147483648, 1, 4⟩
/-- R587 -/ def SOFT_HI_POS : Fld := ⟨0x0A8, 0, 32, .rws, 2147483647, 1, 4⟩
/-- R587 -/ def LIMIT_CLR_CLR_LO : Fld := ⟨0x0AC, 0, 1, .w1p, 0, 1, 4⟩
/-- R587 -/ def LIMIT_CLR_CLR_HI : Fld := ⟨0x0AC, 1, 1, .w1p, 0, 1, 4⟩
/-- R588 -/ def POS_CMD_POS : Fld := ⟨0x0B0, 0, 32, .ro, 0, 1, 4⟩
/-- R588 -/ def POS_ENC_COUNT : Fld := ⟨0x0B4, 0, 32, .ro, 0, 1, 4⟩
/-- R588 -/ def DEVIATION_E : Fld := ⟨0x0B8, 0, 32, .ro, 0, 1, 4⟩
/-- R588 -/ def SPEED_COUNTS_S : Fld := ⟨0x0BC, 0, 24, .ro, 0, 1, 4⟩
/-- R588 -/ def SPEED_VALID : Fld := ⟨0x0BC, 24, 1, .ro, 0, 1, 4⟩
/-- R588 -/ def VEL_CMD_VEL : Fld := ⟨0x0C0, 0, 25, .ro, 0, 1, 4⟩
/-- R588 -/ def CUR_STAT_IA_MA : Fld := ⟨0x0C4, 0, 16, .ro, 0, 1, 4⟩
/-- R588 -/ def CUR_STAT_IB_MA : Fld := ⟨0x0C4, 16, 16, .ro, 0, 1, 4⟩
/-- R588 -/ def INDEX_REF_COUNT : Fld := ⟨0x0C8, 0, 32, .ro, 0, 1, 4⟩
/-- R588 -/ def INDEX_STAT_MINOR : Fld := ⟨0x0CC, 0, 8, .rc, 0, 1, 4⟩
/-- R588 -/ def INDEX_STAT_MAJOR : Fld := ⟨0x0CC, 8, 8, .rc, 0, 1, 4⟩
/-- R588 -/ def INDEX_STAT_LAST_D : Fld := ⟨0x0CC, 16, 8, .ro, 0, 1, 4⟩
/-- R588 -/ def INDEX_STAT_SKIPS : Fld := ⟨0x0CC, 24, 8, .rc, 0, 1, 4⟩
/-- R588 -/ def HOME_COUNT_COUNT : Fld := ⟨0x0D0, 0, 32, .ro, 0, 1, 4⟩
/-- R588 -/ def EVENTS_STALLS : Fld := ⟨0x0D4, 0, 8, .rc, 0, 1, 4⟩
/-- R588 -/ def EVENTS_LIM_STOPS : Fld := ⟨0x0D4, 8, 8, .rc, 0, 1, 4⟩
/-- R588 -/ def EVENTS_CHATTER : Fld := ⟨0x0D4, 16, 8, .rc, 0, 1, 4⟩
/-- R588 -/ def EVENTS_TARGET_LOST : Fld := ⟨0x0D4, 24, 8, .rc, 0, 1, 4⟩
/-- R582 -/ def AX_CMD_CMD : Fld := ⟨0x040, 0, 4, .rws, 0, 1, 4⟩
/-- R582 -/ def AX_TARGET_POS : Fld := ⟨0x044, 0, 32, .rws, 0, 1, 4⟩
/-- Every field of the AXIS registers. -/
def fields : List Fld :=
  [AX_STAT_STATE, AX_STAT_HOMED, AX_STAT_POS_UNCERTAIN, AX_STAT_STRONG, AX_STAT_LIM_LO, AX_STAT_LIM_HI, AX_STAT_LO_FAULTY, AX_STAT_HI_FAULTY, AX_STAT_BRG_FAULT, AX_STAT_RESULT, AX_STAT_STOP_CAUSE, AX_STAT_SOFT_CLAMP, AXIS_CFG_KIND, AXIS_CFG_DIR, AXIS_CFG_MODE_SEL, AXIS_CFG_CHOP_DIV, AXIS_CFG_SOFT_EN, VMAX_VMAX, V1_V1, A1_A1, A2_A2, D1_D1, D2_D2, DSTOP_DSTOP] ++
  [JERK_JERK, V_MODE_V_STRONG, V_MODE_V_QUIET, CUR_A_I_STRONG_MA, CUR_A_I_QUIET_MA, CUR_B_I_HOLD_MA, CUR_B_I_HOME_MA, CUR_B_HOLD_DELAY, CLOOP_KP, CLOOP_KI, ISCALE_ISNS_FS_MA, ENC_CFG_ENC_SCALE, ENC_CFG_GLITCH, ENC_CFG_INDEX_EN, ENC_CFG_ENC_DIR, ENC_CPR_CPR, ENC_CPR_SPEED_TIMEOUT_MS, STALL_CFG_STALL_WIN, STALL_CFG_HOME_WIN, STALL_CFG_STALL_N, HOME_CFG_HOME_DIR, HOME_CFG_SETTLE_MS, HOME_CFG_V_HOME, HOME_DIST_MAXDIST] ++
  [HOME_BACKOFF_BACKOFF, HOME_STOP_POS_POS, LIMIT_CFG_DEBOUNCE, LIMIT_CFG_LIM_POL, LIMIT_CFG_CHATTER_K, LIMIT_CFG_CHATTER_WIN_MS, SOFT_LO_POS, SOFT_HI_POS, LIMIT_CLR_CLR_LO, LIMIT_CLR_CLR_HI, POS_CMD_POS, POS_ENC_COUNT, DEVIATION_E, SPEED_COUNTS_S, SPEED_VALID, VEL_CMD_VEL, CUR_STAT_IA_MA, CUR_STAT_IB_MA, INDEX_REF_COUNT, INDEX_STAT_MINOR, INDEX_STAT_MAJOR, INDEX_STAT_LAST_D, INDEX_STAT_SKIPS, HOME_COUNT_COUNT] ++
  [EVENTS_STALLS, EVENTS_LIM_STOPS, EVENTS_CHATTER, EVENTS_TARGET_LOST, AX_CMD_CMD, AX_TARGET_POS]
end Reg.AXIS

namespace Reg.HEAD
/-- R282 -/ def LINK_CTL_TRAIN : Fld := ⟨0x040, 0, 1, .w1p, 0, 1, 4⟩
/-- R282 -/ def LINK_CTL_AUTO_RETRAIN : Fld := ⟨0x040, 1, 1, .rw, 1, 1, 4⟩
/-- R282 -/ def LINK_CTL_RATE : Fld := ⟨0x040, 4, 3, .rws, 0, 1, 4⟩
/-- R283 -/ def LINK_STAT_STATE : Fld := ⟨0x044, 0, 3, .ro, 0, 1, 4⟩
/-- R283 -/ def LINK_STAT_UL0_LOCK : Fld := ⟨0x044, 3, 1, .ro, 0, 1, 4⟩
/-- R283 -/ def LINK_STAT_UL1_LOCK : Fld := ⟨0x044, 4, 1, .ro, 0, 1, 4⟩
/-- R283 -/ def LINK_STAT_DL_ALIGNED : Fld := ⟨0x044, 5, 1, .ro, 0, 1, 4⟩
/-- R283 -/ def LINK_STAT_PRESENT : Fld := ⟨0x044, 6, 1, .ro, 0, 1, 4⟩
/-- R283 -/ def LINK_STAT_PRESENT_RAW : Fld := ⟨0x044, 7, 1, .ro, 0, 1, 4⟩
/-- R283 -/ def LINK_STAT_CFG_CLAMP : Fld := ⟨0x044, 8, 1, .w1c, 0, 1, 4⟩
/-- R283 -/ def LINK_STAT_RETRAINS : Fld := ⟨0x044, 16, 8, .ro, 0, 1, 4⟩
/-- R284 -/ def LINK_CFG_UL_DELAY : Fld := ⟨0x048, 0, 10, .rws, 240, 1, 4⟩
/-- R284 -/ def LINK_CFG_DL_RELEASE : Fld := ⟨0x048, 10, 10, .rws, 300, 1, 4⟩
/-- R284 -/ def LINK_CFG_L_DL : Fld := ⟨0x048, 20, 10, .rws, 390, 1, 4⟩
/-- R287 -/ def LASER_CTL_ARM : Fld := ⟨0x058, 0, 1, .rw, 0, 1, 4⟩
/-- R287 -/ def LASER_CTL_KILL : Fld := ⟨0x058, 1, 1, .ro, 1, 1, 4⟩
/-- R287 -/ def LASER_CTL_WHY_LINK : Fld := ⟨0x058, 2, 1, .ro, 1, 1, 4⟩
/-- R287 -/ def LASER_CTL_WHY_ABSENT : Fld := ⟨0x058, 3, 1, .ro, 1, 1, 4⟩
/-- R287 -/ def LASER_CTL_WHY_QUENCH : Fld := ⟨0x058, 4, 1, .ro, 0, 1, 4⟩
/-- R289 -/ def HK_CTL_GO : Fld := ⟨0x060, 0, 1, .w1p, 0, 1, 4⟩
/-- R289 -/ def HK_CTL_WRITE : Fld := ⟨0x060, 1, 1, .rw, 0, 1, 4⟩
/-- R289 -/ def HK_CTL_DONE : Fld := ⟨0x060, 2, 1, .ro, 1, 1, 4⟩
/-- R289 -/ def HK_CTL_ERROR : Fld := ⟨0x060, 3, 1, .ro, 0, 1, 4⟩
/-- R289 -/ def HK_CTL_COUNT : Fld := ⟨0x060, 4, 3, .rw, 0, 1, 4⟩
/-- R289 -/ def HK_CTL_STATUS : Fld := ⟨0x060, 8, 8, .ro, 0, 1, 4⟩
/-- R289 -/ def HK_CTL_ADDR : Fld := ⟨0x060, 16, 16, .rw, 0, 1, 4⟩
/-- R337 -/ def BEAM_MAP_SPARE : Fld := ⟨0x0A0, 0, 3, .rws, 4, 1, 4⟩
/-- R337 -/ def BEAM_MAP_RETIRED : Fld := ⟨0x0A0, 4, 5, .rws, 0, 1, 4⟩
/-- R337 -/ def BEAM_MAP_MODE : Fld := ⟨0x0A0, 9, 2, .ro, 0, 1, 4⟩
/-- R337 -/ def BEAM_MAP_WINDOW : Fld := ⟨0x0A0, 11, 1, .ro, 0, 1, 4⟩
/-- R337 -/ def BEAM_MAP_ASSIST : Fld := ⟨0x0A0, 16, 5, .rws, 16, 1, 4⟩
/-- R410 -/ def WR_HCTL_VFY_MODE : Fld := ⟨0x0C0, 0, 2, .rw, 0, 1, 4⟩
/-- R410 -/ def WR_HCTL_MIN_RESET : Fld := ⟨0x0C0, 2, 1, .w1p, 0, 1, 4⟩
/-- R410 -/ def WR_HCTL_PASS_LEN : Fld := ⟨0x0C0, 8, 8, .rw, 32, 1, 4⟩
/-- R410 -/ def WR_HCTL_ESC_LIMIT : Fld := ⟨0x0C0, 16, 8, .rw, 4, 1, 4⟩
/-- R411 -/ def WR_HSTAT_VFY_ACTIVE : Fld := ⟨0x0C4, 0, 2, .ro, 0, 1, 4⟩
/-- R411 -/ def WR_HSTAT_VFY_BEAM : Fld := ⟨0x0C4, 2, 3, .ro, 4, 1, 4⟩
/-- R411 -/ def WR_HSTAT_DEGRADED : Fld := ⟨0x0C4, 5, 1, .ro, 0, 1, 4⟩
/-- R411 -/ def WR_HSTAT_PENDING : Fld := ⟨0x0C4, 8, 16, .ro, 0, 1, 4⟩
/-- R412 -/ def FIFO_MIN_B0 : Fld := ⟨0x0C8, 0, 7, .ro, 127, 1, 4⟩
/-- R412 -/ def FIFO_MIN_B1 : Fld := ⟨0x0C8, 8, 7, .ro, 127, 1, 4⟩
/-- R412 -/ def FIFO_MIN_B2 : Fld := ⟨0x0C8, 16, 7, .ro, 127, 1, 4⟩
/-- R412 -/ def FIFO_MIN_B3 : Fld := ⟨0x0C8, 24, 7, .ro, 127, 1, 4⟩
/-- R412 -/ def FIFO_MIN2_B4 : Fld := ⟨0x0CC, 0, 7, .ro, 127, 1, 4⟩
/-- R414 -/ def WPOW_PEAK : Fld := ⟨0x400, 0, 16, .rws, 0, 120, 4⟩
/-- R414 -/ def WPOW_BIAS : Fld := ⟨0x400, 16, 16, .rws, 0, 120, 4⟩
/-- R500 -/ def SRV_CMD_CMD : Fld := ⟨0x100, 0, 4, .rws, 0, 1, 4⟩
/-- R500 -/ def SRV_CMD_LAYER : Fld := ⟨0x100, 4, 3, .rws, 0, 1, 4⟩
/-- R500 -/ def SRV_CMD_TURN : Fld := ⟨0x100, 8, 16, .rws, 0, 1, 4⟩
/-- R501 -/ def SRV_STAT_STATE : Fld := ⟨0x104, 0, 4, .ro, 0, 1, 4⟩
/-- R501 -/ def SRV_STAT_FOCUS_LOCK : Fld := ⟨0x104, 4, 1, .ro, 0, 1, 4⟩
/-- R501 -/ def SRV_STAT_TRACK_LOCK : Fld := ⟨0x104, 5, 1, .ro, 0, 1, 4⟩
/-- R501 -/ def SRV_STAT_ROT_LOCK : Fld := ⟨0x104, 6, 1, .ro, 0, 1, 4⟩
/-- R501 -/ def SRV_STAT_COUNT_LOCK : Fld := ⟨0x104, 7, 1, .ro, 0, 1, 4⟩
/-- R501 -/ def SRV_STAT_WINH : Fld := ⟨0x104, 8, 1, .ro, 1, 1, 4⟩
/-- R501 -/ def SRV_STAT_LAYER : Fld := ⟨0x104, 9, 3, .ro, 0, 1, 4⟩
/-- R501 -/ def SRV_STAT_REV_SWAP : Fld := ⟨0x104, 12, 1, .ro, 0, 1, 4⟩
/-- R501 -/ def SRV_STAT_TURN : Fld := ⟨0x104, 16, 16, .ro, 0, 1, 4⟩
/-- R502 -/ def SRV_RESULT_RESULT : Fld := ⟨0x108, 0, 4, .ro, 0, 1, 4⟩
/-- R502 -/ def SRV_RESULT_FRAMES : Fld := ⟨0x108, 8, 24, .ro, 0, 1, 4⟩
/-- R503 -/ def FOCUS_CFG_SUM_MIN : Fld := ⟨0x10C, 0, 12, .rw, 256, 1, 4⟩
/-- R503 -/ def FOCUS_CFG_FOC_LOCK : Fld := ⟨0x10C, 16, 8, .rw, 16, 1, 4⟩
/-- R503 -/ def FOCUS_CFG_FOC_LOST : Fld := ⟨0x10C, 24, 8, .rw, 80, 1, 4⟩
/-- R503 -/ def TRACK_CFG_TRK_LOCK : Fld := ⟨0x110, 0, 8, .rw, 13, 1, 4⟩
/-- R503 -/ def TRACK_CFG_WI_TRK : Fld := ⟨0x110, 8, 8, .rw, 26, 1, 4⟩
/-- R503 -/ def TRACK_CFG_WI_ROT : Fld := ⟨0x110, 16, 8, .rw, 20, 1, 4⟩
/-- R503 -/ def TRACK_CFG_WI_FOC : Fld := ⟨0x110, 24, 8, .rw, 24, 1, 4⟩
/-- R503 -/ def JUMP_CFG_KICK_US : Fld := ⟨0x114, 0, 8, .rw, 40, 1, 4⟩
/-- R503 -/ def JUMP_CFG_BRAKE_US : Fld := ⟨0x114, 8, 8, .rw, 40, 1, 4⟩
/-- R503 -/ def JUMP_CFG_KICK_AMP : Fld := ⟨0x114, 16, 8, .rw, 32, 1, 4⟩
/-- R503 -/ def JUMP_CFG_SWEEP : Fld := ⟨0x114, 24, 8, .rw, 4, 1, 4⟩
/-- R503 -/ def SEEK_CFG_WALK_V : Fld := ⟨0x118, 0, 8, .rw, 32, 1, 4⟩
/-- R503 -/ def SEEK_CFG_FINE_MAX : Fld := ⟨0x118, 8, 12, .rw, 1024, 1, 4⟩
/-- R503 -/ def SEEK_CFG_ARRIVE_F : Fld := ⟨0x118, 20, 4, .rw, 8, 1, 4⟩
/-- R503 -/ def SEEK_CFG_WI_SETTLE : Fld := ⟨0x118, 24, 8, .rw, 64, 1, 4⟩
/-- R503 -/ def TILT_OFS_OFS_R : Fld := ⟨0x11C, 0, 16, .rw, 0, 1, 4⟩
/-- R503 -/ def TILT_OFS_OFS_T : Fld := ⟨0x11C, 16, 16, .rw, 0, 1, 4⟩
/-- R503 -/ def LPS_OFS_OFS : Fld := ⟨0x120, 0, 16, .rw, 0, 1, 4⟩
/-- R503 -/ def RAMP_CFG_RAMP_US : Fld := ⟨0x124, 0, 16, .rw, 200, 1, 4⟩
/-- R503 -/ def RAMP_CFG_DEMOD_PMIN : Fld := ⟨0x124, 16, 16, .rw, 100, 1, 4⟩
/-- R504 -/ def INDEX_STAT_MINOR : Fld := ⟨0x128, 0, 8, .rc, 0, 1, 4⟩
/-- R504 -/ def INDEX_STAT_MAJOR : Fld := ⟨0x128, 8, 8, .rc, 0, 1, 4⟩
/-- R504 -/ def INDEX_STAT_LAST_D : Fld := ⟨0x128, 16, 8, .ro, 0, 1, 4⟩
/-- R504 -/ def FIELD_STAT_LOCK : Fld := ⟨0x12C, 0, 5, .ro, 0, 1, 4⟩
/-- R504 -/ def FIELD_STAT_PES_VALID : Fld := ⟨0x12C, 5, 5, .ro, 0, 1, 4⟩
/-- R504 -/ def FIELD_STAT_MISSED : Fld := ⟨0x12C, 16, 16, .rc, 0, 1, 4⟩
/-- R505 -/ def PLIM_READ_MAX : Fld := ⟨0x130, 0, 16, .rw, 0, 5, 16⟩
/-- R505 -/ def PLIM_PEAK_MAX : Fld := ⟨0x130, 16, 16, .rw, 0, 5, 16⟩
/-- R505 -/ def MON_SCALE : Fld := ⟨0x134, 0, 16, .rw, 256, 5, 16⟩
/-- R505 -/ def LWEAR_RATIO : Fld := ⟨0x138, 0, 16, .ro, 32768, 5, 16⟩
/-- R505 -/ def LWEAR_WARNED : Fld := ⟨0x138, 16, 1, .ro, 0, 5, 16⟩
/-- R505 -/ def LWEAR_LIMITED : Fld := ⟨0x138, 17, 1, .ro, 0, 5, 16⟩
/-- R506 -/ def LAYER_RMAX_RMAX_LO : Fld := ⟨0x180, 0, 16, .rw, 0, 4, 4⟩
/-- R506 -/ def LAYER_RMAX_RMAX_HI : Fld := ⟨0x180, 16, 16, .rw, 0, 4, 4⟩
/-- R506 -/ def KAPPA_LO_K0_K3 : Fld := ⟨0x190, 0, 32, .rw, 2155905152, 1, 4⟩
/-- R506 -/ def KAPPA_HI_K4_K7 : Fld := ⟨0x194, 0, 32, .rw, 2155905152, 1, 4⟩
/-- R506 -/ def KAPPA_STAT_REFINED : Fld := ⟨0x198, 0, 8, .w1c, 0, 1, 4⟩
/-- R506 -/ def KAPPA_STAT_LAST_DPP : Fld := ⟨0x198, 8, 16, .ro, 0, 1, 4⟩
/-- R506 -/ def KAPPA_STAT_REFINE_EN : Fld := ⟨0x198, 24, 1, .rw, 1, 1, 4⟩
/-- R506 -/ def WEAR_CFG_WARN : Fld := ⟨0x19C, 0, 16, .rw, 39322, 1, 4⟩
/-- R506 -/ def WEAR_CFG_LIMIT : Fld := ⟨0x19C, 16, 16, .rw, 49152, 1, 4⟩
/-- R506 -/ def RRO_CTL_FOC_EN : Fld := ⟨0x1A0, 0, 1, .rw, 1, 1, 4⟩
/-- R506 -/ def RRO_CTL_TRK_EN : Fld := ⟨0x1A0, 1, 1, .rw, 1, 1, 4⟩
/-- R506 -/ def RRO_CTL_CLEAR : Fld := ⟨0x1A0, 2, 1, .w1p, 0, 1, 4⟩
/-- R506 -/ def RRO_CTL_MU : Fld := ⟨0x1A0, 4, 4, .rw, 6, 1, 4⟩
/-- R506 -/ def RECOVER_CTL_AUTO : Fld := ⟨0x1A4, 0, 1, .rw, 1, 1, 4⟩
/-- R506 -/ def RECOVER_STAT_FOCUS_N : Fld := ⟨0x1A8, 0, 8, .rc, 0, 1, 4⟩
/-- R506 -/ def RECOVER_STAT_TRACK_N : Fld := ⟨0x1A8, 8, 8, .rc, 0, 1, 4⟩
/-- R506 -/ def RECOVER_STAT_STREAK : Fld := ⟨0x1A8, 16, 4, .ro, 0, 1, 4⟩
/-- R506 -/ def PLIM_STAT_HIT : Fld := ⟨0x1AC, 0, 5, .w1c, 0, 1, 4⟩
/-- R506 -/ def PARK_CFG_PARK_UM : Fld := ⟨0x1B0, 0, 16, .rw, 15000, 1, 4⟩
/-- R507 -/ def RUNOUT_FOC : Fld := ⟨0x800, 0, 16, .rw, 0, 256, 4⟩
/-- R507 -/ def RUNOUT_TRK : Fld := ⟨0x800, 16, 16, .rw, 0, 256, 4⟩
/-- R285 -/ def LAT_STAT_UL_MARGIN : Fld := ⟨0x04C, 0, 10, .ro, 0, 1, 4⟩
/-- R285 -/ def LAT_STAT_DL_MARGIN : Fld := ⟨0x04C, 16, 10, .ro, 0, 1, 4⟩
/-- R286 -/ def UL_ERR_CRC_ERR : Fld := ⟨0x050, 0, 16, .rc, 0, 1, 4⟩
/-- R286 -/ def UL_ERR_SV_INVALID : Fld := ⟨0x050, 16, 16, .rc, 0, 1, 4⟩
/-- R286 -/ def DL_ERR_CHECK_FAIL : Fld := ⟨0x054, 0, 16, .rc, 0, 1, 4⟩
/-- R286 -/ def DL_ERR_GROUP_MISS : Fld := ⟨0x054, 16, 16, .rc, 0, 1, 4⟩
/-- R288 -/ def PRESENT_CFG_INSERT_MS : Fld := ⟨0x05C, 0, 8, .rw, 200, 1, 4⟩
/-- R288 -/ def PRESENT_CFG_REMOVE_MS : Fld := ⟨0x05C, 8, 8, .rw, 2, 1, 4⟩
/-- R289 -/ def HK_DATA_DATA : Fld := ⟨0x064, 0, 32, .rw, 0, 8, 4⟩
/-- R290 -/ def ALIGN_TB_LO_TB : Fld := ⟨0x084, 0, 32, .ro, 0, 1, 4⟩
/-- R290 -/ def ALIGN_TB_HI_TB : Fld := ⟨0x088, 0, 32, .ro, 0, 1, 4⟩
/-- R290 -/ def LINK_FRAME_N : Fld := ⟨0x08C, 0, 32, .ro, 0, 1, 4⟩
/-- R413 -/ def BURN_CFG_PCT : Fld := ⟨0x0D0, 0, 8, .rw, 70, 1, 4⟩
/-- Every field of the HEAD registers. -/
def fields : List Fld :=
  [LINK_CTL_TRAIN, LINK_CTL_AUTO_RETRAIN, LINK_CTL_RATE, LINK_STAT_STATE, LINK_STAT_UL0_LOCK, LINK_STAT_UL1_LOCK, LINK_STAT_DL_ALIGNED, LINK_STAT_PRESENT, LINK_STAT_PRESENT_RAW, LINK_STAT_CFG_CLAMP, LINK_STAT_RETRAINS, LINK_CFG_UL_DELAY, LINK_CFG_DL_RELEASE, LINK_CFG_L_DL, LASER_CTL_ARM, LASER_CTL_KILL, LASER_CTL_WHY_LINK, LASER_CTL_WHY_ABSENT, LASER_CTL_WHY_QUENCH, HK_CTL_GO, HK_CTL_WRITE, HK_CTL_DONE, HK_CTL_ERROR, HK_CTL_COUNT] ++
  [HK_CTL_STATUS, HK_CTL_ADDR, BEAM_MAP_SPARE, BEAM_MAP_RETIRED, BEAM_MAP_MODE, BEAM_MAP_WINDOW, BEAM_MAP_ASSIST, WR_HCTL_VFY_MODE, WR_HCTL_MIN_RESET, WR_HCTL_PASS_LEN, WR_HCTL_ESC_LIMIT, WR_HSTAT_VFY_ACTIVE, WR_HSTAT_VFY_BEAM, WR_HSTAT_DEGRADED, WR_HSTAT_PENDING, FIFO_MIN_B0, FIFO_MIN_B1, FIFO_MIN_B2, FIFO_MIN_B3, FIFO_MIN2_B4, WPOW_PEAK, WPOW_BIAS, SRV_CMD_CMD, SRV_CMD_LAYER] ++
  [SRV_CMD_TURN, SRV_STAT_STATE, SRV_STAT_FOCUS_LOCK, SRV_STAT_TRACK_LOCK, SRV_STAT_ROT_LOCK, SRV_STAT_COUNT_LOCK, SRV_STAT_WINH, SRV_STAT_LAYER, SRV_STAT_REV_SWAP, SRV_STAT_TURN, SRV_RESULT_RESULT, SRV_RESULT_FRAMES, FOCUS_CFG_SUM_MIN, FOCUS_CFG_FOC_LOCK, FOCUS_CFG_FOC_LOST, TRACK_CFG_TRK_LOCK, TRACK_CFG_WI_TRK, TRACK_CFG_WI_ROT, TRACK_CFG_WI_FOC, JUMP_CFG_KICK_US, JUMP_CFG_BRAKE_US, JUMP_CFG_KICK_AMP, JUMP_CFG_SWEEP, SEEK_CFG_WALK_V] ++
  [SEEK_CFG_FINE_MAX, SEEK_CFG_ARRIVE_F, SEEK_CFG_WI_SETTLE, TILT_OFS_OFS_R, TILT_OFS_OFS_T, LPS_OFS_OFS, RAMP_CFG_RAMP_US, RAMP_CFG_DEMOD_PMIN, INDEX_STAT_MINOR, INDEX_STAT_MAJOR, INDEX_STAT_LAST_D, FIELD_STAT_LOCK, FIELD_STAT_PES_VALID, FIELD_STAT_MISSED, PLIM_READ_MAX, PLIM_PEAK_MAX, MON_SCALE, LWEAR_RATIO, LWEAR_WARNED, LWEAR_LIMITED, LAYER_RMAX_RMAX_LO, LAYER_RMAX_RMAX_HI, KAPPA_LO_K0_K3, KAPPA_HI_K4_K7] ++
  [KAPPA_STAT_REFINED, KAPPA_STAT_LAST_DPP, KAPPA_STAT_REFINE_EN, WEAR_CFG_WARN, WEAR_CFG_LIMIT, RRO_CTL_FOC_EN, RRO_CTL_TRK_EN, RRO_CTL_CLEAR, RRO_CTL_MU, RECOVER_CTL_AUTO, RECOVER_STAT_FOCUS_N, RECOVER_STAT_TRACK_N, RECOVER_STAT_STREAK, PLIM_STAT_HIT, PARK_CFG_PARK_UM, RUNOUT_FOC, RUNOUT_TRK, LAT_STAT_UL_MARGIN, LAT_STAT_DL_MARGIN, UL_ERR_CRC_ERR, UL_ERR_SV_INVALID, DL_ERR_CHECK_FAIL, DL_ERR_GROUP_MISS, PRESENT_CFG_INSERT_MS] ++
  [PRESENT_CFG_REMOVE_MS, HK_DATA_DATA, ALIGN_TB_LO_TB, ALIGN_TB_HI_TB, LINK_FRAME_N, BURN_CFG_PCT]
end Reg.HEAD

namespace Reg.BEAM
/-- R303 -/ def ZT_GAIN : Fld := ⟨0x400, 0, 12, .rws, 512, 192, 4⟩
/-- R303 -/ def ZT_OFFSET : Fld := ⟨0x400, 12, 8, .rws, 0, 192, 4⟩
/-- R303 -/ def ZT_ASYM : Fld := ⟨0x400, 20, 12, .rws, 0, 192, 4⟩
/-- R338 -/ def RD_CTL_READ_EN : Fld := ⟨0x040, 0, 1, .rw, 0, 1, 4⟩
/-- R338 -/ def RD_CTL_ADAPT_EN : Fld := ⟨0x040, 1, 1, .rw, 1, 1, 4⟩
/-- R338 -/ def RD_CTL_OUTER_EN : Fld := ⟨0x040, 2, 1, .rw, 1, 1, 4⟩
/-- R338 -/ def RD_CTL_OUTER_SINGLE : Fld := ⟨0x040, 3, 1, .rw, 1, 1, 4⟩
/-- R338 -/ def RD_CTL_ZONE_SEED : Fld := ⟨0x040, 8, 5, .rw, 0, 1, 4⟩
/-- R339 -/ def RD_STAT_ROLE : Fld := ⟨0x044, 0, 3, .ro, 0, 1, 4⟩
/-- R339 -/ def RD_STAT_SEG_LOCK : Fld := ⟨0x044, 3, 1, .ro, 0, 1, 4⟩
/-- R339 -/ def RD_STAT_TIMING_LOCK : Fld := ⟨0x044, 4, 1, .ro, 0, 1, 4⟩
/-- R339 -/ def RD_STAT_HDR_VALID : Fld := ⟨0x044, 5, 1, .ro, 0, 1, 4⟩
/-- R339 -/ def RD_STAT_COND_FAIL : Fld := ⟨0x044, 6, 1, .ro, 0, 1, 4⟩
/-- R339 -/ def RD_STAT_LAYER : Fld := ⟨0x044, 8, 3, .ro, 0, 1, 4⟩
/-- R339 -/ def RD_STAT_ZONE : Fld := ⟨0x044, 11, 5, .ro, 0, 1, 4⟩
/-- R339 -/ def RD_STAT_SPIRAL : Fld := ⟨0x044, 16, 2, .ro, 0, 1, 4⟩
/-- R341 -/ def EQ_CTL_EQ_MU : Fld := ⟨0x050, 0, 4, .rw, 11, 1, 4⟩
/-- R341 -/ def EQ_CTL_EQ_ADAPT : Fld := ⟨0x050, 4, 1, .rw, 1, 1, 4⟩
/-- R341 -/ def EQ_CTL_PIN_CENTRE : Fld := ⟨0x050, 5, 1, .rw, 1, 1, 4⟩
/-- R341 -/ def EQ_CTL_PIN_SLOPE : Fld := ⟨0x050, 6, 1, .rw, 1, 1, 4⟩
/-- R341 -/ def EQ_CTL_SNAP : Fld := ⟨0x050, 7, 1, .w1p, 0, 1, 4⟩
/-- R341 -/ def EQ_CTL_LOAD_ON_LAYER : Fld := ⟨0x050, 8, 1, .rw, 1, 1, 4⟩
/-- R342 -/ def EQ_TAP_C_LO : Fld := ⟨0x054, 0, 14, .rws, 0, 8, 4⟩
/-- R342 -/ def EQ_TAP_C_HI : Fld := ⟨0x054, 16, 14, .rws, 0, 8, 4⟩
/-- R343 -/ def XT_CFG_NB_L : Fld := ⟨0x074, 0, 3, .rws, 0, 1, 4⟩
/-- R343 -/ def XT_CFG_EN_L : Fld := ⟨0x074, 3, 1, .rws, 0, 1, 4⟩
/-- R343 -/ def XT_CFG_NB_R : Fld := ⟨0x074, 4, 3, .rws, 0, 1, 4⟩
/-- R343 -/ def XT_CFG_EN_R : Fld := ⟨0x074, 7, 1, .rws, 0, 1, 4⟩
/-- R343 -/ def XT_CFG_XT_MU : Fld := ⟨0x074, 8, 4, .rw, 12, 1, 4⟩
/-- R343 -/ def XT_CFG_XT_ADAPT : Fld := ⟨0x074, 12, 1, .rw, 1, 1, 4⟩
/-- R345 -/ def XT_TAP_L_H_LO : Fld := ⟨0x080, 0, 13, .rws, 0, 4, 4⟩
/-- R345 -/ def XT_TAP_L_H_HI : Fld := ⟨0x080, 16, 13, .rws, 0, 4, 4⟩
/-- R346 -/ def TR_CTL_KP_ACQ : Fld := ⟨0x0A0, 0, 4, .rw, 3, 1, 4⟩
/-- R346 -/ def TR_CTL_KI_ACQ : Fld := ⟨0x0A0, 4, 4, .rw, 8, 1, 4⟩
/-- R346 -/ def TR_CTL_KP_TRK : Fld := ⟨0x0A0, 8, 4, .rw, 5, 1, 4⟩
/-- R346 -/ def TR_CTL_KI_TRK : Fld := ⟨0x0A0, 12, 4, .rw, 12, 1, 4⟩
/-- R346 -/ def TR_CTL_ACQ_LEN : Fld := ⟨0x0A0, 16, 8, .rw, 96, 1, 4⟩
/-- R346 -/ def TR_CTL_LOCK_THR : Fld := ⟨0x0A0, 24, 4, .rw, 6, 1, 4⟩
/-- R350 -/ def LDPC_CTL_ITER_MAX : Fld := ⟨0x0B8, 0, 6, .rws, 24, 1, 4⟩
/-- R350 -/ def LDPC_CTL_SCALE : Fld := ⟨0x0B8, 6, 2, .rws, 0, 1, 4⟩
/-- R352 -/ def QUAL_MSE_MSE : Fld := ⟨0x0C0, 0, 24, .ro, 0, 1, 4⟩
/-- R352 -/ def QUAL_BITS_BITS : Fld := ⟨0x0C4, 0, 32, .rc, 0, 1, 4⟩
/-- R352 -/ def QUAL_ERRS_ERRS : Fld := ⟨0x0C8, 0, 32, .rc, 0, 1, 4⟩
/-- R352 -/ def QUAL_SECT_GOOD : Fld := ⟨0x0CC, 0, 16, .rc, 0, 1, 4⟩
/-- R352 -/ def QUAL_SECT_FAILED : Fld := ⟨0x0CC, 16, 16, .rc, 0, 1, 4⟩
/-- R352 -/ def QUAL_SYNC_PRI_MISS : Fld := ⟨0x0D0, 0, 8, .rc, 0, 1, 4⟩
/-- R352 -/ def QUAL_SYNC_SEC_MISS : Fld := ⟨0x0D0, 8, 8, .rc, 0, 1, 4⟩
/-- R352 -/ def QUAL_SYNC_BOTH_MISS : Fld := ⟨0x0D0, 16, 8, .rc, 0, 1, 4⟩
/-- R352 -/ def QUAL_SYNC_HDR_FAIL : Fld := ⟨0x0D0, 24, 8, .rc, 0, 1, 4⟩
/-- R352 -/ def QUAL_MARGIN_MARGIN_MUI : Fld := ⟨0x0D4, 0, 10, .ro, 0, 1, 4⟩
/-- R352 -/ def QUAL_MARGIN_VALID : Fld := ⟨0x0D4, 10, 1, .ro, 0, 1, 4⟩
/-- R352 -/ def QUAL_MARGIN_ITER_MEAN : Fld := ⟨0x0D4, 16, 10, .ro, 0, 1, 4⟩
/-- R352 -/ def QUAL_EVENTS_ABSENT_RUNS : Fld := ⟨0x0D8, 0, 8, .rc, 0, 1, 4⟩
/-- R352 -/ def QUAL_EVENTS_SEG_SLIP : Fld := ⟨0x0D8, 8, 8, .rc, 0, 1, 4⟩
/-- R352 -/ def QUAL_EVENTS_TIMING_LOSS : Fld := ⟨0x0D8, 16, 8, .rc, 0, 1, 4⟩
/-- R352 -/ def QUAL_EVENTS_OUTER_FIX : Fld := ⟨0x0D8, 24, 8, .rc, 0, 1, 4⟩
/-- R402 -/ def WR_CTL_WR_ALLOW : Fld := ⟨0x100, 0, 1, .rw, 0, 1, 4⟩
/-- R402 -/ def WR_CTL_MON_EN : Fld := ⟨0x100, 1, 1, .rw, 1, 1, 4⟩
/-- R402 -/ def WR_CTL_RPC_EN : Fld := ⟨0x100, 2, 1, .rw, 1, 1, 4⟩
/-- R402 -/ def WR_CTL_BANK : Fld := ⟨0x100, 3, 1, .rws, 0, 1, 4⟩
/-- R402 -/ def WR_CTL_STOP : Fld := ⟨0x100, 4, 1, .w1p, 0, 1, 4⟩
/-- R402 -/ def WR_CTL_ABORT : Fld := ⟨0x100, 5, 1, .w1p, 0, 1, 4⟩
/-- R403 -/ def WR_STAT_STATE : Fld := ⟨0x104, 0, 3, .ro, 0, 1, 4⟩
/-- R403 -/ def WR_STAT_CAUSE : Fld := ⟨0x104, 4, 4, .ro, 0, 1, 4⟩
/-- R403 -/ def WR_STAT_SECTOR : Fld := ⟨0x104, 8, 5, .ro, 31, 1, 4⟩
/-- R403 -/ def WR_STAT_SLOT : Fld := ⟨0x104, 13, 19, .ro, 0, 1, 4⟩
/-- R404 -/ def WR_CFG_SKEW : Fld := ⟨0x108, 0, 12, .rws, 0, 1, 4⟩
/-- R404 -/ def WR_CFG_GRID_TOL : Fld := ⟨0x108, 12, 4, .rw, 8, 1, 4⟩
/-- R404 -/ def WR_CFG_FIFO_LEAD : Fld := ⟨0x108, 16, 9, .rw, 320, 1, 4⟩
/-- R405 -/ def WR_GRID_ERR : Fld := ⟨0x10C, 0, 16, .ro, 0, 1, 4⟩
/-- R405 -/ def WR_GRID_ERR_MAX : Fld := ⟨0x10C, 16, 16, .ro, 0, 1, 4⟩
/-- R406 -/ def RPC_CFG_RPC_GAIN : Fld := ⟨0x110, 0, 4, .rw, 6, 1, 4⟩
/-- R406 -/ def RPC_CFG_RPC_LIM : Fld := ⟨0x110, 4, 8, .rw, 12, 1, 4⟩
/-- R406 -/ def RPC_CFG_TARGET : Fld := ⟨0x110, 16, 12, .rw, 1638, 1, 4⟩
/-- R406 -/ def RPC_STATE_M : Fld := ⟨0x114, 0, 16, .ro, 32768, 1, 4⟩
/-- R406 -/ def RPC_STATE_DELTA : Fld := ⟨0x114, 16, 12, .ro, 0, 1, 4⟩
/-- R406 -/ def RPC_STATE_CLAMPED : Fld := ⟨0x114, 28, 1, .ro, 0, 1, 4⟩
/-- R407 -/ def MON_CFG_MON_LIMIT : Fld := ⟨0x118, 0, 16, .rw, 64, 1, 4⟩
/-- R407 -/ def MON_CFG_MON_THR : Fld := ⟨0x118, 16, 8, .rw, 200, 1, 4⟩
/-- R407 -/ def VFY_CFG_VFY_ERRS : Fld := ⟨0x11C, 0, 16, .rw, 150, 1, 4⟩
/-- R407 -/ def VFY_CFG_VFY_ITER : Fld := ⟨0x11C, 16, 6, .rw, 8, 1, 4⟩
/-- R408 -/ def WR_COUNT_INGOTS : Fld := ⟨0x120, 0, 16, .rc, 0, 1, 4⟩
/-- R408 -/ def WR_COUNT_ENDED : Fld := ⟨0x120, 16, 16, .rc, 0, 1, 4⟩
/-- R408 -/ def VFY_COUNT_PASS : Fld := ⟨0x124, 0, 16, .rc, 0, 1, 4⟩
/-- R408 -/ def VFY_COUNT_FAIL : Fld := ⟨0x124, 16, 16, .rc, 0, 1, 4⟩
/-- R408 -/ def WR_EVENTS_UNDERRUN : Fld := ⟨0x128, 0, 8, .rc, 0, 1, 4⟩
/-- R408 -/ def WR_EVENTS_DATA_LATE : Fld := ⟨0x128, 8, 8, .rc, 0, 1, 4⟩
/-- R408 -/ def WR_EVENTS_INHIBIT : Fld := ⟨0x128, 16, 8, .rc, 0, 1, 4⟩
/-- R408 -/ def WR_EVENTS_ESCAPE : Fld := ⟨0x128, 24, 8, .rc, 0, 1, 4⟩
/-- R409 -/ def STRAT_FIRST : Fld := ⟨0x800, 0, 8, .rws, 0, 512, 4⟩
/-- R409 -/ def STRAT_MID : Fld := ⟨0x800, 8, 8, .rws, 0, 512, 4⟩
/-- R409 -/ def STRAT_LAST : Fld := ⟨0x800, 16, 8, .rws, 0, 512, 4⟩
/-- R409 -/ def STRAT_COOL : Fld := ⟨0x800, 24, 8, .rws, 0, 512, 4⟩
/-- R340 -/ def FE_CTL_OFS_MU : Fld := ⟨0x048, 0, 4, .rw, 10, 1, 4⟩
/-- R340 -/ def FE_CTL_GAIN_MU : Fld := ⟨0x048, 4, 4, .rw, 12, 1, 4⟩
/-- R340 -/ def FE_CTL_OFS_ADAPT : Fld := ⟨0x048, 8, 1, .rw, 1, 1, 4⟩
/-- R340 -/ def FE_CTL_GAIN_ADAPT : Fld := ⟨0x048, 9, 1, .rw, 1, 1, 4⟩
/-- R340 -/ def FE_STATE_O_A : Fld := ⟨0x04C, 0, 16, .ro, 0, 1, 4⟩
/-- R340 -/ def FE_STATE_G_A : Fld := ⟨0x04C, 16, 16, .ro, 32768, 1, 4⟩
/-- R342 -/ def EQ_INIT_C_LO : Fld := ⟨0x700, 0, 14, .rws, 0, 64, 4⟩
/-- R342 -/ def EQ_INIT_C_HI : Fld := ⟨0x700, 16, 14, .rws, 0, 64, 4⟩
/-- R344 -/ def XT_SEP_SEP_L : Fld := ⟨0x078, 0, 16, .rws, 0, 1, 4⟩
/-- R344 -/ def XT_SEP_SEP_R : Fld := ⟨0x078, 16, 16, .rws, 0, 1, 4⟩
/-- R344 -/ def XT_STAT_DELTA_L : Fld := ⟨0x07C, 0, 9, .ro, 0, 1, 4⟩
/-- R344 -/ def XT_STAT_RANGE_L : Fld := ⟨0x07C, 9, 1, .ro, 0, 1, 4⟩
/-- R344 -/ def XT_STAT_DELTA_R : Fld := ⟨0x07C, 16, 9, .ro, 0, 1, 4⟩
/-- R344 -/ def XT_STAT_RANGE_R : Fld := ⟨0x07C, 25, 1, .ro, 0, 1, 4⟩
/-- R345 -/ def XT_TAP_R_H_LO : Fld := ⟨0x090, 0, 13, .rws, 0, 4, 4⟩
/-- R345 -/ def XT_TAP_R_H_HI : Fld := ⟨0x090, 16, 13, .rws, 0, 4, 4⟩
/-- R347 -/ def TR_NOM_STEP : Fld := ⟨0x0A4, 0, 32, .rws, 1288490189, 1, 4⟩
/-- R347 -/ def TR_STAT_LOCK : Fld := ⟨0x0A8, 0, 1, .ro, 0, 1, 4⟩
/-- R347 -/ def TR_STAT_ACQ : Fld := ⟨0x0A8, 1, 1, .ro, 0, 1, 4⟩
/-- R347 -/ def TR_STAT_STEP_RANGE : Fld := ⟨0x0A8, 2, 1, .ro, 0, 1, 4⟩
/-- R347 -/ def TR_STAT_PHASE_RMS : Fld := ⟨0x0A8, 4, 12, .ro, 0, 1, 4⟩
/-- R347 -/ def TR_STAT_FREQ_PPM : Fld := ⟨0x0A8, 16, 16, .ro, 0, 1, 4⟩
/-- R348 -/ def SYNC_CTL_SYNC_TOL : Fld := ⟨0x0AC, 0, 4, .rw, 6, 1, 4⟩
/-- R348 -/ def SYNC_CTL_LINK_TOL : Fld := ⟨0x0AC, 4, 4, .rw, 6, 1, 4⟩
/-- R348 -/ def SYNC_CTL_BLANK_LEVEL : Fld := ⟨0x0AC, 8, 8, .rw, 24, 1, 4⟩
/-- R349 -/ def DET_TARGET_G0 : Fld := ⟨0x0B0, 0, 8, .rws, 16, 1, 4⟩
/-- R349 -/ def DET_TARGET_G1 : Fld := ⟨0x0B0, 8, 8, .rws, 32, 1, 4⟩
/-- R349 -/ def DET_TARGET_G2 : Fld := ⟨0x0B0, 16, 8, .rws, 32, 1, 4⟩
/-- R349 -/ def DET_TARGET_G3 : Fld := ⟨0x0B0, 24, 8, .rws, 16, 1, 4⟩
/-- R349 -/ def DET_CTL_G4 : Fld := ⟨0x0B4, 0, 8, .rws, 0, 1, 4⟩
/-- R349 -/ def DET_CTL_LEVEL_A : Fld := ⟨0x0B4, 8, 8, .rws, 16, 1, 4⟩
/-- R349 -/ def DET_CTL_LLR_SHIFT : Fld := ⟨0x0B4, 16, 4, .rws, 4, 1, 4⟩
/-- R351 -/ def QUAL_CTL_MARGIN_MSE : Fld := ⟨0x0BC, 0, 16, .rw, 400, 1, 4⟩
/-- R351 -/ def QUAL_CTL_MARGIN_EN : Fld := ⟨0x0BC, 16, 1, .rw, 1, 1, 4⟩
/-- R351 -/ def QUAL_LIMIT_PDER_LIMIT : Fld := ⟨0x0DC, 0, 16, .rw, 4096, 1, 4⟩
/-- R351 -/ def QUAL_LIMIT_MARGIN_LIMIT : Fld := ⟨0x0DC, 16, 8, .rw, 30, 1, 4⟩
/-- R351 -/ def QUAL_LIMIT_FAIL_LIMIT : Fld := ⟨0x0DC, 24, 8, .rw, 8, 1, 4⟩
/-- Every field of the BEAM registers. -/
def fields : List Fld :=
  [ZT_GAIN, ZT_OFFSET, ZT_ASYM, RD_CTL_READ_EN, RD_CTL_ADAPT_EN, RD_CTL_OUTER_EN, RD_CTL_OUTER_SINGLE, RD_CTL_ZONE_SEED, RD_STAT_ROLE, RD_STAT_SEG_LOCK, RD_STAT_TIMING_LOCK, RD_STAT_HDR_VALID, RD_STAT_COND_FAIL, RD_STAT_LAYER, RD_STAT_ZONE, RD_STAT_SPIRAL, EQ_CTL_EQ_MU, EQ_CTL_EQ_ADAPT, EQ_CTL_PIN_CENTRE, EQ_CTL_PIN_SLOPE, EQ_CTL_SNAP, EQ_CTL_LOAD_ON_LAYER, EQ_TAP_C_LO, EQ_TAP_C_HI] ++
  [XT_CFG_NB_L, XT_CFG_EN_L, XT_CFG_NB_R, XT_CFG_EN_R, XT_CFG_XT_MU, XT_CFG_XT_ADAPT, XT_TAP_L_H_LO, XT_TAP_L_H_HI, TR_CTL_KP_ACQ, TR_CTL_KI_ACQ, TR_CTL_KP_TRK, TR_CTL_KI_TRK, TR_CTL_ACQ_LEN, TR_CTL_LOCK_THR, LDPC_CTL_ITER_MAX, LDPC_CTL_SCALE, QUAL_MSE_MSE, QUAL_BITS_BITS, QUAL_ERRS_ERRS, QUAL_SECT_GOOD, QUAL_SECT_FAILED, QUAL_SYNC_PRI_MISS, QUAL_SYNC_SEC_MISS, QUAL_SYNC_BOTH_MISS] ++
  [QUAL_SYNC_HDR_FAIL, QUAL_MARGIN_MARGIN_MUI, QUAL_MARGIN_VALID, QUAL_MARGIN_ITER_MEAN, QUAL_EVENTS_ABSENT_RUNS, QUAL_EVENTS_SEG_SLIP, QUAL_EVENTS_TIMING_LOSS, QUAL_EVENTS_OUTER_FIX, WR_CTL_WR_ALLOW, WR_CTL_MON_EN, WR_CTL_RPC_EN, WR_CTL_BANK, WR_CTL_STOP, WR_CTL_ABORT, WR_STAT_STATE, WR_STAT_CAUSE, WR_STAT_SECTOR, WR_STAT_SLOT, WR_CFG_SKEW, WR_CFG_GRID_TOL, WR_CFG_FIFO_LEAD, WR_GRID_ERR, WR_GRID_ERR_MAX, RPC_CFG_RPC_GAIN] ++
  [RPC_CFG_RPC_LIM, RPC_CFG_TARGET, RPC_STATE_M, RPC_STATE_DELTA, RPC_STATE_CLAMPED, MON_CFG_MON_LIMIT, MON_CFG_MON_THR, VFY_CFG_VFY_ERRS, VFY_CFG_VFY_ITER, WR_COUNT_INGOTS, WR_COUNT_ENDED, VFY_COUNT_PASS, VFY_COUNT_FAIL, WR_EVENTS_UNDERRUN, WR_EVENTS_DATA_LATE, WR_EVENTS_INHIBIT, WR_EVENTS_ESCAPE, STRAT_FIRST, STRAT_MID, STRAT_LAST, STRAT_COOL, FE_CTL_OFS_MU, FE_CTL_GAIN_MU, FE_CTL_OFS_ADAPT] ++
  [FE_CTL_GAIN_ADAPT, FE_STATE_O_A, FE_STATE_G_A, EQ_INIT_C_LO, EQ_INIT_C_HI, XT_SEP_SEP_L, XT_SEP_SEP_R, XT_STAT_DELTA_L, XT_STAT_RANGE_L, XT_STAT_DELTA_R, XT_STAT_RANGE_R, XT_TAP_R_H_LO, XT_TAP_R_H_HI, TR_NOM_STEP, TR_STAT_LOCK, TR_STAT_ACQ, TR_STAT_STEP_RANGE, TR_STAT_PHASE_RMS, TR_STAT_FREQ_PPM, SYNC_CTL_SYNC_TOL, SYNC_CTL_LINK_TOL, SYNC_CTL_BLANK_LEVEL, DET_TARGET_G0, DET_TARGET_G1] ++
  [DET_TARGET_G2, DET_TARGET_G3, DET_CTL_G4, DET_CTL_LEVEL_A, DET_CTL_LLR_SHIFT, QUAL_CTL_MARGIN_MSE, QUAL_CTL_MARGIN_EN, QUAL_LIMIT_PDER_LIMIT, QUAL_LIMIT_MARGIN_LIMIT, QUAL_LIMIT_FAIL_LIMIT]
end Reg.BEAM

namespace Reg.HALL
/-- R777 -/ def HALL_CFG_WIDTH : Fld := ⟨0x040, 0, 7, .rws, 0, 1, 4⟩
/-- R777 -/ def HALL_CFG_REFIN : Fld := ⟨0x040, 7, 1, .rws, 0, 1, 4⟩
/-- R777 -/ def HALL_CFG_REFOUT : Fld := ⟨0x040, 8, 1, .rws, 0, 1, 4⟩
/-- R777 -/ def HALL_CFG_INV_OUT : Fld := ⟨0x040, 9, 1, .rws, 0, 1, 4⟩
/-- R777 -/ def HALL_CFG_INIT_SEL : Fld := ⟨0x040, 10, 2, .rws, 0, 1, 4⟩
/-- R777 -/ def HALL_CFG_POLY_SEL : Fld := ⟨0x040, 12, 3, .rws, 0, 1, 4⟩
/-- R778 -/ def POLY_LO_POLY : Fld := ⟨0x044, 0, 32, .rws, 0, 1, 4⟩
/-- R778 -/ def POLY_HI_POLY : Fld := ⟨0x048, 0, 32, .rws, 0, 1, 4⟩
/-- R778 -/ def INIT_LO_INIT : Fld := ⟨0x04C, 0, 32, .rws, 0, 1, 4⟩
/-- R778 -/ def INIT_HI_INIT : Fld := ⟨0x050, 0, 32, .rws, 0, 1, 4⟩
/-- R778 -/ def HALL_STAT_IDLE : Fld := ⟨0x054, 0, 1, .ro, 1, 1, 4⟩
/-- R778 -/ def HALL_STAT_HELD : Fld := ⟨0x054, 1, 1, .ro, 0, 1, 4⟩
/-- R778 -/ def HALL_STAT_DIR : Fld := ⟨0x054, 2, 1, .ro, 0, 1, 4⟩
/-- R778 -/ def HALL_COUNT_OK : Fld := ⟨0x058, 0, 16, .rc, 0, 1, 4⟩
/-- R778 -/ def HALL_COUNT_FAIL : Fld := ⟨0x058, 16, 16, .rc, 0, 1, 4⟩
/-- R778 -/ def LAST_LO_VALUE : Fld := ⟨0x05C, 0, 32, .ro, 0, 1, 4⟩
/-- R778 -/ def LAST_HI_VALUE : Fld := ⟨0x060, 0, 32, .ro, 0, 1, 4⟩
/-- R778 -/ def TEST_CTL_RESTART : Fld := ⟨0x064, 0, 1, .w1p, 0, 1, 4⟩
/-- R778 -/ def TEST_CTL_FEED : Fld := ⟨0x064, 1, 1, .w1p, 0, 1, 4⟩
/-- R778 -/ def TEST_CTL_BYTE : Fld := ⟨0x064, 8, 8, .rw, 0, 1, 4⟩
/-- R778 -/ def TEST_LO_VALUE : Fld := ⟨0x068, 0, 32, .ro, 0, 1, 4⟩
/-- R778 -/ def TEST_HI_VALUE : Fld := ⟨0x06C, 0, 32, .ro, 0, 1, 4⟩
/-- Every field of the HALL registers. -/
def fields : List Fld :=
  [HALL_CFG_WIDTH, HALL_CFG_REFIN, HALL_CFG_REFOUT, HALL_CFG_INV_OUT, HALL_CFG_INIT_SEL, HALL_CFG_POLY_SEL, POLY_LO_POLY, POLY_HI_POLY, INIT_LO_INIT, INIT_HI_INIT, HALL_STAT_IDLE, HALL_STAT_HELD, HALL_STAT_DIR, HALL_COUNT_OK, HALL_COUNT_FAIL, LAST_LO_VALUE, LAST_HI_VALUE, TEST_CTL_RESTART, TEST_CTL_FEED, TEST_CTL_BYTE, TEST_LO_VALUE, TEST_HI_VALUE]
end Reg.HALL

end Sys2Proof.Machine
end

