-- ==== Sys2Proof/Config.lean ====
section
/-!
DEFINITION. What one controller fixes and the spec does not state: values without a body, so that no proof can lean on them.
-/
namespace Sys2Proof.Config

/-- The `n`-th value that the spec leaves open (log 2). -/
opaque free : Nat → BitVec 64
/-- MAJOR and MINOR of PAGE_ID by block type (R143: per block, not stated). -/
opaque blockVersion : Nat → BitVec 8
/-- The three entries of columns 0 to 160 of the base matrix of the LDPC code, row and shift: a vendor file (R211, log 42). -/
opaque ldpcColumn : Nat → Vector (Fin 20 × Fin 208) 3
/-- The parity block of column 160 for the row sums of the payload: the solution of R211, which the vendor file fixes (log 42). -/
opaque ldpcFirst : List (List Bool) → BitVec 208
/-- The commanded power of level COOL in µW, at most 50 (R366; log 189). -/
opaque coolPower : BitVec 6
/-- Place of the retry bit in the detail of ALIGN_FAIL (R268, log 7). -/
opaque alignRetryBit : Nat

/-- Corrections fused at manufacture, by converter: GAIN in Q2.30 and OFS in 1/16 LSB (R598, R622). -/
opaque fusedGain : Nat → BitVec 32
opaque fusedOfs : Nat → BitVec 16

/-- Ideality η of each temperature sensor, fused at manufacture, in 10^-6 (R600). -/
opaque fusedIdeality : Nat → BitVec 32

/-- XTS-AES (IEEE 1619) of one block under a namespace key and a namespace LBA, and its inverse (R707, log 76). -/
opaque xtsEncrypt : Nat → Nat → List (BitVec 8) → List (BitVec 8)
opaque xtsDecrypt : Nat → Nat → List (BitVec 8) → List (BitVec 8)

/-- Columns 0 to 134 of the buffer memory check matrix: a vendor file (R735). -/
opaque eccColumn : Nat → BitVec 9

/-- Fused serial number of this controller (R626, R810). -/
opaque serial : BitVec 64

/-- The input word of a temperature sensor or of VHOLD for a reading: its scaling is not stated (R422, log 67). -/
opaque measWord : Nat → Nat → BitVec 32

/-- Bytes of the Identify structures that the spec does not state, by CNS and place (R683, log 101). -/
opaque identify : Nat → Nat → BitVec 8

/-- The board connects this controller as role 1 (R810). -/
opaque role1 : Bool

/-- The lowest detector margin of an hour in which no margin was measured (R858, log 156). -/
opaque noMargin : BitVec 16

/-- Bits of the NVMe controller properties that the spec does not state, by byte offset in the register window (R136, log 120). -/
opaque nvmeProperty : Nat → BitVec 32

end Sys2Proof.Config
end

