-- ==== Sys2Proof/Machine/StateAssay.lean ====
section
/-!
DEFINITION. State of converter calibration and of the calibration working set (chapter 13).
-/
namespace Sys2Proof.Machine

/-- Corrections and counts of one converter (R597 to R599): GAIN in Q2.30, OFS in 1/16 LSB. -/
structure ConvSt where
  gain : Nat
  ofs : Int
  cals : Nat := 0
  rejects : Nat := 0
  deriving DecidableEq, Repr

/-- The search for a separation that no point holds (R606): the magnitude in force, the best one and its energy. -/
structure SepSearch where
  mag : Nat
  best : Nat
  energy : Nat
  deriving DecidableEq, Repr

/-- The assay island and the management firmware's calibration set. -/
structure AssaySt where
  /-- Converters by island × 64 + index (0 spindle, 1 axis, 2 assay; the spare is 48, 44 and 13); an absent one has its
  fused corrections. -/
  convs : List (Nat × ConvSt) := []
  /-- The next converter of each island, and whether its first cycle is complete (R596). -/
  nextSpin : Nat := 0
  nextAxis : Nat := 0
  nextAssay : Nat := 0
  cycSpin : Bool := false
  cycAxis : Bool := false
  cycAssay : Bool := false
  /-- The last slot that was completed. -/
  lastSlot : Option Nat := none
  /-- The reference converter last measured its offset then (R592). -/
  refAt : Option Nat := none
  /-- REF_DRIFT has been sent in the present excursion (R591). -/
  refOut : Bool := false
  /-- Timebase of the newest conversion of each sensor (R600). -/
  stamps : List (Nat × Nat) := []
  /-- Words of the beam blocks (R612): point × 80 × 272 + beam × 272 + word; an absent word is the item's default. -/
  cal : Sparse := []
  /-- OPU_ID when a port's items were last captured or written (R612). -/
  opuIds : List (Nat × Word) := []
  /-- Capture times by working-set key (R604, R605). -/
  capAt : List (Nat × Nat) := []
  /-- Separation searches by beam × 2 + side (R606). -/
  search : List (Nat × SepSearch) := []
  /-- Temperature of the values in force and the time of the last commit, by port (R610), in °C × 64. -/
  valT : List (Nat × Int) := []
  valAt : List (Nat × Nat) := []
  /-- Ports with a capture that changes a value in force by more than one step (R610). -/
  dirty : List Nat := []
  /-- A calibration set exists (R611, R615), and the SEQ of the set in force. -/
  setValid : Bool := false
  /-- SEQ of the set in force. -/
  seq : Nat := 0
  /-- First change of the working set since the last store, and a store asked for (R616). -/
  changed : Option Nat := none
  /-- STORE_REQ has been written. -/
  storeReq : Bool := false
  deriving DecidableEq, Repr

end Sys2Proof.Machine
end

