-- ==== Sys2Proof/Machine/StateCtl.lean ====
section
/-!
DEFINITION. State of the loop engines, of their inputs and outputs, and of the trace units (chapter 09).
-/
namespace Sys2Proof.Machine

/-- One loop engine (R416 to R459). -/
structure EngSt where
  /-- Every word of the memory map of R457; an unlisted word is 0. -/
  mem : Sparse := []
  /-- Writes of section states and work memory that wait for the next frame boundary (R448). -/
  waiting : List (Nat × Word) := []
  /-- The entry that executes next in this frame; 1,024 when the frame is over (R426). -/
  next : Nat := 1024
  /-- Chains missed or held in this frame (R436, R439), and chains that have reported (R437). -/
  missed : List Nat := []
  reported : List Nat := []
  /-- Sections that ran in this frame, with their states before the last BIQUAD (R434). -/
  before : List (Nat × List Word) := []
  /-- Exchange words written in this frame (R424). -/
  exch : List (Nat × Word) := []
  /-- Bank under validation and whether it was written since (R444). -/
  valBank : Nat := 0
  valTouched : Bool := false
  deriving DecidableEq, Repr

/-- An input word other than a photodetector channel (R422). -/
structure Meas where
  frame : Nat
  value : Word
  valid : Bool
  deriving DecidableEq, Repr

/-- The actuator group of a head in its head island (R255, R421). -/
structure Group where
  /-- Fields 0 to 19 as converted numbers. -/
  fields : List Int := List.replicate 20 0
  /-- The owning engine's GCLOSE has arrived in this frame (R438). -/
  closed : Bool := false
  deriving DecidableEq, Repr

/-- Configuration of one trace node as read at ARM (R449). -/
structure TraceNode where
  kind : Nat := 0
  eng : Nat := 0
  addr : Nat := 0
  capture : Nat := 0x400
  deriving DecidableEq, Repr

/-- One trace unit (R449 to R452). -/
structure TraceSt where
  nodes : List TraceNode := []
  src : Nat := 0
  arg : Nat := 0
  edge : Nat := 0
  level : Int := 0
  pre : Nat := 0
  decim : Nat := 0
  cont : Bool := false
  /-- Samples, newest first, at most 16,384. -/
  buf : List (List Word) := []
  /-- Samples still to be taken after the trigger. -/
  left : Nat := 0
  /-- An event trigger waits for the next sample (R451). -/
  pending : Bool := false
  /-- Values captured at the ends of entries, by node. -/
  caught : List (Nat × Word) := []
  deriving DecidableEq, Repr

end Sys2Proof.Machine
end

