-- ==== Sys2Proof/Machine/StateHall.lean ====
section
/-!
DEFINITION. State of one hallmark check-value unit that no register shows (chapter 17).
-/
namespace Sys2Proof.Machine

/-- A hallmark unit's test register and a parity error not yet charged to a message (R779, R781). -/
structure HallUnit where
  /-- Test register; none before the first RESTART or FEED. -/
  test : Option Nat := none
  /-- A parity error of the running state or configuration was found in the message in progress (R781). -/
  parity : Bool := false
  deriving DecidableEq, Repr

end Sys2Proof.Machine
end

