-- ==== Sys2Proof/Machine/StateMotion.lean ====
section
/-!
DEFINITION. State of the axes and spindles that no register shows (chapters 11 and 12).
-/
namespace Sys2Proof.Machine

/-- One axis (chapter 12). Positions are in 2^-32 microsteps, speeds in 2^-32 microsteps/s (R551: 32 fraction bits). -/
structure AxisSt where
  /-- Position in 2^-32 microsteps. -/
  p : Int := 0
  /-- Speed in 2^-32 microsteps/s. -/
  v : Int := 0
  /-- Acceleration of an S-curve, in 2^-32 microsteps/s² (R559). -/
  acc : Int := 0
  /-- Phase of the drive in 2^-32 microsteps. -/
  phi : Int := 0
  /-- Target in microsteps, after the clamps of R561. -/
  target : Int := 0
  /-- ENC. -/
  enc : Int := 0
  /-- ENC_OFS. -/
  encOfs : Int := 0
  /-- Frames in succession with a deviation beyond the window (R566, R571). -/
  streak : Nat := 0
  /-- Homing step of R571: 0 none, 2 travel, 3 stall found, 5 back-off. -/
  homeStep : Nat := 0
  /-- Timebase of step 3 of R571. -/
  stallAt : Nat := 0
  /-- Position at the start of step 2 of R571, for MAXDIST (R572). -/
  homeFrom : Int := 0
  /-- Command in progress (R568), 0 none. -/
  cmd : Nat := 0
  /-- p is resynchronised when the stop ramp ends (R566). -/
  resync : Bool := false
  /-- The stop ramp ends in OFF (R579). -/
  toOff : Bool := false
  /-- Bounds left by limit stops (R561, R574). -/
  boundLo : Option Int := none
  boundHi : Option Int := none
  /-- The limit condition of R574 has been reported and still holds. -/
  limSeen : Bool := false
  /-- Timebase of the last change of each raw limit level (R575). -/
  loChange : Nat := 0
  hiChange : Nat := 0
  /-- Timebase at which the page was enabled, and of each input the chatter window last counted and its changes (R575). -/
  onAt : Nat := 0
  chatLo : Nat × Nat := (0, 0)
  chatHi : Nat × Nat := (0, 0)
  /-- Filtered encoder levels. -/
  encA : Bool := false
  encB : Bool := false
  /-- Times of the newest edges in one direction, newest first, at most 5 (R564). -/
  edges : List Nat := []
  /-- Edges in succession in one direction, saturating at 2. -/
  edgeRun : Nat := 0
  /-- Direction of the last edge. -/
  lastUp : Bool := true
  /-- INDEX_REF has been taken since HOMED was set (R565). -/
  idxKnown : Bool := false
  /-- A change of current mode waits for a full-step position: the full step at which it was asked (R556). -/
  modeWait : Option Int := none
  /-- Timebase at which the present standstill began (R555). -/
  stillAt : Nat := 0
  /-- HOLD_DELAY has passed (R555). -/
  holdLow : Bool := false
  /-- KIND, DIR and CHOP_DIV in force (R560). -/
  kind : Nat := 0
  dir : Nat := 0
  chop : Nat := 8
  /-- Frames in FOLLOW without a target word (R570). -/
  noTarget : Nat := 0
  /-- Servo frame of the last update of the generator (R557) and in which the last chopper period began (R552). -/
  genFrame : Option Nat := none
  chopFrame : Option Nat := none
  /-- Target word of this frame, to govern the next (R569). -/
  targetIn : Option Int := none
  /-- Duty and integrator of each coil in 2^-28, and the last converted currents in mA (R554). -/
  dutyA : Nat := 0
  dutyB : Nat := 0
  intA : Int := 0
  intB : Int := 0
  iA : Int := 0
  iB : Int := 0
  deriving DecidableEq, Repr

/-- One spindle commutator (chapter 11). Angles are 16-bit turns with 16 fraction bits, speeds in 10^-6 rpm, voltages and
duties with 16 fraction bits, currents in mA. -/
structure SpinSt where
  /-- θ̂ and ω̂ (R528), ω̂ per PWM period. -/
  theta : Nat := 0
  /-- Rotor speed of the observer. -/
  omega : Int := 0
  /-- θ_ol and ω_ol (R523). -/
  thetaOl : Nat := 0
  /-- Open-loop speed. -/
  wOl : Nat := 0
  /-- Slewed target (R535). -/
  slewed : Int := 0
  /-- I_RAMP of the start in progress (R524). -/
  iRamp : Nat := 0
  /-- Valley currents of the last period. -/
  ia : Int := 0
  ib : Int := 0
  ic : Int := 0
  /-- Current loop (R530): V and V_I. -/
  v : Int := 0
  vI : Int := 0
  /-- Duties of the three phases (R529). -/
  dA : Nat := 0
  dB : Nat := 0
  dC : Nat := 0
  /-- Back-EMF amplitude of the last period, in 1/3 µV. -/
  emf : Nat := 0
  /-- Successive periods with |ε| at most 0.17 and above 0.5 (R525, R538). -/
  locked : Nat := 0
  lost : Nat := 0
  /-- Overcurrent trips of the last 16 periods, and periods whose gates stay low (R531). -/
  ocBits : Nat := 0
  ocLow : Nat := 0
  /-- EBRAKE has opened the gates (R541). -/
  chopOpen : Bool := false
  /-- A start is in progress, and since when (R517, R527). -/
  starting : Bool := false
  startAt : Nat := 0
  /-- The start in progress follows a loss of synchronism and is no command (R526, R538). -/
  restart : Bool := false
  /-- A BRAKE waits for standstill (R516). -/
  braking : Bool := false
  /-- The driver wake of a START in OFF runs since this moment (R515). -/
  wakeAt : Option Nat := none
  /-- DETECT has found the axis and measures the resistance (R522). -/
  measuring : Bool := false
  /-- Failed detection attempts in succession (R521). -/
  detFails : Nat := 0
  /-- Moment the present state was entered. -/
  since : Nat := 0
  /-- An edge has been seen since RAMP began (R524). -/
  edgeSeen : Bool := false
  /-- I_HOLD falls from this current since this moment (R533). -/
  holdI : Nat := 0
  holdAt : Nat := 0
  /-- I_DEM in use and the moment the last setpoint arrived (R533, R534). -/
  iDem : Int := 0
  setAt : Nat := 0
  /-- Servo frame in which the last PWM period began (R509). -/
  pwmFrame : Option Nat := none
  /-- Signs of e_a, e_b, e_c as last seen beyond the hysteresis, one bit each (R536). -/
  signs : Nat := 0
  /-- Intervals between successive edges in one direction, newest first, in 4 ns cycles; edges in that direction and the
  direction (R536). -/
  ivals : List Nat := []
  /-- Edges in succession in one direction. -/
  edgeRun : Nat := 0
  /-- Direction of the last edge. -/
  lastFwd : Bool := true
  /-- Moment of the last edge. -/
  lastEdge : Nat := 0
  /-- Edges of the present revolution, and successive revolutions in and out of tolerance (R535). -/
  revEdges : Nat := 0
  tolOk : Nat := 0
  tolBad : Nat := 0
  /-- Held fields in force (R518). -/
  polePairs : Nat := 4
  dir : Nat := 0
  pwmDiv : Nat := 8
  deadtime : Nat := 50
  rMohm : Nat := 1000
  lUh : Nat := 200
  deriving DecidableEq, Repr

end Sys2Proof.Machine
end

