-- ==== Sys2Proof/Machine/StateServo.lean ====
section
/-!
DEFINITION. State of the servo sequencer, the field demodulators and the field counters of a port (chapter 10). Coordinates
are in 2^-16 pitch, ratios in Q1.31, times on the timebase.
-/
namespace Sys2Proof.Machine

/-- One servo sample set of a head as delivered (R247, R261, R477): photodetector channels, or measurement words. -/
structure ServoSet where
  frame : Nat
  k : Nat
  /-- Index of the RF sample period in which it was taken (R26, R247). -/
  ix : Nat := 0
  valid : Bool
  /-- PD0 to PD11, 12 bits each; empty for the per-frame words. -/
  pd : List Nat
  /-- Channels delivered as held values and marked valid (R486), one bit each. -/
  held : Nat := 0
  /-- Measurement words by c of R476; none is invalid. -/
  words : List (Nat × Option Int) := []
  deriving DecidableEq, Repr

/-- One field demodulator (R466 to R469, R487). -/
structure Demod where
  /-- Successive decoded fields and successive fields not decoded. -/
  got : Nat := 0
  miss : Nat := 0
  /-- PES_b and D (in 2^-16 period) of the newest decoded field, its measured coordinate X_b. -/
  pes : Int := 0
  /-- The last valid PES_b (R489). -/
  pesLast : Int := 0
  /-- C1 time of the previous field, decoded or predicted, and t_C2 − t_C1 of the last decoded field, in 1/256 sample (R466). -/
  c1 : Option Int := none
  span : Int := 0
  d : Int := 0
  x : Int := 0
  /-- Validity of PES_b by R468. -/
  inRange : Bool := false
  /-- The beam has lost field lock in the revolution under way (R481). -/
  lostRev : Bool := false
  /-- W_b in 2^-31 (R487). -/
  wear : Nat := 2147483648
  /-- PD(6 + b) as last taken in a frame without writing (R486). -/
  pdHeld : Nat := 0
  deriving DecidableEq, Repr

/-- What the sequencer is doing (R492 to R497). -/
inductive SrvPhase where
  /-- Nothing runs: OFF, PARKING, PARKED, FAILED. -/
  | idle
  /-- ACQUIRE steps 1 and 2. -/
  | sweep
  /-- Focus closed, focus lock awaited. -/
  | locking
  /-- Decoded fields are checked for the layer. -/
  | verify
  /-- One revolution with tracking open (R470). -/
  | refine
  /-- Walk to the nearest track and track lock. -/
  | capture
  | follow
  /-- A walk to X*, then arrival. -/
  | walk
  /-- The coarse phase of R494. -/
  | coarse
  /-- A layer jump (R495). -/
  | jump
  /-- Recovery waits for two decoded fields, for count lock, or sweeps focus (R497). -/
  | recTrack
  | recCount
  | recFocus
  deriving DecidableEq, Repr

/-- What follows the verification of a layer: the rest of an ACQUIRE, the radial part of a SEEK, track recovery. -/
inductive SrvAfter where
  | acquire | seek | recover
  deriving DecidableEq, Repr

/-- The servo side of a port. -/
structure ServoSt where
  phase : SrvPhase := .idle
  after : SrvAfter := .acquire
  /-- Gates of R492. -/
  gFoc : Bool := false
  gTrk : Bool := false
  gRot : Bool := false
  gCtr : Bool := true
  /-- Command in progress (1 ACQUIRE to 4 STOP, 0 none), its start frame, target layer and turn. -/
  cmd : Nat := 0
  cmdFrame : Nat := 0
  layer : Nat := 0
  turn : Nat := 0
  /-- A SEEK applied during a layer jump (R499). -/
  next : Option (Nat × Nat) := none
  /-- Moment the phase began, and a limit within it. -/
  at' : Nat := 0
  limit : Nat := 0
  /-- Attempts of an ACQUIRE that failed. -/
  tries : Nat := 0
  /-- FOC_FF without the runout table, and the focus bias. -/
  focFF : Int := -2147483647
  bias : Int := 0
  /-- SLED_REF. -/
  sled : Nat := 0
  /-- Layer a jump or a verification aims at, layers a jump crosses, and its direction. -/
  aim : Nat := 0
  cross : Nat := 0
  deeper : Bool := true
  /-- A recovery runs; the verification follows a jump. -/
  inRec : Bool := false
  jumped : Bool := false
  /-- S-curves counted; the last lobe's stage (1 first lobe, 2 zero crossed, 3 second lobe, 0 none), sign and time; the end
  of a brake pulse. -/
  curves : Nat := 0
  stage : Nat := 0
  lobePos : Bool := true
  lobeAt : Nat := 0
  brakeAt : Option Nat := none
  /-- Fields or sets in succession that meet a condition of R488 or R494. -/
  focGood : Nat := 0
  focLow : Nat := 0
  focBad : Nat := 0
  trkGood : Nat := 0
  trkBad : Nat := 0
  noPes : Nat := 0
  trkWrong : Nat := 0
  rotGood : Nat := 0
  rotBad : Nat := 0
  arrive : Nat := 0
  /-- Fields since all locks were last all held together (R489). -/
  settle : Nat := 0
  /-- Decoded fields counted in a phase, and the LAYER last read. -/
  fields : Nat := 0
  layerRead : Nat := 0
  /-- Write-inhibited beams (R489), one bit each. -/
  winh : Nat := 0x1F
  /-- FE of the last set. -/
  fe : Int := 0
  /-- Field counter, fields since the last index mark, periods over 64 of the last field, and its time (R471, R475). -/
  field : Nat := 0
  sinceIndex : Option Nat := none
  spanC : Nat := 19661
  fieldAt : Nat := 0
  /-- FIELD of the last decoded identity word, and disagreements seen once (R472 to R474). -/
  lastField : Option Nat := none
  diff : Option Int := none
  turnDiff : Option Nat := none
  /-- X_ref and X*, the angle in periods to which they have been advanced, and a walk under way. -/
  xRef : Int := 0
  xStar : Int := 0
  angle : Nat := 0
  walking : Bool := false
  /-- Largest and smallest D of a refinement (R470), and the frame of a firmware write to a KAPPA entry (R499). -/
  dMax : Option Int := none
  dMin : Option Int := none
  kappaWrite : Option Nat := none
  /-- Moments at which recoveries started within the last second, newest first (R498). -/
  recs : List Nat := []
  /-- LASER_KILL_N is high since this moment (R485). -/
  rampSince : Option Nat := none
  /-- FOC_FF and TRK_FF as delivered in this frame, and the group of the frame has been sent (R479). -/
  ffFoc : Int := 0
  ffTrk : Int := 0
  demod : Vector Demod 5 := Vector.replicate 5 {}
  deriving DecidableEq, Repr

end Sys2Proof.Machine
end

