-- ==== Sys2Proof/Machine/StateSys.lean ====
section
/-!
DEFINITION. State of the always-on island and of the register network: register fields, waiting commits, fences,
islands, input pins, watchdog, and the fault collector with its record memory (chapters 01 to 04 and 18).
-/
namespace Sys2Proof.Machine

/-- The register fields (R9): `plain` holds RO, RW, W1C and RC fields, `act` the active values of RWS fields and
`sh` their shadows; `wr` names the fields whose shadow has been written since the page's last commit (R156). A key is a page number, a word, a repetition and a bit place; an unlisted field holds its reset value. -/
structure RegFile where
  /-- Values of RO, RW, W1C and RC fields. -/
  plain : Sparse := []
  /-- Active values of RWS fields. -/
  act : Sparse := []
  /-- Shadows of RWS fields. -/
  sh : Sparse := []
  /-- Keys of RWS fields written since the last commit of their page, in the order of the writes. -/
  wr : List Nat := []
  deriving DecidableEq, Repr

/-- A commit that waits in a page: local, or of a global commit submitted by `owner` (R157, R164, R165).
While it waits the page's shadow is frozen (R159). -/
structure PageCommit where
  page : Page
  owner : Option Requester
  /-- SHADOW_CTL.BOUNDARY at the COMMIT write. -/
  boundary : Nat
  /-- Timebase at which the COMMIT took effect. -/
  since : Nat
  deriving DecidableEq, Repr

/-- One requester's fence (R33 to R36). -/
structure Fence where
  done : Bool := true
  timeout : Bool := false
  /-- SCOPE as last written. -/
  scope : Nat := 3
  skipped : Nat := 0
  since : Nat := 0
  /-- SCOPE of the fence that runs or ran last (R36). -/
  kind : Nat := 3
  /-- Items placed into X8 before START and not yet delivered (R33). -/
  ahead : Nat := 0
  deriving DecidableEq, Repr

/-- State held once per requester (R34, R38, R162, R163). -/
structure ReqState where
  /-- The fence. -/
  fence : Fence := {}
  /-- FRAME_TB_LO and FRAME_TB_HI as latched by this requester's last read of FRAME_NUM. -/
  frameTb : Nat := 0
  /-- GLOBAL_FRAME.TARGET. -/
  target : Nat := 0
  /-- GLOBAL_COMMIT.STATE: 0 idle, 1 pending, 2 ended. -/
  gcState : Nat := 0
  /-- GLOBAL_COMMIT.RESULT. -/
  gcResult : Nat := 0
  /-- Target frame of the pending global commit. -/
  gcFrame : Nat := 0
  /-- The arm has been delivered to the islands of the armed pages (R39). -/
  gcArmSent : Bool := false
  /-- What the requester's last read returned, and the upper word of a 64-bit read. -/
  readData : Word := 0
  readHi : Word := 0
  deriving DecidableEq, Repr

/-- Release, gating and scrub of the islands (R18, R106, R108). Which heads and whether the peer are gated is
CLK.HEAD_GATE and CLK.PEER_GATE. -/
structure IslandState where
  /-- Brownout detectors armed, I3C path answers: step 2 of R106 reached. -/
  aonUp : Bool := false
  /-- The always-on PLL has locked since power-on: the timebase counts (R102). -/
  tbRuns : Bool := false
  /-- t0 of R106. -/
  bootAt : Nat := 0
  /-- The islands of step 4 are released. -/
  released : Bool := false
  /-- The host and command islands are released. -/
  hostReleased : Bool := false
  /-- The management island is released. -/
  mgmtReleased : Bool := false
  /-- The management island has been released at least once since the last full reset (R43). -/
  mgmtOnce : Bool := false
  /-- Head islands ungated whose memory scrub still runs (R108). -/
  scrubHead : Nat := 0
  /-- The peer island is ungated and its scrub still runs. -/
  scrubPeer : Bool := false
  deriving DecidableEq, Repr

/-- Levels of pins and supply detectors (R64, R70, R86, R87). The outputs that follow the state of their block are in
Machine/Outputs.lean. -/
structure Pins where
  /-- VDD_IO is above 0.9 V: the pad ring drives its outputs (R64). -/
  vddIo : Bool := false
  /-- RESET_N low. -/
  resetNLow : Bool := true
  /-- PERST_N low. -/
  perstNLow : Bool := true
  /-- PWR_GOOD high. -/
  pwrGood : Bool := true
  /-- The core detector is below its level. -/
  coreLow : Bool := false
  /-- VDD_AON is below its level. -/
  aonLow : Bool := false
  /-- Filtered level of OPUnn_PRESENT_N, 1 low (R275). -/
  presentLow : Nat := 0
  /-- DRV_FAULT_N of each spindle, 1 low. -/
  drvFaultLow : Nat := 0
  /-- BRG_FAULT_N of each axis, 1 low. -/
  brgFaultLow : Nat := 0
  /-- LASER_KILL_N high, one bit per port (R83, R271). -/
  killHigh : Nat := 0
  /-- HOLD_TEST high. -/
  holdTest : Bool := false
  /-- ALERT_N low. -/
  alertLow : Bool := false
  /-- PEER_FENCE_N driven low by the partner, as far as this controller has seen (R85). -/
  fenceNetLow : Bool := false
  /-- PEER_FENCE_N driven low by this controller. -/
  fenceDrive : Bool := false
  /-- TRST_N has reset the test access port. -/
  jtagReset : Bool := false
  deriving DecidableEq, Repr

/-- A response of the I3C register access handler (R177, R179). -/
structure McResp where
  busy : Bool := false
  status : Nat := 0
  data : List Word := []
  deriving DecidableEq, Repr

/-- The management processors (R43 to R48). -/
structure MgmtState where
  /-- Start of the current watchdog period, none while no period runs. -/
  wdogStart : Option Nat := none
  /-- A warm restart is in progress: cores not yet executing. -/
  restarting : Bool := false
  /-- Firmware executes admin commands. -/
  resumed : Bool := false
  /-- Times of the last two watchdog fires (R864). -/
  fires : List Nat := []
  /-- Time of the last fire or request. -/
  lastRestart : Nat := 0
  /-- An MCTP request is being served (R179). -/
  mctpBusy : Bool := false
  /-- The response that waits to be read. -/
  mctpResp : McResp := {}
  /-- NVMe-MI messages passed to firmware and not yet taken (R176). -/
  miQueue : List (List Byte) := []
  deriving DecidableEq, Repr

/-- A fault message (R783). -/
structure Msg where
  src : Nat
  kind : Nat
  hint : Nat
  detail : Nat
  arg : Nat
  deriving DecidableEq, Repr

/-- Configuration of one source (R807). -/
structure SrcCfg where
  n : Nat
  base : Nat
  esc : Nat
  hintEn : Bool := true
  scope : Nat
  tMant : Nat
  tExp : Nat
  /-- Reaction bytes of NOTE, DEGRADE, SEVERE and CRITICAL in one word (R796). -/
  react : Nat := 0x1F111100
  deriving DecidableEq, Repr

/-- Window counts of one source (R793). -/
structure SrcCnt where
  aIx : Nat := 0
  a : Nat := 0
  bIx : Nat := 0
  b : Nat := 0
  last : Nat := 0
  deriving DecidableEq, Repr

/-- One record of the always-on fault memory (R800). -/
structure FaultRec where
  src : Nat
  kindFirst : Nat
  kindLast : Nat
  hint : Nat
  cls : Nat
  escalated : Bool := false
  handling : Bool := false
  acked : Bool := false
  copied : Bool := false
  forced : Bool := false
  quenched : Bool := false
  scope : Nat := 0
  detail : Nat := 0
  count : Nat := 1
  argFirst : Nat := 0
  argLast : Nat := 0
  tbFirst : Nat := 0
  tbLast : Nat := 0
  /-- Order of opening; the oldest has the smallest. -/
  serial : Nat := 0
  /-- NOTIFY reaction of a merged message (R796). -/
  notify : Bool := false
  deriving DecidableEq, Repr

/-- A classified message in the capture queue (R802). -/
structure Capture where
  msg : Msg
  stamp : Nat
  cls : Nat
  escalated : Bool
  quenched : Bool
  scope : Nat
  handling : Bool
  notify : Bool
  deriving DecidableEq, Repr

/-- The fault collector (chapter 18). Lists keyed by source ID or record index; an absent source has its fused defaults. -/
structure Collector where
  /-- Configurations that differ from the fused defaults, by source. -/
  cfg : List (Nat × SrcCfg) := []
  /-- Window counts by source. -/
  cnt : List (Nat × SrcCnt) := []
  /-- The fault memory: 1,024 records by index. -/
  recs : List (Nat × FaultRec) := []
  /-- Messages in capture, oldest first. -/
  queue : List Capture := []
  /-- A message has found the queue full and CAPTURE_OVERFLOW is still to be sent (R802). -/
  overflow : Bool := false
  /-- Number of the next record opened. -/
  serial : Nat := 0
  /-- Timebase of the latest SEVERE or CRITICAL classification (R799). -/
  alertAt : Nat := 0
  /-- RELEASE was written during the 20 us minimum (R799). -/
  alertRel : Bool := false
  /-- Next second at which configuration parity is checked (R803). -/
  nextParity : Nat := 100000000
  /-- Tick of the last arrival, and the sources that arrived in it (R791). -/
  inTick : Nat := 0
  inSrcs : List Nat := []
  deriving DecidableEq, Repr

end Sys2Proof.Machine
end

