-- ==== Sys2Proof/Machine/State.lean ====
section
/-!
DEFINITION. The whole state of the controller as plain data, the reasons a step may stop, and the state right after reset.
-/
namespace Sys2Proof.Machine

/-- What a record-store package holds that takes no writes or is not up to date (R113, R115). -/
structure StoreImage where
  rs : RStore := {}
  lib : LibSt := {}
  nss : List NsSt := []
  log : LogSt := {}
  deriving DecidableEq, Repr

/-- The state of the controller's block, without the queue of commands. -/
structure Chip where
  /-- 64-bit timebase (R2, R102). -/
  tb : BitVec 64 := 0
  /-- The model's own: how many open values have been drawn (log 2). -/
  freeCt : Nat := 0
  /-- The register fields of every page. -/
  reg : RegFile := {}
  /-- Commits that wait for their boundary. -/
  commits : List PageCommit := []
  /-- Pages whose command register has been written since the page's last commit (R490, R516, R568). -/
  cmdPages : List Page := []
  /-- The state of each of the three requesters. -/
  rqHost : ReqState := {}
  rqMgmt : ReqState := {}
  rqI3c : ReqState := {}
  /-- Release, gating and scrub of the islands. -/
  isl : IslandState := {}
  /-- Levels of pins and detectors. -/
  pins : Pins := {}
  /-- The management processors. -/
  mgmt : MgmtState := {}
  /-- Frame 0 has begun (R37). -/
  framesRunning : Bool := false
  /-- SYS.FRAME_NUM (R37). -/
  frameNum : Word := 0
  /-- Timebase at the start of the current frame. -/
  frameStart : Nat := 0
  /-- Fault messages in X16, oldest first (R23). -/
  x16 : List Msg := []
  /-- The fault collector. -/
  col : Collector := {}
  /-- Hallmark units with a state of their own, by number (chapter 17). -/
  halls : List (Nat × HallUnit) := []
  /-- The 22 axes. -/
  axes : Vector AxisSt 22 := Vector.replicate 22 {}
  /-- The 8 spindle commutators. -/
  spins : Vector SpinSt 8 := Vector.replicate 8 {}
  /-- The 4 loop engines. -/
  engs : Vector EngSt 4 := Vector.replicate 4 {}
  /-- The 4 trace units. -/
  traces : Vector TraceSt 4 := Vector.replicate 4 {}
  /-- Servo sets of each head, newest first, of this frame and the one before (R429). -/
  sets : Vector (List ServoSet) 16 := Vector.replicate 16 []
  /-- Newest value of every other input, by SID (R420). -/
  meas : List (Nat × Meas) := []
  /-- Exchange words as readable (R424), by SID. -/
  exch : List (Nat × Meas) := []
  /-- The actuator group of each head. -/
  groups : Vector Group 16 := Vector.replicate 16 {}
  /-- The 16 ports. -/
  heads : Vector HeadSt 16 := Vector.replicate 16 {}
  /-- The optical servo of each port. -/
  servos : Vector ServoSt 16 := Vector.replicate 16 {}
  /-- The 80 beam channels, by port x 5 + beam. -/
  beams : Vector BeamSt 80 := Vector.replicate 80 {}
  /-- Converters, temperatures and the calibration set. -/
  assay : AssaySt := {}
  /-- Buffer memory and its cache. -/
  mem : MemSt := {}
  /-- The staging sluice. -/
  sluice : SluiceSt := {}
  /-- The record store. -/
  rs : RStore := {}
  /-- Contents of the packages that differ from the record store, by package (R115). -/
  images : List (Nat × StoreImage) := []
  /-- The host interface. -/
  host : HostSt := {}
  /-- Library, polders and discs. -/
  lib : LibSt := {}
  /-- The pairing link and the lease. -/
  peer : PeerSt := {}
  /-- Logs and telemetry of the bay. -/
  log : LogSt := {}
  /-- Items in the stripe buffer, oldest first (R32, R330). -/
  stripe : List ReadItem := []
  /-- Slots consumed and not yet in a Slot Map record (R219, R232). -/
  consumed : List Consumed := []
  /-- Ingots reported verified (R390). -/
  verified : List IngotRef := []
  /-- Spindle setpoints written in this frame (R425). -/
  spinDem : List (Nat × Word) := []
  deriving DecidableEq, Repr

/-- Why a step may stop with a fault. -/
inductive Fault where
  /-- Raised by nothing: no command of the block stops the machine (the type keeps a name of its own). Safe. -/
  | none
  deriving DecidableEq, Repr

/-- Why a step is refused. -/
inductive Refusal where
  /-- The command has no meaning in the model yet; raised by an arm of exec. Safe. -/
  | notModelled (mnemonic : String)
  deriving DecidableEq, Repr

/-- The machine: the block and the commands that wait, first in, first out. -/
structure State where
  chip : Chip := {}
  pending : List Instr := []
  deriving DecidableEq, Repr

/-- The key of SYS.RESET_CAUSE.POR in the register store (R129). -/
def porKey : Nat := (0x010 * 1024 + 0x060 / 4) * 32

/-- The machine right after power-on (R95, R129): RESET_N held low, every island in reset, POR set. -/
def State.reset : State := { chip := { reg := { plain := [(porKey, 1)] } } }

/-- What a step answers. -/
abbrev Out := Host.Outcome State Fault Refusal

end Sys2Proof.Machine
end

