-- ==== Sys2Proof/Machine/Ops.lean ====
section
/-!
DEFINITION. The named operations over registers, pages, islands, time and fault messages that every meaning is built from.
-/
namespace Sys2Proof.Machine

/-! ## Register fields -/

/-- HALL_CFG at reset (R775, R776): the place `f` of the catalogue setting of hallmark unit `n`. The fields hold the
setting's own width, reflections, inversion and initial-value selection (DESIGN CHOICE, log 12). -/
def hallCfgReset (n : Nat) (lo : Nat) : Nat :=
  let kind := if n < 96 then 3 else if n = 96 ∨ n = 98 ∨ n = 100 ∨ n = 102 then 2 else 4
  let w := if kind = 3 then 32 else if kind = 2 then 16 else 64
  if lo = 0 then w else if lo = 12 then kind
  else if kind = 2 then 0 else 1

/-- Quarter-wave sine table: round(32,767 × sin(2π j / 1,536)) for j = 0 to 384 (R549). -/
def sineQuarter : List Nat := 
  [0, 134, 268, 402, 536, 670, 804, 938, 1072, 1206, 1340, 1474, 1608, 1742, 1875, 2009, 2143, 2277, 2410, 2544, 2678, 2811, 2945, 3078, 3212, 3345, 3478, 3612, 3745, 3878, 4011, 4144, 4277, 4410, 4543, 4675, 4808, 4940, 5073, 5205] ++
  [5338, 5470, 5602, 5734, 5866, 5998, 6129, 6261, 6393, 6524, 6655, 6786, 6917, 7048, 7179, 7310, 7441, 7571, 7701, 7832, 7962, 8092, 8222, 8351, 8481, 8610, 8739, 8868, 8997, 9126, 9255, 9383, 9512, 9640, 9768, 9896, 10024, 10151, 10278, 10406] ++
  [10533, 10659, 10786, 10913, 11039, 11165, 11291, 11417, 11542, 11668, 11793, 11918, 12042, 12167, 12291, 12415, 12539, 12663, 12787, 12910, 13033, 13156, 13279, 13401, 13523, 13645, 13767, 13888, 14010, 14131, 14252, 14372, 14492, 14613, 14732, 14852, 14971, 15090, 15209, 15328] ++
  [15446, 15564, 15682, 15800, 15917, 16034, 16151, 16267, 16383, 16499, 16615, 16730, 16846, 16960, 17075, 17189, 17303, 17417, 17530, 17643, 17756, 17869, 17981, 18093, 18204, 18316, 18427, 18537, 18648, 18758, 18868, 18977, 19086, 19195, 19303, 19411, 19519, 19627, 19734, 19841] ++
  [19947, 20053, 20159, 20265, 20370, 20475, 20579, 20683, 20787, 20891, 20994, 21096, 21199, 21301, 21403, 21504, 21605, 21705, 21806, 21905, 22005, 22104, 22203, 22301, 22399, 22497, 22594, 22691, 22788, 22884, 22979, 23075, 23170, 23264, 23359, 23452, 23546, 23639, 23731, 23824] ++
  [23915, 24007, 24098, 24189, 24279, 24369, 24458, 24547, 24636, 24724, 24811, 24899, 24986, 25072, 25158, 25244, 25329, 25414, 25498, 25582, 25666, 25749, 25832, 25914, 25996, 26077, 26158, 26239, 26319, 26398, 26478, 26556, 26635, 26712, 26790, 26867, 26943, 27019, 27095, 27170] ++
  [27245, 27319, 27393, 27466, 27539, 27611, 27683, 27755, 27826, 27896, 27966, 28036, 28105, 28174, 28242, 28310, 28377, 28444, 28510, 28576, 28641, 28706, 28771, 28834, 28898, 28961, 29023, 29085, 29147, 29208, 29268, 29328, 29388, 29447, 29505, 29563, 29621, 29678, 29735, 29791] ++
  [29846, 29901, 29956, 30010, 30064, 30117, 30169, 30221, 30273, 30324, 30374, 30424, 30474, 30523, 30571, 30619, 30667, 30714, 30760, 30806, 30852, 30896, 30941, 30985, 31028, 31071, 31113, 31155, 31196, 31237, 31277, 31317, 31356, 31395, 31433, 31470, 31507, 31544, 31580, 31616] ++
  [31650, 31685, 31719, 31752, 31785, 31817, 31849, 31880, 31911, 31941, 31971, 32000, 32028, 32057, 32084, 32111, 32137, 32163, 32189, 32213, 32238, 32261, 32285, 32307, 32329, 32351, 32372, 32392, 32412, 32432, 32451, 32469, 32487, 32504, 32521, 32537, 32552, 32567, 32582, 32596] ++
  [32609, 32622, 32634, 32646, 32657, 32668, 32678, 32688, 32697, 32705, 32713, 32721, 32728, 32734, 32740, 32745, 32749, 32754, 32757, 32760, 32763, 32765, 32766, 32767, 32767]

/-- Reset entry j of the wave table, signed (R549). -/
def waveReset (j : Nat) : Int :=
  let k := j % 1536
  let at' := fun (x : Nat) => ((sineQuarter.getD x 0 : Nat) : Int)
  if k ≤ 384 then at' k
  else if k ≤ 768 then at' (768 - k)
  else if k ≤ 1152 then -at' (k - 768)
  else -at' (1536 - k)

/-- PAGE_CTL.EN at reset (R145). -/
def enReset : Page → Nat
  | .sys | .clk | .fault | .assay | .host | .cmd | .mem | .cache | .sluice | .rstore => 1
  | .hall n => if 96 ≤ n.val then 1 else 0
  | _ => 0

/-- PAGE_ID.TYPE (R137). -/
def pageType : Page → Nat
  | .sys => 1 | .clk => 2 | .fault => 3 | .assay => 4 | .host => 5 | .cmd => 6 | .mem => 7 | .cache => 8
  | .sluice => 9 | .polder => 10 | .inv => 11 | .rstore => 12 | .peer => 13 | .loop _ => 16 | .trace _ => 17
  | .spin _ => 18 | .axis _ => 19 | .head _ => 20 | .beam _ _ => 21 | .hall _ => 22

/-- PAGE_ID.INST (R143). -/
def pageInst : Page → Nat
  | .loop e => e.val | .trace t => t.val | .spin s => s.val | .axis a => a.val | .head h => h.val
  | .beam h _ => h.val | .hall n => n.val | _ => 0

/-- The reset values of the header fields (R143, R145, R146), by word and bit place. -/
def hdrReset (p : Page) (off lo rst : Nat) : Nat :=
  if off = 0x000 then
    if lo = 0 then (pageType p)
    else if lo = 8 then (pageInst p)
    else if lo = 16 then (match p with | .beam _ b => b.val | _ => 0)
    else if lo = 24 then (Config.blockVersion (pageType p)).toNat % 16
    else (Config.blockVersion (pageType p)).toNat / 16
  else if off = 0x004 ∧ lo = 0 then enReset p
  else if off = 0x008 then
    if lo = 0 then enReset p
    else if lo = 3 then 1 - enReset p
    else if lo = 5 then (match p with | .head _ => 1 | _ => 0)
    else rst
  else rst

/-- The reset value of field `f`, repetition `i`, of page `p` (the Reset column; R145, R343, R456, R549, R775, R776
for the values that depend on the page). -/
def fieldReset (p : Page) (f : Fld) (i : Nat) : Nat :=
  if f.off < 0x040 then hdrReset p f.off f.lo f.rst
  else
    match p with
    | .beam _ b =>
      if f.off = 0x074 then
        if f.lo = 0 then b.val - 1
        else if f = Reg.BEAM.XT_CFG_EN_L then (if b.val = 0 then 0 else 1)
        else if f = Reg.BEAM.XT_CFG_NB_R then min 4 (b.val + 1)
        else if f = Reg.BEAM.XT_CFG_EN_R then (if b.val = 4 then 0 else 1)
        else f.rst
      else if f.off = 0x054 ∧ f.lo = 16 then (if i = 3 then 0x1000 else 0)
      else if f.off = 0x700 ∧ f.lo = 16 then (if i % 8 = 3 then 0x1000 else 0)
      else f.rst
    | .loop e =>
      if f = Reg.LOOP.OWN_HEAD_HEADS then (if e.val = 0 then 0x00FF else if e.val = 1 then 0xFF00 else 0)
      else if f = Reg.LOOP.OWN_HEAD_SPINS then (if e.val = 2 then 0xFF else 0)
      else if f = Reg.LOOP.OWN_AXIS_AXES then (if e.val = 3 then 0x3FFFFF else 0)
      else f.rst
    | .hall n => if f.off = 0x040 then hallCfgReset n.val f.lo else f.rst
    | .spin _ => if f.off = 0x400 then toBits 16 (waveReset (2 * i + f.lo / 16)) else f.rst
    | _ => f.rst

/-- The key of field `f`, repetition `i`, of page `p` in the register store. -/
def fieldKey (p : Page) (f : Fld) (i : Nat) : Nat :=
  (p.num * 1024 + (f.off + i * f.stride) / 4) * 32 + f.lo

/-- The value in force of a field: the active value of an RWS field. -/
def RegFile.rdI (g : RegFile) (p : Page) (f : Fld) (i : Nat) : Nat :=
  (Sparse.get (BitVec.ofNat 32 (fieldReset p f i)) (if f.acc = .rws then g.act else g.plain) (fieldKey p f i)).toNat

/-- The registers with the low bits of `v` as the value in force of a field. -/
def RegFile.putI (g : RegFile) (p : Page) (f : Fld) (i v : Nat) : RegFile :=
  let d := BitVec.ofNat 32 (fieldReset p f i)
  let x := BitVec.ofNat 32 (v % 2 ^ f.w)
  if f.acc = .rws then { g with act := Sparse.set d g.act (fieldKey p f i) x }
  else { g with plain := Sparse.set d g.plain (fieldKey p f i) x }

/-- The value in force of a field: the active value of an RWS field. -/
def Chip.rdI (c : Chip) (p : Page) (f : Fld) (i : Nat) : Nat := c.reg.rdI p f i

/-- The value in force of a field that is not repeated. -/
def Chip.rd (c : Chip) (p : Page) (f : Fld) : Nat := c.rdI p f 0

/-- The shadow of an RWS field (R9, R153). -/
def Chip.shI (c : Chip) (p : Page) (f : Fld) (i : Nat) : Nat :=
  (Sparse.get (BitVec.ofNat 32 (fieldReset p f i)) c.reg.sh (fieldKey p f i)).toNat

/-- The shadow of an RWS field that is not repeated. -/
def Chip.shd (c : Chip) (p : Page) (f : Fld) : Nat := c.shI p f 0

/-- A one-bit field in force. -/
def Chip.flag (c : Chip) (p : Page) (f : Fld) : Bool := c.rd p f != 0

/-- A field in force read as a signed number. -/
def Chip.rdS (c : Chip) (p : Page) (f : Fld) : Int := sext f.w (c.rd p f)
/-- A repeated field in force read as a signed number. -/
def Chip.rdIS (c : Chip) (p : Page) (f : Fld) (i : Nat) : Int := sext f.w (c.rdI p f i)

/-- Sets the value in force of a field to the low bits of `v`. -/
def Chip.putI (c : Chip) (p : Page) (f : Fld) (i v : Nat) : Chip := { c with reg := c.reg.putI p f i v }

/-- Sets the value in force of a field that is not repeated. -/
def Chip.put (c : Chip) (p : Page) (f : Fld) (v : Nat) : Chip := c.putI p f 0 v

/-- Writes the shadow of an RWS field (R9, R156). -/
def Chip.putShI (c : Chip) (p : Page) (f : Fld) (i v : Nat) : Chip :=
  { c with reg := { c.reg with
      sh := Sparse.set (BitVec.ofNat 32 (fieldReset p f i)) c.reg.sh (fieldKey p f i) (BitVec.ofNat 32 (v % 2 ^ f.w))
      wr := if c.reg.wr.contains (fieldKey p f i) then c.reg.wr else c.reg.wr ++ [fieldKey p f i] } }

/-- Sets the shadow of an RWS field that is not repeated. -/
def Chip.putSh (c : Chip) (p : Page) (f : Fld) (v : Nat) : Chip := c.putShI p f 0 v

/-- Sets a one-bit field. -/
def Chip.putB (c : Chip) (p : Page) (f : Fld) (b : Bool) : Chip := c.put p f (b2n b)

/-- Sets a field to a signed value. -/
def Chip.putS (c : Chip) (p : Page) (f : Fld) (x : Int) : Chip := c.put p f (toBits f.w x)

/-- Adds `n` to a counter that saturates at all ones. -/
def Chip.addSat (c : Chip) (p : Page) (f : Fld) (n : Nat) : Chip := c.put p f (min (c.rd p f + n) (2 ^ f.w - 1))

/-- Counts one in a saturating counter. -/
def Chip.inc (c : Chip) (p : Page) (f : Fld) : Chip := c.addSat p f 1

/-- Sets the bits of `m` in a field. -/
def Chip.orBits (c : Chip) (p : Page) (f : Fld) (m : Nat) : Chip := c.put p f (c.rd p f ||| m)

/-- Bits set for the numbers below `n` that satisfy `f`. -/
def bitSet (n : Nat) (f : Nat → Bool) : Nat := (List.range n).foldl (fun a i => if f i then a + 2 ^ i else a) 0

/-! ## Time -/

/-- The timebase in ticks of 10 ns (R2, R102). -/
def Chip.now (c : Chip) : Nat := c.tb.toNat

/-- The moment `t`, or now where `t` has passed: a timed event never runs before its time (log 3). -/
def Chip.until' (c : Chip) (t : Nat) : Chip := { c with tb := if c.now < t then BitVec.ofNat 64 t else c.tb }

/-- One tick of 10 ns passes; before the first lock of the always-on PLL the timebase stands (R102). After power-on VDD_IO passes 0.9 V
(R64). -/
def Chip.tick (c : Chip) : Chip :=
  { c with tb := (if c.isl.tbRuns then c.tb + 1 else c.tb), pins := { c.pins with vddIo := true } }

/-- Ticks of `n` microseconds. -/
def us (n : Nat) : Nat := n * 100
/-- Ticks of `n` milliseconds. -/
def ms (n : Nat) : Nat := n * 100000
/-- Ticks of `n` seconds. -/
def secs (n : Nat) : Nat := n * 100000000
/-- Ticks of `n` hours. -/
def hours (n : Nat) : Nat := n * 360000000000

/-! ## Free values -/

/-- A fresh value that the spec leaves open, below `2 ^ w` (Config.free). -/
def Chip.free (c : Chip) (w : Nat) : Nat × Chip :=
  ((Config.free c.freeCt).toNat % 2 ^ w, { c with freeCt := c.freeCt + 1 })

/-! ## Requesters -/

/-- A requester's own state (R34). -/
def Chip.rq (c : Chip) : Requester → ReqState
  | .host => c.rqHost
  | .mgmt => c.rqMgmt
  | .i3c => c.rqI3c

/-- The chip with requester `r`'s state changed by `f`. -/
def Chip.modRq (c : Chip) (r : Requester) (f : ReqState → ReqState) : Chip :=
  { c with
    rqHost := if r = .host then f c.rqHost else c.rqHost
    rqMgmt := if r = .mgmt then f c.rqMgmt else c.rqMgmt
    rqI3c := if r = .i3c then f c.rqI3c else c.rqI3c }

/-- An item leaves place `i` of X8: a fence that waits for it has one item fewer ahead (R33). -/
def ReqState.passed (q : ReqState) (i : Nat) : ReqState :=
  { q with fence := { q.fence with ahead := if i < q.fence.ahead then q.fence.ahead - 1 else q.fence.ahead } }

/-- Takes the item at place `i` out of X8. -/
def Chip.stripeTake (c : Chip) (i : Nat) : Chip :=
  { c with stripe := c.stripe.eraseIdx i, rqHost := c.rqHost.passed i, rqMgmt := c.rqMgmt.passed i, rqI3c := c.rqI3c.passed i }

/-! ## Islands -/

/-- Head island `h` is gated, or its scrub has not completed (R18, R108). -/
def Chip.headGated (c : Chip) (h : Port) : Bool :=
  bit (c.rd .clk Reg.CLK.HEAD_GATE_GATE) h.val || bit c.isl.scrubHead h.val

/-- The peer island is gated, or its scrub has not completed (R18, R108). -/
def Chip.peerGated (c : Chip) : Bool := c.flag .clk Reg.CLK.PEER_GATE_GATE || c.isl.scrubPeer

/-- The island runs and its pages answer (R18, R100, R108). -/
def Chip.islandUp (c : Chip) : Island → Bool
  | .aon => true
  | .host => c.isl.hostReleased
  | .mgmt => c.isl.mgmtReleased
  | .head h => c.isl.released && !c.headGated h
  | .beam h _ => c.isl.released && !c.headGated h
  | .peer => c.isl.released && !c.peerGated
  | _ => c.isl.released

/-- Accesses of requester `r` reach the register space: those of the host only over a PCIe link that is up (R871). -/
def Chip.hears (c : Chip) (r : Requester) : Bool := r != .host || c.host.linkUp

/-- The page can be reached (R174). -/
def Chip.pageUp (c : Chip) (p : Page) : Bool := c.islandUp p.island

/-- The block is enabled and neither disabled nor quiesced. -/
def Chip.enabled (c : Chip) (p : Page) : Bool := c.flag p Reg.HDR.PAGE_CTL_EN

/-! ## Fault sources and messages -/

/-- The source ID of local source 0 of a page (R787, R790). -/
def srcBase : Page → Nat
  | .sys => 0x000 | .clk => 0x005 | .fault => 0x006 | .assay => 0x008 | .host => 0x00C | .cmd => 0x00F
  | .mem => 0x011 | .cache => 0x013 | .sluice => 0x015 | .polder => 0x017 | .inv => 0x01A | .rstore => 0x01D
  | .peer => 0x021
  | .loop e => 0x040 + 4 * e.val
  | .spin s => 0x050 + 4 * s.val
  | .axis a => 0x080 + 8 * a.val
  | .head h => 0x140 + 16 * h.val
  | .beam h b => 0x240 + 4 * (5 * h.val + b.val)
  | .hall n => 0x380 + n.val
  | .trace _ => 0x400

/-- The number of sources of a page (R787). -/
def srcCount : Page → Nat
  | .sys => 5 | .clk => 1 | .fault => 2 | .assay => 4 | .host => 3 | .cmd => 2 | .mem => 2 | .cache => 2
  | .sluice => 2 | .polder => 3 | .inv => 3 | .rstore => 4 | .peer => 6 | .loop _ => 3 | .spin _ => 4
  | .axis _ => 6 | .head _ => 9 | .beam _ _ => 3 | .hall _ => 1 | .trace _ => 0

/-- Places a fault message into X16 (R20, R23, R791); it arrives by FAULT_MESSAGE. -/
def Chip.send (c : Chip) (m : Msg) : Chip := { c with x16 := c.x16 ++ [m] }

/-- Sends kind `kind` of the page's source `n` with detail and argument; a page of a gated island sends nothing (R805). -/
def Chip.fault (c : Chip) (p : Page) (n kind hint detail arg : Nat) : Chip :=
  { c with
    x16 := if c.pageUp p then c.x16 ++ [⟨srcBase p + n, kind, hint, detail % 1024, arg % 2 ^ 32⟩] else c.x16 }

/-- As `fault` with DETAIL 0 and ARG the page number (R785). -/
def Chip.fault0 (c : Chip) (p : Page) (n kind hint : Nat) : Chip := c.fault p n kind hint 0 p.num

/-- Sets INT_STAT.BLOCK bit `n` of a page (R147). -/
def Chip.event (c : Chip) (p : Page) (n : Nat) : Chip :=
  c.orBits p Reg.HDR.INT_STAT_BLOCK (2 ^ n)

/-- Sets a status register of a block that reports each change of one as event 0 (R672, R731, R768). -/
def Chip.stat (c : Chip) (p : Page) (f : Fld) (v : Nat) : Chip :=
  if c.rd p f = v % 2 ^ f.w then c else (c.put p f v).event p 0

/-- Adds `n` to a saturating counter among such status registers. -/
def Chip.statAdd (c : Chip) (p : Page) (f : Fld) (n : Nat) : Chip := c.stat p f (min (c.rd p f + n) (2 ^ f.w - 1))

/-- Counts a deadline miss of the block (R147, R152). -/
def Chip.dlMiss (c : Chip) (p : Page) : Chip :=
  (c.inc p Reg.HDR.DL_MISS_COUNT).put p Reg.HDR.INT_STAT_DL_MISS_INC 1

/-! ## Commits -/

/-- The page's shadow is frozen: a commit waits in it (R159, R164). -/
def Chip.frozen (c : Chip) (p : Page) : Bool := c.commits.any (fun k => k.page == p)

/-- First key of page `p` in the register store. -/
def pageLo (p : Page) : Nat := p.num * 1024 * 32
/-- First key past page `p` in the register store. -/
def pageHi (p : Page) : Nat := (p.num + 1) * 1024 * 32

/-- The key belongs to page `p`. -/
def inPage (p : Page) (k : Nat) : Bool := decide (pageLo p ≤ k ∧ k < pageHi p)

/-- Every field of the page written since its last commit takes its shadow value; all others keep their active values (R156). -/
def Chip.shadowToActive (c : Chip) (p : Page) : Chip :=
  { c with reg := { c.reg with
      act := (c.reg.wr.filter (inPage p)).foldl (fun a k => Sparse.copyKey k a c.reg.sh) c.reg.act
      wr := c.reg.wr.filter fun k => !inPage p k } }

/-- Every shadow of the page becomes equal to its active value (R153); a command written there is gone (DEDUCED, log 123). -/
def Chip.activeToShadow (c : Chip) (p : Page) : Chip :=
  { c with
    reg := { c.reg with sh := Sparse.copyRange (pageLo p) (pageHi p) c.reg.sh c.reg.act, wr := c.reg.wr.filter fun k => !inPage p k }
    cmdPages := c.cmdPages.filter fun q => !(q == p) }

/-- Disarms the page (R153, R167). -/
def Chip.disarm (c : Chip) (p : Page) : Chip :=
  ((c.put p Reg.HDR.SHADOW_CTL_ARMED 0).put p Reg.HDR.SHADOW_CTL_ARM_OWNER 0).put p Reg.HDR.SHADOW_CTL_DONE 1

/-- Takes the page's waiting commit away: the freeze is lifted. -/
def Chip.unfreeze (c : Chip) (p : Page) : Chip :=
  { c with commits := c.commits.filter (fun k => !(k.page == p)) }

/-- The page's commit applies: every RWS field takes its shadow value, SEQ counts, COMMIT_DONE and DONE are set (R156). -/
def Chip.applyPage (c : Chip) (p : Page) : Chip :=
  let c := (c.shadowToActive p).unfreeze p
  let c := c.put p Reg.HDR.SEQ_COUNT (c.rd p Reg.HDR.SEQ_COUNT + 1)
  (c.put p Reg.HDR.INT_STAT_COMMIT_DONE 1).disarm p

/-- The page's commit ends without applying (R167, R175): CANCELLED and COMMIT_DONE are set and the freeze is lifted; one that a
hallmark unit held (R776) is held no longer. -/
def Chip.cancelPage (c : Chip) (p : Page) : Chip :=
  let c := (c.unfreeze p).disarm p
  let c := match p with
    | .hall _ => c.put p Reg.HALL.HALL_STAT_HELD 0
    | _ => c
  (c.put p Reg.HDR.SHADOW_CTL_CANCELLED 1).put p Reg.HDR.INT_STAT_COMMIT_DONE 1

/-- Pages armed by requester `r` and not yet submitted (R163, R164). -/
def Chip.armedPages (c : Chip) (r : Requester) : List Page :=
  allPages.filter (fun p => c.flag p Reg.HDR.SHADOW_CTL_ARMED && c.rd p Reg.HDR.SHADOW_CTL_ARM_OWNER == r.code
    && !c.frozen p)

/-- Pages of requester `r`'s submitted global commit. -/
def Chip.submitted (c : Chip) (r : Requester) : List Page :=
  (c.commits.filter (fun k => k.owner == some r)).map (·.page)

/-- Requester `r`'s pending global commit ends without applying (R40, R166, R167) with RESULT `res`. -/
def Chip.endGlobal (c : Chip) (r : Requester) (res : Nat) : Chip :=
  let c := (c.submitted r).foldl Chip.cancelPage c
  c.modRq r (fun q => { q with gcState := 2, gcResult := res })

/-- Gating an island: local commits waiting in its pages end (R175) and a pending global commit with a page there is
rejected (R40). -/
def Chip.gateCommits (c : Chip) (isIn : Page → Bool) : Chip :=
  let hit := c.commits.filter (fun k => isIn k.page)
  let c := (hit.filter (fun k => k.owner.isNone)).foldl (fun c k => c.cancelPage k.page) c
  [Requester.host, .mgmt, .i3c].foldl (fun c r =>
    if hit.any (fun k => k.owner == some r) then
      (c.endGlobal r 3).fault0 .sys 1 2 0
    else c) c

/-! ## Locks -/

/-- Requester `r` may write the page: it is not locked by another (R171). -/
def Chip.mayWrite (c : Chip) (r : Requester) (p : Page) : Bool :=
  !c.flag p Reg.HDR.LOCK_HELD || c.rd p Reg.HDR.LOCK_OWNER == r.code

/-- Frees the page's lock. -/
def Chip.freeLock (c : Chip) (p : Page) : Chip :=
  (c.put p Reg.HDR.LOCK_HELD 0).put p Reg.HDR.LOCK_OWNER 0

/-- Frees every lock requester `r` holds (R168). -/
def Chip.freeLocks (c : Chip) (r : Requester) : Chip :=
  allPages.foldl (fun c p =>
    if c.flag p Reg.HDR.LOCK_HELD && c.rd p Reg.HDR.LOCK_OWNER == r.code then c.freeLock p else c) c

end Sys2Proof.Machine
end

