-- ==== Sys2Proof/Machine/Interlock.lean ====
section
/-!
DEFINITION. LASER_KILL_N of the ports (R271 to R273), the stop of the servo sequencer that a fall brings (R499), and the effect of
a command as a next state.
-/
namespace Sys2Proof.Machine

/-- LINK_STAT.STATE of a port (R283). -/
def Chip.linkState (c : Chip) (h : Port) : Nat := c.rd (.head h) Reg.HEAD.LINK_STAT_STATE

/-- The quench line of the port is active (R809). -/
def Chip.headQuenched (c : Chip) (h : Port) : Bool := bit (c.rd .fault Reg.FAULT.QUENCH_HEAD_PORTS) h.val

/-- LASER_CTL.ARM. -/
def Chip.laserArmed (c : Chip) (h : Port) : Bool := c.flag (.head h) Reg.HEAD.LASER_CTL_ARM

/-- LASER_KILL_N of the port is high. -/
def Chip.killHigh (c : Chip) (h : Port) : Bool := bit c.pins.killHigh h.val

/-- The conditions of R271. -/
def Chip.laserOk (c : Chip) (h : Port) : Bool :=
  let p : Page := .head h
  c.enabled p && !c.headGated h && c.linkState h == 3 && !c.flag p Reg.HEAD.LASER_CTL_WHY_ABSENT && c.laserArmed h
    && !c.headQuenched h

/-- Port `h`'s servo state. -/
def Chip.sv (c : Chip) (h : Port) : ServoSt := c.servos.get h
/-- Changes a port's servo state. -/
def Chip.modSv (c : Chip) (h : Port) (f : ServoSt → ServoSt) : Chip := { c with servos := c.servos.set h.val (f (c.sv h)) h.isLt }

/-- SRV_STAT.STATE (R492). -/
def Chip.srvState (c : Chip) (h : Port) : Nat := c.rd (.head h) Reg.HEAD.SRV_STAT_STATE

/-- Reports RESULT `res` of a servo command started in frame `frame` (R490, R502). -/
def Chip.srvReport (c : Chip) (h : Port) (res frame : Nat) : Chip :=
  let p : Page := .head h
  let n := (c.frameNum - BitVec.ofNat 32 frame).toNat
  ((c.put p Reg.HEAD.SRV_RESULT_RESULT res).put p Reg.HEAD.SRV_RESULT_FRAMES (min n 16777215)).event p 3

/-- Ends the servo command in progress, if one is (R490). -/
def Chip.srvEnd (c : Chip) (h : Port) (res : Nat) : Chip :=
  let x := c.sv h
  if x.cmd = 0 then c else (c.srvReport h res x.cmdFrame).modSv h fun x => { x with cmd := 0, next := none }

/-- Sets the gates of R492; a lock whose gate opens is cleared (log 50). -/
def Chip.srvGates (c : Chip) (h : Port) (foc trk rot ctr : Bool) : Chip :=
  let p : Page := .head h
  let c := if foc then c else c.put p Reg.HEAD.SRV_STAT_FOCUS_LOCK 0
  let c := if trk then c else c.put p Reg.HEAD.SRV_STAT_TRACK_LOCK 0
  let c := if rot then c else c.put p Reg.HEAD.SRV_STAT_ROT_LOCK 0
  c.modSv h fun x => { x with gFoc := foc, gTrk := trk, gRot := rot, gCtr := ctr }

/-- Enters a state and phase of the sequencer. -/
def Chip.srvEnter (c : Chip) (h : Port) (st : Nat) (ph : SrvPhase) : Chip :=
  (c.put (.head h) Reg.HEAD.SRV_STAT_STATE st).modSv h fun x => { x with phase := ph, at' := c.now, fields := 0 }

/-- The sequencer stops in state `st` with every gate open (R492). -/
def Chip.srvIdle (c : Chip) (h : Port) (st : Nat) : Chip :=
  ((c.srvGates h false false false true).srvEnter h st .idle).modSv h fun x =>
    { x with walking := false, brakeAt := none, winh := 0x1F }

/-- A quench of the port, a low LASER_KILL_N or the loss of alignment (R499): OFF with FOC_FF held, locks cleared, RESULT 0x7. -/
def Chip.srvAbort (c : Chip) (h : Port) : Chip :=
  let c := (c.srvEnd h 7).put (.head h) Reg.HEAD.SRV_STAT_COUNT_LOCK 0
  (c.srvIdle h 0).put (.head h) Reg.HEAD.SRV_STAT_WINH 1

/-- Drives LASER_KILL_N of a port high or low. -/
def Chip.setKill (c : Chip) (h : Port) (high : Bool) : Chip :=
  { c with pins := { c.pins with killHigh := setBit c.pins.killHigh h.val high } }

/-- The servo sequencer follows a change of LASER_KILL_N: a fall stops it (R499), a rise starts the ramp. -/
def Chip.killEdge (c : Chip) (h : Port) (was ok : Bool) : Chip :=
  if was && !ok then (c.srvAbort h).modSv h fun x => { x with rampSince := none }
  else if !was && ok then c.modSv h fun x => { x with rampSince := some c.now }
  else c

/-- LASER_CTL shows the line and why it is low. -/
def Chip.killShow (c : Chip) (h : Port) (ok : Bool) : Chip :=
  ((c.putB (.head h) Reg.HEAD.LASER_CTL_KILL !ok).putB (.head h) Reg.HEAD.LASER_CTL_WHY_LINK (c.linkState h != 3)).putB
    (.head h) Reg.HEAD.LASER_CTL_WHY_QUENCH (c.headQuenched h)

/-- A fall for any reason other than ARM = 0 clears ARM (R273). -/
def Chip.killArm (c : Chip) (h : Port) (fall : Bool) : Chip := if fall then c.put (.head h) Reg.HEAD.LASER_CTL_ARM 0 else c

/-- LASER_KILL_N follows R271 and R273. -/
def Chip.updKill (c : Chip) (h : Port) : Chip :=
  let was := c.killHigh h
  let ok := c.laserOk h
  (((c.killArm h (was && !ok)).setKill h ok).killEdge h was ok).killShow h ok

/-- LASER_KILL_N is high only while every condition of R271 holds, whatever the command that ended one of them. -/
def Chip.interlock (c : Chip) : Chip :=
  allPorts.foldl (fun (c : Chip) h => if c.killHigh h && !c.laserOk h then c.updKill h else c) c

/-- The effect of a command as a next state: the queue is left as it is, and the laser interlock follows. -/
def State.to (s : State) (f : Chip → Chip) : Out := .next { s with chip := (f s.chip).interlock }

end Sys2Proof.Machine
end

