-- ==== Sys2Proof/Machine/Pages.lean ====
section
/-!
DEFINITION. Fences, frame-number reads, global commits, page locks and the header's force registers (chapters 01 and 04).
-/
namespace Sys2Proof.Machine

/-- Sends kind `k` of the SYS source REGISTER (R790: all its kinds are NOTE). -/
def Chip.regFault (c : Chip) (k : Nat) : Chip := c.fault0 .sys 0 k 0

/-- An access to a page whose block soft reset is in progress is held back until it completes (R169). -/
def Chip.settle (c : Chip) (p : Page) : Chip :=
  if c.rd p Reg.HDR.PAGE_STAT_STATE = 4 then c.put p Reg.HDR.PAGE_STAT_STATE (enReset p) else c

/-- A write of requester `r` to page `p` that takes effect as `f`: access to a gated page or to a page locked by another
requester is discarded and reported (R171, R174). One of the host without a link does not arrive (R871). -/
def Chip.write (c : Chip) (r : Requester) (p : Page) (f : Chip → Chip) : Chip :=
  if !c.hears r then c
  else if !c.pageUp p then c.regFault 1
  else if c.mayWrite r p then f (c.settle p)
  else (c.inc p Reg.HDR.LOCK_DENIED).regFault 6

/-- As `write` for registers the page lock does not cover: LOCK (R171) and each requester's own SYS registers (R172). -/
def Chip.writeFree (c : Chip) (r : Requester) (p : Page) (f : Chip → Chip) : Chip :=
  if !c.hears r then c else if c.pageUp p then f (c.settle p) else c.regFault 1

/-- What a read by requester `r` returns. -/
def Chip.answer (c : Chip) (r : Requester) (w : Nat) : Chip :=
  c.modRq r fun q => { q with readData := BitVec.ofNat 32 w }

/-- A read of page `p` by requester `r` that takes effect as `f`: one of a gated page answers all ones and is reported (R174), one of
the host without a link does not arrive (R871). -/
def Chip.readPort (c : Chip) (r : Requester) (p : Page) (f : Chip → Chip) : Chip :=
  if !c.hears r then c else if c.pageUp p then f (c.settle p) else (c.answer r 0xFFFFFFFF).regFault 1

/-! ## Fences -/

/-- Gated islands a fence of kind `scope` skips (R36). -/
def Chip.fenceSkipped (c : Chip) (scope : Nat) : Nat :=
  let heads := (allPorts.filter c.headGated).length
  let peer := b2n c.peerGated
  if scope = 2 then 5 * heads + peer else 6 * heads + peer

/-- SYS.FENCE written with START by requester `r` (R33, R35): SCOPE takes its value; START is ignored while DONE is 0.
A data fence notes the items that stand in X8, the one crossing marked Yes whose items the state holds. -/
def Chip.fenceStart (c : Chip) (r : Requester) (scope : Nat) : Chip :=
  c.modRq r fun q =>
    let f := { q.fence with scope := scope % 4 }
    { q with fence := if f.done then { f with done := false, since := c.now, kind := scope % 4
                                              ahead := if scope % 4 = 1 then 0 else c.stripe.length } else f }

/-- Ends requester `r`'s running fence (R33, R36); an MCTP fence request that waits for it is answered (R177). SKIPPED counts
the islands gated at this moment (DESIGN CHOICE: R36 does not say when they are counted, log 158). -/
def Chip.fenceEnd (c : Chip) (r : Requester) (timeout : Bool) : Chip :=
  let c := c.modRq r fun q =>
    { q with fence := { q.fence with done := true, timeout := timeout, skipped := c.fenceSkipped q.fence.kind } }
  if r = .i3c ∧ c.mgmt.mctpBusy then
    { c with mgmt := { c.mgmt with mctpBusy := false, mctpResp := { status := if timeout then 5 else 0 } } }
  else c

/-- R33. -/
def execFenceStart (r : Requester) (scope : Fin 4) (s : State) : Out :=
  s.to fun c => c.writeFree r .sys fun c => c.fenceStart r scope.val

/-- R33, R36: a fence in progress completes, no later than 100 us after START, and once the items placed before it are delivered. -/
def execFenceComplete (r : Requester) (s : State) : Out :=
  s.to fun c =>
    let f := (c.rq r).fence
    if !f.done && f.ahead == 0 && c.now ≤ f.since + us 100 then c.fenceEnd r false else c

/-- R36: 100 us after START the fence ends with TIMEOUT and sends "fence timeout". -/
def execFenceTimeout (r : Requester) (s : State) : Out :=
  s.to fun c =>
    let f := (c.rq r).fence
    if f.done then c
    else ((c.until' (f.since + us 100)).fenceEnd r true).fault0 .sys 1 3 1

/-- The timebase of the start of the current frame, 0 before frame 0 has begun (R38). -/
def Chip.frameTbNow (c : Chip) : Nat := if c.framesRunning then c.frameStart else 0

/-- R38: latches FRAME_TB for the reading requester. -/
def Chip.latchFrame (c : Chip) (r : Requester) : Chip := c.modRq r fun q => { q with frameTb := c.frameTbNow }

/-- R38. -/
def execFrameNumRead (r : Requester) (s : State) : Out := s.to fun c => if c.hears r then c.latchFrame r else c

/-! ## Arming and global commits -/

/-- The page's shadow BANK names a bank that is not valid (R446). -/
def Chip.bankBad (c : Chip) (p : Page) : Bool :=
  match p with
  | .loop _ =>
    if c.shd p Reg.LOOP.ENG_CTL_BANK = 0 then !c.flag p Reg.LOOP.ENG_STAT_VALID0 else !c.flag p Reg.LOOP.ENG_STAT_VALID1
  | _ => false

/-- Sets CANCELLED and sends BANK_INVALID of a loop engine's page (R446, R790). -/
def Chip.bankInvalid (c : Chip) (p : Page) : Chip := (c.put p Reg.HDR.SHADOW_CTL_CANCELLED 1).fault0 p 1 1 0

/-- A COMMIT with BOUNDARY 0b100 (R164): arms the page for `r`. A page armed by another requester sends "arm conflict";
a commit to a frozen shadow is ignored (R159); an invalid BANK is ignored with BANK_INVALID (R446). -/
def Chip.armPage (c : Chip) (r : Requester) (p : Page) : Chip :=
  if c.frozen p then c
  else if c.flag p Reg.HDR.SHADOW_CTL_ARMED then
    if c.rd p Reg.HDR.SHADOW_CTL_ARM_OWNER = r.code then c else c.regFault 5
  else if c.bankBad p then c.bankInvalid p
  else
    ((c.put p Reg.HDR.SHADOW_CTL_ARMED 1).put p Reg.HDR.SHADOW_CTL_ARM_OWNER r.code).put p Reg.HDR.SHADOW_CTL_DONE 0

/-- R164: SHADOW_CTL written with BOUNDARY 0b100 and COMMIT. BOUNDARY takes its value first (R868). -/
def execPageArm (r : Requester) (p : Page) (s : State) : Out :=
  s.to fun c => c.write r p fun c => (c.put p Reg.HDR.SHADOW_CTL_BOUNDARY 4).armPage r p

/-- SHADOW_CTL.DISCARD (R153): every shadow takes its active value and the page is disarmed; ignored while frozen. -/
def Chip.discard (c : Chip) (p : Page) : Chip := if c.frozen p then c else (c.activeToShadow p).disarm p

/-- R153. -/
def execShadowDiscard (r : Requester) (p : Page) (s : State) : Out :=
  s.to fun c => c.write r p fun c => c.discard p

/-- The requester's armed pages leave without applying (R167) with RESULT `res`. -/
def Chip.rejectGo (c : Chip) (r : Requester) (res : Nat) : Chip :=
  ((c.armedPages r).foldl Chip.cancelPage c).modRq r fun q => { q with gcState := 2, gcResult := res }

/-- The lead of a target frame (R39). -/
def Chip.lead (c : Chip) (target : Nat) : Nat := (BitVec.ofNat 32 target - c.frameNum).toNat

/-- GLOBAL_COMMIT.GO of requester `r` (R39, R40, R163, R165). With nothing armed RESULT is 0x5 whatever the lead
(DEDUCED, log 14). Where the lead is bad and an armed page lies in a gated island too, the lead is tested first and RESULT is
0x2 (DESIGN CHOICE: R39 and R40 do not order the two rejections, log 159). -/
def Chip.globalGo (c : Chip) (r : Requester) : Chip :=
  let q := c.rq r
  let pages := c.armedPages r
  if q.gcState = 1 then c
  else if pages.isEmpty then c.modRq r fun q => { q with gcState := 2, gcResult := 5 }
  else if !c.framesRunning || c.lead q.target < 4 || 400000 < c.lead q.target then
    (c.rejectGo r 2).fault0 .sys 1 1 0
  else if pages.any (fun p => !c.pageUp p) then (c.rejectGo r 3).fault0 .sys 1 2 0
  else
    let c := { c with commits := c.commits ++ pages.map (fun p => PageCommit.mk p (some r) 4 c.now) }
    c.modRq r fun q => { q with gcState := 1, gcFrame := q.target, gcArmSent := false }

/-- R39. -/
def execGlobalCommitGo (r : Requester) (s : State) : Out :=
  s.to fun c => c.writeFree r .sys fun c => c.globalGo r

/-- R39: the arm of an accepted commit reaches the islands of its pages. -/
def execGlobalCommitArmDistribute (r : Requester) (s : State) : Out :=
  s.to fun c => c.modRq r fun q => if q.gcState = 1 then { q with gcArmSent := true } else q

/-- GLOBAL_COMMIT.CANCEL (R166): in time up to 2 frames before the start of the target frame. -/
def Chip.globalCancel (c : Chip) (r : Requester) : Chip :=
  let q := c.rq r
  if q.gcState = 1 ∧ c.now + 500 ≤ c.frameStart + 250 * c.lead q.gcFrame then c.endGlobal r 4 else c

/-- R166. -/
def execGlobalCommitCancel (r : Requester) (s : State) : Out :=
  s.to fun c => c.writeFree r .sys fun c => c.globalCancel r

/-! ## Locks -/

/-- LOCK.ACQUIRE (R154). -/
def Chip.lockAcquire (c : Chip) (r : Requester) (p : Page) : Chip :=
  if c.flag p Reg.HDR.LOCK_HELD then c
  else ((c.put p Reg.HDR.LOCK_HELD 1).put p Reg.HDR.LOCK_OWNER r.code).put p Reg.HDR.LOCK_DENIED 0

/-- LOCK.RELEASE (R154). -/
def Chip.lockRelease (c : Chip) (r : Requester) (p : Page) : Chip :=
  if c.flag p Reg.HDR.LOCK_HELD && c.rd p Reg.HDR.LOCK_OWNER == r.code then c.freeLock p else c

/-- LOCK.BREAK with the KEY that the same write left (R154, R173). -/
def Chip.lockBreak (c : Chip) (r : Requester) (p : Page) : Chip :=
  if c.rd p Reg.HDR.LOCK_KEY = 0xC3 ∧ r ≠ .host then c.freeLock p else c

/-- R154. -/
def execLockAcquire (r : Requester) (p : Page) (s : State) : Out :=
  s.to fun c => c.writeFree r p fun c => c.lockAcquire r p

/-- R154. -/
def execLockRelease (r : Requester) (p : Page) (s : State) : Out :=
  s.to fun c => c.writeFree r p fun c => c.lockRelease r p

/-- R154: the write carries KEY, which reads back as last written. -/
def execLockBreak (r : Requester) (p : Page) (key : Byte) (s : State) : Out :=
  s.to fun c => c.writeFree r p fun c => (c.put p Reg.HDR.LOCK_KEY key.toNat).lockBreak r p

/-! ## Force registers -/

/-- INT_FORCE (R148): the bits of `m` are set in INT_STAT. -/
def Chip.intForce (c : Chip) (p : Page) (m : Nat) : Chip :=
  let c := c.orBits p Reg.HDR.INT_STAT_BLOCK (slice 0 30 m)
  let c := c.orBits p Reg.HDR.INT_STAT_DL_MISS_INC (slice 30 1 m)
  c.orBits p Reg.HDR.INT_STAT_COMMIT_DONE (slice 31 1 m)

/-- R148. -/
def execIntForce (r : Requester) (p : Page) (m : Word) (s : State) : Out :=
  s.to fun c => c.write r p fun c => c.intForce p m.toNat

/-- FAULT_FORCE (R151, R786): a forced message for each 1 below the page's source count. -/
def Chip.faultForce (c : Chip) (p : Page) (m : Nat) : Chip :=
  (List.range (srcCount p)).foldl (fun c n =>
    if bit m n then c.send ⟨srcBase p + n, 0xFF, c.rd .fault Reg.FAULT.FORCE_CFG_HINT, 0, 0⟩ else c) c

/-- R786. -/
def execFaultForce (r : Requester) (p : Page) (m : Word) (s : State) : Out :=
  s.to fun c => c.write r p fun c => c.faultForce p m.toNat

end Sys2Proof.Machine
end

