-- ==== Sys2Proof/Machine/Hall.lean ====
section
/-!
DEFINITION. The hallmark check-value units: the computation of R772, the catalogue, the test register, counting, held commits
and parity errors (chapter 17).
-/
namespace Sys2Proof.Machine

/-- One setting of a check value (R772, R773). -/
structure CrcSetting where
  w : Nat
  poly : Nat
  init : Nat
  refIn : Bool
  refOut : Bool
  inv : Bool
  deriving DecidableEq, Repr

/-- The low `w` bits of `n` in reverse order. -/
def revBits : Nat → Nat → Nat
  | 0, _ => 0
  | w + 1, n => (n % 2) * 2 ^ w + revBits w (n / 2)

/-- One bit of the computation of R772. -/
def crcBit (k : CrcSetting) (s d : Nat) : Nat :=
  let top := s / 2 ^ (k.w - 1) % 2 != d % 2
  let t := s * 2 % 2 ^ k.w
  if top then t ^^^ k.poly else t

/-- One byte of the computation of R772, most significant bit first after the reflection. -/
def crcByte (k : CrcSetting) (s d : Nat) : Nat :=
  let d := if k.refIn then revBits 8 d else d
  [7, 6, 5, 4, 3, 2, 1, 0].foldl (fun s i => crcBit k s (d / 2 ^ i)) s

/-- The final value (R772). -/
def crcFinal (k : CrcSetting) (s : Nat) : Nat :=
  let s := if k.refOut then revBits k.w s else s
  if k.inv then s ^^^ (2 ^ k.w - 1) else s

/-- The check value of a message (R772). -/
def crc (k : CrcSetting) (msg : List Nat) : Nat := crcFinal k (msg.foldl (crcByte k) k.init)

/-- CRC-8 (R773). -/
def crc8 : CrcSetting := ⟨8, 0x07, 0, false, false, false⟩
/-- CRC-16 guard (R773). -/
def crc16 : CrcSetting := ⟨16, 0x8BB7, 0, false, false, false⟩
/-- CRC-32C (R773). -/
def crc32c : CrcSetting := ⟨32, 0x1EDC6F41, 0xFFFFFFFF, true, true, true⟩
/-- CRC-64 (R773). -/
def crc64 : CrcSetting := ⟨64, 0xAD93D23594C93659, 0xFFFFFFFFFFFFFFFF, true, true, true⟩

/-- The setting a HALL_CFG and its polynomial and initial-value registers stand for (R773, R777, R778). `v` gives a field. -/
def crcSetting (v : Fld → Nat) (downlink : Bool) : CrcSetting :=
  let sel := v Reg.HALL.HALL_CFG_POLY_SEL
  let sel := if 5 ≤ sel then 0 else sel
  let sel := if downlink ∧ sel = 0 then 3 else sel
  match sel with
  | 1 => crc8
  | 2 => crc16
  | 3 => crc32c
  | 4 => crc64
  | _ =>
    let w0 := v Reg.HALL.HALL_CFG_WIDTH
    let w := if w0 = 0 ∨ 64 < w0 then 64 else w0
    let m := 2 ^ w
    let init := match v Reg.HALL.HALL_CFG_INIT_SEL with
      | 1 => m - 1
      | 2 => (v Reg.HALL.INIT_LO_INIT + v Reg.HALL.INIT_HI_INIT * 2 ^ 32) % m
      | _ => 0
    ⟨w, (v Reg.HALL.POLY_LO_POLY + v Reg.HALL.POLY_HI_POLY * 2 ^ 32) % m, init,
      v Reg.HALL.HALL_CFG_REFIN != 0, v Reg.HALL.HALL_CFG_REFOUT != 0, v Reg.HALL.HALL_CFG_INV_OUT != 0⟩

/-- The setting in force of hallmark unit `n` (R775, R776). -/
def Chip.hallSetting (c : Chip) (n : HallNo) : CrcSetting :=
  crcSetting (c.rd (.hall n)) (80 ≤ n.val && n.val < 96)

/-- The configuration of the unit is RWS: 080 to 095 and 104 to 107 (R775, R776). -/
def hallConfigurable (n : HallNo) : Bool := (80 ≤ n.val && n.val < 96) || (104 ≤ n.val && n.val < 108)

/-- Hallmark unit `n`'s own state. -/
def Chip.hallU (c : Chip) (n : HallNo) : HallUnit := (assocGet n.val c.halls).getD {}
/-- Changes hallmark unit `n`'s own state. -/
def Chip.modHall (c : Chip) (n : HallNo) (f : HallUnit → HallUnit) : Chip :=
  { c with halls := assocSet n.val (f (c.hallU n)) c.halls }

/-- Shows a value of up to 64 bits in TEST_LO and TEST_HI. -/
def Chip.showTest (c : Chip) (n : HallNo) (v : Nat) : Chip :=
  (c.put (.hall n) Reg.HALL.TEST_LO_VALUE v).put (.hall n) Reg.HALL.TEST_HI_VALUE (v / 2 ^ 32)

/-- TEST_CTL.RESTART (R778, R779): the test register takes INIT of the setting in force; the value of no bytes shows. -/
def Chip.hallRestart (c : Chip) (n : HallNo) : Chip :=
  let k := c.hallSetting n
  (c.modHall n fun u => { u with test := some k.init }).showTest n (crcFinal k k.init)

/-- TEST_CTL.FEED (R778, R779): BYTE goes through the test register; before any RESTART it starts from INIT (DEDUCED, log 16). -/
def Chip.hallFeed (c : Chip) (n : HallNo) : Chip :=
  let k := c.hallSetting n
  let s := crcByte k (((c.hallU n).test).getD k.init) (c.rd (.hall n) Reg.HALL.TEST_CTL_BYTE)
  (c.modHall n fun u => { u with test := some s }).showTest n (crcFinal k s)

/-- R778. -/
def execHallRestart (r : Requester) (n : HallNo) (s : State) : Out :=
  s.to fun c => c.write r (.hall n) fun c => c.hallRestart n

/-- R779: the write carries BYTE, which the same write uses. -/
def execHallFeed (r : Requester) (n : HallNo) (d : Byte) (s : State) : Out :=
  s.to fun c => c.write r (.hall n) fun c => (c.put (.hall n) Reg.HALL.TEST_CTL_BYTE d.toNat).hallFeed n

/-- One message of `n`'s stream ends with value `v`: LAST, DIR and the counts (R774, R778, R781). `check` is none for an inserted
value and says otherwise whether the comparison held. A parity error makes it count as a failed check (R781). -/
def Chip.hallMessage (c : Chip) (n : HallNo) (v : Nat) (check : Option Bool) : Chip :=
  let u := c.hallU n
  let p : Page := .hall n
  let c := (c.put p Reg.HALL.LAST_LO_VALUE v).put p Reg.HALL.LAST_HI_VALUE (v / 2 ^ 32)
  let c := c.stat p Reg.HALL.HALL_STAT_DIR (b2n check.isSome)
  let ok := !u.parity && check.getD true
  let c := if ok then c.inc p Reg.HALL.HALL_COUNT_OK else c.inc p Reg.HALL.HALL_COUNT_FAIL
  if u.parity then c.modHall n fun u => { u with parity := false } else c

/-- The value inserted for a message: every bit inverted after a parity error (R781). -/
def Chip.hallValue (c : Chip) (n : HallNo) (msg : List Nat) : Nat :=
  let k := c.hallSetting n
  let v := crc k msg
  if (c.hallU n).parity then v ^^^ (2 ^ k.w - 1) else v

/-- Sets HALL_STAT.IDLE and the block's interrupt of a change of HALL_STAT (R776, R781). -/
def Chip.hallIdle (c : Chip) (n : HallNo) (idle : Bool) : Chip :=
  if c.flag (.hall n) Reg.HALL.HALL_STAT_IDLE = idle then c
  else (c.putB (.hall n) Reg.HALL.HALL_STAT_IDLE idle).event (.hall n) 0

/-- A held commit of a configurable unit whose stream is idle applies (R776). -/
def Chip.hallRelease (c : Chip) (n : HallNo) : Chip :=
  if c.flag (.hall n) Reg.HALL.HALL_STAT_HELD && c.flag (.hall n) Reg.HALL.HALL_STAT_IDLE && c.frozen (.hall n) then
    ((c.put (.hall n) Reg.HALL.HALL_STAT_HELD 0).event (.hall n) 0).applyPage (.hall n)
  else c

/-- R776: the stream has become idle and the held commit applies. -/
def execHallCommitRelease (n : HallNo) (s : State) : Out := s.to fun c => c.hallRelease n

/-- R781: a parity error of the unit's running state or configuration: HALL_PARITY is sent and the message in progress
counts as a failed check, its inserted value inverted. -/
def execHallParity (n : HallNo) (s : State) : Out :=
  s.to fun c => (c.modHall n fun u => { u with parity := true }).fault0 (.hall n) 0 1 2

end Sys2Proof.Machine
end

