-- ==== Sys2Proof/Machine/Codec.lean ====
section
/-!
DEFINITION. The disc format as pure functions: bits and bytes, servo fields, header words, scrambler, LDPC code, outer code and the
sector metadata (chapter 05).
-/
namespace Sys2Proof.Machine

/-! ## Bits and bytes -/

/-- The bits of `w` places of `n`, most significant first. -/
def bitsBE : Nat → Nat → List Bool
  | 0, _ => []
  | w + 1, n => n.testBit w :: bitsBE w n

/-- The bytes of `n` numbers most significant first. -/
def bytesBE : Nat → Nat → List Nat
  | 0, _ => []
  | n + 1, v => (v / 256 ^ n % 256) :: bytesBE n v

/-- Little-endian bytes of a number. -/
def bytesLE : Nat → Nat → List Byte
  | 0, _ => []
  | n + 1, v => BitVec.ofNat 8 (v % 256) :: bytesLE n (v / 256)

/-- A little-endian number from bytes. -/
def leNat : List Byte → Nat
  | [] => 0
  | b :: r => b.toNat + 256 * leNat r

/-- Places where two patterns differ. -/
def diffs (a b : List Bool) : Nat := ((a.zip b).filter fun v => v.1 != v.2).length

/-- Offsets 0, -1, 1, -2, 2 and so on up to `lim`: the nearest first, the earlier of two (R323). -/
def nearOrder (lim : Nat) : List Int := 0 :: (List.range lim).flatMap fun (k : Nat) => [-((k : Int) + 1), (k : Int) + 1]

/-- The place of pattern `pat` within ±`lim` of place `ofs`: its fewest differing places and its offset (R318, R323). -/
def bestMatch (z : List Bool) (ofs lim : Nat) (pat : List Bool) : Nat × Int :=
  (nearOrder lim).foldl (fun (a : Nat × Int) d =>
    let n := diffs ((z.drop ((ofs : Int) + d).toNat).take pat.length) pat
    if n < a.1 then (n, d) else a) (pat.length + 1, 0)

/-! ## Servo fields (R190 to R192) -/

/-- The servo mark of field 0, and that of every other field (R191). -/
def servoMark (index : Bool) : List Bool := bitsBE 24 (if index then 0xC0F0FC else 0xFC0F03)

/-- The servo mark in the sliced periods -4 to 131 of a field: its offset within ±4 periods and whether it is the index mark, where
3 or fewer places differ (R190, R318, R467). -/
def findMark (z : List Bool) : Option (Int × Bool) :=
  let n := bestMatch z 20 4 (servoMark false)
  let i := bestMatch z 20 4 (servoMark true)
  let m := if i.1 < n.1 then (i.1, i.2, true) else (n.1, n.2, false)
  if m.1 ≤ 3 then some (m.2.1, m.2.2) else none

/-- The identity word of a field whose mark lies at offset `d`: 22 bits of two periods from period 76 on, a 1 where the pit comes
first (R190, R192). -/
def identWord (z : List Bool) (d : Int) : Nat :=
  (List.range 22).foldl (fun (a i : Nat) => 2 * a + b2n (z.getD ((80 : Int) + d + 2 * i).toNat false)) 0

/-- Fields of the identity word (R192). -/
def identField (w : Nat) : Nat := slice 12 10 w
/-- SPIRAL. -/
def identSpiral (w : Nat) : Nat := slice 10 2 w
/-- TURN. -/
def identTurn (w : Nat) : Nat := slice 4 6 w
/-- LAYER. -/
def identLayer (w : Nat) : Nat := slice 1 3 w
/-- Even parity over [21:0]. -/
def identOk (w : Nat) : Bool := popCount 22 w % 2 = 0

/-! ## Header words (R204) -/

/-- The header word of R204 with its CRC. -/
def headerWord (sec seed side layer spiral slot : Nat) : Nat :=
  let top := (((((1 * 32 + sec) * 4 + seed) * 2 + side) * 8 + layer) * 4 + spiral) * 2 ^ 20 + slot
  let hi := top * 16
  hi * 256 + crc crc8 (bytesBE 5 hi)

/-- The CRC of a header copy holds (R204). -/
def headerOk (w : Nat) : Bool := crc crc8 (bytesBE 5 (w / 256)) = w % 256

/-! ## Scrambler (R210, R212, R213) -/

/-- Bits of a payload, bit 7 of each byte first (R210). -/
def payloadBits (p : List Byte) : List Bool := p.flatMap fun b => bitsBE 8 b.toNat

/-- Initial state of the scrambler (R212). -/
def scramInit (slot sec spiral seed : Nat) : Nat :=
  let k := match seed with
    | 0 => 0
    | 1 => 0x155555
    | 2 => 0x2AAAAA
    | _ => 0x33CCCC
  0x400000 ||| ((((18 * slot + sec) * 4 + spiral) % 2 ^ 22) ^^^ k)

/-- The bits XORed with the scrambler's output (R212). -/
def scramble : Nat → List Bool → List Bool
  | _, [] => []
  | s, b :: r =>
    let o := bit s 22
    let fb := b2n (o != bit s 17)
    (b != o) :: scramble (s * 2 % 2 ^ 23 + fb) r

/-- The longest run of equal bits. -/
def longestRun : List Bool → Nat
  | l => (l.foldl (fun (a : Option Bool × Nat × Nat) b =>
      let n := if a.1 = some b then a.2.1 + 1 else 1
      (some b, n, max a.2.2 n)) (none, 0, 0)).2.2

/-- The seed of R213 for a codeword, with the scrambled codeword. -/
def pickSeed (slot sec spiral : Nat) (cw : List Bool) : Nat × List Bool :=
  let tries := (List.range 4).map fun k =>
    let s := scramble (scramInit slot sec spiral k) cw
    (k, max (longestRun (s.take 18720)) (longestRun (s.drop 18720)), s)
  match tries.find? (fun t => t.2.1 ≤ 24) with
  | some t => (t.1, t.2.2)
  | none =>
    let best := tries.foldl (fun (a : Nat × Nat × List Bool) t => if t.2.1 < a.2.1 then t else a) (tries.headD (0, 0, []))
    (best.1, best.2.2)

/-! ## LDPC code (R211) -/

/-- Bit by bit sum of two blocks. -/
def xorBits (a b : List Bool) : List Bool := (a.zip b).map fun v => v.1 != v.2

/-- A block times a circulant of shift `s`: row i holds its 1 in column (i + s) mod 208. -/
def circ (s : Nat) (v : List Bool) : List Bool := v.drop s ++ v.take s

/-- Block `k` of 208 bits. -/
def blockOf (l : List Bool) (k : Nat) : List Bool := (l.drop (208 * k)).take 208

/-- Sum of row `r` of the base matrix over the columns `cols` below 161. -/
def rowSum (cw : List Bool) (cols : List Nat) (r : Nat) : List Bool :=
  cols.foldl (fun a k =>
    (Config.ldpcColumn k).toList.foldl (fun a e => if e.1.val = r then xorBits a (circ e.2.val (blockOf cw k)) else a) a)
    (List.replicate 208 false)

/-- Parity bits of a payload: the block of column 160, and the blocks of columns 161 to 179 by back-substitution, since each of them
has shift 0 in two successive rows and no other entry. -/
def ldpcParity (payload : List Bool) : List Bool :=
  let sums := (List.range 20).map (rowSum payload (List.range 160))
  let p := bitsBE 208 (Config.ldpcFirst sums).toNat
  let own := fun (r : Nat) => rowSum (payload ++ p) [160] r
  ((List.range 19).foldl (fun (a : List Bool × List Bool) r =>
    let x := xorBits a.2 (xorBits (sums.getD r []) (own r))
    (a.1 ++ x, x)) (p, List.replicate 208 false)).1

/-- Unsatisfied parity checks of a word of 37,440 bits. -/
def unsatisfied (cw : List Bool) : Nat :=
  ((List.range 20).map fun r =>
    let a := rowSum cw (List.range 161) r
    let a := if r < 19 then xorBits a (blockOf cw (161 + r)) else a
    let a := if 0 < r then xorBits a (blockOf cw (160 + r)) else a
    (a.filter id).length).sum

/-- The codeword of a payload (R210). -/
def codeword (payload : List Byte) : List Bool := payloadBits payload ++ ldpcParity (payloadBits payload)

/-! ## Outer code (R215, R328, R329) -/

/-- Multiplication in GF(2^8) with polynomial 0x11D. -/
def gfMulFrom : Nat → Nat → Nat → Nat
  | 0, _, _ => 0
  | k + 1, a, b =>
    let a2 := if 128 ≤ a then (2 * a) ^^^ 0x11D else 2 * a
    (if b % 2 = 1 then a else 0) ^^^ gfMulFrom k a2 (b / 2)

/-- Product of two bytes in GF(2^8). -/
def gfMul (a b : Nat) : Nat := gfMulFrom 8 (a % 256) (b % 256)

/-- α^n. -/
def gfPow : Nat → Nat
  | 0 => 1
  | n + 1 => gfMul 2 (gfPow n)

/-- Inverse in GF(2^8): a^254. -/
def gfInv (a : Nat) : Nat :=
  let sq := fun (x : Nat) => gfMul x x
  let p2 := sq a
  let p4 := sq p2
  let p8 := sq p4
  let p16 := sq p8
  let p32 := sq p16
  let p64 := sq p32
  let p128 := sq p64
  [p4, p8, p16, p32, p64, p128].foldl gfMul p2

/-- Byte `m` of a payload. -/
def byteAt (p : List Byte) (m : Nat) : Nat := (p.getD m 0).toNat

/-- The remainder of R215 for every byte position: the two parity sectors after another data sector. -/
def outerStep (p16 p17 d : List Byte) : List Byte × List Byte :=
  let f := (List.range 4160).map fun m => byteAt d m ^^^ byteAt p16 m
  (((List.range 4160).zip f).map fun v => BitVec.ofNat 8 (byteAt p17 v.1 ^^^ gfMul 3 v.2), f.map fun v => BitVec.ofNat 8 (gfMul 2 v))

/-- Syndromes S0 and S1 of every byte position over the decoded sectors (R328). -/
def syndromes (g : List (Nat × List Byte)) : List (Nat × Nat) :=
  (List.range 4160).map fun m =>
    g.foldl (fun a s => (a.1 ^^^ byteAt s.2 m, a.2 ^^^ gfMul (byteAt s.2 m) (gfPow (17 - s.1)))) (0, 0)

/-- The sector whose single error explains every position (R329). -/
def singleError (s : List (Nat × Nat)) : Option Nat :=
  (List.range 18).find? fun k => s.all fun v => v.1 = 0 && v.2 = 0 || (v.1 ≠ 0 && v.2 = gfMul v.1 (gfPow (17 - k)))

/-- What the outer code delivers: sector, status and payload. -/
def outerSolve (g : List (Nat × List Byte)) (single : Bool) : List (Nat × Nat × List Byte) :=
  let er := (List.range 18).filter fun s => (assocGet s g).isNone
  let sy := syndromes g
  let inc := fun (l : List Nat) => (l.filter (· < 16)).map fun s => (s, 10, (assocGet s g).getD [])
  match er with
  | [] =>
    if sy.all (fun v => v.1 = 0 && v.2 = 0) || !single then []
    else
      match singleError sy with
      | some s =>
        if s < 16 then
          [(s, 2, (((assocGet s g).getD []).zip sy).map fun v => BitVec.ofNat 8 (v.1.toNat ^^^ v.2.1))]
        else inc (List.range 16)
      | none => inc (List.range 16)
  | [s1] =>
    if 16 ≤ s1 then []
    else if sy.all (fun v => v.2 = gfMul v.1 (gfPow (17 - s1))) then [(s1, 1, sy.map fun v => BitVec.ofNat 8 v.1)]
    else [(s1, 10, [])]
  | [s1, s2] =>
    let x1 := gfPow (17 - s1)
    let x2 := gfPow (17 - s2)
    let d := gfInv (x1 ^^^ x2)
    let e1 := sy.map fun v => gfMul (v.2 ^^^ gfMul v.1 x2) d
    let e2 := (sy.zip e1).map fun v => v.1.1 ^^^ v.2
    ((s1, 1, e1.map (BitVec.ofNat 8 ·)) :: [(s2, 1, e2.map (BitVec.ofNat 8 ·))]).filter (fun r => r.1 < 16)
  | _ => []

/-! ## Sectors and slots (R201 to R203, R214) -/

/-- The channel bits of a sector (R202, R203). -/
def sectorBits (hdr : Nat) (cw : List Bool) : List Bool :=
  bitsBE 48 0xFFFFFFF0B38E ++ bitsBE 48 hdr ++ bitsBE 48 hdr ++ cw.take 18720 ++ bitsBE 48 0x0000000F4C71 ++ cw.drop 18720

/-- The preamble and postamble pattern (R201). -/
def rest0011 (n : Nat) : List Bool := (List.range n).map fun i => 2 ≤ i % 4

/-- Channel bits from data period `d` of a window on, none for each servo field between two windows (R188, R201); `d` is 6,382 where
they go on after a window. -/
def withFields {α : Type} : Nat → List α → List (Option α)
  | _, [] => []
  | d, v :: r => if d = 6382 then none :: some v :: withFields 1 r else some v :: withFields (d + 1) r

/-- Data period in its window of place `off` of slot `slot`; the first of a recording has no servo field before it (R195, R196). -/
def windowAt (slot off : Nat) (start : Bool) : Nat :=
  let d := (slot * 677632 + off) % 6382
  if d = 0 ∧ !start then 6382 else d

/-! ## Sector metadata (R206) -/

/-- What the sector metadata say of an ingot's sector besides its RSN. -/
structure SectorMeta where
  hostMd : List Byte := []
  lba : Nat := 2 ^ 64 - 1
  nsid : Nat := 0
  keyTag : Nat := 0
  polder : Nat := 0
  zone : Nat := 0
  row : Nat := 0xFFFF
  member : Nat := 0
  flags : Nat := 0
  deriving DecidableEq, Repr

/-- Metadata bytes 0 to 59 of sector `sec` of an ingot with an RSN. -/
def SectorMeta.bytes (m : SectorMeta) (sec rsn : Nat) : List Byte :=
  (m.hostMd ++ List.replicate 16 0).take 16 ++ bytesLE 8 m.lba ++ bytesLE 4 m.nsid ++ bytesLE 4 m.keyTag ++ bytesLE 8 m.polder
    ++ bytesLE 2 m.zone ++ bytesLE 2 m.row ++ bytesLE 1 m.member ++ bytesLE 1 sec ++ bytesLE 2 m.flags ++ bytesLE 8 rsn
    ++ bytesLE 4 0

/-- Field of `n` bytes at byte `o` of a payload's metadata. -/
def metaField (payload : List Byte) (o n : Nat) : Nat := leNat ((payload.drop (4096 + o)).take n)

end Sys2Proof.Machine
end

