-- ==== Sys2Proof/Machine/Detect.lean ====
section
/-!
DEFINITION. The bit domain of a read channel as pure functions: interpolation, detector target, early decisions and soft output
(R315, R320, R321). Samples and levels are in LSB, ideal samples in 1/16 LSB, positions in 2^-30 sample.
-/
namespace Sys2Proof.Machine

/-- The detector target (R320): g_0 to g_4 in Q3.4 and LEVEL_A. -/
structure DetTarget where
  g : List Int
  level : Nat
  deriving DecidableEq, Repr

/-- The weights β_-1 to β_2 of the 4-point cubic Lagrange interpolation at fraction `f`, in 1/(6 × 2^90) (R315). -/
def lagrangeWeights (f : Nat) : List Int :=
  let u : Int := (2 ^ 30 : Nat)
  let f : Int := (f : Nat)
  [-(f * (f - u) * (f - 2 * u)), 3 * (f + u) * (f - u) * (f - 2 * u), -(3 * (f + u) * f * (f - 2 * u)), (f + u) * f * (f - u)]

/-- One interpolated value (R315) over four successive samples, `f` behind the second of them. -/
def lagrange (s : List Int) (f : Nat) : Int :=
  satI 10 (divRound (((lagrangeWeights f).zip s).map fun v => v.1 * v.2).sum ((6 * 2 ^ 90 : Nat)))

/-- ±1 of a channel bit. -/
def plusMinus (b : Bool) : Int := if b then 1 else -1

/-- The ideal sample ẑ of a bit and the bits before it, newest first (R320). -/
def DetTarget.ideal (t : DetTarget) (bits : List Bool) : Int :=
  (t.level : Int) * (((t.g.zip bits).map fun v => v.1 * plusMinus v.2).sum)

/-- The last four bits of state `s`, newest first. -/
def stateBits (s : Nat) : List Bool := [s.testBit 0, s.testBit 1, s.testBit 2, s.testBit 3]

/-- Branch metric of bit `a` after state `s` at sample `z`, in 1/256 LSB² (R321). -/
def DetTarget.branch (t : DetTarget) (s : Nat) (a : Bool) (z : Int) : Int :=
  let e := 16 * z - t.ideal (a :: stateBits s)
  e * e

/-- The state after bit `a` in state `s`. -/
def nextState (s : Nat) (a : Bool) : Nat := (2 * s + b2n a) % 16

/-- The two states before state `s`; the bit that leads to it is its lowest. -/
def prevStates (s : Nat) : List Nat := [s / 2, s / 2 + 8]

/-- Path metrics after sample `z`: the smaller of the two paths into each state. -/
def DetTarget.forward (t : DetTarget) (pm : List Int) (z : Int) : List Int :=
  (List.range 16).map fun s =>
    let m := fun (p : Nat) => pm.getD p 0 + t.branch p (s.testBit 0) z
    min (m (s / 2)) (m (s / 2 + 8))

/-- Path metrics before sample `z`, of the paths that follow. -/
def DetTarget.backward (t : DetTarget) (pm : List Int) (z : Int) : List Int :=
  (List.range 16).map fun s =>
    let m := fun (a : Bool) => t.branch s a z + pm.getD (nextState s a) 0
    min (m false) (m true)

/-- Smallest path metric over the paths with bit `a` at sample `z`. -/
def DetTarget.through (t : DetTarget) (before after : List Int) (a : Bool) (z : Int) : Int :=
  let m := fun (s : Nat) => before.getD s 0 + t.branch s a z + after.getD (nextState s a) 0
  (List.range 15).foldl (fun v s => min v (m (s + 1))) (m 0)

/-- λ of a bit (R321): rounded and clipped at ±31. -/
def DetTarget.llr (t : DetTarget) (shift : Nat) (before after : List Int) (z : Int) : Int :=
  clampI (-31) 31 (divRound (t.through before after true z - t.through before after false z) ((256 * 2 ^ shift : Nat)))

/-- All path metrics before each sample, from equal ones. -/
def scanMetrics (f : List Int → Int → List Int) : List Int → List Int → List (List Int)
  | _, [] => []
  | pm, z :: r => pm :: scanMetrics f (f pm z) r

/-- λ of a run of samples taken as one block: every state is equally likely at both ends (DESIGN CHOICE, log 42). -/
def DetTarget.blockLlr (t : DetTarget) (shift : Nat) (zs : List Int) : List Int :=
  let zero : List Int := List.replicate 16 0
  let f := scanMetrics t.forward zero zs
  let b := (scanMetrics t.backward zero zs.reverse).reverse
  (zs.zip (f.zip b)).map fun v => t.llr shift v.2.1 v.2.2 v.1

/-- The detector over a run of samples (R321): blocks of 512 bits, each detected with 64 bits of its neighbours on both sides. -/
def DetTarget.detect (t : DetTarget) (shift : Nat) (zs : List Int) : List Int :=
  (List.range ((zs.length + 511) / 512)).flatMap fun k =>
    let lead := min 64 (512 * k)
    (((t.blockLlr shift ((zs.drop (512 * k - lead)).take (lead + 576))).drop lead).take 512)

/-- Path metrics and survivors, newest bit first, after a sample: early decisions (R306, R315). -/
def DetTarget.survive (t : DetTarget) (pm : List Int) (sv : List (List Bool)) (z : Int) : List Int × List (List Bool) :=
  let pick := fun (s : Nat) =>
    let m := fun (p : Nat) => pm.getD p 0 + t.branch p (s.testBit 0) z
    if m (s / 2 + 8) < m (s / 2) then s / 2 + 8 else s / 2
  let new := t.forward pm z
  let least := new.foldl min (new.headD 0)
  (new.map (· - least), (List.range 16).map fun s => (s.testBit 0 :: sv.getD (pick s) []).take 22)

/-- The survivor of the best state. -/
def bestPath (pm : List Int) (sv : List (List Bool)) : List Bool :=
  sv.getD ((List.range 16).foldl (fun b s => if pm.getD s 0 < pm.getD b 0 then s else b) 0) []

/-- The phase detector (R315), in 2^-30 sample: two samples and their ideal samples, the later first. With LEVEL_A at 0 there is no
phase (DESIGN CHOICE, log 172). -/
def DetTarget.phase (t : DetTarget) (z1 z0 e1 e0 : Int) : Int :=
  if t.level = 0 then 0 else divRound ((z1 * e0 - z0 * e1) * (2 ^ 30 : Nat)) (32 * t.level * t.level)

end Sys2Proof.Machine
end

