-- ==== Sys2Proof/Machine/Convert.lean ====
section
/-!
DEFINITION. Conversions of the spindle, axis and assay islands: corrections, the spare converter, currents and voltages (R511, R512,
R554, R595 to R598).
-/
namespace Sys2Proof.Machine

/-- The corrections of a converter, island × 64 + index; an absent one has its fused ones (R598). -/
def Chip.conv (c : Chip) (n : Nat) : ConvSt :=
  (assocGet n c.assay.convs).getD ⟨(Config.fusedGain n).toNat, (Config.fusedOfs n).toInt, 0, 0⟩

/-- Converter `ix` of island `isl` (0 spindle, 1 axis, 2 assay) is under calibration, and the spare converts its input (R596): in its slot,
up to frame offset 3,584. -/
def Chip.convBusy (c : Chip) (isl ix : Nat) : Bool :=
  let n := c.frameNum.toNat / 4096
  let next := if isl = 0 then c.assay.nextSpin else if isl = 1 then c.assay.nextAxis else c.assay.nextAssay
  next == ix && n % 9 != 0 && decide (c.frameNum.toNat % 4096 < 3584)

/-- The spare converter of an island (R596). -/
def spareConv (isl : Nat) : Nat := if isl = 0 then 48 else if isl = 1 then 44 else 13

/-- A raw code corrected, in 1/16 LSB (R598). -/
def Chip.corrected (c : Chip) (isl ix raw : Nat) : Int :=
  let x := c.conv (64 * isl + if c.convBusy isl ix then spareConv isl else ix)
  divRound ((16 * (raw : Int) - x.ofs) * x.gain) (2 ^ 30)

/-- A current in mA (R511, R554): 0.8 V, code 2,048, is zero, and 1.6 V is `fs`; rounded to 1 mA (DESIGN CHOICE, log 177). -/
def Chip.currentMa (c : Chip) (isl ix fs raw : Nat) : Int := divRound ((c.corrected isl ix raw - 32768) * (fs : Nat)) 32768

/-- The mean of several conversions in mV (R512): 1.6 V is `fs`; rounded to 1 mV (DESIGN CHOICE, log 177). -/
def Chip.voltMv (c : Chip) (isl ix fs : Nat) (raw : List Nat) : Int :=
  divRound ((raw.foldl (fun (a : Int) v => a + c.corrected isl ix v) 0) * (fs : Nat)) ((65536 * max 1 raw.length : Nat) : Int)

end Sys2Proof.Machine
end

