-- ==== Sys2Proof/Machine/Axes.lean ====
section
/-!
DEFINITION. Sleds and picker axes: motion profiles, encoder, homing, limits, stops, coil drive and commands (chapter 12).
-/
namespace Sys2Proof.Machine

/-! ## Access -/

/-- Axis `a`'s own state. -/
def Chip.ax (c : Chip) (a : Axis) : AxisSt := c.axes.get a
/-- Changes axis `a`'s own state. -/
def Chip.modAx (c : Chip) (a : Axis) (f : AxisSt → AxisSt) : Chip := { c with axes := c.axes.set a.val (f (c.ax a)) a.isLt }

/-- One microstep in the generator's units (R551). -/
def uStep : Int := 4294967296
/-- Servo frames per second: Δ is 1 / 400,000 s (R557). -/
def fps : Int := 400000

/-- p in whole microsteps. -/
def AxisSt.pos (x : AxisSt) : Int := sar x.p 32
/-- v in whole microsteps/s. -/
def AxisSt.vel (x : AxisSt) : Int := sar x.v 32

/-- AX_STAT.STATE (R567). -/
def Chip.axState (c : Chip) (a : Axis) : Nat := c.rd (.axis a) Reg.AXIS.AX_STAT_STATE

/-- Enters a state; a change sets STATE_CHANGE (R589). -/
def Chip.axEnter (c : Chip) (a : Axis) (st : Nat) : Chip :=
  if c.axState a = st then c else (c.put (.axis a) Reg.AXIS.AX_STAT_STATE st).event (.axis a) 0

/-- Reports the end of the command in progress (R568). -/
def Chip.axResult (c : Chip) (a : Axis) (r : Nat) : Chip :=
  ((c.modAx a fun x => { x with cmd := 0 }).put (.axis a) Reg.AXIS.AX_STAT_RESULT r).event (.axis a) 1

/-- Clears HOMED (R589: HOMED_LOST). -/
def Chip.axUnhome (c : Chip) (a : Axis) : Chip :=
  if c.flag (.axis a) Reg.AXIS.AX_STAT_HOMED then
    ((c.modAx a fun x => { x with idxKnown := false }).put (.axis a) Reg.AXIS.AX_STAT_HOMED 0).event (.axis a) 2
  else c

/-- A register value in which 0 acts as 1. -/
def atLeast1 (n : Nat) : Nat := max 1 n

/-- A profile register of the page in its own unit, 0 acting as 1 (R585). -/
def Chip.axProf (c : Chip) (a : Axis) (f : Fld) : Int := (atLeast1 (c.rd (.axis a) f) : Nat)

/-! ## Deviation (R566) -/

/-- round(p × ENC_SCALE / 65,536). -/
def encOfPos (p : Int) (scale : Nat) : Int := divRound (p * scale) (65536 * uStep)

/-- E (R566). -/
def Chip.axE (c : Chip) (a : Axis) : Int :=
  let x := c.ax a
  x.enc - (encOfPos x.p (atLeast1 (c.rd (.axis a) Reg.AXIS.ENC_CFG_ENC_SCALE)) + x.encOfs)

/-- p resynchronised to the encoder; φ is unchanged (R553, R566). -/
def Chip.axResync (c : Chip) (a : Axis) : Chip :=
  let scale := atLeast1 (c.rd (.axis a) Reg.AXIS.ENC_CFG_ENC_SCALE)
  c.modAx a fun x => { x with p := divRound ((x.enc - x.encOfs) * 65536) scale * uStep, resync := false }

/-! ## Targets (R561) -/

/-- A target within the soft limits (R561). -/
def Chip.axSoftTarget (c : Chip) (a : Axis) (t : Int) : Int :=
  let p : Page := .axis a
  if c.flag p Reg.AXIS.AXIS_CFG_SOFT_EN && c.flag p Reg.AXIS.AX_STAT_HOMED then
    clampI (c.rdS p Reg.AXIS.SOFT_LO_POS) (c.rdS p Reg.AXIS.SOFT_HI_POS) t
  else t

/-- A target clamped to the soft range and to the bounds of limit stops. -/
def Chip.axClampTarget (c : Chip) (a : Axis) (t : Int) : Int :=
  let x := c.ax a
  let t := c.axSoftTarget a t
  let t := match x.boundLo with | some b => max b t | none => t
  match x.boundHi with | some b => min b t | none => t

/-- Takes a new target; SOFT_CLAMP says whether it was clamped (R561). -/
def Chip.axTarget (c : Chip) (a : Axis) (t : Int) : Chip :=
  let u := c.axClampTarget a t
  (c.modAx a fun x => { x with target := u }).putB (.axis a) Reg.AXIS.AX_STAT_SOFT_CLAMP (u != t)

/-! ## Stops (R576) -/

/-- The axis is in HOMING, MOVE, FOLLOW or STOPPING (R577). -/
def axMoving (st : Nat) : Bool := st = 3 || st = 4 || st = 5 || st = 6

/-- A stop request of cause `cause`; the command in progress ends with RESULT `res` (R576). During a ramp it changes
nothing; in OFF, IDLE, HOLD and FAULT nothing moves. -/
def Chip.axStop (c : Chip) (a : Axis) (cause res : Nat) : Chip :=
  let st := c.axState a
  if st = 3 ∨ st = 4 ∨ st = 5 then
    let c := if (c.ax a).cmd ≠ 0 ∨ st = 5 then c.axResult a res else c
    let c := (c.modAx a fun x => { x with homeStep := 0, acc := 0 }).put (.axis a) Reg.AXIS.AX_STAT_STOP_CAUSE cause
    c.axEnter a 6
  else c

/-- Standstill begins: HOLD_DELAY runs anew (R555). -/
def Chip.axStill (c : Chip) (a : Axis) : Chip := c.modAx a fun x => { x with v := 0, acc := 0, stillAt := c.now, holdLow := false }

/-- KIND, DIR and CHOP_DIV take effect at standstill in IDLE or HOLD (R560, R584). -/
def Chip.axTakeCfg (c : Chip) (a : Axis) : Chip :=
  let p : Page := .axis a
  let st := c.axState a
  if (st = 1 ∨ st = 2 ∨ st = 0) ∧ (c.ax a).v = 0 then
    c.modAx a fun x => { x with
      kind := c.rd p Reg.AXIS.AXIS_CFG_KIND, dir := c.rd p Reg.AXIS.AXIS_CFG_DIR
      chop := clampN 4 20 (c.rd p Reg.AXIS.AXIS_CFG_CHOP_DIV) }
  else c

/-- A limit at the low (`hi` false) or high end counts as active: accepted active or declared faulty, and not masked by
homing (R571, R574, R575). -/
def Chip.axLimit (c : Chip) (a : Axis) (hi : Bool) : Bool :=
  let p : Page := .axis a
  let act := if hi then c.flag p Reg.AXIS.AX_STAT_LIM_HI || c.flag p Reg.AXIS.AX_STAT_HI_FAULTY
    else c.flag p Reg.AXIS.AX_STAT_LIM_LO || c.flag p Reg.AXIS.AX_STAT_LO_FAULTY
  let masked := c.axState a == 5 && c.flag p Reg.AXIS.HOME_CFG_HOME_DIR == hi
  act && !masked

/-- The stop ramp has reached standstill: HOLD, or OFF when the page was disabled; p is resynchronised after a stall, and
after a limit stop the position bounds further targets on that side (R561, R566, R576, R579). -/
def Chip.axRampEnd (c : Chip) (a : Axis) : Chip :=
  let cause := c.rd (.axis a) Reg.AXIS.AX_STAT_STOP_CAUSE
  let x := c.ax a
  let c := c.axStill a
  let c := if x.resync then c.axResync a else c
  let c := if cause = 3 then
      c.modAx a fun y => { y with
        boundLo := if c.axLimit a false then some y.pos else y.boundLo
        boundHi := if c.axLimit a true then some y.pos else y.boundHi }
    else c
  let c := if x.cmd = 4 then c.axResult a 1 else c
  let c := (c.axEnter a (if !x.toOff then 2 else if c.enabled (.axis a) then 1 else 0)).modAx a fun y => { y with toOff := false }
  c.axTakeCfg a

/-! ## Profiles (R557 to R559) -/

/-- Integer square root. -/
def isqrtFrom : Nat → Nat → Nat → Nat
  | 0, _, r => r
  | k + 1, n, r =>
    let t := r + 2 ^ k
    isqrtFrom k n (if t * t ≤ n then t else r)

/-- Integer square root of a number below 2^256. -/
def isqrt (n : Nat) : Nat := isqrtFrom 128 n 0

/-- The sign of `x` as 1, 0 or -1. -/
def sgn (x : Int) : Int := if 0 < x then 1 else if x < 0 then -1 else 0
/-- |x| as an Int. -/
def absI (x : Int) : Int := (x.natAbs : Nat)

/-- What a change of speed at rate `acc` (microsteps/s²) makes in one frame, in the generator's units. -/
def perFrame (acc : Int) : Int := divRound (acc * uStep) fps

/-- d_stop of the trapezoid from speed `u`, in 2^-32 microsteps (R558). -/
def dStopTrap (u v1 d1 d2 : Int) : Int :=
  let w := v1 * uStep
  if u ≤ w then u * u / (2 * d1 * uStep)
  else w * w / (2 * d1 * uStep) + (u * u - w * w) / (2 * d2 * uStep)

/-- The new speed of a trapezoid (R558): `v` now, `r` the remaining distance. -/
def trapStep (v r vmax v1 a1 a2 d1 d2 : Int) : Int :=
  let s := absI v
  let dec := perFrame (if s ≤ v1 * uStep then d1 else d2)
  let acc := perFrame (if s < v1 * uStep then a1 else a2)
  let slow := fun (low : Int) => sgn v * max low (s - dec)
  let top := vmax * uStep
  if (v ≠ 0 ∧ sgn v ≠ sgn r) ∨ r = 0 then slow 0
  else if top < s then slow top
  else if absI r ≤ dStopTrap s v1 d1 d2 + s / fps then slow 0
  else if s < top then sgn r * min top (s + acc)
  else v

/-- d_stop of the S-curve from speed `u` with no acceleration, in 2^-32 microsteps (R559). -/
def dStopS (u d1 j : Int) : Int :=
  let un := u.natAbs
  if u * j < d1 * d1 * uStep then (isqrt (un * un * un / (uStep.natAbs * j.natAbs)) : Nat)
  else u * u / (2 * d1 * uStep) + u * d1 / (2 * j)

/-- Distance of a jerk-limited stop from speed `s` and acceleration `b` along the motion, in 2^-32 microsteps (R559). -/
def dStopFrom (s b d1 j : Int) : Int :=
  if 0 ≤ b then
    let u := s + b * b / (2 * j * uStep)
    s * b / (j * uStep) + b * b * b / (3 * j * j * uStep * uStep) + dStopS u d1 j
  else
    let d := -b
    let u := s + d * d / (2 * j * uStep)
    max 0 (dStopS u d1 j - (u * d / (j * uStep) - d * d * d / (6 * j * j * uStep * uStep)))

/-- The new acceleration of an S-curve (R559), both in 2^-32 units. -/
def sAcc (v acc r vmax a1 d1 j : Int) : Int :=
  let s := absI v
  let top := vmax * uStep
  let lim := fun (x : Int) => min (d1 * uStep) ((isqrt (2 * j * x * uStep).natAbs : Nat) : Int)
  let along := acc * sgn v
  let want :=
    if (v ≠ 0 ∧ sgn v ≠ sgn r) ∨ r = 0 then -sgn v * lim s
    else if top < s then -sgn v * lim (s - top)
    else if absI r ≤ dStopFrom s along d1 j + s / fps then -sgn v * lim s
    else if s + acc * acc / (2 * j * uStep) < top then sgn r * (a1 * uStep)
    else 0
  let step := perFrame j
  acc + clampI (-step) step (want - acc)

/-- Advances p and φ by the mean of the old and the new speed over one frame (R553, R557). -/
def AxisSt.advance (x : AxisSt) (v' : Int) : AxisSt :=
  let d := divRound (x.v + v') (2 * fps)
  { x with v := v', p := x.p + d, phi := x.phi + d }

/-- The remaining distance to the target. -/
def AxisSt.rem (x : AxisSt) : Int := x.target * uStep - x.p

/-- The move arrives (R557). -/
def AxisSt.arrived (x : AxisSt) : Bool := absI x.rem ≤ uStep && absI x.v ≤ uStep * fps

/-- p is set to the target, v and a to 0 (R557). -/
def AxisSt.land (x : AxisSt) : AxisSt := { x with phi := x.phi + x.rem, p := x.target * uStep, v := 0, acc := 0 }

/-- One frame of the profile towards the target, with the limits in force. -/
def Chip.axProfile (c : Chip) (a : Axis) : Chip :=
  let x := c.ax a
  let g := c.axProf a
  let vmax := g Reg.AXIS.VMAX_VMAX
  let a1 := 4 * g Reg.AXIS.A1_A1
  let d1 := 4 * g Reg.AXIS.D1_D1
  if x.kind = 0 then
    let v' := trapStep x.v x.rem vmax (g Reg.AXIS.V1_V1) a1 (4 * g Reg.AXIS.A2_A2) d1 (4 * g Reg.AXIS.D2_D2)
    c.modAx a fun x => x.advance v'
  else
    let acc := sAcc x.v x.acc x.rem vmax a1 d1 (1024 * g Reg.AXIS.JERK_JERK)
    c.modAx a fun x => { x with acc := acc }.advance (x.v + divRound acc fps)

/-! ## Current modes (R555, R556) -/

/-- The mode the axis should be in: 1 strong. -/
def Chip.axWantStrong (c : Chip) (a : Axis) : Bool :=
  let p : Page := .axis a
  let strong := c.flag p Reg.AXIS.AX_STAT_STRONG
  if c.axState a = 5 then false
  else
    match c.rd p Reg.AXIS.AXIS_CFG_MODE_SEL with
    | 1 => false
    | 2 => true
    | _ =>
      let s := absI (c.ax a).v
      let up : Int := 16 * (c.rd p Reg.AXIS.V_MODE_V_STRONG : Nat) * uStep
      let dn : Int := 16 * (min (c.rd p Reg.AXIS.V_MODE_V_QUIET) (c.rd p Reg.AXIS.V_MODE_V_STRONG) : Nat) * uStep
      if strong then !(s ≤ dn) else up ≤ s

/-- Asks for a change of mode, or forgets one no longer wanted; HOMING is in quiet mode at once (R556). -/
def Chip.axMode (c : Chip) (a : Axis) : Chip :=
  let want := c.axWantStrong a
  if want = c.flag (.axis a) Reg.AXIS.AX_STAT_STRONG then c.modAx a fun x => { x with modeWait := none }
  else c.modAx a fun x => { x with modeWait := some (x.modeWait.getD (x.phi / (256 * uStep))) }

/-- I_m in mA (R555). -/
def Chip.axCurrent (c : Chip) (a : Axis) : Nat :=
  let p : Page := .axis a
  let x := c.ax a
  let hold := if x.holdLow then c.rd p Reg.AXIS.CUR_B_I_HOLD_MA else c.rd p Reg.AXIS.CUR_A_I_QUIET_MA
  let run := if c.flag p Reg.AXIS.AX_STAT_STRONG then c.rd p Reg.AXIS.CUR_A_I_STRONG_MA else c.rd p Reg.AXIS.CUR_A_I_QUIET_MA
  match c.axState a with
  | 2 => hold
  | 3 => run
  | 4 => if x.v = 0 then hold else run
  | 5 => c.rd p Reg.AXIS.CUR_B_I_HOME_MA
  | 6 => run
  | _ => 0

/-- The axis is energised (R566). -/
def Chip.axEnergised (c : Chip) (a : Axis) : Bool := c.axCurrent a != 0

/-! ## Limits (R574) -/

/-- The axis moves towards the end `hi`: v points there, or at standstill the target lies beyond p there (R574). -/
def Chip.axTowards (c : Chip) (a : Axis) (hi : Bool) : Bool :=
  let x := c.ax a
  let st := c.axState a
  if !(st = 3 || st = 4 || st = 5 || st = 6) then false
  else if x.v ≠ 0 then (if hi then 0 < x.v else x.v < 0)
  else if st = 3 ∨ st = 4 then (if hi then x.p < x.target * uStep else x.target * uStep < x.p)
  else false

/-- Homing fails (R572): HOME_FAIL with detail `d`, RESULT 0x4, stop request of cause `cause`. -/
def Chip.axHomeFail (c : Chip) (a : Axis) (cause d : Nat) : Chip :=
  (c.fault (.axis a) 1 3 1 d (Page.axis a).num).axStop a cause 4

/-- An active limit at the end towards which the axis moves stops it (R572, R574); LIMIT_HIT is sent once each time the
condition begins (DEDUCED, log 20). -/
def Chip.axLimitCheck (c : Chip) (a : Axis) : Chip :=
  let hit := (c.axLimit a true && c.axTowards a true) || (c.axLimit a false && c.axTowards a false)
  if !hit then c.modAx a fun x => { x with limSeen := false }
  else if (c.ax a).limSeen then c
  else
    let c := c.modAx a fun x => { x with limSeen := true }
    let c := (c.fault0 (.axis a) 1 2 0).inc (.axis a) Reg.AXIS.EVENTS_LIM_STOPS
    if c.axState a = 5 then c.axHomeFail a 3 1 else c.axStop a 3 5

/-- An active or faulty limit at the end opposite to the homing end fails homing (R572). -/
def Chip.axHomeOpposite (c : Chip) (a : Axis) : Chip :=
  let dir := c.flag (.axis a) Reg.AXIS.HOME_CFG_HOME_DIR
  if c.axState a = 5 && c.axLimit a (!dir) then c.axHomeFail a 3 1 else c

/-! ## Stall (R566) -/

/-- Frames beyond the window in succession after this frame. -/
def Chip.axStreak (c : Chip) (a : Axis) (win : Nat) : Nat :=
  if (win : Int) < absI (c.axE a) then (c.ax a).streak + 1 else 0

/-- A stall outside HOMING (R566): STALL, its count, a stop request of cause 0x4 and a resynchronisation of p when the
ramp has ended; at standstill in HOLD the ramp has no length. -/
def Chip.axStall (c : Chip) (a : Axis) : Chip :=
  let c := (c.fault0 (.axis a) 1 1 0).inc (.axis a) Reg.AXIS.EVENTS_STALLS
  let c := c.modAx a fun x => { x with resync := true, streak := 0 }
  if c.axState a = 5 then c.axHomeFail a 4 4
  else if c.axState a = 2 then
    (c.put (.axis a) Reg.AXIS.AX_STAT_STOP_CAUSE 4).axRampEnd a
  else c.axStop a 4 5

/-- The stall check of a frame outside the travel of homing. -/
def Chip.axStallCheck (c : Chip) (a : Axis) : Chip :=
  let n := c.axStreak a (c.rd (.axis a) Reg.AXIS.STALL_CFG_STALL_WIN)
  let c := c.modAx a fun x => { x with streak := n }
  if c.axEnergised a && atLeast1 (c.rd (.axis a) Reg.AXIS.STALL_CFG_STALL_N) ≤ n then c.axStall a else c

/-! ## One servo frame -/

/-- The stop ramp's frame: linear deceleration at DSTOP (R576). -/
def Chip.axRamp (c : Chip) (a : Axis) : Chip :=
  let x := c.ax a
  let dec := perFrame (4 * c.axProf a Reg.AXIS.DSTOP_DSTOP)
  let v' := sgn x.v * max 0 (absI x.v - dec)
  let c := c.modAx a fun x => x.advance v'
  if v' = 0 then c.axRampEnd a else c

/-- Frame of the travel of homing (R571 steps 1 to 3, R572): acceleration A1 to V_HOME × 16; the stall position ends it. -/
def Chip.axHomeTravel (c : Chip) (a : Axis) : Chip :=
  let p : Page := .axis a
  let x := c.ax a
  let dir : Int := if c.flag p Reg.AXIS.HOME_CFG_HOME_DIR then 1 else -1
  let top : Int := 16 * (atLeast1 (c.rd p Reg.AXIS.HOME_CFG_V_HOME) : Nat) * uStep
  let v' := dir * min top (absI x.v + perFrame (4 * c.axProf a Reg.AXIS.A1_A1))
  let c := c.modAx a fun y => { y.advance v' with homeFrom := if absI y.v < top then (y.advance v').p else y.homeFrom }
  let n := c.axStreak a (c.rd p Reg.AXIS.STALL_CFG_HOME_WIN)
  let c := c.modAx a fun x => { x with streak := n }
  if atLeast1 (c.rd p Reg.AXIS.STALL_CFG_STALL_N) ≤ n then
    (c.axStill a).modAx a fun x => { x with homeStep := 3, stallAt := c.now, streak := 0 }
  else if ((c.rd p Reg.AXIS.HOME_DIST_MAXDIST : Nat) : Int) * uStep ≤ absI ((c.ax a).p - (c.ax a).homeFrom) then
    c.axHomeFail a 1 2
  else c

/-- Frame of the back-off of homing (R571 steps 5 and 6). -/
def Chip.axBackOff (c : Chip) (a : Axis) : Chip :=
  let p : Page := .axis a
  let x := c.ax a
  let top : Int := 16 * ((atLeast1 (c.rd p Reg.AXIS.HOME_CFG_V_HOME) : Nat) : Int)
  let a1 := 4 * c.axProf a Reg.AXIS.A1_A1
  let d1 := 4 * c.axProf a Reg.AXIS.D1_D1
  let v' := trapStep x.v x.rem top top a1 a1 d1 d1
  let c := c.modAx a fun x => x.advance v'
  if (c.ax a).arrived then
    let c := (c.modAx a fun x => { x.land with homeStep := 0, idxKnown := false }).axStill a
    let c := (c.put p Reg.AXIS.AX_STAT_HOMED 1).put p Reg.AXIS.AX_STAT_POS_UNCERTAIN 0
    ((c.axEnter a 2).axResult a 1).axTakeCfg a
  else c.axStallCheck a

/-- The generator's frame (R557, R561, R566, R571, R574, R576). -/
def Chip.axFrame (c : Chip) (a : Axis) : Chip :=
  let c := match (c.ax a).targetIn with
    | some t =>
      let c := c.modAx a fun x => { x with targetIn := none, noTarget := 0 }
      if c.axState a = 4 && !c.flag (.axis a) Reg.HDR.PAGE_CTL_QUIESCE then c.axTarget a t else c
    | none => c.modAx a fun x => { x with noTarget := if c.axState a = 4 then x.noTarget + 1 else 0 }
  let c := match c.axState a with
    | 3 =>
      let c := (c.axProfile a).axLimitCheck a
      if c.axState a = 3 then
        if (c.ax a).arrived then
          ((((c.modAx a AxisSt.land).axStill a).axEnter a 2).axResult a 1).axTakeCfg a
        else c.axStallCheck a
      else c.axStallCheck a
    | 4 =>
      let moving := (c.ax a).v != 0
      let c := (c.axProfile a).axLimitCheck a
      if c.axState a = 4 then
        let c := if (c.ax a).arrived then
            let c := c.modAx a AxisSt.land
            let c := if moving then c.axStill a else c
            if c.flag (.axis a) Reg.HDR.PAGE_CTL_QUIESCE then (c.axEnter a 2).axTakeCfg a else c
          else c
        c.axStallCheck a
      else c.axStallCheck a
    | 5 =>
      let c := match (c.ax a).homeStep with
        | 2 => c.axHomeTravel a
        | 5 => c.axBackOff a
        | _ => c
      c.axHomeOpposite a
    | 6 => (c.axRamp a).axStallCheck a
    | 2 => c.axStallCheck a
    | _ => c
  c.axMode a

/-- R557: the generator updates once per servo frame. -/
def execAxisFrameUpdate (a : Axis) (s : State) : Out :=
  s.to fun c =>
    if (c.ax a).genFrame = some c.frameNum.toNat then c
    else (c.modAx a fun x => { x with genFrame := some c.frameNum.toNat }).axFrame a

/-! ## Commands (R568) -/

/-- A target lies towards an active or faulty limit (R568, MOVE). -/
def Chip.axBlocked (c : Chip) (a : Axis) (t : Int) : Bool :=
  let x := c.ax a
  (x.p < t * uStep && c.axLimit a true) || (t * uStep < x.p && c.axLimit a false)

/-- The states in which a command is accepted (R568). -/
def axAccepts (cmd st : Nat) : Bool :=
  match cmd with
  | 1 => st = 1 || st = 2
  | 2 => st = 1 || st = 2 || st = 3 || st = 4
  | 3 => st = 1 || st = 2 || st = 3
  | 4 => st = 5 || st = 3 || st = 4 || st = 1 || st = 2 || st = 6
  | 5 => st = 1
  | 6 => st = 2 || st = 1
  | 7 => st = 7
  | _ => false

/-- The RESULT with which a command is turned away, none where it is accepted. Judged in the order reserved code, quench,
quiesce, state, precondition (DEDUCED, log 21; R568, R579); `t` is the target before the bounds that a limit stop leaves (DEDUCED,
log 127). -/
def Chip.axJudge (c : Chip) (a : Axis) (cmd : Nat) (t : Int) : Option Nat :=
  let p : Page := .axis a
  let homed := c.flag p Reg.AXIS.AX_STAT_HOMED
  if 8 ≤ cmd then some 3
  else if bit (c.rd .fault Reg.FAULT.QUENCH_AXIS_AXES) a.val ∧ cmd ≠ 4 ∧ cmd ≠ 6 then some 3
  else if c.rd p Reg.HDR.PAGE_STAT_STATE = 3 ∧ cmd ≠ 4 ∧ cmd ≠ 6 then some 2
  else if !axAccepts cmd (c.axState a) then some 2
  else if cmd = 2 ∧ (!homed ∨ c.axBlocked a t) then some 3
  else if cmd = 3 ∧ !homed then some 3
  else if cmd = 7 ∧ bit c.pins.brgFaultLow a.val then some 3
  else none

/-- A command other than STOP starts: STOP_CAUSE returns to 0 (R576); a MOVE in progress is superseded (R568). -/
def Chip.axStart (c : Chip) (a : Axis) (cmd : Nat) : Chip :=
  let c := if c.axState a = 3 then c.axResult a 7 else c
  (c.modAx a fun x => { x with cmd := cmd }).put (.axis a) Reg.AXIS.AX_STAT_STOP_CAUSE 0

/-- HOME accepted (R571 step 1). -/
def Chip.axHomeStart (c : Chip) (a : Axis) : Chip :=
  let p : Page := .axis a
  let c := ((c.axStart a 1).axEnter a 5).axUnhome a
  let scale := atLeast1 (c.rd p Reg.AXIS.ENC_CFG_ENC_SCALE)
  (c.modAx a fun x => { x with
    homeStep := 2, homeFrom := x.p, streak := 0, encOfs := x.enc - encOfPos x.p scale, idxKnown := false, modeWait := none
    boundLo := none, boundHi := none }).put p Reg.AXIS.AX_STAT_STRONG 0

/-- MOVE accepted: towards AX_TARGET from the next frame (R560, R561). -/
def Chip.axMoveStart (c : Chip) (a : Axis) : Chip :=
  ((c.axStart a 2).axEnter a 3).axTarget a (c.rdS (.axis a) Reg.AXIS.AX_TARGET_POS)

/-- FOLLOW accepted: the target stays where the axis stands, or at the target of the MOVE it supersedes, until an engine's
target word arrives; it ends at once with 0x1 (R568, R569). -/
def Chip.axFollowStart (c : Chip) (a : Axis) : Chip :=
  let moving := c.axState a == 3
  let c := ((c.axStart a 3).axEnter a 4).modAx a fun x =>
    { x with noTarget := 0, targetIn := none, target := if moving then x.target else x.pos }
  c.axResult a 1

/-- STOP accepted (R568, R576): ends at standstill, or at once when nothing moves. -/
def Chip.axStopCmd (c : Chip) (a : Axis) : Chip :=
  let st := c.axState a
  if st = 1 ∨ st = 2 then c.axResult a 1
  else
    let c := c.axStop a 1 5
    c.modAx a fun x => { x with cmd := 4 }

/-- HOLD accepted (R568): energised at standstill. -/
def Chip.axHoldCmd (c : Chip) (a : Axis) : Chip := (((c.axStart a 5).axEnter a 2).axStill a).axResult a 1

/-- RELEASE accepted (R568). -/
def Chip.axReleaseCmd (c : Chip) (a : Axis) : Chip := ((c.axStart a 6).axEnter a 1).axResult a 1

/-- CLEAR accepted (R568): IDLE, and p resynchronised as after a stall. -/
def Chip.axClearCmd (c : Chip) (a : Axis) : Chip :=
  (((((c.axStart a 7).axResync a).axStill a).axEnter a 1).axResult a 1).axTakeCfg a

/-- A command applied by a commit (R568). -/
def Chip.axCommand (c : Chip) (a : Axis) (cmd : Nat) : Chip :=
  if cmd = 0 then c
  else
    let t := c.axSoftTarget a (c.rdS (.axis a) Reg.AXIS.AX_TARGET_POS)
    match c.axJudge a cmd t with
    | some r => (c.put (.axis a) Reg.AXIS.AX_STAT_RESULT r).event (.axis a) 1
    | none =>
      match cmd with
      | 1 => c.axHomeStart a
      | 2 => c.axMoveStart a
      | 3 => c.axFollowStart a
      | 4 => c.axStopCmd a
      | 5 => c.axHoldCmd a
      | 6 => c.axReleaseCmd a
      | _ => c.axClearCmd a

/-- The CMD the commit brought, as the page then reads (R568, R582). -/
def Chip.axCmdIs (c : Chip) (a : Axis) (cmd : Nat) : Chip :=
  (c.put (.axis a) Reg.AXIS.AX_CMD_CMD cmd).putSh (.axis a) Reg.AXIS.AX_CMD_CMD cmd

/-- R571: HOME applied by a commit. -/
def execAxisHome (a : Axis) (s : State) : Out := s.to fun c => (c.axCmdIs a 1).axCommand a 1
/-- R558, R560, R568: MOVE to AX_TARGET applied by a commit. -/
def execAxisMove (a : Axis) (s : State) : Out := s.to fun c => (c.axCmdIs a 2).axCommand a 2
/-- R569: FOLLOW applied by a commit. -/
def execAxisFollow (a : Axis) (s : State) : Out := s.to fun c => (c.axCmdIs a 3).axCommand a 3
/-- R576: STOP applied by a commit. -/
def execAxisStop (a : Axis) (s : State) : Out := s.to fun c => (c.axCmdIs a 4).axCommand a 4
/-- R568: HOLD applied by a commit. -/
def execAxisHold (a : Axis) (s : State) : Out := s.to fun c => (c.axCmdIs a 5).axCommand a 5
/-- R568: RELEASE applied by a commit. -/
def execAxisRelease (a : Axis) (s : State) : Out := s.to fun c => (c.axCmdIs a 6).axCommand a 6
/-- R568: CLEAR applied by a commit. -/
def execAxisClear (a : Axis) (s : State) : Out := s.to fun c => (c.axCmdIs a 7).axCommand a 7
/-- R568: a command that is turned away ends with RESULT 0x2 or 0x3; one that would be accepted is left to its own row. -/
def execAxisCommandReject (a : Axis) (cmd : Fin 16) (s : State) : Out :=
  s.to fun c =>
    let c := c.axCmdIs a cmd.val
    match c.axJudge a cmd.val (c.axSoftTarget a (c.rdS (.axis a) Reg.AXIS.AX_TARGET_POS)) with
    | some r => if cmd.val = 0 then c else (c.put (.axis a) Reg.AXIS.AX_STAT_RESULT r).event (.axis a) 1
    | none => c

/-! ## Homing (R571) -/

/-- R571 steps 4 and 5: SETTLE_MS after the stall position. -/
def Chip.axHomeSettle (c : Chip) (a : Axis) : Chip :=
  let p : Page := .axis a
  if c.axState a = 5 ∧ (c.ax a).homeStep = 3 then
    let c := c.until' ((c.ax a).stallAt + ms (c.rd p Reg.AXIS.HOME_CFG_SETTLE_MS))
    let scale := atLeast1 (c.rd p Reg.AXIS.ENC_CFG_ENC_SCALE)
    let stop := c.rdS p Reg.AXIS.HOME_STOP_POS_POS
    let away : Int := if c.flag p Reg.AXIS.HOME_CFG_HOME_DIR then -1 else 1
    let enc := (c.ax a).enc
    let c := c.putS p Reg.AXIS.HOME_COUNT_COUNT enc
    c.modAx a fun x => { x with
      p := stop * uStep, encOfs := enc - encOfPos (stop * uStep) scale, homeStep := 5, streak := 0
      target := stop + away * (c.rd p Reg.AXIS.HOME_BACKOFF_BACKOFF : Nat) }
  else c

/-- R571. -/
def execHomeSettle (a : Axis) (s : State) : Out := s.to fun c => c.axHomeSettle a

/-! ## Encoder (R562 to R565) -/

/-- SPEED from the newest edges (R564), in counts/s. -/
def edgeSpeed (edges : List Nat) (up : Bool) : Int :=
  match edges.head?, edges.getLast? with
  | some t1, some t0 =>
    let v : Int := divRound (((edges.length : Nat) - 1 : Int) * 100000000) ((t1 - t0 : Nat) : Int)
    if up then v else -v
  | _, _ => 0

/-- A counted edge at `t` in direction `up` (R564). -/
def AxisSt.edge (x : AxisSt) (t : Nat) (up : Bool) : AxisSt :=
  if x.lastUp = up ∧ 1 ≤ x.edgeRun then
    { x with edges := (t :: x.edges).take 5, edgeRun := 2 }
  else { x with edges := [t], edgeRun := 1, lastUp := up }

/-- SPEED and VALID after an edge (R564). -/
def Chip.axSpeed (c : Chip) (a : Axis) : Chip :=
  let x := c.ax a
  let p : Page := .axis a
  if x.edgeRun = 2 then
    (c.putS p Reg.AXIS.SPEED_COUNTS_S (satI 24 (edgeSpeed x.edges x.lastUp))).put p Reg.AXIS.SPEED_VALID 1
  else (c.put p Reg.AXIS.SPEED_COUNTS_S 0).put p Reg.AXIS.SPEED_VALID 0

/-- Accepted new levels of A and B (R562, R563): one count, or a skip when both changed. A leads B counts up. -/
def Chip.axEncoder (c : Chip) (a : Axis) (A B : Bool) : Chip :=
  let x := c.ax a
  let p : Page := .axis a
  let chA := x.encA != A
  let chB := x.encB != B
  let c := c.modAx a fun x => { x with encA := A, encB := B }
  if chA && chB then
    let c := (c.inc p Reg.AXIS.INDEX_STAT_SKIPS).put p Reg.AXIS.AX_STAT_POS_UNCERTAIN 1
    c.fault p 2 1 0 (b2n x.lastUp) p.num
  else if chA || chB then
    let fwd := if chA then A != B else A == B
    let up := fwd != c.flag p Reg.AXIS.ENC_CFG_ENC_DIR
    (c.modAx a fun x => { x with enc := x.enc + (if up then 1 else -1) }.edge c.now up).axSpeed a
  else c

/-- A level held for `n` successive samples is accepted (R562). -/
def Chip.encAccepts (c : Chip) (a : Axis) (n : Nat) : Bool := decide (c.rd (.axis a) Reg.AXIS.ENC_CFG_GLITCH + 1 ≤ n)

/-- R562, R563: levels of A and B that have held for `n` successive samples. -/
def execEncoderEdge (a : Axis) (A B : Bool) (n : Nat) (s : State) : Out :=
  s.to fun c => if c.encAccepts a n then c.axEncoder a A B else c

/-- R564: no edge for SPEED_TIMEOUT_MS: SPEED 0, valid. -/
def execEncoderSpeedTimeout (a : Axis) (s : State) : Out :=
  s.to fun c =>
    let t := match (c.ax a).edges.head? with | some t => t | none => 0
    let c := c.until' (t + ms (atLeast1 (c.rd (.axis a) Reg.AXIS.ENC_CPR_SPEED_TIMEOUT_MS)))
    ((c.modAx a fun x => { x with edges := [], edgeRun := 0 }).put (.axis a) Reg.AXIS.SPEED_COUNTS_S 0).put
      (.axis a) Reg.AXIS.SPEED_VALID 1

/-- The nearest expected count to `n` on the grid `ref + k × cpr`, and n's distance from it (R565). -/
def indexDev (n ref : Int) (cpr : Nat) : Int := n - (ref + divRound (n - ref) cpr * cpr)

/-- An index event (R565). -/
def Chip.axIndex (c : Chip) (a : Axis) : Chip :=
  let p : Page := .axis a
  let x := c.ax a
  if !c.flag p Reg.AXIS.ENC_CFG_INDEX_EN || c.axState a = 5 then c
  else
    let c := c.put p Reg.AXIS.AX_STAT_POS_UNCERTAIN 0
    if !c.flag p Reg.AXIS.AX_STAT_HOMED then c
    else if !x.idxKnown then
      (c.modAx a fun x => { x with idxKnown := true }).putS p Reg.AXIS.INDEX_REF_COUNT x.enc
    else
      let d := indexDev x.enc (c.rdS p Reg.AXIS.INDEX_REF_COUNT) (atLeast1 (c.rd p Reg.AXIS.ENC_CPR_CPR))
      if d = 0 then c
      else
        let c := c.putS p Reg.AXIS.INDEX_STAT_LAST_D (clampI (-127) 127 d)
        if d.natAbs ≤ 2 then
          let c := (c.modAx a fun x => { x with enc := x.enc - d }).inc p Reg.AXIS.INDEX_STAT_MINOR
          c.fault p 3 1 0 (toBits 10 d) p.num
        else
          let c := (c.axUnhome a).inc p Reg.AXIS.INDEX_STAT_MAJOR
          (c.fault0 p 3 2 1).axStop a 7 5

/-- R562, R565: ENC_I has risen and held for `n` successive samples. -/
def execIndexEvent (a : Axis) (n : Nat) (s : State) : Out := s.to fun c => if c.encAccepts a n then c.axIndex a else c

/-! ## Limits (R573 to R575) -/

/-- A debounced level of the low or high limit input is accepted (R573); `level` is the pin's level, 1 high. A limit that
is no longer active lifts its bound (R561). -/
def Chip.axLimitAccept (c : Chip) (a : Axis) (hi level : Bool) : Chip :=
  let p : Page := .axis a
  let act := level == c.flag p Reg.AXIS.LIMIT_CFG_LIM_POL
  let deb := clampN 1 100 (c.rd p Reg.AXIS.LIMIT_CFG_DEBOUNCE) * us 100
  let c := if hi then
      (c.putB p Reg.AXIS.AX_STAT_LIM_HI act).modAx a fun x => { x with hiChange := c.now - deb }
    else (c.putB p Reg.AXIS.AX_STAT_LIM_LO act).modAx a fun x => { x with loChange := c.now - deb }
  let c := if act then c
    else if hi then c.modAx a fun x => { x with boundHi := none } else c.modAx a fun x => { x with boundLo := none }
  (c.axLimitCheck a).axHomeOpposite a

/-- R573. -/
def execLimitAccept (a : Axis) (hi level : Bool) (s : State) : Out := s.to fun c => c.axLimitAccept a hi level

/-- Changes of a raw limit level in the window of CHATTER_WIN_MS that runs, after `n` more (R575). -/
def AxisSt.chatter (v : Nat × Nat) (win n : Nat) : Nat × Nat := if v.1 = win then (win, v.2 + n) else (win, n)

/-- An input whose raw level has changed `n` times since its last such row (R575). -/
def Chip.axChatter (c : Chip) (a : Axis) (hi : Bool) (n : Nat) : Chip :=
  let p : Page := .axis a
  let f := if hi then Reg.AXIS.AX_STAT_HI_FAULTY else Reg.AXIS.AX_STAT_LO_FAULTY
  let win := (c.now - (c.ax a).onAt) / ms (atLeast1 (c.rd p Reg.AXIS.LIMIT_CFG_CHATTER_WIN_MS))
  let v := AxisSt.chatter (if hi then (c.ax a).chatHi else (c.ax a).chatLo) win n
  let c := if n = 0 then c
    else if hi then c.modAx a fun x => { x with hiChange := c.now, chatHi := v }
    else c.modAx a fun x => { x with loChange := c.now, chatLo := v }
  if v.2 ≤ atLeast1 (c.rd p Reg.AXIS.LIMIT_CFG_CHATTER_K) ∨ c.flag p f then c
  else
    let masked := c.axState a == 5 && c.flag p Reg.AXIS.HOME_CFG_HOME_DIR == hi
    let c := ((c.put p f 1).fault0 p 4 1 1).inc p Reg.AXIS.EVENTS_CHATTER
    if masked then c.axHomeFail a 5 3
    else if c.axState a = 5 then c.axHomeFail a 3 1
    else c.axStop a 5 5

/-- R575: `n` changes of the raw level. -/
def execLimitChatter (a : Axis) (hi : Bool) (n : Nat) (s : State) : Out := s.to fun c => c.axChatter a hi n

/-- LIMIT_CLR (R575): clears a declaration when the raw level has not changed for 1 s. -/
def Chip.axLimitClr (c : Chip) (a : Axis) (hi : Bool) : Chip :=
  let x := c.ax a
  let t := if hi then x.hiChange else x.loChange
  if c.now < t + secs 1 then c
  else c.put (.axis a) (if hi then Reg.AXIS.AX_STAT_HI_FAULTY else Reg.AXIS.AX_STAT_LO_FAULTY) 0

/-- R575. -/
def execLimitClear (r : Requester) (a : Axis) (hi : Bool) (s : State) : Out :=
  s.to fun c => c.write r (.axis a) fun c => c.axLimitClr a hi

/-! ## Target loss, quench, power stage -/

/-- R570: 400 frames in FOLLOW without a target word. -/
def execTargetLost (a : Axis) (s : State) : Out :=
  s.to fun c =>
    if c.axState a = 4 ∧ 400 ≤ (c.ax a).noTarget then
      ((c.fault0 (.axis a) 1 4 1).inc (.axis a) Reg.AXIS.EVENTS_TARGET_LOST).axStop a 6 5
    else c

/-- The quench line of the axis rises (R577). -/
def Chip.axQuench (c : Chip) (a : Axis) : Chip :=
  let c := if c.flag (.axis a) Reg.AXIS.AX_STAT_POS_UNCERTAIN then c.axUnhome a else c
  c.axStop a 2 5

/-- BRG_FAULT_N recognised low (R578). -/
def Chip.axBrgFault (c : Chip) (a : Axis) : Chip :=
  let p : Page := .axis a
  let busy := (c.ax a).cmd != 0 || c.axState a == 5
  let c := { c with pins := { c.pins with brgFaultLow := setBit c.pins.brgFaultLow a.val true } }
  let c := (c.put p Reg.AXIS.AX_STAT_BRG_FAULT 1).fault0 p 0 1 2
  let c := if busy then c.axResult a 6 else c
  let c := c.modAx a fun x => { x with v := 0, acc := 0, homeStep := 0, cmd := 0, dutyA := 0, dutyB := 0 }
  let c := if c.flag p Reg.AXIS.AX_STAT_POS_UNCERTAIN then c.axUnhome a else c
  c.axEnter a 7

/-- R578. `high` says that the input has returned high, which ends AX_STAT.BRG_FAULT and permits CLEAR. -/
def execBrgFault (a : Axis) (high : Bool) (s : State) : Out :=
  s.to fun c =>
    if high then
      { c with pins := { c.pins with brgFaultLow := setBit c.pins.brgFaultLow a.val false } }.put
        (.axis a) Reg.AXIS.AX_STAT_BRG_FAULT 0
    else c.axBrgFault a

/-- PAGE_CTL.EN of an axis page changes (R567, R579). -/
def Chip.axEnable (c : Chip) (a : Axis) (en : Bool) : Chip :=
  let st := c.axState a
  if en then
    let c := c.modAx a fun x => { x with onAt := c.now, chatLo := (0, 0), chatHi := (0, 0) }
    if st = 0 then (c.axEnter a 1).axTakeCfg a else c
  else if axMoving st then
    if st = 6 then c.modAx a fun x => { x with toOff := true }
    else (c.axStop a 9 5).modAx a fun x => { x with toOff := true }
  else c.axEnter a 0

/-! ## Coil drive (R552, R554, R555) -/

/-- Quarter-wave table of round(32,767 × sin(2π j / 1,024)) for j = 0 to 256. -/
def sineStep : List Nat :=
  [0, 201, 402, 603, 804, 1005, 1206, 1407, 1608, 1809, 2009, 2210, 2410, 2611, 2811, 3012, 3212, 3412, 3612, 3811, 4011, 4210, 4410, 4609, 4808, 5007, 5205, 5404, 5602, 5800, 5998, 6195, 6393, 6590, 6786, 6983, 7179, 7375, 7571, 7767] ++
  [7962, 8157, 8351, 8545, 8739, 8933, 9126, 9319, 9512, 9704, 9896, 10087, 10278, 10469, 10659, 10849, 11039, 11228, 11417, 11605, 11793, 11980, 12167, 12353, 12539, 12725, 12910, 13094, 13279, 13462, 13645, 13828, 14010, 14191, 14372, 14553, 14732, 14912, 15090, 15269] ++
  [15446, 15623, 15800, 15976, 16151, 16325, 16499, 16673, 16846, 17018, 17189, 17360, 17530, 17700, 17869, 18037, 18204, 18371, 18537, 18703, 18868, 19032, 19195, 19357, 19519, 19680, 19841, 20000, 20159, 20317, 20475, 20631, 20787, 20942, 21096, 21250, 21403, 21554, 21705, 21856] ++
  [22005, 22154, 22301, 22448, 22594, 22739, 22884, 23027, 23170, 23311, 23452, 23592, 23731, 23870, 24007, 24143, 24279, 24413, 24547, 24680, 24811, 24942, 25072, 25201, 25329, 25456, 25582, 25708, 25832, 25955, 26077, 26198, 26319, 26438, 26556, 26674, 26790, 26905, 27019, 27133] ++
  [27245, 27356, 27466, 27575, 27683, 27790, 27896, 28001, 28105, 28208, 28310, 28411, 28510, 28609, 28706, 28803, 28898, 28992, 29085, 29177, 29268, 29358, 29447, 29534, 29621, 29706, 29791, 29874, 29956, 30037, 30117, 30195, 30273, 30349, 30424, 30498, 30571, 30643, 30714, 30783] ++
  [30852, 30919, 30985, 31050, 31113, 31176, 31237, 31297, 31356, 31414, 31470, 31526, 31580, 31633, 31685, 31736, 31785, 31833, 31880, 31926, 31971, 32014, 32057, 32098, 32137, 32176, 32213, 32250, 32285, 32318, 32351, 32382, 32412, 32441, 32469, 32495, 32521, 32545, 32567, 32589] ++
  [32609, 32628, 32646, 32663, 32678, 32692, 32705, 32717, 32728, 32737, 32745, 32752, 32757, 32761, 32765, 32766, 32767]

/-- sin of 2π k / 1,024 in Q1.15. -/
def sin1024 (k : Nat) : Int :=
  let j := k % 1024
  let q := fun (i : Nat) => ((sineStep.getD i 0 : Nat) : Int)
  if j ≤ 256 then q j else if j ≤ 512 then q (512 - j) else if j ≤ 768 then -q (j - 512) else -q (1024 - j)

/-- One coil's duty and integrator in 2^-28 (R554): a PI loop on (|I*| − |i|) / ISNS_FS_MA, clamped from 0 to `top`. -/
def coilLoop (want i : Int) (fs kp ki : Nat) (integ : Int) (top : Int) : Nat × Int :=
  let e := divRound ((absI want - absI i) * 65536) (max 1 fs : Nat)
  let integ := clampI 0 top (integ + ki * e / 16)
  ((clampI 0 top (kp * e + integ)).toNat, integ)

/-- The current demands of the coils in mA (R552). -/
def Chip.axDemands (c : Chip) (a : Axis) : Int × Int :=
  let x := c.ax a
  let im : Int := (c.axCurrent a : Nat)
  let th := ((x.phi / uStep) % 1024).toNat
  (im * sin1024 (th + 256) / 32767, (if x.dir = 1 then -1 else 1) * (im * sin1024 th / 32767))

/-- One chopper period of the axis (R552 to R556, R580): the currents `iA` and `iB` in mA are those converted in it; `late`
says that its duties were not ready 200 ns before it. -/
def Chip.axChopper (c : Chip) (a : Axis) (iA iB : Int) (late : Bool) : Chip :=
  let p : Page := .axis a
  let c := match (c.ax a).modeWait with
    | some m =>
      if (c.ax a).phi / (256 * uStep) ≠ m ∨ (c.ax a).phi % (256 * uStep) = 0 then
        (c.putB p Reg.AXIS.AX_STAT_STRONG (c.axWantStrong a)).modAx a fun x => { x with modeWait := none }
      else c
    | none => c
  let c := (c.putS p Reg.AXIS.CUR_STAT_IA_MA (satI 16 iA)).putS p Reg.AXIS.CUR_STAT_IB_MA (satI 16 iB)
  let c := c.modAx a fun x => { x with iA := iA, iB := iB }
  if late then (c.dlMiss p).fault p 5 1 0 (c.axState a) p.num
  else
    let x := c.ax a
    let im : Int := (c.axCurrent a : Nat)
    let (wA, wB) := c.axDemands a
    let top : Int := 2 ^ 28 - (12 * 2 ^ 28) / (25 * (x.chop : Nat))
    let fs := c.rd p Reg.AXIS.ISCALE_ISNS_FS_MA
    let kp := c.rd p Reg.AXIS.CLOOP_KP
    let ki := c.rd p Reg.AXIS.CLOOP_KI
    if im = 0 then c.modAx a fun x => { x with dutyA := 0, dutyB := 0, intA := 0, intB := 0 }
    else
      let ra := coilLoop wA iA fs kp ki x.intA top
      let rb := coilLoop wB iB fs kp ki x.intB top
      c.modAx a fun x => { x with dutyA := ra.1, intA := ra.2, dutyB := rb.1, intB := rb.2 }

/-- A chopper period begins now: at the start of a servo frame whose number is a multiple of CHOP_DIV, once (R552). -/
def Chip.chopDue (c : Chip) (a : Axis) : Bool :=
  c.frameNum.toNat % (c.ax a).chop == 0 && (c.ax a).chopFrame != some c.frameNum.toNat

/-- R552, R554, R580: `iA` and `iB` are the codes converted at the centre of the period. -/
def execChopperPeriod (a : Axis) (iA iB : BitVec 12) (late : Bool) (s : State) : Out :=
  s.to fun c =>
    let fs := c.rd (.axis a) Reg.AXIS.ISCALE_ISNS_FS_MA
    if !c.chopDue a then c
    else (c.modAx a fun x => { x with chopFrame := some c.frameNum.toNat }).axChopper a (c.currentMa 1 (2 * a.val) fs iA.toNat) (c.currentMa 1 (2 * a.val + 1) fs iB.toNat) late

/-- R555: HOLD_DELAY after standstill began. -/
def execHoldDelayExpiry (a : Axis) (s : State) : Out :=
  s.to fun c =>
    let x := c.ax a
    if (c.axState a = 2 ∨ c.axState a = 4) ∧ x.v = 0 then
      (c.until' (x.stillAt + ms (10 * c.rd (.axis a) Reg.AXIS.CUR_B_HOLD_DELAY))).modAx a fun x => { x with holdLow := true }
    else c

/-! ## Measurement words (R569) -/

/-- Measurement word `k` of axis `a`, raw 32 bits, with its validity. -/
def Chip.axWord (c : Chip) (a : Axis) (k : Nat) : Nat × Bool :=
  let p : Page := .axis a
  let x := c.ax a
  match k with
  | 0 => (toBits 32 x.pos, true)
  | 1 => (toBits 32 x.enc, true)
  | 2 => (toBits 32 (c.axE a), true)
  | 3 => (toBits 32 (c.rdS p Reg.AXIS.SPEED_COUNTS_S * 256), c.flag p Reg.AXIS.SPEED_VALID)
  | 4 => (toBits 32 (x.vel * 128), true)
  | 5 => (c.rd p Reg.AXIS.AX_STAT_STATE + c.rd p Reg.AXIS.AX_STAT_HOMED * 2 ^ 4
      + c.rd p Reg.AXIS.AX_STAT_POS_UNCERTAIN * 2 ^ 5 + c.rd p Reg.AXIS.AX_STAT_STRONG * 2 ^ 6
      + c.rd p Reg.AXIS.AX_STAT_LIM_LO * 2 ^ 7 + c.rd p Reg.AXIS.AX_STAT_LIM_HI * 2 ^ 8
      + c.rd p Reg.AXIS.AX_STAT_LO_FAULTY * 2 ^ 9 + c.rd p Reg.AXIS.AX_STAT_HI_FAULTY * 2 ^ 10
      + c.rd p Reg.AXIS.AX_STAT_BRG_FAULT * 2 ^ 11 + c.rd p Reg.AXIS.AX_STAT_RESULT * 2 ^ 12
      + c.rd p Reg.AXIS.AX_STAT_STOP_CAUSE * 2 ^ 16 + c.rd p Reg.AXIS.AX_STAT_SOFT_CLAMP * 2 ^ 20, true)
  | 6 =>
    let m := isqrt (x.iA * x.iA + x.iB * x.iB).natAbs
    (min (2 ^ 31 - 1) (m * 2 ^ 31 / max 1 (c.rd p Reg.AXIS.ISCALE_ISNS_FS_MA)), true)
  | _ => (if c.axState a = 4 then 2 ^ 31 - 1 else 0, true)

/-- An engine's target word for axis `a` (R569): outside FOLLOW it is ignored. -/
def Chip.axTargetWord (c : Chip) (a : Axis) (w : Nat) : Chip :=
  if c.axState a = 4 then c.modAx a fun x => { x with targetIn := some (sext 32 w) } else c

end Sys2Proof.Machine
end

