-- ==== Sys2Proof/Machine/Spindles.lean ====
section
/-!
DEFINITION. Spindle commutation: start, drive, observer, speed, braking and commands (chapter 11).
-/
namespace Sys2Proof.Machine

/-! ## Access -/

/-- Spindle `s`'s own state. -/
def Chip.sp (c : Chip) (s : Spin) : SpinSt := c.spins.get s
/-- Changes spindle `s`'s own state. -/
def Chip.modSp (c : Chip) (s : Spin) (f : SpinSt → SpinSt) : Chip := { c with spins := c.spins.set s.val (f (c.sp s)) s.isLt }

/-- SPIN_STAT.STATE (R515). -/
def Chip.spState (c : Chip) (s : Spin) : Nat := c.rd (.spin s) Reg.SPIN.SPIN_STAT_STATE

/-- SPEED in rpm × 256 (R536). -/
def Chip.spSpeed (c : Chip) (s : Spin) : Int := c.rdS (.spin s) Reg.SPIN.SPEED_RPM
/-- SPEED.VALID. -/
def Chip.spValid (c : Chip) (s : Spin) : Bool := c.flag (.spin s) Reg.SPIN.SPEED_VALID

/-- Standstill: SPEED reports 0 with VALID set (R515). -/
def Chip.spStill (c : Chip) (s : Spin) : Bool := c.spSpeed s = 0 && c.spValid s

/-- The quench line of the spindle's scope is active (X17, R809). -/
def Chip.spQuenched (c : Chip) (s : Spin) : Bool := bit (c.rd .fault Reg.FAULT.QUENCH_SPIN_SPINS) s.val

/-- TGT_RPM as it acts (R546). -/
def Chip.spTarget (c : Chip) (s : Spin) : Nat := min 6000 (c.rd (.spin s) Reg.SPIN.SPEED_TGT_TGT_RPM)

/-- The held fields take effect (R518). -/
def Chip.spTakeCfg (c : Chip) (s : Spin) : Chip :=
  let p : Page := .spin s
  c.modSp s fun x => { x with
    polePairs := atLeast1 (c.rd p Reg.SPIN.MOTOR_CFG_POLE_PAIRS), dir := c.rd p Reg.SPIN.MOTOR_CFG_DIR
    pwmDiv := clampN 4 20 (c.rd p Reg.SPIN.MOTOR_CFG_PWM_DIV), deadtime := max 10 (c.rd p Reg.SPIN.MOTOR_CFG_DEADTIME)
    rMohm := c.rd p Reg.SPIN.MOTOR_RL_R_MOHM, lUh := c.rd p Reg.SPIN.MOTOR_RL_L_UH }

/-- Enters a state: STATE_CHANGE on a change (R550), AT_SPEED falls outside RUN (R535), held fields apply in OFF and IDLE
(R518). -/
def Chip.spEnter (c : Chip) (s : Spin) (st : Nat) : Chip :=
  let p : Page := .spin s
  let c := if c.spState s = st then c else (c.put p Reg.SPIN.SPIN_STAT_STATE st).event p 0
  let c := if st = 5 then c else c.put p Reg.SPIN.SPIN_STAT_AT_SPEED 0
  let c := c.modSp s fun x => { x with since := c.now, chopOpen := false, locked := 0, lost := 0, measuring := false }
  if st = 0 ∨ st = 1 then c.spTakeCfg s else c

/-- Reports the end of a command (R516). -/
def Chip.spResult (c : Chip) (s : Spin) (r : Nat) : Chip := (c.put (.spin s) Reg.SPIN.SPIN_STAT_RESULT r).event (.spin s) 2

/-- Ends the commands in progress with RESULT `r`, where there are any. -/
def Chip.spAbort (c : Chip) (s : Spin) (r : Nat) : Chip :=
  let x := c.sp s
  let c := if (x.starting && !x.restart) || x.braking then c.spResult s r else c
  c.modSp s fun x => { x with starting := false, restart := false, braking := false, wakeAt := none }

/-- Counts an attempt (R544). -/
def Chip.spAttempt (c : Chip) (s : Spin) : Chip := c.inc (.spin s) Reg.SPIN.SPIN_STAT_ATTEMPTS

/-- The start fails (R527). -/
def Chip.spStartFail (c : Chip) (s : Spin) : Chip :=
  let p : Page := .spin s
  let n := c.rd p Reg.SPIN.SPIN_STAT_ATTEMPTS
  let c := (c.modSp s fun x => { x with starting := false, restart := false, wakeAt := none }).spEnter s 1
  (c.spResult s 4).fault p 2 1 1 n p.num

/-- DETECT begins (R519). -/
def Chip.spDetect (c : Chip) (s : Spin) : Chip := (c.spEnter s 2).modSp s fun x => { x with detFails := 0 }

/-- RAMP begins (R523). -/
def Chip.spRamp (c : Chip) (s : Spin) : Chip :=
  ((c.spEnter s 4).spAttempt s).modSp s fun x =>
    { x with thetaOl := x.theta, wOl := 0, omega := 0, edgeSeen := false, v := 0, vI := 0 }

/-- RUN begins: the slewed target starts from SPEED and the setpoint clock anew (R525, R534, R535); a start in progress
ends with 0x1 (R516). -/
def Chip.spRun (c : Chip) (s : Spin) (hold : Nat) : Chip :=
  let p : Page := .spin s
  let x := c.sp s
  let c := c.spEnter s 5
  let c := c.modSp s fun x => { x with
    holdI := hold, holdAt := c.now, setAt := c.now, starting := false, restart := false, revEdges := 0, tolOk := 0, tolBad := 0
    slewed := if c.spValid s then c.spSpeed s * 1000000 / 256 else 0 }
  if x.starting && !x.restart then
    (c.put p Reg.SPIN.START_STAT2_START_MS (min 65535 ((c.now - x.startAt) / ms 1))).spResult s 1
  else c

/-- SHORT is left at standstill: to DETECT within a start, to IDLE otherwise; a BRAKE ends (R516, R539). -/
def Chip.spShortEnd (c : Chip) (s : Spin) : Chip :=
  let x := c.sp s
  let c := if x.braking then (c.modSp s fun x => { x with braking := false }).spResult s 1 else c
  if x.starting then c.spDetect s else c.spEnter s 1

/-- SHORT begins (R539); at standstill it ends at once. -/
def Chip.spShort (c : Chip) (s : Spin) : Chip :=
  let c := c.spEnter s 7
  if c.spStill s then c.spShortEnd s else c

/-- EBRAKE has come to standstill: IDLE, unless the line is still active (R541). -/
def Chip.spEbrakeEnd (c : Chip) (s : Spin) : Chip :=
  if c.spState s = 8 && c.spStill s && !c.spQuenched s then c.spEnter s 1 else c

/-- The quench line of the spindle (R540, R542). -/
def Chip.spQuench (c : Chip) (s : Spin) : Chip :=
  let st := c.spState s
  if st = 0 ∨ st = 10 ∨ st = 8 then c
  else (c.spAbort s 5).spEnter s 8

/-! ## Commands (R516, R517) -/

/-- The selection of R517 from the speed reported now. A line that is still active brakes instead (DEDUCED, log 27). -/
def Chip.spSelect (c : Chip) (s : Spin) : Chip :=
  let rpm := c.spSpeed s
  let c := c.modSp s fun x => { x with wakeAt := none }
  if c.spQuenched s then (c.spAbort s 5).spEnter s 8
  else if c.spValid s ∧ ((256 * max 100 (c.rd (.spin s) Reg.SPIN.RAMP_CFG2_HANDOVER_RPM) : Nat) : Int) ≤ rpm then c.spEnter s 9
  else if c.spStill s then c.spDetect s
  else c.spShort s

/-- START accepted in OFF, IDLE, BRAKE or SHORT: the commands in progress are superseded. -/
def Chip.spStart (c : Chip) (s : Spin) : Chip :=
  let p : Page := .spin s
  let c := c.spAbort s 7
  let c := (c.put p Reg.SPIN.SPIN_STAT_ATTEMPTS 0).put p Reg.SPIN.SPIN_STAT_ALIGN_USED 0
  let c := c.modSp s fun x => { x with
    starting := true, restart := false, startAt := c.now, detFails := 0, iRamp := c.rd p Reg.SPIN.RAMP_CFG_I_RAMP_MA }
  if c.spState s = 0 then c.modSp s fun x => { x with wakeAt := some c.now } else c.spSelect s

/-- BRAKE accepted where the motor is driven (R516, R539). -/
def Chip.spBrake (c : Chip) (s : Spin) : Chip :=
  let c := (c.spAbort s 7).modSp s fun x => { x with braking := true, v := 0, vI := 0 }
  if c.spSpeed s < ((256 * c.rd (.spin s) Reg.SPIN.BRAKE_CFG_SHORT_RPM : Nat) : Int) then c.spShort s else c.spEnter s 6

/-- The RESULT with which a command is turned away, none where it is accepted. Judged in the order reserved code, quiesce,
state (DEDUCED, log 28; R516, R518). -/
def Chip.spJudge (c : Chip) (s : Spin) (cmd : Nat) : Option Nat :=
  let st := c.spState s
  if cmd = 6 ∨ cmd = 7 then some 3
  else if c.rd (.spin s) Reg.HDR.PAGE_STAT_STATE = 3 then some 2
  else
    match cmd with
    | 1 => if st = 8 ∨ st = 10 then some 2 else none
    | 2 => if st = 8 ∨ st = 10 then some 2 else none
    | 3 => if st = 0 ∨ st = 8 ∨ st = 10 then some 2 else none
    | 4 => if st ≠ 10 then some 2 else if bit c.pins.drvFaultLow s.val then some 3 else none
    | 5 => if st ≠ 1 then some 2 else none
    | _ => none

/-- A command applied by a commit (R516). A START on a disabled page, whose gates stay low, ends as aborted by disable (DEDUCED from
R518, log 186). -/
def Chip.spCommand (c : Chip) (s : Spin) (cmd : Nat) : Chip :=
  let st := c.spState s
  if cmd = 0 then c
  else
    match c.spJudge s cmd with
    | some r => c.spResult s r
    | none =>
      match cmd with
      | 1 =>
        if !c.enabled (.spin s) then c.spResult s 8
        else if st = 0 ∨ st = 1 ∨ st = 6 ∨ st = 7 then c.spStart s else c
      | 2 =>
        if st = 0 ∨ st = 1 then c.spResult s 1
        else if st = 6 ∨ st = 7 then c.modSp s fun x => { x with braking := true }
        else c.spBrake s
      | 3 => ((c.spAbort s 7).spEnter s 1).spResult s 1
      | 4 => (c.spEnter s 0).spResult s 1
      | _ => (c.spEnter s 0).spResult s 1

/-- The CMD the commit brought, as the page then reads (R516, R543). -/
def Chip.spCmdIs (c : Chip) (s : Spin) (cmd : Nat) : Chip :=
  (c.put (.spin s) Reg.SPIN.SPIN_CMD_CMD cmd).putSh (.spin s) Reg.SPIN.SPIN_CMD_CMD cmd

/-- R517: START applied by a commit. -/
def execSpinStart (n : Spin) (s : State) : Out := s.to fun c => (c.spCmdIs n 1).spCommand n 1
/-- R539: BRAKE applied by a commit. -/
def execSpinBrake (n : Spin) (s : State) : Out := s.to fun c => (c.spCmdIs n 2).spCommand n 2
/-- R516: COAST applied by a commit. -/
def execSpinCoast (n : Spin) (s : State) : Out := s.to fun c => (c.spCmdIs n 3).spCommand n 3
/-- R516: OFF applied by a commit. -/
def execSpinOff (n : Spin) (s : State) : Out := s.to fun c => (c.spCmdIs n 5).spCommand n 5
/-- R516: CLEAR applied by a commit. -/
def execSpinClear (n : Spin) (s : State) : Out := s.to fun c => (c.spCmdIs n 4).spCommand n 4
/-- R516: a command that is turned away; one that would be accepted is left to its own row. -/
def execSpinCommandReject (n : Spin) (cmd : Fin 8) (s : State) : Out :=
  s.to fun c =>
    let c := c.spCmdIs n cmd.val
    match c.spJudge n cmd.val with
    | some r => if cmd.val = 0 then c else c.spResult n r
    | none => c

/-- PAGE_CTL.EN of a spindle page changes (R515, R518). -/
def Chip.spEnable (c : Chip) (s : Spin) (en : Bool) : Chip :=
  if en then c else ((c.spAbort s 8).spEnter s 0).modSp s fun x => { x with v := 0, vI := 0, dA := 0, dB := 0, dC := 0 }

/-- R515: 1 ms after DRV_EN rose, a START from OFF selects. -/
def execDriverWake (n : Spin) (s : State) : Out :=
  s.to fun c =>
    match (c.sp n).wakeAt with
    | some t => if c.spState n = 0 then (c.until' (t + ms 1)).spSelect n else c
    | none => c

/-! ## Driver fault (R514) -/

/-- DRV_FAULT_N recognised low. -/
def Chip.spDrvFault (c : Chip) (s : Spin) : Chip :=
  let p : Page := .spin s
  let c := { c with pins := { c.pins with drvFaultLow := setBit c.pins.drvFaultLow s.val true } }
  let c := (c.put p Reg.SPIN.SPIN_STAT_DRV_FAULT 1).fault0 p 0 1 2
  ((c.spAbort s 6).spEnter s 10).modSp s fun x => { x with v := 0, vI := 0, dA := 0, dB := 0, dC := 0 }

/-- R514. `high` says that the input has returned high, which ends SPIN_STAT.DRV_FAULT and permits CLEAR. -/
def execDrvFault (n : Spin) (high : Bool) (s : State) : Out :=
  s.to fun c =>
    if high then
      { c with pins := { c.pins with drvFaultLow := setBit c.pins.drvFaultLow n.val false } }.put
        (.spin n) Reg.SPIN.SPIN_STAT_DRV_FAULT 0
    else c.spDrvFault n

/-! ## Start from rest (R519 to R527) -/

/-- cos of a 16-bit angle in Q1.15. -/
def cos16 (th : Nat) : Int := sin1024 ((th % 65536) / 64 + 256)
/-- sin of a 16-bit angle in Q1.15. -/
def sin16 (th : Nat) : Int := sin1024 ((th % 65536) / 64)

/-- Arctangents of 2^-k in 16-bit angle units with 8 fraction bits. -/
def atanTable : List Nat :=
  [2097152, 1238021, 654136, 332050, 166669, 83416, 41718, 20860, 10430, 5215, 2608, 1304, 652, 326, 163, 81, 41]

/-- CORDIC vectoring: the angle of (x, y), x not negative, in 1/256 of a 16-bit angle unit. -/
def cordic : List Nat → Nat → Int → Int → Int → Int
  | [], _, _, _, z => z
  | t :: ts, k, x, y, z =>
    if 0 ≤ y then cordic ts (k + 1) (x + sar y k) (y - sar x k) (z + t)
    else cordic ts (k + 1) (x - sar y k) (y + sar x k) (z - t)

/-- atan2(y, x) as a 16-bit angle (DESIGN CHOICE of precision, log 29). -/
def atan2 (y x : Int) : Nat :=
  let x' := x * 65536
  let y' := y * 65536
  let z := if 0 ≤ x then cordic atanTable 0 x' y' 0 else 32768 * 256 + cordic atanTable 0 (-x') (-y') 0
  toBits 16 (divRound z 256)

/-- Σ t_k × w_k over the twelve rise times. -/
def weigh (t : Vector Nat 12) (w : List Int) : Int :=
  ((t.toList.zip w).map (fun p => ((p.1 : Nat) : Int) * p.2)).foldl (· + ·) 0

/-- cos 2φ_k in units of 10^-6 (R520). -/
def cos2 : List Int := [1000000, 500000, -500000, -1000000, -500000, 500000, 1000000, 500000, -500000, -1000000, -500000, 500000]
/-- sin 2φ_k in units of 10^-6. -/
def sin2 : List Int := [0, 866025, 866025, 0, -866025, -866025, 0, 866025, 866025, 0, -866025, -866025]
/-- cos φ_k in units of 10^-6. -/
def cos1 : List Int := [1000000, 866025, 500000, 0, -500000, -866025, -1000000, -866025, -500000, 0, 500000, 866025]
/-- sin φ_k in units of 10^-6. -/
def sin1 : List Int := [0, 500000, 866025, 1000000, 866025, 500000, 0, -500000, -866025, -1000000, -866025, -500000]

/-- What an attempt finds (R520): θ_d, |A1| × 10^6, √(C2² + S2²) × 10^6 and Σ t_k. -/
def detectAxis (t : Vector Nat 12) : Nat × Nat × Nat × Nat :=
  let c2 := weigh t cos2
  let s2 := weigh t sin2
  let th2 := atan2 (-s2) (-c2) / 2
  let a1 := (weigh t cos1 * cos16 th2 + weigh t sin1 * sin16 th2) / 32767
  let th := if a1 < 0 then th2 else (th2 + 32768) % 65536
  (th, a1.natAbs, isqrt (c2 * c2 + s2 * s2).natAbs, t.toList.foldl (· + ·) 0)

/-- DETECT_REPS as it acts (R547). -/
def Chip.detectReps (c : Chip) (s : Spin) : Nat := atLeast1 (c.rd (.spin s) Reg.SPIN.START_CFG_DETECT_REPS)

/-- Ticks of one attempt: 12 vectors, DETECT_REPS times, PULSE_SPACING apart (R519, R547). -/
def Chip.detectTime (c : Chip) (s : Spin) : Nat :=
  12 * c.detectReps s * us (10 * max 5 (c.rd (.spin s) Reg.SPIN.START_CFG_PULSE_SPACING))

/-- Every pulse of the attempt reached I_TEST, within 100 us (R519, R520). -/
def Chip.detectReached (c : Chip) (s : Spin) (t : DetectRises) : Bool :=
  t.toList.all fun l => decide (l.length = c.detectReps s) && l.all fun v => match v with
    | some k => decide (k ≤ 100000)
    | none => false

/-- t_k: the rise times averaged over the repetitions, in ns (R519). -/
def riseMean (l : List (Option Nat)) : Nat :=
  let n := (l.filterMap id).length
  ((l.filterMap id).foldl (· + ·) 0 + n / 2) / max 1 n

/-- The end of one DETECT attempt (R519 to R521). -/
def Chip.spDetectEnd (c : Chip) (s : Spin) (rises : DetectRises) : Chip :=
  let p : Page := .spin s
  if c.spState s ≠ 2 ∨ (c.sp s).measuring then c
  else
    let reached := c.detectReached s rises
    let t := rises.map riseMean
    let c := (c.until' ((c.sp s).since + c.detectTime s)).spAttempt s
    let r := detectAxis t
    let need := c.rd p Reg.SPIN.START_CFG_DETECT_MIN * r.2.2.2 * 1000000
    if reached && need ≤ 4096 * r.2.1 && need ≤ 4096 * r.2.2.1 then
      let c := c.put p Reg.SPIN.START_STAT_THETA_D r.1
      let c := c.put p Reg.SPIN.START_STAT_CONF (min 4095 (4096 * r.2.1 / max 1 (1000000 * r.2.2.2)))
      c.modSp s fun x => { x with theta := (r.1 + 16384) % 65536 * 65536, measuring := true, since := c.now, v := 0, vI := 0 }
    else
      let n := (c.sp s).detFails + 1
      let c := c.modSp s fun x => { x with detFails := n, since := c.now }
      if n < 3 then c
      else if c.flag p Reg.SPIN.START_CFG_ALIGN_EN then (c.spEnter s 3).modSp s fun x => { x with thetaOl := 0, v := 0, vI := 0 }
      else c.spStartFail s

/-- R520. -/
def execDetectAttempt (n : Spin) (t : DetectRises) (s : State) : Out := s.to fun c => c.spDetectEnd n t

/-- R522: voltage amplitude (mV) and mean current (mA) of the last 1 ms. A mean of 0 leaves R_MEAS open (log 30). -/
def execRmeasDone (n : Spin) (ampl mean : Nat) (s : State) : Out :=
  s.to fun c =>
    if c.spState n = 2 ∧ (c.sp n).measuring then
      let c := c.until' ((c.sp n).since + ms 2)
      let r := if mean = 0 then c.free 16 else (min 65535 (1000 * ampl / mean), c)
      (r.2.put (.spin n) Reg.SPIN.START_STAT2_R_MEAS_MOHM r.1).spRamp n
    else c

/-- R521: 300 ms of ALIGN. -/
def execAlignDone (n : Spin) (s : State) : Out :=
  s.to fun c =>
    if c.spState n = 3 then
      let c := (c.until' ((c.sp n).since + ms 300)).put (.spin n) Reg.SPIN.SPIN_STAT_ALIGN_USED 1
      (c.modSp n fun x => { x with theta := 16384 * 65536 }).spRamp n
    else c

/-- R524: BREAKAWAY_MS after RAMP began without an edge. -/
def execBreakawayTimeout (n : Spin) (s : State) : Out :=
  s.to fun c =>
    let p : Page := .spin n
    let x := c.sp n
    if c.spState n = 4 ∧ !x.edgeSeen then
      let c := c.until' (x.since + ms (10 * atLeast1 (c.rd p Reg.SPIN.TIME_CFG_BREAKAWAY_MS)))
      let top := c.rd p Reg.SPIN.RAMP_CFG_I_RAMP_MAX_MA
      if top ≤ x.iRamp then c.spStartFail n
      else (c.modSp n fun x => { x with iRamp := min top (x.iRamp * 5 / 4) }).spDetect n
    else c

/-- R526: a CATCH not locked within 100 ms. -/
def execCatchTimeout (n : Spin) (s : State) : Out :=
  s.to fun c =>
    if c.spState n = 9 then
      ((c.until' ((c.sp n).since + ms 100)).modSp n fun x => { x with
        starting := true, restart := x.restart || !x.starting,
        startAt := if x.starting then x.startAt else c.now,
        iRamp := if x.starting then x.iRamp else c.rd (.spin n) Reg.SPIN.RAMP_CFG_I_RAMP_MA }).spShort n
    else c

/-- R527: RUN not reached within START_TIMEOUT of the START. -/
def execStartFail (n : Spin) (s : State) : Out :=
  s.to fun c =>
    let x := c.sp n
    if x.starting then
      (c.until' (x.startAt + ms (100 * atLeast1 (c.rd (.spin n) Reg.SPIN.TIME_CFG_START_TIMEOUT)))).spStartFail n
    else c

/-! ## Running -/

/-- The wave table at 7 fraction bits of entry (R529), Q1.15. -/
def Chip.spWave (c : Chip) (s : Spin) (u : Int) : Int :=
  let i := (u / 128 % 1536).toNat
  let f := u % 128
  let w := fun (j : Nat) =>
    c.rdIS (.spin s) (if j % 2 = 0 then Reg.SPIN.WAVE_W_LO else Reg.SPIN.WAVE_W_HI) (j / 2)
  w i + (w ((i + 1) % 1536) - w i) * f / 128

/-- W(θ × 3 / 128 − 512 m). -/
def Chip.spW (c : Chip) (s : Spin) (th m : Nat) : Int := c.spWave s (3 * (th % 65536 : Nat) - 65536 * (m : Int))

/-- Angle advance of a period at `w` (10^-6 rpm): 2^-32 turns. -/
def SpinSt.advanceOf (x : SpinSt) (w : Int) : Int :=
  w * x.polePairs * x.pwmDiv * 5 * 4294967296 / 120000000000000

/-- Change of a speed in 10^-6 rpm over one period at `a` rpm/s. -/
def SpinSt.slewOf (x : SpinSt) (a : Nat) : Nat := a * x.pwmDiv * 5 / 2

/-- I_HOLD now (R533). -/
def Chip.spHold (c : Chip) (s : Spin) : Nat :=
  let x := c.sp s
  let t := ms (c.rd (.spin s) Reg.SPIN.TIME_CFG_HANDOVER_MS)
  let el := c.now - x.holdAt
  if t ≤ el then 0 else x.holdI * (t - el) / t

/-- I* of the state (R522, R521, R523, R533, R539), clamped to ILIM_HW (R530). -/
def Chip.spDemand (c : Chip) (s : Spin) : Int :=
  let p : Page := .spin s
  let x := c.sp s
  let fs : Int := (c.rd p Reg.SPIN.ISCALE_ISNS_FS_MA : Nat)
  let lim : Int := (c.rd p Reg.SPIN.ISCALE_ILIM_HW_MA : Nat)
  let want : Int := match c.spState s with
    | 2 => if x.measuring then (c.rd p Reg.SPIN.START_CFG_I_TEST_MA : Nat) else 0
    | 3 => (x.iRamp : Nat)
    | 4 => (x.iRamp : Nat)
    | 5 => x.iDem * fs / 2147483648 + (c.spHold s : Nat)
    | 6 => -(c.rd p Reg.SPIN.BRAKE_CFG_BRAKE_I_MA : Nat)
    | _ => 0
  clampI (-lim) lim want

/-- θ_ref of the state (R529), 16 bits. -/
def Chip.spRef (c : Chip) (s : Spin) : Nat :=
  let x := c.sp s
  match c.spState s with
  | 2 => c.rd (.spin s) Reg.SPIN.START_STAT_THETA_D
  | 3 => x.thetaOl / 65536
  | 4 => x.thetaOl / 65536
  | _ => x.theta / 65536

/-- The current loop and the duties of the next period (R510, R529, R530); `iq` in mA. -/
def Chip.spLoop (c : Chip) (s : Spin) (iq : Int) : Chip :=
  let p : Page := .spin s
  let x := c.sp s
  let st := c.spState s
  let driven := st = 3 ∨ st = 4 ∨ st = 5 ∨ st = 6 ∨ (st = 2 ∧ x.measuring)
  if !decide driven then c.modSp s fun x => { x with v := 0, vI := 0, dA := 0, dB := 0, dC := 0 }
  else
    let fs := max 1 (c.rd p Reg.SPIN.ISCALE_ISNS_FS_MA)
    let e := divRound ((c.spDemand s - iq) * 65536) (fs : Nat)
    let v := clampI (-65536) 65536 (x.vI + (c.rd p Reg.SPIN.ILOOP_KP : Nat) * e / 4096)
    let vI := clampI (-65536) 65536 (x.vI + (c.rd p Reg.SPIN.ILOOP_KI : Nat) * e / 65536)
    let adv := if st = 5 ∨ st = 6 then c.rd p Reg.SPIN.OBS_CFG_ADV_K * (c.spSpeed s).natAbs / 25600 else 0
    let th := (c.spRef s + adv) % 65536
    let top : Int := 65536 - 65536 * 12 / (25 * (x.pwmDiv : Nat))
    let d := fun (m : Nat) => (clampI 0 top (32768 + v * c.spW s th m / 65536)).toNat
    c.modSp s fun x => { x with v := v, vI := vI, dA := d 0,
                                dB := (if x.dir = 1 then d 2 else d 1), dC := (if x.dir = 1 then d 1 else d 2) }

/-- e_x × 3 of one phase, in µV (R513): phase mean voltage `v`, the sum of all three, and the valley currents. -/
def emf3 (r l : Nat) (div : Nat) (v sum i i0 : Int) : Int :=
  3000 * v - 1000 * sum - 3 * (r * i) - 1200 * (l : Nat) * (i - i0) / (max 1 div : Nat)

/-- The observer's period (R528): ε with 16 fraction bits as an angle in radians (DESIGN CHOICE, log 31). -/
def Chip.spObserve (c : Chip) (s : Spin) (ea eb ec : Int) : Chip :=
  let p : Page := .spin s
  let x := c.sp s
  let al := ea
  let be := (ec - eb) * 1000000 / 1732051
  let m := isqrt (al * al + be * be).natAbs
  let th := x.theta / 65536
  let eps := if m * 100 < 3000 * c.rd p Reg.SPIN.MOTOR_V_VBUS_MV then 0
    else (al * cos16 th - be * sin16 th) * 65536 / (32767 * (max 1 m : Nat))
  let ang := eps * 10430
  let om := x.omega + ang / (2 ^ c.rd p Reg.SPIN.OBS_CFG_PLL_KI : Nat)
  let th' := toBits 32 ((x.theta : Int) + om + ang / (2 ^ c.rd p Reg.SPIN.OBS_CFG_PLL_KP : Nat))
  c.modSp s fun x => { x with
    omega := om, theta := th', emf := m
    locked := if eps.natAbs * 100 ≤ 17 * 65536 then x.locked + 1 else 0
    lost := if 32768 < eps.natAbs then x.lost + 1 else 0 }

/-- ω̂ lies within ±10 % of the speed `w` (10^-6 rpm), and |ε| has been small for 32 periods (R525). -/
def SpinSt.lockedOn (x : SpinSt) (w : Int) : Bool :=
  let a := x.advanceOf w
  32 ≤ x.locked && 10 * absI (x.omega - a) ≤ absI a

/-- Synchronism is lost (R538). -/
def Chip.spSyncLoss (c : Chip) (s : Spin) : Chip :=
  ((c.fault0 (.spin s) 2 2 0).inc (.spin s) Reg.SPIN.EVENTS_SYNC_LOSS).spEnter s 9

/-- Overcurrent of a period (R531): sent at the eighth trip of 16 periods, whose count then begins anew (DEDUCED, log 32). -/
def Chip.spOverCur (c : Chip) (s : Spin) (peak : Nat) : Chip :=
  let p : Page := .spin s
  let st := c.spState s
  let trip := c.rd p Reg.SPIN.LIMIT_CFG_OC_TRIP_MA < peak && st ≠ 8 && st ≠ 7
  let bits := ((c.sp s).ocBits * 2 + b2n trip) % 65536
  if trip then
    let c := (c.inc p Reg.SPIN.EVENTS_OC_PERIODS).modSp s fun x => { x with ocLow := 2, ocBits := bits }
    if 8 ≤ popCount 16 bits then (c.fault0 p 1 1 1).modSp s fun x => { x with ocBits := 0 } else c
  else c.modSp s fun x => { x with ocLow := x.ocLow - 1, ocBits := bits }

/-- The chopping of EBRAKE (R541). -/
def Chip.spChop (c : Chip) (s : Spin) (peak : Nat) : Chip :=
  let p : Page := .spin s
  let lim := c.rd p Reg.SPIN.LIMIT_CFG_EBRAKE_IMAX_MA
  if c.spState s ≠ 8 then c
  else if !(c.sp s).chopOpen && lim < peak then
    (c.inc p Reg.SPIN.EVENTS_EBRAKE_CHOPS).modSp s fun x => { x with chopOpen := true }
  else if (c.sp s).chopOpen && 2 * peak < lim then c.modSp s fun x => { x with chopOpen := false }
  else c

/-- The slewed target's period (R535). -/
def Chip.spSlew (c : Chip) (s : Spin) : Chip :=
  let st := c.spState s
  if st = 5 ∨ st = 6 then
    let goal : Int := ((c.spTarget s * 1000000 : Nat) : Int)
    let d : Int := ((c.sp s).slewOf (atLeast1 (c.rd (.spin s) Reg.SPIN.SPEED_TGT_SLEW)) : Nat)
    c.modSp s fun x => { x with slewed := x.slewed + clampI (-d) d (goal - x.slewed) }
  else c.modSp s fun x => { x with slewed := if c.spValid s then c.spSpeed s * 1000000 / 256 else 0 }

/-- What the period decides: handover, catch, loss of synchronism, end of BRAKE (R525, R526, R538, R539). -/
def Chip.spDecide (c : Chip) (s : Spin) : Chip :=
  let p : Page := .spin s
  let x := c.sp s
  match c.spState s with
  | 4 =>
    let c := c.modSp s fun x =>
      { x with thetaOl := toBits 32 ((x.thetaOl : Int) + x.advanceOf x.wOl)
               wOl := x.wOl + x.slewOf (atLeast1 (c.rd p Reg.SPIN.RAMP_CFG2_RAMP_ACC)) }
    let x := c.sp s
    if 1000000 * max 100 (c.rd p Reg.SPIN.RAMP_CFG2_HANDOVER_RPM) ≤ x.wOl && x.lockedOn x.wOl then c.spRun s x.iRamp else c
  | 9 =>
    if x.lockedOn (c.spSpeed s * 1000000 / 256) then
      let v : Int := ((2 * x.emf * 65536 / (3000 * max 1 (c.rd p Reg.SPIN.MOTOR_V_VBUS_MV)) : Nat) : Int)
      (c.spRun s 0).modSp s fun x => { x with v := v, vI := v }
    else c
  | 5 => if 8 ≤ x.lost then c.spSyncLoss s else c
  | 6 => if c.spSpeed s ≤ ((256 * c.rd p Reg.SPIN.BRAKE_CFG_SHORT_RPM : Nat) : Int) then c.spShort s else c
  | _ => c

/-- One PWM period (R509 to R513, R525 to R531, R535, R537, R541): valley currents in mA, mean phase voltages in mV, and
whether the update was late. -/
def Chip.spPwm (c : Chip) (s : Spin) (ia ib ic va vb vc : Int) (late : Bool) : Chip :=
  let p : Page := .spin s
  let st := c.spState s
  let peak := max ia.natAbs (max ib.natAbs ic.natAbs)
  let c := (c.spOverCur s peak).spChop s peak
  if late && st ≠ 8 && st ≠ 7 && st ≠ 0 && st ≠ 10 then (c.dlMiss p).fault p 3 1 0 st p.num
  else
    let x := c.sp s
    let sw := x.dir = 1
    let ib' := if sw then ic else ib
    let ic' := if sw then ib else ic
    let vb' := if sw then vc else vb
    let vc' := if sw then vb else vc
    let r := if c.flag p Reg.SPIN.START_CFG_USE_RMEAS && c.rd p Reg.SPIN.START_STAT2_R_MEAS_MOHM ≠ 0
      then c.rd p Reg.SPIN.START_STAT2_R_MEAS_MOHM else x.rMohm
    let sum := va + vb' + vc'
    let e := emf3 r x.lUh x.pwmDiv
    let c := if st = 4 ∨ st = 5 ∨ st = 6 ∨ st = 9 then
        c.spObserve s (e va sum ia x.ia) (e vb' sum ib' x.ib) (e vc' sum ic' x.ic)
      else c
    let th := c.spRef s
    let iq := 2 * (ia * c.spW s th 0 + ib' * c.spW s th 1 + ic' * c.spW s th 2) / (3 * 32768)
    let c := c.modSp s fun x => { x with ia := ia, ib := ib', ic := ic' }
    let c := (c.putS p Reg.SPIN.CUR_STAT_IQ_MA (satI 16 iq)).put p Reg.SPIN.CUR_STAT_IPEAK_MA (min 65535 peak)
    ((c.spDecide s).spSlew s).spLoop s iq

/-- A PWM period begins now: at the start of a servo frame whose number is a multiple of PWM_DIV, once (R509). In EBRAKE and SHORT the
currents are converted at 1 MS/s instead (R511). -/
def Chip.pwmDue (c : Chip) (n : Spin) : Bool :=
  c.spState n == 7 || c.spState n == 8
    || (c.frameNum.toNat % (c.sp n).pwmDiv == 0 && (c.sp n).pwmFrame != some c.frameNum.toNat)

/-- R509, R511, R512: `i` are the codes of the phase currents at the valley, `v` the eight codes of each phase voltage. -/
def execPwmPeriod (n : Spin) (i : Vector (BitVec 12) 3) (v : PhaseVolts) (late : Bool) (s : State) : Out :=
  s.to fun c =>
    let p : Page := .spin n
    let cur := fun (k : Fin 3) => c.currentMa 0 (6 * n.val + k.val) (c.rd p Reg.SPIN.ISCALE_ISNS_FS_MA) (i.get k).toNat
    let vol := fun (k : Fin 3) => c.voltMv 0 (6 * n.val + 3 + k.val) (c.rd p Reg.SPIN.MOTOR_V_VSNS_FS_MV) ((v.get k).toList.map (·.toNat))
    if !c.pwmDue n then c
    else (c.modSp n fun x => { x with pwmFrame := some c.frameNum.toNat }).spPwm n (cur 0) (cur 1) (cur 2) (vol 0) (vol 1) (vol 2) late

/-! ## Speed and edges (R535, R536) -/

/-- rpm × 256 from `k` intervals that span `t` cycles of 4 ns at 6 × `pp` edges a revolution. -/
def edgeRpm (k t pp : Nat) (fwd : Bool) : Int :=
  let v : Int := divRound ((60 * k * 256 * 250000000 : Nat) : Int) ((6 * pp * max 1 t : Nat) : Int)
  satI 24 (if fwd then v else -v)

/-- SPEED and SPEED_REV after an edge. -/
def Chip.spSpeeds (c : Chip) (s : Spin) : Chip :=
  let p : Page := .spin s
  let x := c.sp s
  let near := x.ivals.take 6
  let rev := 6 * x.polePairs
  let c := if 2 ≤ x.edgeRun then
      (c.putS p Reg.SPIN.SPEED_RPM (edgeRpm near.length (near.foldl (· + ·) 0) x.polePairs x.lastFwd)).put p Reg.SPIN.SPEED_VALID 1
    else (c.put p Reg.SPIN.SPEED_RPM 0).put p Reg.SPIN.SPEED_VALID 0
  if rev + 1 ≤ x.edgeRun then
    (c.putS p Reg.SPIN.SPEED_REV_RPM (edgeRpm rev (x.ivals.foldl (· + ·) 0) x.polePairs x.lastFwd)).put p Reg.SPIN.SPEED_REV_VALID 1
  else (c.put p Reg.SPIN.SPEED_REV_RPM 0).put p Reg.SPIN.SPEED_REV_VALID 0

/-- AT_SPEED at the end of each revolution in RUN (R535). -/
def Chip.spAtSpeed (c : Chip) (s : Spin) : Chip :=
  let p : Page := .spin s
  let x := c.sp s
  if c.spState s ≠ 5 then c
  else if x.revEdges + 1 < 6 * x.polePairs then c.modSp s fun x => { x with revEdges := x.revEdges + 1 }
  else
    let tgt := c.spTarget s
    let dev := (c.rdS p Reg.SPIN.SPEED_REV_RPM - 256 * (tgt : Nat)).natAbs
    let good := c.flag p Reg.SPIN.SPEED_REV_VALID && dev * 100000 ≤ c.rd p Reg.SPIN.LIMIT_CFG_AT_TOL * tgt * 256
    let c := c.modSp s fun x => { x with
      revEdges := 0, tolOk := if good then x.tolOk + 1 else 0, tolBad := if good then 0 else x.tolBad + 1 }
    let x := c.sp s
    let on := c.flag p Reg.SPIN.SPIN_STAT_AT_SPEED
    if !on && 2 ≤ x.tolOk then (c.put p Reg.SPIN.SPIN_STAT_AT_SPEED 1).event p 1
    else if on && 2 ≤ x.tolBad then c.put p Reg.SPIN.SPIN_STAT_AT_SPEED 0
    else c

/-- What the new speed decides outside the PWM period (R539, R541). -/
def Chip.spSpeedActs (c : Chip) (s : Spin) : Chip :=
  let st := c.spState s
  if st = 6 ∧ c.spSpeed s ≤ ((256 * c.rd (.spin s) Reg.SPIN.BRAKE_CFG_SHORT_RPM : Nat) : Int) then c.spShort s
  else if st = 7 ∧ c.spStill s then c.spShortEnd s
  else c.spEbrakeEnd s

/-- An edge in direction `fwd`, `dt` cycles after the edge before it (R536); a reversal loses synchronism in RUN (R538). -/
def Chip.spEdge (c : Chip) (s : Spin) (fwd : Bool) (dt : Nat) : Chip :=
  let p : Page := .spin s
  let x := c.sp s
  let same := x.edgeRun = 0 || x.lastFwd = fwd
  let c := c.modSp s fun x => { x with
    lastFwd := fwd, lastEdge := c.now, edgeSeen := true
    ivals := if same && x.edgeRun ≠ 0 then (dt :: x.ivals).take (6 * x.polePairs) else []
    edgeRun := if same then min 1000 (x.edgeRun + 1) else 1 }
  let c := c.spSpeeds s
  if same then (c.spAtSpeed s).spSpeedActs s
  else
    let c := c.fault0 p 2 4 0
    if c.spState s = 5 then c.spSyncLoss s else c.spSpeedActs s

/-- Sixth of an electrical revolution in which the phases have these signs, by the sequence in which e_a is proportional to sin θ
(R528, R536); none where all three agree. -/
def emfSector (signs : Nat) : Option Nat :=
  match signs with
  | 5 => some 0
  | 1 => some 1
  | 3 => some 2
  | 2 => some 3
  | 6 => some 4
  | 4 => some 5
  | _ => none

/-- Direction of the edge that a change of signs makes, none where it does not continue the sequence (R536). -/
def edgeDir (old new : Nat) : Option Bool :=
  match emfSector old, emfSector new with
  | some a, some b => if b = (a + 1) % 6 then some true else if a = (b + 1) % 6 then some false else none
  | _, _ => none

/-- e of phase `x` (0, 1, 2 for A, B, C) stands at `mv` mV: a sign change counts beyond EDGE_HYST (R536). With DIR = 1 the sensing
exchanges B and C (R528). -/
def Chip.spSign (c : Chip) (s : Spin) (x : Nat) (mv : Int) (dt : Nat) : Chip :=
  let y := c.sp s
  let k := if y.dir = 1 ∧ x ≠ 0 then 3 - x else x
  if mv.natAbs < 10 * c.rd (.spin s) Reg.SPIN.OBS_CFG_EDGE_HYST ∨ decide (0 < mv) = bit y.signs k then c
  else
    let new := setBit y.signs k (decide (0 < mv))
    let c := c.modSp s fun x => { x with signs := new }
    match edgeDir y.signs new with
    | some fwd => c.spEdge s fwd dt
    | none => c

/-- R536: the back-EMF of a phase stands at `mv` mV, `dt` cycles of 4 ns after the edge before; edge detection is suspended while test
pulses run (R519). -/
def execBackEmfEdge (n : Spin) (x : Fin 3) (mv : BitVec 16) (dt : BitVec 32) (s : State) : Out :=
  s.to fun c => if c.spState n = 2 ∧ !(c.sp n).measuring then c else c.spSign n x.val mv.toInt dt.toNat

/-- R536: no edge for EDGE_TIMEOUT_MS: SPEED and SPEED_REV report 0, valid. -/
def Chip.spEdgeTimeout (c : Chip) (s : Spin) : Chip :=
  let p : Page := .spin s
  let c := c.until' ((c.sp s).lastEdge + ms (atLeast1 (c.rd p Reg.SPIN.TIME_CFG_EDGE_TIMEOUT_MS)))
  let c := c.modSp s fun x => { x with ivals := [], edgeRun := 0 }
  let c := (c.put p Reg.SPIN.SPEED_RPM 0).put p Reg.SPIN.SPEED_VALID 1
  ((c.put p Reg.SPIN.SPEED_REV_RPM 0).put p Reg.SPIN.SPEED_REV_VALID 1).spSpeedActs s

/-- R536. -/
def execSpinEdgeTimeout (n : Spin) (s : State) : Out := s.to fun c => c.spEdgeTimeout n

/-- R534: 400 frames in RUN without a setpoint. -/
def execSetpointLost (n : Spin) (s : State) : Out :=
  s.to fun c =>
    if c.spState n = 5 then
      let c := c.until' ((c.sp n).setAt + ms 1)
      (((c.fault0 (.spin n) 2 3 1).inc (.spin n) Reg.SPIN.EVENTS_SETPT_LOST).modSp n fun x => { x with v := 0, vI := 0 }).spEnter n 6
    else c

/-! ## Engine interface (R532, R533) -/

/-- I_DEM of the setpoint word, in use from this frame. -/
def Chip.spSetpoint (c : Chip) (s : Spin) (w : Nat) : Chip :=
  c.modSp s fun x => { x with iDem := sext 32 w, setAt := c.now }

/-- A current as a fraction of ISNS_FS_MA in a measurement word. -/
def Chip.spFrac (c : Chip) (s : Spin) (i : Int) : Nat :=
  toBits 32 (satI 32 (i * 2147483648 / (max 1 (c.rd (.spin s) Reg.SPIN.ISCALE_ISNS_FS_MA) : Nat)))

/-- A speed in rpm × 256 as a fraction of 8,192 rpm in a measurement word. -/
def rpmWord (x : Int) : Nat := toBits 32 (satI 32 (x * 1024))

/-- Measurement word `k` of spindle `s`, with its validity (R532). -/
def Chip.spWord (c : Chip) (s : Spin) (k : Nat) : Nat × Bool :=
  let p : Page := .spin s
  let x := c.sp s
  match k with
  | 0 => (rpmWord (c.spSpeed s), c.spValid s)
  | 1 => (rpmWord (c.rdS p Reg.SPIN.SPEED_REV_RPM), c.flag p Reg.SPIN.SPEED_REV_VALID)
  | 2 => (toBits 32 (satI 32 (x.slewed * 262144 / 1000000)), true)
  | 3 => (c.spFrac s (c.rdS p Reg.SPIN.CUR_STAT_IQ_MA), true)
  | 4 => (c.spFrac s (c.rd p Reg.SPIN.CUR_STAT_IPEAK_MA : Nat), true)
  | 5 => (x.theta / 2, true)
  | 6 => (if c.spState s = 5 then 2147483647 else 0, true)
  | _ => (toBits 32 (satI 32 (absI x.v * 32768)), true)

end Sys2Proof.Machine
end

