-- ==== Sys2Proof/Machine/Laser.lean ====
section
/-!
DEFINITION. LASER_CTL and which engine owns a head (R271, R287, R417, R418).
-/
namespace Sys2Proof.Machine

/-- The laser of no beam of the port may emit: ARM is cleared (R418, R498). -/
def Chip.laserOff (c : Chip) (h : Port) : Chip := (c.put (.head h) Reg.HEAD.LASER_CTL_ARM 0).updKill h

/-! ## Engines and what they own (R417, R418) -/

/-- The engine executes its schedule: enabled, and neither quiesced nor in a soft reset (R418). -/
def Chip.engRuns (c : Chip) (e : Eng) : Bool :=
  let p : Page := .loop e
  c.pageUp p && c.enabled p && (c.rd p Reg.HDR.PAGE_STAT_STATE = 1 || c.rd p Reg.HDR.PAGE_STAT_STATE = 2)

/-- The lowest-numbered engine whose field `f` has bit `n` set (R417). -/
def Chip.ownerOf (c : Chip) (f : Fld) (n : Nat) : Option Eng := allEngs.find? (fun e => bit (c.rd (.loop e) f) n)

/-- The owner of a head's group. -/
def Chip.headOwner (c : Chip) (h : Port) : Option Eng := c.ownerOf Reg.LOOP.OWN_HEAD_HEADS h.val

/-- A running engine owns the head (R418). -/
def Chip.headDriven (c : Chip) (h : Port) : Bool :=
  match c.headOwner h with
  | some e => c.engRuns e
  | none => false

/-- Hardware holds ARM clear while no running engine owns the head (R418). -/
def Chip.holdArms (c : Chip) : Chip :=
  allPorts.foldl (fun c h => if !c.headDriven h && c.laserArmed h then c.laserOff h else c) c

/-- LASER_CTL written with ARM = `on` (R271, R287, R418). -/
def Chip.writeArm (c : Chip) (h : Port) (on : Bool) : Chip :=
  let p : Page := .head h
  if on && !c.headDriven h then c
  else
    let c := c.putB p Reg.HEAD.LASER_CTL_ARM on
    let c := if on then c.putB p Reg.HEAD.LASER_CTL_WHY_ABSENT (!bit c.pins.presentLow h.val) else c
    c.updKill h

/-- Ownership overlaps (R417): OWN_CONFLICT of the higher-numbered engine. -/
def Chip.overlaps (c : Chip) (e e' : Eng) : Bool :=
  let o := fun (f : Fld) => c.rd (.loop e) f &&& c.rd (.loop e') f != 0
  o Reg.LOOP.OWN_HEAD_HEADS || o Reg.LOOP.OWN_HEAD_SPINS || o Reg.LOOP.OWN_AXIS_AXES

/-- OWN_CONFLICT is set while the overlap lasts (R417). -/
def Chip.ownConflicts (c : Chip) : Chip :=
  allEngs.foldl (fun c e =>
    if allEngs.any (fun e' => e'.val < e.val && c.overlaps e e') then c.put (.loop e) Reg.LOOP.ENG_STAT_OWN_CONFLICT 1 else c) c

end Sys2Proof.Machine
end

