-- ==== Sys2Proof/Machine/Engine.lean ====
section
/-!
DEFINITION. Loop engines: schedule operations, filter sections, min-select nodes, chains, banks and validation, and trace
units (chapter 09).
-/
namespace Sys2Proof.Machine

/-- Engine `e`'s own state. -/
def Chip.en (c : Chip) (e : Eng) : EngSt := c.engs.get e
/-- Changes engine `e`'s own state. -/
def Chip.modEn (c : Chip) (e : Eng) (f : EngSt → EngSt) : Chip := { c with engs := c.engs.set e.val (f (c.en e)) e.isLt }

/-- A word of the engine's memory map (R457). -/
def EngSt.word (x : EngSt) (a : Nat) : Nat := (Sparse.get 0 x.mem a).toNat
/-- A word of the memory map set. -/
def EngSt.setWord (x : EngSt) (a v : Nat) : EngSt := { x with mem := Sparse.set 0 x.mem a (BitVec.ofNat 32 v) }

/-- A local word as a signed Q1.31 number (R427). -/
def EngSt.loc (x : EngSt) (n : Nat) : Int := sext 32 (x.word (0x8800 + n % 1024))
/-- A local word set, saturated to Q1.31 (R428). -/
def EngSt.setLoc (x : EngSt) (n : Nat) (v : Int) : EngSt := x.setWord (0x8800 + n % 1024) (toBits 32 (satI 32 v))

/-- The bank in force (R442). -/
def Chip.engBank (c : Chip) (e : Eng) : Nat := c.rd (.loop e) Reg.LOOP.ENG_STAT_ACTIVE_BANK

/-! ## Entries (R426 to R428) -/

/-- A schedule entry. -/
structure Entry where
  at' : Nat
  op : Nat
  chain : Nat
  arg : Nat
  p : Nat
  q : Nat
  r : Nat
  deriving DecidableEq, Repr

/-- Entry `i` of bank `b` (R427, R457). -/
def EngSt.entry (x : EngSt) (b i : Nat) : Entry :=
  let w := x.word (0x4000 * b + 2 * i)
  let v := x.word (0x4000 * b + 2 * i + 1)
  ⟨slice 0 12 w, slice 12 4 w, slice 16 8 w, slice 24 8 w, slice 0 10 v, slice 10 10 v, slice 20 12 v⟩

/-- The chain table word of chain `n` in bank `b`. -/
def EngSt.chainWord (x : EngSt) (b n : Nat) : Nat := x.word (0x4000 * b + 0x1800 + n)

/-- The quench line of a chain's scope is active (R439). -/
def Chip.scopeQuenched (c : Chip) (kind n : Nat) : Bool :=
  match kind with
  | 1 => bit (c.rd .fault Reg.FAULT.QUENCH_HEAD_PORTS) n
  | 2 => bit (c.rd .fault Reg.FAULT.QUENCH_SPIN_SPINS) n
  | 3 => bit (c.rd .fault Reg.FAULT.QUENCH_AXIS_AXES) n
  | _ => false

/-- Chain `n` is held by a quench in this frame (R439). -/
def Chip.chainHeld (c : Chip) (e : Eng) (n : Nat) : Bool :=
  let w := (c.en e).chainWord (c.engBank e) n
  n != 0 && bit w 0 && c.scopeQuenched (slice 1 2 w) (slice 3 5 w)

/-! ## Trace events (R450, R451) -/

/-- Trace unit `t`'s own state. -/
def Chip.tr (c : Chip) (t : Eng) : TraceSt := c.traces.get t
/-- Changes trace unit `t`'s own state. -/
def Chip.modTr (c : Chip) (t : Eng) (f : TraceSt → TraceSt) : Chip := { c with traces := c.traces.set t.val (f (c.tr t)) t.isLt }

/-- An event of trigger source `src` whose argument meets `ok`: every armed single-shot unit that waits for it triggers at
its next sample (R450, R451). -/
def Chip.traceEvent (c : Chip) (src : Nat) (ok : Nat → Bool) : Chip :=
  allEngs.foldl (fun c t =>
    let x := c.tr t
    if c.rd (.trace t) Reg.TRACE.TR_STAT_STATE = 1 ∧ !x.cont ∧ x.src = src ∧ ok x.arg then
      c.modTr t fun x => { x with pending := true }
    else c) c

/-! ## Misses (R436, R437, R440) -/

/-- Sends DEADLINE of kind `kind` for chain `n` and SID `sid` (R440). -/
def Chip.engDeadline (c : Chip) (e : Eng) (kind n sid : Nat) : Chip :=
  let arg := n + sid * 2 ^ 8 + (c.frameNum.toNat % 4096) * 2 ^ 20
  (c.fault (.loop e) 0 1 0 kind arg).traceEvent 3 (fun a => a % 4 = e.val)

/-- Chain `n` is missed; the first miss of a frame counts and reports (R437). -/
def Chip.engMiss (c : Chip) (e : Eng) (kind n sid : Nat) : Chip :=
  let p : Page := .loop e
  let x := c.en e
  let c := if n = 0 then c else c.modEn e fun x => { x with missed := n :: x.missed }
  if x.reported.contains n then c
  else
    let c := (c.modEn e fun x => { x with reported := n :: x.reported }).dlMiss p
    let c := (c.put p Reg.LOOP.MISS_LAST_CHAIN n).put p Reg.LOOP.MISS_LAST_KIND kind
    ((c.put p Reg.LOOP.MISS_LAST_FRAME c.frameNum.toNat).event p 2).engDeadline e kind n sid

/-! ## Inputs (R420, R422, R423, R429) -/

/-- Permitted age in frames of AGE (R429). -/
def maxAge (a : Nat) : Option Nat :=
  match a with
  | 0 => some 0
  | 1 => some 1
  | 2 => some 3
  | _ => none

/-- What a READ finds: a value, or the kind of the miss (1 STALE, 2 INVALID). -/
abbrev Found := Except Nat Int

/-- Frames since `f`. -/
def Chip.ageOf (c : Chip) (f : Nat) : Nat := c.frameNum.toNat - f

/-- The age is within what AGE allows. -/
def ageOk (age : Nat) (a : Nat) : Bool :=
  match maxAge a with
  | some m => age ≤ m
  | none => true

/-- A photodetector sample as Q1.31 (R422). -/
def pdValue (s : ServoSet) (ch : Nat) : Int := ((s.pd.getD ch 0 % 4096 : Nat) : Int) * 524288

/-- What set `s` carries for channel or word `ch`: none where it carries nothing, an inner none where it is invalid. -/
def ServoSet.chan (s : ServoSet) (ch : Nat) : Option (Option Int) :=
  if ch < 12 then
    if s.pd.isEmpty then none
    else some (if s.valid || bit s.held ch then some (pdValue s ch) else none)
  else assocGet ch s.words

/-- What set `s` carries for channel or word `ch`, valid or not. -/
def ServoSet.raw (s : ServoSet) (ch : Nat) : Option Int :=
  if ch < 12 then (if s.pd.isEmpty then none else some (pdValue s ch)) else (assocGet ch s.words).map (·.getD 0)

/-- A found channel as a value or a miss. -/
def foundOf : Option (Option Int) → Found
  | none => .error 1
  | some none => .error 2
  | some (some v) => .ok v

/-- A photodetector channel or measurement word of a head under SET and AGE (R429, R477). -/
def Chip.readPd (c : Chip) (h : Port) (ch set age : Nat) : Found :=
  let sets := (c.sets.get h).filter (fun s => (s.chan ch).isSome)
  let now := c.frameNum.toNat
  if set ≤ 4 then
    match sets.find? (fun s => s.frame = now ∧ s.k = set) with
    | none => .error 1
    | some s => foundOf (s.chan ch)
  else if set = 5 then
    match sets.head? with
    | none => .error 1
    | some s => if !ageOk (c.ageOf s.frame) age then .error 1 else foundOf (s.chan ch)
  else
    let prev := (sets.filter (fun s => s.frame + 1 = now)).filterMap (fun s => (s.chan ch).join)
    if prev.isEmpty then .error 1 else .ok (divRound (prev.foldl (· + ·) 0) (prev.length : Nat))

/-- Any other input under AGE. -/
def Chip.readMeas (c : Chip) (l : List (Nat × Meas)) (sid age : Nat) : Found :=
  match assocGet sid l with
  | none => .error 1
  | some m =>
    if !ageOk (c.ageOf m.frame) age then .error 1
    else if m.valid then .ok (sext 32 m.value.toNat) else .error 2

/-- The value of an input SID (R420, R429). -/
def Chip.readSid (c : Chip) (sid set age : Nat) : Found :=
  if sid < 0x200 then
    match unitOf 16 0 (sid / 32) with
    | some h => c.readPd h (sid % 32) set age
    | none => .error 1
  else if 0x300 ≤ sid ∧ sid < 0x400 then c.readMeas c.exch sid age
  else c.readMeas c.meas sid age

/-- Makes `w` the newest value of an input. -/
def Chip.putMeas (c : Chip) (sid : Nat) (w : Nat) (valid : Bool) : Chip :=
  { c with meas := assocSet sid ⟨c.frameNum.toNat, BitVec.ofNat 32 w, valid⟩ c.meas }

/-! ## Outputs (R417, R421, R425, R430) -/

/-- The converted value of output `sid` for a Q1.31 value (R421, R430). -/
def convOut (sid : Nat) (v : Int) : Int :=
  if 0x400 ≤ sid ∧ sid < 0x600 then
    if sid % 32 < 5 then satI 16 (divRound v 65536) else clampI 0 65535 (divRound v 32768)
  else v

/-- The engine that holds output `sid`. -/
def Chip.sidOwner (c : Chip) (sid : Nat) : Option Eng :=
  if sid < 0x600 then c.ownerOf Reg.LOOP.OWN_HEAD_HEADS ((sid - 0x400) / 32)
  else if sid < 0x640 then c.ownerOf Reg.LOOP.OWN_HEAD_SPINS ((sid - 0x600) / 8)
  else c.ownerOf Reg.LOOP.OWN_AXIS_AXES ((sid - 0x640) / 8)

/-- Sends a converted value to its island; only the output's holder does (R417). -/
def Chip.sendOut (c : Chip) (e : Eng) (sid : Nat) (v : Int) : Chip :=
  if c.sidOwner sid ≠ some e then c
  else if sid < 0x600 then
    match unitOf 16 0 ((sid - 0x400) / 32) with
    | some h =>
      let g := c.groups.get h
      { c with groups := c.groups.set h.val { g with fields := g.fields.set (sid % 32) v } h.isLt }
    | none => c
  else if sid < 0x640 then
    if sid % 8 = 0 then { c with spinDem := assocSet ((sid - 0x600) / 8) (BitVec.ofNat 32 (toBits 32 v)) c.spinDem } else c
  else
    match unitOf 22 0 ((sid - 0x640) / 8) with
    | some a => if sid % 8 = 0 then c.axTargetWord a (toBits 32 v) else c
    | none => c

/-- WRITE to an output: LAST takes the value and it is sent (R430). -/
def Chip.writeOut (c : Chip) (e : Eng) (sid : Nat) (v : Int) : Chip :=
  let w := convOut sid v
  (c.modEn e fun x => x.setWord (0x9000 + (sid - 0x400)) (toBits 32 w)).sendOut e sid w

/-- WRITE of a missed chain: LAST is sent again (R436). -/
def Chip.writeLast (c : Chip) (e : Eng) (sid : Nat) : Chip :=
  c.sendOut e sid (sext 32 ((c.en e).word (0x9000 + (sid - 0x400))))

/-! ## Operations -/

/-- BIQUAD of section `n` of bank `b` with input `v` (R431, R432): the output and the engine with the states advanced. -/
def EngSt.biquad (x : EngSt) (b n : Nat) (v : Int) : Int × EngSt :=
  let base := 0x4000 * b + 0x0800 + 8 * n
  let cf := fun (k : Nat) => sext 32 (x.word (base + k))
  let cfg := x.word (base + 5)
  let st := fun (k : Nat) => sext 32 (x.word (0x8000 + 4 * n + k))
  if bit cfg 3 then (v, x)
  else
    let pr := fun (a d : Int) => divRound (a * d) 4
    let sum := pr (cf 0) v + pr (cf 1) (st 0) + pr (cf 2) (st 1) - pr (cf 3) (st 2) - pr (cf 4) (st 3)
    let y := satI 32 (divRound (sum * (2 ^ (cfg % 4) : Nat)) 536870912)
    let x' := { x with before := assocSet n [Sparse.get 0 x.mem (0x8000 + 4 * n), Sparse.get 0 x.mem (0x8001 + 4 * n),
                                             Sparse.get 0 x.mem (0x8002 + 4 * n), Sparse.get 0 x.mem (0x8003 + 4 * n)] x.before }
    let set := fun (z : EngSt) (k : Nat) (u : Int) => z.setWord (0x8000 + 4 * n + k) (toBits 32 u)
    (y, set (set (set (set x' 1 (st 0)) 0 v) 3 (st 2)) 2 y)

/-- Section `n` returns to its state before its last BIQUAD of the frame (R434). -/
def EngSt.unwind (x : EngSt) (n : Nat) : EngSt :=
  match assocGet n x.before with
  | some [a, b, d, f] =>
    (((x.setWord (0x8000 + 4 * n) a.toNat).setWord (0x8001 + 4 * n) b.toNat).setWord (0x8002 + 4 * n) d.toNat).setWord
      (0x8003 + 4 * n) f.toNat
  | _ => x

/-- The enabled inputs of node `n`: number, local word, windup section (R433, R458). -/
def EngSt.nodeInputs (x : EngSt) (b n : Nat) : List (Nat × Nat × Nat) :=
  let base := 0x4000 * b + 0x1900 + 4 * n
  let w0 := x.word base
  let w1 := x.word (base + 1)
  let w2 := x.word (base + 2)
  let w3 := x.word (base + 3)
  [(0, slice 0 10 w1, slice 10 10 w2), (1, slice 10 10 w1, slice 20 10 w2), (2, slice 20 10 w1, slice 0 10 w3),
    (3, slice 0 10 w2, slice 10 10 w3)].filter (fun i => bit w0 i.1)

/-- The input a node selects; the lowest-numbered one on a tie (R434). -/
def selectInput (mx : Bool) : List (Nat × Int) → Option (Nat × Int)
  | [] => none
  | i :: r =>
    match selectInput mx r with
    | none => some i
    | some j => if (if mx then i.2 < j.2 else j.2 < i.2) then some j else some i

/-- MINSEL (R434). -/
def EngSt.minsel (x : EngSt) (b q n : Nat) : EngSt :=
  let ins := x.nodeInputs b n
  let mx := bit (x.word (0x4000 * b + 0x1900 + 4 * n)) 4
  match selectInput mx (ins.map (fun i => (i.1, x.loc i.2.1))) with
  | none => x
  | some s =>
    let x := (x.setLoc q s.2).setWord (0x8C00 + n) s.1
    (ins.filter (fun i => i.1 ≠ s.1 ∧ i.2.2 < 512)).foldl (fun x i => x.unwind i.2.2) x

/-- P × 2^n rounded (R428). -/
def shiftRound (v : Int) (n : Int) : Int := if 0 ≤ n then v * (2 ^ n.toNat : Nat) else divRound v (2 ^ (-n).toNat : Nat)

/-- What an entry does when its chain is neither missed nor held, by operation (R428). -/
def Chip.engOp (c : Chip) (e : Eng) (t : Entry) : Chip :=
  let b := c.engBank e
  match t.op with
  | 1 =>
    match c.readSid t.r (t.arg % 8) (slice 3 2 t.arg) with
    | .ok v => c.modEn e fun x => x.setLoc t.q v
    | .error k => c.engMiss e k t.chain t.r
  | 2 => c.modEn e fun x =>
      let y := x.biquad b (t.r % 512) (x.loc t.p)
      y.2.setLoc t.q y.1
  | 3 => c.modEn e fun x => x.setLoc t.r (x.loc t.p + x.loc t.q)
  | 4 => c.modEn e fun x => x.setLoc t.r (x.loc t.p - x.loc t.q)
  | 5 => c.modEn e fun x => x.setLoc t.r (divRound (x.loc t.p * x.loc t.q) 2147483648)
  | 6 => c.modEn e fun x => x.setLoc t.q (shiftRound (x.loc t.p) (sext 8 t.arg))
  | 7 => c.modEn e fun x =>
      let base := 0x4000 * b + 0x1980 + 2 * (t.r % 64)
      x.setLoc t.q (min (max (x.loc t.p) (sext 32 (x.word base))) (sext 32 (x.word (base + 1))))
  | 8 => c.modEn e fun x => x.minsel b t.q (t.r % 32)
  | 9 =>
    let v := (c.en e).loc t.p
    if t.r < 0x400 then c.modEn e fun x => { x with exch := assocSet t.r (BitVec.ofNat 32 (toBits 32 v)) x.exch }
    else c.writeOut e t.r v
  | 10 =>
    match unitOf 16 0 (t.r % 16) with
    | some h =>
      if c.headOwner h = some e then { c with groups := c.groups.set h.val { c.groups.get h with closed := true } h.isLt } else c
    | none => c
  | 11 => c.traceEvent 2 (fun a => a % 4 = e.val ∧ slice 2 3 a = t.arg % 8)
  | _ => c

/-- What an entry of a missed or held chain does (R436). -/
def Chip.engOpMissed (c : Chip) (e : Eng) (t : Entry) : Chip :=
  match t.op with
  | 8 => c.engOp e t
  | 9 => if t.r < 0x400 then c else c.writeLast e t.r
  | 10 => c.engOp e t
  | 11 => c.engOp e t
  | _ => c

/-- Trace nodes that capture at the end of entry `i` of engine `e` (R449). -/
def Chip.traceCatch (c : Chip) (e : Eng) (i : Nat) (value : Chip → TraceNode → Word) : Chip :=
  allEngs.foldl (fun c t =>
    let hit := ((c.tr t).nodes.zipIdx).filter (fun n => n.1.kind ≠ 3 ∧ n.1.eng = e.val ∧ n.1.capture = i)
    hit.foldl (fun c n => c.modTr t fun x => { x with caught := assocSet n.2 (value c n.1) x.caught }) c) c

/-- The value a trace node names now (R449). -/
def Chip.nodeValue (c : Chip) (n : TraceNode) : Word :=
  match unitOf 4 0 n.eng with
  | none => 0
  | some e =>
    match n.kind with
    | 0 => Sparse.get 0 (c.en e).mem (0x8800 + n.addr % 1024)
    | 1 =>
      if n.addr < 0x200 then
        match unitOf 16 0 (n.addr / 32) with
        | some h =>
          match (c.sets.get h).findSome? (fun s => s.raw (n.addr % 32)) with
          | some v => BitVec.ofNat 32 (toBits 32 v)
          | none => 0
        | none => 0
      else
        match assocGet n.addr (if 0x300 ≤ n.addr ∧ n.addr < 0x400 then c.exch else c.meas) with
        | some m => m.value
        | none => 0
    | _ => Sparse.get 0 (c.en e).mem (0x9000 + (n.addr - 0x400))

/-- The next entry of engine `e` executes if its operation is `op` (R426); `ecc` is 0, 1 for a single-bit error corrected on
use, 2 for a double-bit error of the entry or of its section (R441). -/
def Chip.engStep (c : Chip) (e : Eng) (op : Nat) (ecc : Nat) : Chip :=
  let p : Page := .loop e
  let x := c.en e
  let t := x.entry (c.engBank e) x.next
  if !c.engRuns e ∨ 1024 ≤ x.next ∨ t.op ≠ op then c
  else
    let i := x.next
    let c := c.modEn e fun x => { x with next := x.next + 1 }
    let c := if ecc = 1 then c.inc p Reg.LOOP.ECC_STAT_CORR else c
    let c :=
      if ecc = 2 then
        let c := c.inc p Reg.LOOP.ECC_STAT_UNCORR
        let c := if t.chain = 0 then c else c.modEn e fun x => { x with missed := t.chain :: x.missed }
        (c.engDeadline e 4 t.chain t.r).fault0 p 2 1 1
      else if (c.en e).missed.contains t.chain ∨ c.chainHeld e t.chain then
        (c.modEn e fun x => { x with missed := if t.chain = 0 then x.missed else t.chain :: x.missed }).engOpMissed e t
      else c.engOp e t
    c.traceCatch e i Chip.nodeValue

/-- R429: READ. -/
def execOpRead (e : Eng) (ecc : Fin 3) (s : State) : Out := s.to fun c => c.engStep e 1 ecc.val
/-- R431: BIQUAD. -/
def execOpBiquad (e : Eng) (ecc : Fin 3) (s : State) : Out := s.to fun c => c.engStep e 2 ecc.val
/-- R428: ADD. -/
def execOpAdd (e : Eng) (ecc : Fin 3) (s : State) : Out := s.to fun c => c.engStep e 3 ecc.val
/-- R428: SUB. -/
def execOpSub (e : Eng) (ecc : Fin 3) (s : State) : Out := s.to fun c => c.engStep e 4 ecc.val
/-- R428: MUL. -/
def execOpMul (e : Eng) (ecc : Fin 3) (s : State) : Out := s.to fun c => c.engStep e 5 ecc.val
/-- R428: SHIFT. -/
def execOpShift (e : Eng) (ecc : Fin 3) (s : State) : Out := s.to fun c => c.engStep e 6 ecc.val
/-- R428: LIMIT. -/
def execOpLimit (e : Eng) (ecc : Fin 3) (s : State) : Out := s.to fun c => c.engStep e 7 ecc.val
/-- R434: MINSEL. -/
def execOpMinsel (e : Eng) (ecc : Fin 3) (s : State) : Out := s.to fun c => c.engStep e 8 ecc.val
/-- R430: WRITE. -/
def execOpWrite (e : Eng) (ecc : Fin 3) (s : State) : Out := s.to fun c => c.engStep e 9 ecc.val
/-- R438: GCLOSE. -/
def execOpGclose (e : Eng) (ecc : Fin 3) (s : State) : Out := s.to fun c => c.engStep e 10 ecc.val
/-- R428: MARK. -/
def execOpMark (e : Eng) (ecc : Fin 3) (s : State) : Out := s.to fun c => c.engStep e 11 ecc.val
/-- R428: NOP. -/
def execOpNop (e : Eng) (ecc : Fin 3) (s : State) : Out := s.to fun c => c.engStep e 0 ecc.val

/-! ## The frame boundary (R416, R424, R425, R448) -/

/-- The engine's part of a frame boundary: entry 0 next, waiting writes and exchange words take effect. -/
def Chip.engFrame (c : Chip) (e : Eng) : Chip :=
  let x := c.en e
  let c := { c with exch := x.exch.foldl (fun l (w : Nat × Word) => assocSet w.1 ⟨c.frameNum.toNat - 1, w.2, true⟩ l) c.exch }
  c.modEn e fun x =>
    let x := x.waiting.foldl (fun (y : EngSt) (w : Nat × Word) => y.setWord w.1 w.2.toNat) x
    { x with waiting := [], exch := [], missed := [], reported := [], before := []
             next := if c.engRuns e then 0 else 1024 }

/-- Setpoints written in the frame that ends come into use, and every group opens anew (R425, R438). -/
def Chip.outFrame (c : Chip) : Chip :=
  let c := allSpins.foldl (fun c s =>
    match assocGet s.val c.spinDem with
    | some w => c.spSetpoint s w.toNat
    | none => c) c
  { c with spinDem := [], groups := c.groups.map (fun g => { g with closed := false }) }

/-- Spindle and axis measurement words latch at the start of the frame (R423, R532, R569). -/
def Chip.latchMeas (c : Chip) : Chip :=
  let c := allSpins.foldl (fun c s => (List.range 8).foldl (fun c k =>
    let w := c.spWord s k
    c.putMeas (0x200 + 8 * s.val + k) w.1 w.2) c) c
  allAxes.foldl (fun c a => (List.range 8).foldl (fun c k =>
    let w := c.axWord a k
    c.putMeas (0x240 + 8 * a.val + k) w.1 w.2) c) c

/-- The engine stops or has stopped (R418): its outputs cease and ARM of its heads falls. -/
def Chip.engStopped (c : Chip) (e : Eng) : Chip :=
  ((c.modEn e fun x => { x with next := 1024 }).putB (.loop e) Reg.LOOP.ENG_STAT_RUNNING (c.engRuns e)).holdArms

/-- RUNNING follows (R454). -/
def Chip.engStarted (c : Chip) (e : Eng) : Chip := c.putB (.loop e) Reg.LOOP.ENG_STAT_RUNNING (c.engRuns e)

/-- A commit of a LOOP page has applied: the new bank governs; sections that clear on a swap start at 0 (R447); ownership
may have moved (R417, R418). -/
def Chip.engCommit (c : Chip) (e : Eng) : Chip :=
  let p : Page := .loop e
  let b := c.rd p Reg.LOOP.ENG_CTL_BANK
  let c := if b = c.engBank e then c
    else (c.put p Reg.LOOP.ENG_STAT_ACTIVE_BANK b).modEn e fun x =>
      let clr := (List.range 512).filter (fun n => bit (x.word (0x4000 * b + 0x0805 + 8 * n)) 2)
      { x with mem := clr.foldl (fun m n => Sparse.dropRange (0x8000 + 4 * n) (0x8004 + 4 * n) m) x.mem }
  c.ownConflicts.holdArms

/-- Soft reset of a LOOP page (R453): banks return to all-NOP with VALID 1; sections' states and work memory stay. -/
def Chip.engSoftReset (c : Chip) (e : Eng) : Chip :=
  let p : Page := .loop e
  let c := c.modEn e fun x => { x with mem := Sparse.dropRange 0 0x8000 x.mem, next := 1024, waiting := [] }
  (((c.put p Reg.LOOP.ENG_STAT_VALID0 1).put p Reg.LOOP.ENG_STAT_VALID1 1).put p Reg.LOOP.ENG_STAT_VALIDATING 0).put p
    Reg.LOOP.ENG_STAT_COPYING 0

/-! ## Banks (R442 to R448) -/

/-- VALID of bank `b`. -/
def validFld (b : Nat) : Fld := if b = 0 then Reg.LOOP.ENG_STAT_VALID0 else Reg.LOOP.ENG_STAT_VALID1

/-- R448: COPY. -/
def Chip.bankCopy (c : Chip) (e : Eng) : Chip :=
  let p : Page := .loop e
  if c.flag p Reg.LOOP.ENG_STAT_VALIDATING || c.flag p Reg.LOOP.ENG_STAT_COPYING then c
  else c.put p Reg.LOOP.ENG_STAT_COPYING 1

/-- R448. -/
def execBankCopy (r : Requester) (e : Eng) (s : State) : Out := s.to fun c => c.write r (.loop e) fun c => c.bankCopy e

/-- The words of bank `b` moved to bank `1 - b`. -/
def EngSt.copyBank (x : EngSt) (b : Nat) : EngSt :=
  let from' := 0x4000 * b
  let dst := 0x4000 * (1 - b)
  let src := (x.mem.filter (fun w => from' ≤ w.1 ∧ w.1 < from' + 0x4000)).map (fun w => (w.1 - from' + dst, w.2))
  { x with mem := Sparse.copyRange dst (dst + 0x4000) x.mem src }

/-- R448: the copy completes. -/
def execBankCopyDone (e : Eng) (s : State) : Out :=
  s.to fun c =>
    let p : Page := .loop e
    if c.flag p Reg.LOOP.ENG_STAT_COPYING then
      let b := c.engBank e
      let c := (c.modEn e fun x => x.copyBank b).put p (validFld (1 - b)) (c.rd p (validFld b))
      (c.put p Reg.LOOP.ENG_STAT_COPYING 0).event p 1
    else c

/-- R444: VALIDATE begins. -/
def Chip.bankValidate (c : Chip) (e : Eng) : Chip :=
  let p : Page := .loop e
  if c.flag p Reg.LOOP.ENG_STAT_VALIDATING || c.flag p Reg.LOOP.ENG_STAT_COPYING then c
  else
    (c.put p Reg.LOOP.ENG_STAT_VALIDATING 1).modEn e fun x =>
      { x with valBank := c.rd p Reg.LOOP.ENG_CTL_VAL_BANK, valTouched := false }

/-- R444. -/
def execBankValidate (r : Requester) (e : Eng) (valBank : Fin 2) (s : State) : Out :=
  s.to fun c => c.write r (.loop e) fun c => (c.put (.loop e) Reg.LOOP.ENG_CTL_VAL_BANK valBank.val).bankValidate e

/-- Cycles of an operation (R428). -/
def opCycles (op : Nat) : Nat :=
  match op with
  | 0 => 1
  | 2 => 4
  | 8 => 4
  | 11 => 1
  | _ => 2

/-- Operands in range (R420, R421, R428, R429). -/
def operandsOk (t : Entry) : Bool :=
  match t.op with
  | 1 => t.arg % 8 ≠ 7 && (t.r < 0x2FD || (0x300 ≤ t.r && t.r < 0x400))
  | 2 => t.r < 512
  | 3 => t.r < 1024
  | 4 => t.r < 1024
  | 5 => t.r < 1024
  | 6 => decide (-31 ≤ sext 8 t.arg) && decide (sext 8 t.arg ≤ 31)
  | 7 => t.r < 64
  | 8 => t.r < 32
  | 9 => (0x300 ≤ t.r && t.r < 0x600 && (t.r < 0x400 || t.r % 32 < 20)) || (0x600 ≤ t.r && t.r < 0x6F0)
  | 10 => t.r < 16
  | 11 => t.arg < 8
  | _ => true

/-- A shadow ownership bit of engine `e` for output `sid`. -/
def Chip.ownsShadow (c : Chip) (e : Eng) (sid : Nat) : Bool :=
  if sid < 0x600 then bit (c.shd (.loop e) Reg.LOOP.OWN_HEAD_HEADS) ((sid - 0x400) / 32)
  else if sid < 0x640 then bit (c.shd (.loop e) Reg.LOOP.OWN_HEAD_SPINS) ((sid - 0x600) / 8)
  else bit (c.shd (.loop e) Reg.LOOP.OWN_AXIS_AXES) ((sid - 0x640) / 8)

/-- What a validation carries from entry to entry: the end cycle, sections with a BIQUAD, heads written since their last
GCLOSE, and the first failure. -/
structure ValAcc where
  stop : Nat := 0
  secs : List Nat := []
  openHeads : List (Nat × Nat) := []
  bad : Option (Nat × Nat) := none

/-- Checks one entry (R444): the failures are judged by entry and then in the order of the RESULT codes (DEDUCED, log 35). -/
def Chip.valEntry (c : Chip) (e : Eng) (x : EngSt) (b : Nat) (a : ValAcc) (i : Nat) : ValAcc :=
  let t := x.entry b i
  let start := if t.at' = 0xFFF then a.stop else max t.at' a.stop
  let stop := start + opCycles t.op
  let isHead := t.op = 9 ∧ 0x400 ≤ t.r ∧ t.r < 0x600
  let isOther := t.op = 9 ∧ 0x600 ≤ t.r
  let nodeBad := t.op = 8 ∧ ((x.nodeInputs b t.r).isEmpty ∨
    (x.nodeInputs b t.r).any (fun n => n.2.2 ≠ 0x3FF ∧ !a.secs.contains n.2.2))
  let limBad := t.op = 7 ∧ sext 32 (x.word (0x4000 * b + 0x1981 + 2 * t.r)) < sext 32 (x.word (0x4000 * b + 0x1980 + 2 * t.r))
  let code :=
    if 12 ≤ t.op then 2
    else if !operandsOk t then 3
    else if 2450 < stop then 4
    else if (isHead ∨ t.op = 10) ∧ 2100 < stop then 5
    else if isOther ∧ 2400 < stop then 6
    else if (isHead ∨ isOther) ∧ !c.ownsShadow e t.r then 7
    else if decide nodeBad then 8
    else if decide limBad then 9
    else 0
  let hd := (t.r - 0x400) / 32
  { stop := stop
    secs := if t.op = 2 then t.r :: a.secs else a.secs
    openHeads := if isHead then assocSet hd i a.openHeads else if t.op = 10 then assocDel t.r a.openHeads else a.openHeads
    bad := match a.bad with
      | some f => some f
      | none => if code = 0 then none else some (code, i) }

/-- Another engine's shadow ownership shares a unit with this engine's (R444). -/
def Chip.shadowOverlap (c : Chip) (e : Eng) : Bool :=
  allEngs.any fun e' =>
    let o := fun (f : Fld) => c.shd (.loop e) f &&& c.shd (.loop e') f != 0
    e' ≠ e && (o Reg.LOOP.OWN_HEAD_HEADS || o Reg.LOOP.OWN_HEAD_SPINS || o Reg.LOOP.OWN_AXIS_AXES)

/-- RESULT, failing entry and end cycle of a validation (R444, R454). -/
def Chip.valResult (c : Chip) (e : Eng) (b : Nat) : Nat × Nat × Nat :=
  let x := c.en e
  let a := (List.range 1024).foldl (fun a i => c.valEntry e x b a i) {}
  let pairs := (List.range 64).find? fun n =>
    decide (sext 32 (x.word (0x4000 * b + 0x1981 + 2 * n)) < sext 32 (x.word (0x4000 * b + 0x1980 + 2 * n)))
  let r := match a.bad with
    | some f => f
    | none =>
      if c.shadowOverlap e then (7, 0)
      else
        match pairs with
        | some n => (9, n)
        | none =>
          match a.openHeads with
          | [] => (1, 0)
          | h :: _ => (10, h.2)
  (r.1, r.2, min 4095 a.stop)

/-- R444: validation ends. -/
def execBankValidateDone (e : Eng) (s : State) : Out :=
  s.to fun c =>
    let p : Page := .loop e
    if c.flag p Reg.LOOP.ENG_STAT_VALIDATING then
      let b := (c.en e).valBank
      let r := if (c.en e).valTouched then (11, 0, c.rd p Reg.LOOP.ENG_STAT_END_CYCLE) else c.valResult e b
      let c := (c.put p Reg.LOOP.ENG_STAT_RESULT r.1).put p Reg.LOOP.ENG_STAT_END_CYCLE r.2.2
      let c := if r.1 = 1 then c.put p (validFld b) 1 else c.put p Reg.LOOP.VAL_DETAIL_ENTRY r.2.1
      (c.put p Reg.LOOP.ENG_STAT_VALIDATING 0).event p 0
    else c

/-- The page is armed or has a commit pending. -/
def Chip.commitOpen (c : Chip) (p : Page) : Bool := c.frozen p || c.flag p Reg.HDR.SHADOW_CTL_ARMED

/-- An address that holds a word of the map (R457). -/
def engMapped (a : Nat) : Bool :=
  a < 0x8000 && a % 0x4000 < 0x1A00 || (0x8000 ≤ a && a < 0x8C20) || (0x9000 ≤ a && a < 0x9300)

/-- How many low bits of the word at an address hold fields; the reserved ones read 0 (R457, R458). -/
def engBits (a : Nat) : Nat :=
  if 0x8000 ≤ a then (if 0x8C00 ≤ a && a < 0x8C20 then 2 else 32)
  else
    let o := a % 0x4000
    if o < 0x0800 then 32
    else if o < 0x1800 then (if o % 8 < 5 then 32 else if o % 8 = 5 then 4 else 0)
    else if o < 0x1900 then 8
    else if o < 0x1980 then (if o % 4 = 0 then 5 else if o % 4 = 3 then 20 else 30)
    else 32

/-- A MEM_DATA write (R443, R444, R448, R457, R458). -/
def Chip.engMemWrite (c : Chip) (e : Eng) (a w : Nat) : Chip :=
  let p : Page := .loop e
  let v := w % 2 ^ engBits a
  if !engMapped a ∨ 0x9000 ≤ a then c
  else if a < 0x8000 then
    let b := a / 0x4000
    if b = c.engBank e ∨ c.commitOpen p then c.put p Reg.LOOP.ENG_STAT_MEM_REFUSED 1
    else
      let c := c.modEn e fun x => { x.setWord a v with valTouched := x.valTouched || x.valBank == b }
      c.put p (validFld b) 0
  else c.modEn e fun x => { x with waiting := x.waiting ++ [(a, BitVec.ofNat 32 v)] }

/-- ADDR increments after a MEM_DATA access while AUTOINC is 1 (R457). -/
def Chip.engAutoInc (c : Chip) (e : Eng) : Chip :=
  let p : Page := .loop e
  if c.flag p Reg.LOOP.MEM_ADDR_AUTOINC then c.put p Reg.LOOP.MEM_ADDR_ADDR (c.rd p Reg.LOOP.MEM_ADDR_ADDR + 1) else c

/-- A MEM_DATA read by requester `r`. -/
def Chip.engMemRead (c : Chip) (r : Requester) (e : Eng) : Chip :=
  let a := c.rd (.loop e) Reg.LOOP.MEM_ADDR_ADDR
  let v := if engMapped a then (c.en e).word a else 0
  (c.answer r v).engAutoInc e

/-- R443: a MEM_DATA access; `w` is the word of a write, none for a read. -/
def execEngineMemAccess (r : Requester) (e : Eng) (w : Option Word) (s : State) : Out :=
  s.to fun c =>
    match w with
    | some v => c.write r (.loop e) fun c => (c.engMemWrite e (c.rd (.loop e) Reg.LOOP.MEM_ADDR_ADDR) v.toNat).engAutoInc e
    | none => c.readPort r (.loop e) fun c => c.engMemRead r e

/-- A write to a frozen shadow (R159). -/
def Chip.writeLost (c : Chip) (p : Page) : Chip := (c.put p Reg.HDR.SHADOW_CTL_WRITE_LOST 1).regFault 4

/-- OWN_HEAD or OWN_AXIS written with `v` (R445, R159). -/
def Chip.ownWrite (c : Chip) (e : Eng) (axes : Bool) (v : Nat) : Chip :=
  let p : Page := .loop e
  if c.frozen p then c.writeLost p
  else if c.flag p Reg.HDR.SHADOW_CTL_ARMED then c.fault0 p 1 1 0
  else
    let c := if axes then c.putSh p Reg.LOOP.OWN_AXIS_AXES v
      else (c.putSh p Reg.LOOP.OWN_HEAD_HEADS v).putSh p Reg.LOOP.OWN_HEAD_SPINS (v / 2 ^ 16)
    (c.put p Reg.LOOP.ENG_STAT_VALID0 0).put p Reg.LOOP.ENG_STAT_VALID1 0

/-- R445. -/
def execOwnershipWrite (r : Requester) (e : Eng) (axes : Bool) (v : Word) (s : State) : Out :=
  s.to fun c => c.write r (.loop e) fun c => c.ownWrite e axes v.toNat

/-- ENG_CTL.BANK written with `b` (R446, R159). -/
def Chip.bankWrite (c : Chip) (e : Eng) (b : Nat) : Chip :=
  let p : Page := .loop e
  if c.frozen p then c.writeLost p
  else if c.flag p Reg.HDR.SHADOW_CTL_ARMED ∧ !c.flag p (validFld b) then c.bankInvalid p
  else c.putSh p Reg.LOOP.ENG_CTL_BANK b

/-- R446. -/
def execBankSelectWrite (r : Requester) (e : Eng) (b : Fin 2) (s : State) : Out :=
  s.to fun c => c.write r (.loop e) fun c => c.bankWrite e b.val

/-! ## Trace units (R449 to R452) -/

/-- The page is enabled and takes new work (R144): only then does ARM start a recording (DEDUCED, log 192). -/
def Chip.traceReady (c : Chip) (t : Eng) : Bool := c.rd (.trace t) Reg.HDR.PAGE_STAT_STATE = 1

/-- R450: ARM. -/
def Chip.traceArm (c : Chip) (t : Eng) : Chip :=
  if !c.traceReady t then c else
  let p : Page := .trace t
  let node := fun (n : Nat) => (⟨c.rdI p Reg.TRACE.TR_NODE_KIND n, c.rdI p Reg.TRACE.TR_NODE_ENGINE n,
    c.rdI p Reg.TRACE.TR_NODE_ADDR n, c.rdI p Reg.TRACE.TR_NODE_CAPTURE n⟩ : TraceNode)
  let src := c.rd p Reg.TRACE.TR_CTL_TRIG_SRC
  let c := c.modTr t fun _ =>
    { nodes := (List.range 8).map node, src := if 7 ≤ src then 0 else src, arg := c.rd p Reg.TRACE.TR_CTL_TRIG_ARG
      edge := c.rd p Reg.TRACE.TR_CTL_EDGE, level := c.rdS p Reg.TRACE.TR_LEVEL_LEVEL, pre := c.rd p Reg.TRACE.TR_PRE_PRE
      decim := c.rd p Reg.TRACE.TR_DECIM_DECIM, cont := c.flag p Reg.TRACE.TR_CTL_MODE }
  (c.put p Reg.TRACE.TR_STAT_STATE 1).put p Reg.TRACE.TR_STAT_WRAPPED 0

/-- R450. -/
def execTraceArm (r : Requester) (t : Eng) (s : State) : Out :=
  s.to fun c => c.write r (.trace t) fun c => c.traceArm t

/-- R451: STOP: recording ends at the last sample. -/
def Chip.traceStop (c : Chip) (t : Eng) : Chip :=
  let p : Page := .trace t
  let st := c.rd p Reg.TRACE.TR_STAT_STATE
  if st = 1 ∨ st = 2 then
    ((c.put p Reg.TRACE.TR_STAT_STATE 3).put p Reg.TRACE.TR_STAT_TRIG_POS ((c.tr t).buf.length - 1)).event p 1
  else c

/-- R451. -/
def execTraceStop (r : Requester) (t : Eng) (s : State) : Out :=
  s.to fun c => c.write r (.trace t) fun c => c.traceStop t

/-- R450: FORCE triggers under every source. -/
def Chip.traceForce (c : Chip) (t : Eng) : Chip :=
  if c.rd (.trace t) Reg.TRACE.TR_STAT_STATE = 1 ∧ !(c.tr t).cont then c.modTr t fun x => { x with pending := true } else c

/-- R450. -/
def execTraceForce (r : Requester) (t : Eng) (s : State) : Out :=
  s.to fun c => c.write r (.trace t) fun c => c.traceForce t

/-- Node 0 crosses TR_LEVEL between two samples (R450). -/
def TraceSt.crosses (x : TraceSt) (new : Word) : Bool :=
  match x.buf with
  | (old :: _) :: _ =>
    let a := sext 32 old.toNat
    let b := sext 32 new.toNat
    let up := decide (a < x.level) && decide (x.level ≤ b)
    let dn := decide (x.level ≤ a) && decide (b < x.level)
    match x.edge with
    | 0 => up
    | 1 => dn
    | _ => up || dn
  | _ => false

/-- One sample (R449, R451): every node's value, and the trigger. -/
def Chip.traceSample (c : Chip) (t : Eng) : Chip :=
  let p : Page := .trace t
  let st := c.rd p Reg.TRACE.TR_STAT_STATE
  let x := c.tr t
  if (st ≠ 1 ∧ st ≠ 2) ∨ c.frameNum.toNat % (x.decim + 1) ≠ 0 then c
  else
    let vals := x.nodes.zipIdx.map fun n =>
      if n.1.capture < 0x400 then (assocGet n.2 x.caught).getD (c.nodeValue n.1) else c.nodeValue n.1
    let hit := st = 1 ∧ !x.cont ∧ (x.pending ∨ (x.src = 1 ∧ x.crosses (vals.headD 0)))
    let n := x.buf.length
    let c := c.putB p Reg.TRACE.TR_STAT_WRAPPED (c.flag p Reg.TRACE.TR_STAT_WRAPPED || n == 16384)
    let c := c.modTr t fun x => { x with buf := (vals :: x.buf).take 16384, left := x.left - 1 }
    if hit then
      let c := c.modTr t fun x => { x with left := 16383 - x.pre, pending := false, buf := x.buf.take (x.pre + 1) }
      let c := (c.put p Reg.TRACE.TR_STAT_STATE 2).put p Reg.TRACE.TR_STAT_TRIG_POS (min n x.pre)
      let c := (c.put p Reg.TRACE.TR_TRIG_FRAME_FRAME c.frameNum.toNat).put p Reg.TRACE.TR_TRIG_TB_LO_TB_LO c.frameStart
      let c := (c.put p Reg.TRACE.TR_TRIG_TB_HI_TB_HI (c.frameStart / 2 ^ 32)).event p 0
      let c := c.traceEvent 6 (fun a => a % 4 = t.val)
      if (c.tr t).left = 0 then (c.put p Reg.TRACE.TR_STAT_STATE 3).event p 1 else c
    else if st = 2 ∧ (c.tr t).left = 0 then (c.put p Reg.TRACE.TR_STAT_STATE 3).event p 1
    else c

/-- R449. -/
def execTraceSample (t : Eng) (s : State) : Out := s.to fun c => c.traceSample t

/-- R452: a read of TR_RD_DATA. A sample that was never stored, and one of a node that is off, is a free value (log 36). -/
def Chip.traceRead (c : Chip) (r : Requester) (t : Eng) : Chip :=
  let p : Page := .trace t
  let i := c.rd p Reg.TRACE.TR_RD_ADDR_INDEX
  let n := c.rd p Reg.TRACE.TR_RD_ADDR_NODE
  let x := c.tr t
  let off := match x.nodes[n]? with
    | some d => d.kind == 3
    | none => true
  let row := x.buf.reverse[i]?
  let v := match row, off with
    | some v, false => ((v.getD n 0).toNat, c)
    | _, _ => c.free 32
  (v.2.answer r v.1).put p Reg.TRACE.TR_RD_ADDR_INDEX (i + 1)

/-- R452. -/
def execTraceRead (r : Requester) (t : Eng) (s : State) : Out :=
  s.to fun c => c.readPort r (.trace t) fun c => c.traceRead r t

end Sys2Proof.Machine
end

