-- ==== Sys2Proof/Machine/Beam.lean ====
section
/-!
DEFINITION. The read channel of a beam at sector level: roles, segment and slot framing, decode results, outer code, delivery and
quality figures (chapters 05 and 07).
-/
namespace Sys2Proof.Machine

/-! ## Access -/

/-- Beam `b` of port `h`. -/
def Chip.bm (c : Chip) (h : Port) (b : BeamNo) : BeamSt := c.beams.get (beamIx h b)
/-- Changes a beam's own state. -/
def Chip.modBm (c : Chip) (h : Port) (b : BeamNo) (f : BeamSt → BeamSt) : Chip :=
  { c with beams := c.beams.set (beamIx h b).val (f (c.bm h b)) (beamIx h b).isLt }
/-- Port `h`'s own state. -/
def Chip.hd (c : Chip) (h : Port) : HeadSt := c.heads.get h
/-- Changes a port's own state. -/
def Chip.modHd (c : Chip) (h : Port) (f : HeadSt → HeadSt) : Chip := { c with heads := c.heads.set h.val (f (c.hd h)) h.isLt }

/-! ## Positions on the disc (R185, R187, R195, R196) -/

/-- Physical turn of data-order turn `t` on layer `l` (R184). -/
def physTurn (l t : Nat) : Nat := if l % 2 = 0 then t else 50028 - t
/-- Zone of a turn (R187). -/
def zoneOf (l t : Nat) : Nat := min 23 (physTurn l t / 2085)
/-- Radius in nm of spiral `j` at the start of servo field 0 (R185). -/
def radiusNm (l t j : Nat) : Nat := 16600000 + 210 * (4 * physTurn l t + (if l % 2 = 0 then j else 7 - j))
/-- Data periods from the start of slot 0 to the data window of field `f` of turn `t` (R195). -/
def windowStart (t f : Nat) : Nat := ((t - 16) * 1024 + f) * 6382
/-- The slot that starts in that data window, if one does (R196). -/
def slotAt (t f : Nat) : Option Nat :=
  if t < 16 then none
  else
    let s := windowStart t f
    let k := (s + 677631) / 677632
    if k * 677632 < s + 6382 ∧ k < 482176 then some k else none
/-- The turn in which slot `k` starts (R196). -/
def slotTurn (k : Nat) : Nat := 16 + k * 677632 / 6535168

/-! ## Roles (R293 to R297, R384) -/

/-- SPARE as it acts (R337). -/
def Chip.spareOf (c : Chip) (h : Port) : Nat := min 4 (c.rd (.head h) Reg.HEAD.BEAM_MAP_SPARE)
/-- The beam is live (R293). -/
def Chip.liveBeam (c : Chip) (h : Port) (b : Nat) : Bool := !bit (c.rd (.head h) Reg.HEAD.BEAM_MAP_RETIRED) b
/-- Live beams other than the spare (R293). -/
def Chip.workSet (c : Chip) (h : Port) : List Nat := (List.range 5).filter (fun b => c.liveBeam h b && b != c.spareOf h)
/-- Number of residues modulo 4 in the working set. -/
def Chip.workWidth (c : Chip) (h : Port) : Nat :=
  let w := c.workSet h
  ((List.range 4).filter (fun r => w.any (fun b => b % 4 = r))).length
/-- MODE of R293: 0 four-beam to 3 retired. -/
def Chip.mapMode (c : Chip) (h : Port) : Nat :=
  match c.workWidth h with
  | 4 => 0
  | 3 => 1
  | 2 => 2
  | _ => 3
/-- Window base w (R293). -/
def Chip.mapBase (c : Chip) (h : Port) : Nat := if c.mapMode h = 3 then 0 else (c.workSet h).headD 0

/-- The layer the port follows (R501). -/
def Chip.portLayer (c : Chip) (h : Port) : Nat := c.rd (.head h) Reg.HEAD.SRV_STAT_LAYER

/-- Trailing verify is possible and in use on the port (R384, R387, R410). -/
def Chip.trailing (c : Chip) (h : Port) : Bool :=
  let p : Page := .head h
  c.rd p Reg.HEAD.BEAM_MAP_RETIRED = 0 && c.spareOf h = (if c.portLayer h % 2 = 0 then 0 else 4)
    && c.rd p Reg.HEAD.WR_HCTL_VFY_MODE ≠ 1 && !c.flag p Reg.HEAD.WR_HSTAT_DEGRADED && (c.hd h).layerOpen.isSome

/-- The role a beam has by the map (R293, R295, R384); 1 working, 2 assist, 3 verify, 5 retired, 0 idle. -/
def Chip.mapRole (c : Chip) (h : Port) (b : BeamNo) : Nat :=
  let p : Page := .head h
  let swap := c.rd p Reg.HEAD.SRV_STAT_REV_SWAP
  let w := c.workSet h
  if !c.liveBeam h b.val then 5
  else if c.mapMode h = 3 then (if bit (c.rd p Reg.HEAD.BEAM_MAP_ASSIST) b.val then 2 else 0)
  else if w.contains b.val && !(c.mapMode h = 1 && w.contains 0 && w.contains 4 && b.val = (if (c.portLayer h + swap) % 2 = 0 then 0 else 4)) then 1
  else if c.trailing h && b.val = c.spareOf h then 3
  else if bit (c.rd p Reg.HEAD.BEAM_MAP_ASSIST) b.val || (w.contains b.val) then 2
  else 0

/-- RD_STAT.ROLE. -/
def Chip.beamRole (c : Chip) (h : Port) (b : BeamNo) : Nat := c.rd (.beam h b) Reg.BEAM.RD_STAT_ROLE

/-- The spiral a beam reads (R294). -/
def Chip.spiralOf (c : Chip) (h : Port) (b : BeamNo) (layer : Nat) : Nat :=
  let d := (b.val + 8 - c.mapBase h) % 4
  if layer % 2 = 0 then d else 3 - d

/-! ## Delivery (R330, R331) -/

/-- Ends the beam's current sector with a status (R331); the first end stands. -/
def Chip.endSector (c : Chip) (h : Port) (b : BeamNo) (st : Nat) : Chip :=
  c.modBm h b fun x => if x.slotKind = 1 ∧ x.ended.isNone then { x with ended := some st } else x

/-- The current sector passes on to its decode (R331). -/
def BeamSt.passSector (x : BeamSt) (layer : Nat) : BeamSt :=
  { x with
    passed := x.passed ++ [⟨x.slot, x.sector, x.turn, layer, x.ended, x.slotStart + 128 + 37632 * x.sector, x.probeSum, x.probeN⟩]
    sector := x.sector + 1, ended := none, probeSum := 0, probeN := 0 }

/-- Reading ends in the current sector, which is delivered with a status (R269, R296, R336); it goes on at a slot start. -/
def Chip.cutSector (c : Chip) (h : Port) (b : BeamNo) (st : Nat) : Chip :=
  let l := c.rd (.beam h b) Reg.BEAM.RD_STAT_LAYER
  (c.endSector h b st).modBm h b fun x => if x.slotKind = 1 then { x.passSector l with slotKind := 0 } else x

/-- Delivers one item over X8. -/
def Chip.deliver (c : Chip) (i : ReadItem) : Chip :=
  let h : Port := Fin.ofNat 16 i.port
  let b : BeamNo := Fin.ofNat 5 i.beam
  let c := { c with stripe := c.stripe ++ [{ i with checks := (c.bm h b).checks }] }
  c.modBm h b fun x => { x with checks := [] }

/-- An item at the beam's position. -/
def Chip.itemAt (c : Chip) (h : Port) (b : BeamNo) (layer slot sec st : Nat) : ReadItem :=
  { port := h.val, beam := b.val, side := (c.hd h).side, layer := layer, spiral := c.spiralOf h b layer, slot := slot, sec := sec
    status := st, seed := 0, sync := 0, iters := 0, changed := 0, payload := []
    verify := c.beamRole h b = 3 }

/-- The current layer of the beam. -/
def Chip.beamLayer (c : Chip) (h : Port) (b : BeamNo) : Nat := c.rd (.beam h b) Reg.BEAM.RD_STAT_LAYER

/-! ## Reading conditions (R298) -/

/-- Samples per link frame of a rate code (R246). -/
def rateS (r : Nat) : Nat := 128 - 8 * min r 4

/-- 1.05 ≤ T ≤ 2.00 with T = fs / f_bit; a surface is read at no more than 5,400 rpm (R189). -/
def Chip.bitRateOk (c : Chip) (h : Port) : Bool :=
  let n := (c.spSpeed h.spin).natAbs
  let slow := c.spTarget h.spin ≤ 5400
  let fs := rateS (c.hd h).rate * 5000000 * 60 * 256
  let fb := 6666240 * n
  105 * fb ≤ 100 * fs && fs ≤ 2 * fb && n ≠ 0 && slow

/-- STEP lies within 1.05 to 2.00 (Q2.30). -/
def stepOk (s : Nat) : Bool := 1127428915 ≤ s && s ≤ 2147483648

/-- COND_FAIL and STEP_RANGE follow (R298, R347). -/
def Chip.updCond (c : Chip) (h : Port) (b : BeamNo) : Chip :=
  let p : Page := .beam h b
  let s := stepOk (c.rd p Reg.BEAM.TR_NOM_STEP)
  (c.putB p Reg.BEAM.RD_STAT_COND_FAIL !(c.bitRateOk h && s)).putB p Reg.BEAM.TR_STAT_STEP_RANGE !s

/-- The beam's page or its HEAD page is quiescing or quiesced: no new work starts (R144, R278, R336). -/
def Chip.quiet (c : Chip) (h : Port) (b : BeamNo) : Bool :=
  2 ≤ c.rd (.beam h b) Reg.HDR.PAGE_STAT_STATE || c.rd (.head h) Reg.HDR.PAGE_STAT_STATE = 2
    || c.rd (.head h) Reg.HDR.PAGE_STAT_STATE = 3

/-- The beam reads (R298, R338). -/
def Chip.reads (c : Chip) (h : Port) (b : BeamNo) : Bool :=
  let p : Page := .beam h b
  let r := c.beamRole h b
  c.pageUp p && c.enabled p && c.flag p Reg.BEAM.RD_CTL_READ_EN && (r = 1 || r = 3) && !c.flag p Reg.BEAM.RD_STAT_COND_FAIL
    && c.linkState h = 3 && !c.headQuenched h

/-! ## Neighbour offsets (R310 to R312) -/

/-- Δ of one side (R310): separation `sep` in nm, T and the radius. -/
def neighbourDelta (sep : Int) (step : Int) (r : Nat) : Int :=
  divRound (sep * 6666240 * step * 1000000000) (1073741824 * 6283185307 * (r : Nat))

/-- The taps of one side as a list h_-3 to h_+3. -/
def Chip.xtTaps (c : Chip) (p : Page) (lo hi : Fld) : List Nat :=
  [c.rdI p lo 0, c.rdI p hi 0, c.rdI p lo 1, c.rdI p hi 1, c.rdI p lo 2, c.rdI p hi 2, c.rdI p lo 3]

/-- Sets the taps of one side. -/
def Chip.putXtTaps (c : Chip) (p : Page) (lo hi : Fld) (t : List Nat) : Chip :=
  (List.range 7).foldl (fun c k => c.putI p (if k % 2 = 0 then lo else hi) (k / 2) (t.getD k 0)) c

/-- One side's new offset and its taps (R310 to R312). -/
def Chip.sideOffset (c : Chip) (h : Port) (b : BeamNo) (sep d rng lo hi : Fld) : Chip :=
  let p : Page := .beam h b
  let x := c.bm h b
  let l := c.beamLayer h b
  let step : Int := (c.rd p Reg.BEAM.TR_NOM_STEP : Nat)
  let v := neighbourDelta (c.rdS p sep) (step + x.freq) (radiusNm l x.turn (c.spiralOf h b l))
  if 125 < v.natAbs then c.put p rng 1
  else
    let old := c.rdS p d
    let t := c.xtTaps p lo hi
    let t' := if v = old then t else if v = old + 1 then t.drop 1 ++ [0] else if v = old - 1 then (0 :: t).take 7
      else [0, 0, 0, 0, 0, 0, 0]
    ((c.put p rng 0).putS p d v).putXtTaps p lo hi t'

/-- NEIGHBOUR_OFFSET_UPDATE at servo field 0 (R310): both enabled sides. -/
def Chip.neighbourUpdate (c : Chip) (h : Port) (b : BeamNo) : Chip :=
  let p : Page := .beam h b
  let c := if c.flag p Reg.BEAM.XT_CFG_EN_L then
      c.sideOffset h b Reg.BEAM.XT_SEP_SEP_L Reg.BEAM.XT_STAT_DELTA_L Reg.BEAM.XT_STAT_RANGE_L
        Reg.BEAM.XT_TAP_L_H_LO Reg.BEAM.XT_TAP_L_H_HI
    else c
  if c.flag p Reg.BEAM.XT_CFG_EN_R then
    c.sideOffset h b Reg.BEAM.XT_SEP_SEP_R Reg.BEAM.XT_STAT_DELTA_R Reg.BEAM.XT_STAT_RANGE_R
      Reg.BEAM.XT_TAP_R_H_LO Reg.BEAM.XT_TAP_R_H_HI
  else c

/-! ## Segment counter and identity word (R294, R304, R318, R319) -/

/-- Timing lock is lost (R319): the sector ends, TIMING_LOSS counts and is sent; a margin scan starts anew (R334). -/
def Chip.timingLoss (c : Chip) (h : Port) (b : BeamNo) : Chip :=
  let p : Page := .beam h b
  let inSector := (c.bm h b).slotKind = 1
  let c := (c.put p Reg.BEAM.TR_STAT_LOCK 0).put p Reg.BEAM.RD_STAT_TIMING_LOCK 0
  let c := c.modBm h b fun x => { x with scan := [] }
  if inSector then ((c.endSector h b 8).inc p Reg.BEAM.QUAL_EVENTS_TIMING_LOSS).fault0 p 2 1 0 else c

/-- Segment lock is lost (R318, R319). -/
def Chip.segLoss (c : Chip) (h : Port) (b : BeamNo) : Chip :=
  let p : Page := .beam h b
  let c := if c.flag p Reg.BEAM.TR_STAT_LOCK then c.timingLoss h b else c
  (c.put p Reg.BEAM.RD_STAT_SEG_LOCK 0).endSector h b 8

/-- The servo mark of a field (R318). -/
def Chip.segMark (c : Chip) (h : Port) (b : BeamNo) (m : FieldMark) : Chip :=
  let p : Page := .beam h b
  let locked := c.flag p Reg.BEAM.RD_STAT_SEG_LOCK
  match findMark m.bits with
  | none =>
    let n := (c.bm h b).marksMissed + 1
    let c := c.modBm h b fun x => { x with marksMissed := n }
    if locked && 2 ≤ n then c.segLoss h b else c
  | some (d, _) =>
    let c := c.modBm h b fun x => { x with marksMissed := 0 }
    let w := identWord m.bits d
    if !locked then
      if identOk w then
        (c.modBm h b fun x => { x with field := identField w, per := 128 }).put p Reg.BEAM.RD_STAT_SEG_LOCK 1
      else c
    else if d = 0 then c
    else if d.natAbs ≤ 2 then
      ((c.modBm h b fun x => { x with per := (((x.per : Int) - d) % 6510).toNat, slotStart := x.slotStart + d }).inc p
        Reg.BEAM.QUAL_EVENTS_SEG_SLIP).fault0 p 2 2 0
    else c.segLoss h b

/-- The identity word of a field (R294, R304). -/
def Chip.segIdent (c : Chip) (h : Port) (b : BeamNo) (w : Nat) : Chip :=
  let p : Page := .beam h b
  if !identOk w then c
  else
    let l := c.beamLayer h b
    let bad := identSpiral w ≠ c.spiralOf h b (identLayer w)
    let n := if bad then (c.bm h b).spiralBad + 1 else 0
    let c := c.modBm h b fun x => { x with spiralBad := n % 4 }
    let c := if n = 4 then (c.fault0 p 2 3 0).endSector h b 13 else c
    let x := c.bm h b
    if identLayer w ≠ l ∨ identTurn w ≠ x.turn % 64 then
      c.modBm h b fun x => { x with
        seeded := true, turn := x.turn - x.turn % 64 + identTurn w
        newLayer := if identLayer w = l then x.newLayer else some (identLayer w)
        newZone := some (min 23 (c.rd p Reg.BEAM.RD_CTL_ZONE_SEED)) }
    else c

/-- rms of a list of phases in thousandths of `step` (R347). -/
def rmsMilli (l : List Nat) (step : Nat) : Nat :=
  Nat.sqrt ((l.map fun d => d * d).sum * 1000000 / (max 1 l.length * step * step))

/-- Timing lock follows the mean |Δφ_k| of the last 1,024 data bits, against LOCK_THR / 64 of a period (R319); TR_STAT shows the
loop (R347). -/
def Chip.segTiming (c : Chip) (h : Port) (b : BeamNo) : Chip :=
  let p : Page := .beam h b
  let x := c.bm h b
  let step := c.rd p Reg.BEAM.TR_NOM_STEP
  let c := c.put p Reg.BEAM.TR_STAT_PHASE_RMS (min 4095 (rmsMilli x.dphi step))
  let c := c.putS p Reg.BEAM.TR_STAT_FREQ_PPM (satI 16 (divRound (x.freq * 1000000) (step : Nat)))
  let c := c.putB p Reg.BEAM.TR_STAT_ACQ (x.acqLeft != 0)
  let sum := 64 * x.dphi.sum
  let lim := c.rd p Reg.BEAM.TR_CTL_LOCK_THR * step * 1024
  if x.dphi.length < 1024 then c
  else if c.flag p Reg.BEAM.TR_STAT_LOCK then (if 2 * lim < sum then c.timingLoss h b else c)
  else if sum ≤ lim then (c.put p Reg.BEAM.TR_STAT_LOCK 1).put p Reg.BEAM.RD_STAT_TIMING_LOCK 1
  else c

/-- The field counter and the turn at a new servo field (R304, R318). -/
def BeamSt.nextField (x : BeamSt) : BeamSt :=
  if x.field = 1023 then { x with field := 0, turn := x.turn + 1 } else { x with field := x.field + 1 }

/-- The identity word of a field whose mark has been found. -/
def Chip.segWord (c : Chip) (h : Port) (b : BeamNo) (m : FieldMark) : Chip :=
  match findMark m.bits with
  | some (d, _) => c.segIdent h b (identWord m.bits d)
  | none => c

/-- The zone follows the turn unless a discontinuity has set it (R304). -/
def Chip.segZone (c : Chip) (h : Port) (b : BeamNo) : Chip :=
  let x := c.bm h b
  let z := zoneOf (c.beamLayer h b) x.turn
  if x.seeded || z == c.rd (.beam h b) Reg.BEAM.RD_STAT_ZONE then c else c.modBm h b fun x => { x with newZone := some z }

/-- The read side of one servo field: the counters advance, the mark and the identity word are judged, and the neighbour
offsets follow at field 0 (R304, R310, R318). -/
def Chip.readField (c : Chip) (h : Port) (b : BeamNo) (m : FieldMark) : Chip :=
  let c := ((c.modBm h b BeamSt.nextField).updCond h b).segMark h b m
  let c := ((c.segWord h b m).segTiming h b).segZone h b
  if (c.bm h b).field = 0 then c.neighbourUpdate h b else c

/-! ## Slots and sectors (R302, R304, R308, R324, R325) -/

/-- All adaptation of the front end is on (R302, R604). -/
def Chip.adaptOn (c : Chip) (h : Port) (b : BeamNo) : Bool :=
  let p : Page := .beam h b
  c.flag p Reg.BEAM.RD_CTL_ADAPT_EN && c.flag p Reg.BEAM.FE_CTL_OFS_ADAPT && c.flag p Reg.BEAM.FE_CTL_GAIN_ADAPT

/-- A pending layer or zone takes effect at a sector boundary (R302, R304, R308). -/
def Chip.applyPlace (c : Chip) (h : Port) (b : BeamNo) : Chip :=
  let p : Page := .beam h b
  let x := c.bm h b
  let reset := fun (c : Chip) => ((c.modBm h b fun x => { x with rest := { x.rest with ofs := 0, gain := 0 } }).put p Reg.BEAM.FE_STATE_O_A 0).put p Reg.BEAM.FE_STATE_G_A 0x8000
  let c := match x.newLayer with
    | some l =>
      let c := reset ((c.put p Reg.BEAM.RD_STAT_LAYER l).put p Reg.BEAM.RD_STAT_SPIRAL (c.spiralOf h b l))
      if c.flag p Reg.BEAM.EQ_CTL_LOAD_ON_LAYER then
        (List.range 8).foldl (fun (c : Chip) i =>
          (c.putI p Reg.BEAM.EQ_TAP_C_LO i (c.rdI p Reg.BEAM.EQ_INIT_C_LO (8 * l + i))).putI p Reg.BEAM.EQ_TAP_C_HI i
            (c.rdI p Reg.BEAM.EQ_INIT_C_HI (8 * l + i))) (c.modBm h b fun x => { x with rest := { x.rest with eq := [] } })
      else c
    | none => c
  let c := match x.newZone with
    | some z => reset (c.put p Reg.BEAM.RD_STAT_ZONE z)
    | none => c
  c.modBm h b fun x => { x with
    newLayer := none, newZone := none, steady := x.steady && x.newLayer.isNone && x.newZone.isNone }

/-- The slot at the beam's position begins: acquisition on its preamble (R316), and its classification (R325), which follows as its
periods arrive. -/
def Chip.slotBegin (c : Chip) (h : Port) (b : BeamNo) : Chip :=
  let p : Page := .beam h b
  let x := c.bm h b
  match slotAt x.turn x.field, c.quiet h b with
  | none, _ => c
  | some _, true => c
  | some k, false =>
    let c := c.modBm h b fun x => { x with
      slot := k, slotKind := 1, sector := 0, ended := none, probeSum := 0, probeN := 0
      unclassed := true, linkAt := none, swing := none
      slotStart := (x.zn : Int) + (k * 677632 % 6382 : Nat) + 128 - (x.per : Nat)
      acqLeft := if c.flag p Reg.BEAM.TR_STAT_LOCK then 0 else min 120 (c.rd p Reg.BEAM.TR_CTL_ACQ_LEN) }
    let c := c.applyPlace h b
    let c := c.modBm h b fun x => { x with steady := c.adaptOn h b }
    c.putB p Reg.BEAM.TR_STAT_ACQ !(c.flag p Reg.BEAM.TR_STAT_LOCK)

/-- Equaliser tap c_i of the page in force. -/
def eqTapFld (i : Nat) : Fld := if i % 2 = 0 then Reg.BEAM.EQ_TAP_C_LO else Reg.BEAM.EQ_TAP_C_HI

/-- The slot is abandoned from sector `s` on, where its linking mark stands (R218, R324); after sector 17 the item carries 18 (DESIGN
CHOICE, log 173). -/
def Chip.abandon (c : Chip) (h : Port) (b : BeamNo) (s : Nat) : Chip :=
  (c.modBm h b fun x => { x with slotKind := 4, linkAt := none, unclassed := false }).deliver
    (c.itemAt h b (c.beamLayer h b) (c.bm h b).slot s 5)

/-- The end of the sector under the spot (R304, R324): it waits for its decode; a linking mark may stand at the primary sync position
that begins the next one. Under quiesce the slot is not read further, and its outer recovery is given up (R336). -/
def Chip.readBoundary (c : Chip) (h : Port) (b : BeamNo) : Chip :=
  let x := c.bm h b
  let c := if x.slotKind = 1 then
      c.modBm h b fun x => { x.passSector (c.beamLayer h b) with
        slotKind := if x.sector = 17 then 0 else 1
        steadyEnd := if x.sector = 17 then x.steady && c.adaptOn h b else x.steadyEnd }
    else c
  let c := c.applyPlace h b
  if c.quiet h b then c.modBm h b fun x => { x with slotKind := 0, goods := [], stats := [] }
  else if x.slotKind = 1 ∧ x.linkAt = some (x.sector + 1) then c.abandon h b (x.sector + 1)
  else c

/-! ## The window of a sector (R202, R204, R205, R217, R322, R323) -/

/-- `len` data bits of a beam's channel from place `a` on, as z; 0 where it has none. -/
def BeamSt.window (x : BeamSt) (a : Int) (len : Nat) : List Int :=
  let lead := min len (-a).toNat
  let at' := a.toNat
  let n := min (len - lead) (x.zn - at')
  let l := List.replicate lead 0 ++ ((x.zd.drop (x.zn - (at' + n))).take n).reverse
  l ++ List.replicate (len - l.length) 0

/-- The detector target of a beam (R320, R349). -/
def Chip.target (c : Chip) (h : Port) (b : BeamNo) : DetTarget :=
  let p : Page := .beam h b
  ⟨[Reg.BEAM.DET_TARGET_G0, Reg.BEAM.DET_TARGET_G1, Reg.BEAM.DET_TARGET_G2, Reg.BEAM.DET_TARGET_G3, Reg.BEAM.DET_CTL_G4].map (c.rdS p),
    c.rd p Reg.BEAM.DET_CTL_LEVEL_A⟩

/-- What the frame search and the detector find of a sector: offsets of both sync marks where they are found, both header copies,
and λ of its 37,440 codeword bits, still scrambled. -/
structure Searched where
  primary : Option Int
  secondary : Option Int
  hdr1 : Nat
  hdr2 : Nat
  llr : List Int
  deriving DecidableEq, Repr

/-- A sync mark at place `ofs` of a window of sliced z, within ±8 periods and `tol` differing places (R323). -/
def findSync (z : List Bool) (ofs tol pat : Nat) : Option Int :=
  let m := bestMatch z ofs 8 (bitsBE 48 pat)
  if m.1 ≤ min 12 tol then some m.2 else none

/-- Offsets of header and part 1, and of part 2 (R217). -/
def partOffsets : Option Int → Option Int → Int × Int
  | some d, some e => (d, e)
  | some d, none => (d, d)
  | none, some e => (e, e)
  | none, none => (0, 0)

/-- A number from bits, most significant first. -/
def natBits (l : List Bool) : Nat := l.foldl (fun a v => 2 * a + b2n v) 0

/-- The frame search and the detector over a sector that has passed (R217, R321 to R323). -/
def Chip.search (c : Chip) (h : Port) (b : BeamNo) (q : Passed) : Searched :=
  let p : Page := .beam h b
  let win := (c.bm h b).window (q.start - 8) 37648
  let sliced := win.map fun z => decide (0 < z)
  let tol := c.rd p Reg.BEAM.SYNC_CTL_SYNC_TOL
  let pri := findSync sliced 8 tol 0xFFFFFFF0B38E
  let sec := findSync sliced 18872 tol 0x0000000F4C71
  let o := partOffsets pri sec
  let lam := (c.target h b).detect (c.rd p Reg.BEAM.DET_CTL_LLR_SHIFT) win
  let part := fun (at' : Int) (n : Nat) => (lam.drop at'.toNat).take n
  let word := fun (at' : Int) => natBits ((part at' 48).map fun v => decide (v < 0))
  ⟨pri, sec, word (56 + o.1), word (104 + o.1), part (152 + o.1) 18720 ++ part (18920 + o.2) 18720⟩

/-! ## Headers and CHECK (R204 to R207) -/

/-- The first header copy whose CRC checks (R205). -/
def pickHeader (d : Searched) : Option Nat :=
  if headerOk d.hdr1 then some d.hdr1 else if headerOk d.hdr2 then some d.hdr2 else none

/-- The hallmark unit of a beam (R138). -/
def beamHall (h : Port) (b : BeamNo) : HallNo := ⟨(beamIx h b).val, by have := (beamIx h b).isLt; omega⟩

/-- CHECK of a payload holds (R207, R326), as the beam's hallmark unit computes it; the unit counts the message. -/
def Chip.checkPayload (c : Chip) (h : Port) (b : BeamNo) (p : List Byte) : Bool × Chip :=
  let n := beamHall h b
  let v := c.hallValue n ((p.take 4156).map (·.toNat))
  let ok := v = leNat (p.drop 4156)
  (ok && p.length = 4160, c.hallMessage n v (some ok))

/-! ## Quality figures (R333 to R335) -/

/-- Sends QUALITY_LOW with its criterion (R335). -/
def Chip.qualityLow (c : Chip) (h : Port) (b : BeamNo) (crit : Nat) : Chip :=
  c.fault (.beam h b) 1 1 0 crit (Page.beam h b).num

/-- A delivered data sector enters its block of 1,024 (R335). -/
def Chip.qualBlock (c : Chip) (h : Port) (b : BeamNo) (failed : Bool) (bits errs : Nat) : Chip :=
  let p : Page := .beam h b
  let c := c.modBm h b fun x => { x with
    blkN := x.blkN + 1, blkFail := x.blkFail + b2n failed, blkBits := x.blkBits + bits, blkErrs := x.blkErrs + errs }
  let x := c.bm h b
  if x.blkN < 1024 then c
  else
    let c := c.modBm h b fun x => { x with blkN := 0, blkFail := 0, blkBits := 0, blkErrs := 0 }
    let c := if c.rd p Reg.BEAM.QUAL_LIMIT_PDER_LIMIT * x.blkBits < x.blkErrs * 2 ^ 20 then c.qualityLow h b 1 else c
    if c.rd p Reg.BEAM.QUAL_LIMIT_FAIL_LIMIT < x.blkFail then c.qualityLow h b 2 else c

/-- Length of the run of passing steps from the first. -/
def passingRun : List Bool → Nat
  | true :: r => passingRun r + 1
  | _ => 0

/-- One sector of a margin scan (R334): 32 steps on each side in turn. -/
def Chip.marginStep (c : Chip) (h : Port) (b : BeamNo) (probe : Nat) : Chip :=
  let p : Page := .beam h b
  if !c.flag p Reg.BEAM.QUAL_CTL_MARGIN_EN then c
  else
    let c := c.modBm h b fun x => { x with scan := x.scan ++ [decide (probe ≤ c.rd p Reg.BEAM.QUAL_CTL_MARGIN_MSE)] }
    let x := c.bm h b
    if x.scan.length < 64 then c
    else
      let q := min (passingRun (x.scan.take 32)) (passingRun (x.scan.drop 32))
      let m := (q * 15625 + 500) / 1000
      let c := (c.put p Reg.BEAM.QUAL_MARGIN_MARGIN_MUI m).put p Reg.BEAM.QUAL_MARGIN_VALID 1
      let c := c.modBm h b fun x => { x with scan := [] }
      let c := { c with log := { c.log with
        margins := (h.val, c.now, m) :: c.log.margins.filter fun e => c.now < e.2.1 + secs 3600 } }
      if m < 4 * c.rd p Reg.BEAM.QUAL_LIMIT_MARGIN_LIMIT then c.qualityLow h b 3 else c

/-- Figures of a converged sector whose CHECK holds (R333, R336). -/
def Chip.qualConverged (c : Chip) (h : Port) (b : BeamNo) (iters changed : Nat) : Chip :=
  let p : Page := .beam h b
  let c := (c.addSat p Reg.BEAM.QUAL_BITS_BITS 37440).addSat p Reg.BEAM.QUAL_ERRS_ERRS changed
  let c := c.modBm h b fun x => { x with iters := (iters :: x.iters).take 256 }
  let l := (c.bm h b).iters
  c.put p Reg.BEAM.QUAL_MARGIN_ITER_MEAN (min 1023 (16 * l.foldl (· + ·) 0 / max 1 l.length))

/-- Sync and header fallbacks of a sector (R323, R333, R352). -/
def Chip.qualSync (c : Chip) (h : Port) (b : BeamNo) (d : Searched) : Chip :=
  let p : Page := .beam h b
  let c := match d.primary, d.secondary with
    | some _, some _ => c
    | none, some _ => c.inc p Reg.BEAM.QUAL_SYNC_PRI_MISS
    | some _, none => c.inc p Reg.BEAM.QUAL_SYNC_SEC_MISS
    | none, none => c.inc p Reg.BEAM.QUAL_SYNC_BOTH_MISS
  let c := c.putB p Reg.BEAM.RD_STAT_HDR_VALID (pickHeader d).isSome
  if (pickHeader d).isSome then c else c.inc p Reg.BEAM.QUAL_SYNC_HDR_FAIL

/-! ## Decode (R326, R327) -/

/-- The header disagrees with the position (R205). -/
def Chip.misplaced (c : Chip) (h : Port) (b : BeamNo) (q : Passed) (w : Nat) : Bool :=
  slice 40 5 w != q.sec || slice 37 1 w != (c.hd h).side || slice 34 3 w != q.layer
    || slice 32 2 w != c.spiralOf h b q.layer || slice 12 20 w != q.slot

/-- A valid header resynchronises the turn (R304). -/
def Chip.resyncTurn (c : Chip) (h : Port) (b : BeamNo) (w : Nat) : Chip :=
  let x := c.bm h b
  if x.seeded then c.modBm h b fun x => { x with seeded := false, turn := slotTurn (slice 12 20 w) } else c

/-- A decode of another ingot begins the outer code anew (R328). -/
def Chip.newOuter (c : Chip) (h : Port) (b : BeamNo) (q : Passed) : Chip :=
  c.modBm h b fun x =>
    if x.outSlot = q.slot ∧ x.outLayer = q.layer ∧ (assocGet q.sec x.stats).isNone then x
    else { x with outSlot := q.slot, outLayer := q.layer, goods := [], stats := [], outerSent := false }

/-- The decode of sector 17 makes an ingot of GOOD data sectors ready for capture (R604). -/
def Chip.capJudge (c : Chip) (h : Port) (b : BeamNo) (q : Passed) : Chip :=
  if q.sec ≠ 17 then c
  else
    let z := c.rd (.beam h b) Reg.BEAM.RD_STAT_ZONE
    c.modBm h b fun x => { x with
      capReady :=
        if x.steadyEnd && (List.range 16).all (fun s => assocGet s x.stats == some 0) then some (q.layer, z) else none }

/-- The oldest sector that waits ends with status `st` and no data. -/
def Chip.passedEnd (c : Chip) (h : Port) (b : BeamNo) (q : Passed) (st : Nat) : Chip :=
  let c := (c.newOuter h b q).modBm h b fun x => { x with passed := x.passed.drop 1, stats := assocSet q.sec st x.stats }
  let c := c.capJudge h b q
  let c := if st = 3 then c.inc (.beam h b) Reg.BEAM.QUAL_SECT_FAILED else c
  let c := if q.sec < 16 then c.qualBlock h b (st = 3) 0 0 else c
  c.deliver (c.itemAt h b q.layer q.slot q.sec st)

/-- Hard decisions of a sector's codeword descrambled with a seed: the sign of λ (R210, R212, R321, R322). -/
def Searched.hard (d : Searched) (slot sec spiral seed : Nat) : List Bool :=
  scramble (scramInit slot sec spiral seed) (d.llr.map fun v => decide (v < 0))

/-- What a decode of a sector comes to: status 0 GOOD or 3 FAILED, the seed, iterations, changed bits and payload (R326, R330). -/
structure Outcome where
  status : Nat
  seed : Nat
  iters : Nat := 0
  changed : Nat := 0
  payload : List Byte := []
  deriving DecidableEq, Repr

/-- A decode that converges within `budget` iterations, and whose CHECK holds on a data sector (R326). -/
def Chip.tryDecode (c : Chip) (h : Port) (b : BeamNo) (q : Passed) (d : Searched) (seed budget : Nat) (k : Decode) : Outcome × Chip :=
  if !k.converged || budget < k.iters then (⟨3, seed, min budget k.iters, 0, []⟩, c)
  else
    let chk := if q.sec < 16 then c.checkPayload h b k.payload else (true, c)
    let n := diffs (d.hard q.slot q.sec (c.spiralOf h b q.layer) seed) (codeword k.payload)
    (⟨if chk.1 then 0 else 3, seed, k.iters, if chk.1 then n else 0, if chk.1 then k.payload else []⟩, chk.2)

/-- The seeds in the order of fewest unsatisfied parity checks, the lower of two first (R322). -/
def Chip.seedOrder (c : Chip) (h : Port) (b : BeamNo) (q : Passed) (d : Searched) : List Nat :=
  let n := (List.range 4).map fun k => (unsatisfied (d.hard q.slot q.sec (c.spiralOf h b q.layer) k), k)
  (n.mergeSort fun u v => decide (u.1 ≤ v.1)).map (·.2)

/-- ITER_MAX as it acts (R350). -/
def Chip.iterMax (c : Chip) (h : Port) (b : BeamNo) : Nat := clampN 1 48 (c.rd (.beam h b) Reg.BEAM.LDPC_CTL_ITER_MAX)

/-- The seeds tried in turn within the iteration budget, up to the first that is GOOD (R205, R322). -/
def Chip.trySeeds (c : Chip) (h : Port) (b : BeamNo) (q : Passed) (d : Searched) (ks : Vector Decode 4) : Nat → List Nat → Outcome × Chip
  | _, [] => (⟨3, 0, 0, 0, []⟩, c)
  | budget, k :: r =>
    let t := c.tryDecode h b q d k budget (ks.toList.getD k ⟨false, 0, []⟩)
    if t.1.status = 0 ∨ r.isEmpty then t else Chip.trySeeds t.2 h b q d ks (budget - t.1.iters) r

/-- What the decodes make of a sector, under its header or by the four seeds; a header that names another place makes it
MISPLACED (R205, R322, R326). -/
def Chip.decodeJudge (c : Chip) (h : Port) (b : BeamNo) (q : Passed) (d : Searched) (ks : Vector Decode 4) : (Outcome × Bool) × Chip :=
  match pickHeader d with
  | some w =>
    let t := c.tryDecode h b q d (slice 38 2 w) (c.iterMax h b) (ks.toList.getD (slice 38 2 w) ⟨false, 0, []⟩)
    let o := if c.misplaced h b q w then { t.1 with status := 4, payload := [] } else t.1
    ((o, t.1.status = 0), t.2.resyncTurn h b w)
  | none =>
    let t := c.trySeeds h b q d ks (c.iterMax h b) (c.seedOrder h b q d)
    ((t.1, t.1.status = 0), t.2)

/-- Counts a decoded sector (R333, R335, R352); `good` says that its codeword was accepted. -/
def Chip.decodeCount (c : Chip) (h : Port) (b : BeamNo) (q : Passed) (o : Outcome) (good : Bool) : Chip :=
  let p : Page := .beam h b
  let c := if good then c.qualConverged h b o.iters o.changed else c
  let c := if o.status = 0 then c.inc p Reg.BEAM.QUAL_SECT_GOOD else if o.status = 3 then c.inc p Reg.BEAM.QUAL_SECT_FAILED else c
  if q.sec < 16 then c.qualBlock h b (o.status = 3) (if good then 37440 else 0) (if good then o.changed else 0) else c

/-- The item of a decoded sector (R330). -/
def Chip.decodeItem (c : Chip) (h : Port) (b : BeamNo) (q : Passed) (d : Searched) (o : Outcome) : ReadItem :=
  { c.itemAt h b q.layer q.slot q.sec o.status with
    seed := o.seed, sync := (if d.primary.isSome then 0 else 1) + (if d.secondary.isSome then 0 else 2), iters := o.iters
    changed := o.changed, payload := o.payload }

/-- A decode ends (R326): status, figures and delivery of the sector `q`; parity sectors are delivered only when they fail. -/
def Chip.decodeOne (c : Chip) (h : Port) (b : BeamNo) (q : Passed) (ks : Vector Decode 4) : Chip :=
  let d := c.search h b q
  let sq := (c.bm h b).sq
  let c := (c.qualSync h b d).put (.beam h b) Reg.BEAM.QUAL_MSE_MSE (min (2 ^ 24 - 1) (sq.sum / (16 * max 1 sq.length)))
  let j := (c.marginStep h b (q.probeSum / (256 * max 1 q.probeN))).decodeJudge h b q d ks
  let o := j.1.1
  let c := (j.2.newOuter h b q).modBm h b fun x => { x with
    passed := x.passed.drop 1, stats := assocSet q.sec o.status x.stats
    goods := if o.status = 0 then assocSet q.sec o.payload x.goods else x.goods }
  let c := (c.capJudge h b q).decodeCount h b q o j.1.2
  if q.sec < 16 ∨ o.status ≠ 0 then c.deliver (c.decodeItem h b q d o) else c

/-- The oldest sector that waits is decoded; one that had ended keeps its status (R336). -/
def Chip.decodeDone (c : Chip) (h : Port) (b : BeamNo) (ks : Vector Decode 4) : Chip :=
  match (c.bm h b).passed with
  | [] => c
  | q :: _ =>
    match q.ended with
    | some st => c.passedEnd h b q st
    | none => c.decodeOne h b q ks

/-- R326: `ks` is what the LDPC decoder yields for the sector descrambled with each of the four seeds (log 42). -/
def execSectorDecodeDone (h : Port) (b : BeamNo) (ks : Vector Decode 4) (s : State) : Out := s.to fun c => c.decodeDone h b ks

/-- R327: a decode that still runs when its buffer is needed. -/
def execDecodeDeadline (h : Port) (b : BeamNo) (s : State) : Out :=
  s.to fun c =>
    match (c.bm h b).passed with
    | [] => c
    | q :: _ => ((c.passedEnd h b q 3).dlMiss (.beam h b)).fault0 (.beam h b) 0 2 0

/-- R29, R314: the canceller of the beam is late, or finds nothing of producer `absent`, whose entry it reads next becomes the absent
marker; `newRun` says that a run of absent indices begins. -/
def execCancellerDeadline (h : Port) (b : BeamNo) (absent : Option BeamNo) (newRun : Bool) (s : State) : Out :=
  s.to fun c =>
    match absent with
    | some q =>
      let c := (c.modBm h q fun x => { x with exch := x.exch.set 761 .absent }).modBm h b fun x => { x with
        absent := if q < b then (true, x.absent.2) else (x.absent.1, true), frozen := if q < b then (64, x.frozen.2) else (x.frozen.1, 64) }
      let c := (c.dlMiss (.beam h q)).fault0 (.beam h q) 0 1 0
      if newRun then c.inc (.beam h b) Reg.BEAM.QUAL_EVENTS_ABSENT_RUNS else c
    | none => (c.dlMiss (.beam h b)).fault0 (.beam h b) 0 1 0

/-! ## Outer code (R215, R328, R329) -/

/-- One sector the outer code delivers: a recovered one whose CHECK fails is OUTER_INCONSISTENT (R329). -/
def Chip.outerDeliver (c : Chip) (h : Port) (b : BeamNo) (layer slot : Nat) (r : Nat × Nat × List Byte) : Chip :=
  let p : Page := .beam h b
  let chk := if r.2.1 = 1 then c.checkPayload h b r.2.2 else (true, c)
  let c := chk.2
  let st := if chk.1 then r.2.1 else 10
  let c := if st = 1 ∨ st = 2 then c.inc p Reg.BEAM.QUAL_EVENTS_OUTER_FIX else c
  let c := if st = 1 then c.inc p Reg.BEAM.QUAL_SECT_GOOD else c
  let c := if st = 10 ∧ !(c.bm h b).outerSent then
      (c.modBm h b fun x => { x with outerSent := true }).fault0 p 2 4 0
    else c
  c.deliver { c.itemAt h b layer slot r.1 st with payload := if st = 10 then [] else r.2.2 }

/-- R329: the end of the decode of sector 17. -/
def Chip.outerRecovery (c : Chip) (h : Port) (b : BeamNo) : Chip :=
  let p : Page := .beam h b
  let x := c.bm h b
  if !c.flag p Reg.BEAM.RD_CTL_OUTER_EN || (assocGet 17 x.stats).isNone then c
  else
    let out := outerSolve x.goods (c.flag p Reg.BEAM.RD_CTL_OUTER_SINGLE)
    let c := out.foldl (fun c r => c.outerDeliver h b x.outLayer x.outSlot r) c
    c.modBm h b fun x => { x with goods := [], stats := [] }

/-- R329. -/
def execOuterRecovery (h : Port) (b : BeamNo) (s : State) : Out := s.to fun c => c.outerRecovery h b

/-! ## Snapshot and map -/

/-- EQ_CTL.SNAP (R308, R313): active taps into the shadows; a frozen shadow keeps its values. -/
def Chip.eqSnap (c : Chip) (h : Port) (b : BeamNo) : Chip :=
  let p : Page := .beam h b
  if c.frozen p then c
  else
    let cp := fun (fs : List Fld) (n : Nat) (c : Chip) =>
      fs.foldl (fun c f => (List.range n).foldl (fun c i => c.putShI p f i (c.rdI p f i)) c) c
    cp [Reg.BEAM.XT_TAP_L_H_LO, Reg.BEAM.XT_TAP_L_H_HI, Reg.BEAM.XT_TAP_R_H_LO, Reg.BEAM.XT_TAP_R_H_HI] 4
      (cp [Reg.BEAM.EQ_TAP_C_LO, Reg.BEAM.EQ_TAP_C_HI] 8 c)

/-- R341. -/
def execEqSnap (r : Requester) (h : Port) (b : BeamNo) (s : State) : Out :=
  s.to fun c => c.write r (.beam h b) fun c => c.eqSnap h b

/-- A commit of the BEAM page has applied (R302): o_a is 0 and g_a 1.0. -/
def Chip.beamCommit (c : Chip) (h : Port) (b : BeamNo) : Chip :=
  let p : Page := .beam h b
  let c := c.modBm h b fun x => { x with
    steady := false, steadyEnd := false, rest := {}
    slope := c.rdIS p Reg.BEAM.EQ_TAP_C_LO 4 - c.rdIS p Reg.BEAM.EQ_TAP_C_LO 3 }
  ((c.put p Reg.BEAM.FE_STATE_O_A 0).put p Reg.BEAM.FE_STATE_G_A 0x8000).updCond h b

end Sys2Proof.Machine
end

