-- ==== Sys2Proof/Machine/CalSet.lean ====
section
/-!
DEFINITION. The calibration working set: its words, temperature points, measured flags and interpolation (chapter 13,
R602 to R609, R612).
-/
namespace Sys2Proof.Machine

/-- Nominal temperatures of the six points in °C × 64 (R603). -/
def calPoints : List Int := [-2560, 0, 2560, 5440, 8000, 9600]

/-- Key of word `w` of a beam's block at point `k` (R612). -/
def calKey (k : Nat) (h : Port) (b : BeamNo) (w : Nat) : Nat := (k * 80 + (beamIx h b).val) * 272 + w

/-- Default of word `w` of a beam block (R602, R607): the registers' reset values, 0x100 for the monitor scale. -/
def calDefault (w : Nat) : Word :=
  if w < 192 then 0x200
  else if w < 256 ∧ (w - 192) % 8 = 3 then 0x10000000
  else if w = 259 then 0x100
  else 0

/-- Word `w` of a beam block at point `k`. -/
def Chip.calWord (c : Chip) (k : Nat) (h : Port) (b : BeamNo) (w : Nat) : Nat :=
  (Sparse.get (calDefault w) c.assay.cal (calKey k h b w)).toNat

/-- Changes the assay state. -/
def Chip.modAssay (c : Chip) (f : AssaySt → AssaySt) : Chip := { c with assay := f c.assay }

/-- Sets word `w` of a beam block at point `k`. -/
def Chip.setCalWord (c : Chip) (k : Nat) (h : Port) (b : BeamNo) (w v : Nat) : Chip :=
  c.modAssay fun x => { x with cal := Sparse.set (calDefault w) x.cal (calKey k h b w) (BitVec.ofNat 32 v) }

/-- Measured flag `f` of a beam block (R612): 24 L + z a zone entry, 192 + L the equaliser of L, 200 SEP_L, 201 SEP_R, and
the model's 202 SKEW, 203 edge trim, 204 monitor scale (log 68). -/
def Chip.calFlag (c : Chip) (k : Nat) (h : Port) (b : BeamNo) (f : Nat) : Bool := bit (c.calWord k h b (260 + f / 32)) (f % 32)

/-- Sets a measured flag. -/
def Chip.setCalFlag (c : Chip) (k : Nat) (h : Port) (b : BeamNo) (f : Nat) : Chip :=
  c.setCalWord k h b (260 + f / 32) (setBit (c.calWord k h b (260 + f / 32)) (f % 32) true)

/-- The working set has changed now (R616); the port's OPU_ID enters the OPU table (R612). -/
def Chip.calChanged (c : Chip) (h : Port) : Chip :=
  c.modAssay fun x => { x with
    changed := some (x.changed.getD c.now), opuIds := assocSet h.val (c.hd h).opuId x.opuIds }

/-- Temperature of a port's OPU in °C × 64 (R603): the newest housekeeping reading, else the Tj of its sensor (log 69). -/
def Chip.portTemp (c : Chip) (h : Port) : Int :=
  match (c.hd h).opuTemp with
  | some t => 64 * t
  | none => c.rdIS .assay Reg.ASSAY.TEMP_T (6 + h.val / 4) + 128

/-- The point in whose band a temperature lies (R603). -/
def Chip.calPoint (c : Chip) (t : Int) : Option Nat :=
  let band : Int := 64 * (max 1 (c.rd .assay Reg.ASSAY.SET_CFG_CAPTURE_BAND) : Nat)
  (List.range 6).find? fun k => (t - calPoints.getD k 0).natAbs ≤ band.natAbs

/-- R609 over the measured points (temperature, value): the nearest on either side, interpolated. -/
def interpolate (pts : List (Int × Int)) (dflt t : Int) : Int :=
  let lo := (pts.filter (fun p => p.1 ≤ t)).getLast?
  let hi := (pts.filter (fun p => t ≤ p.1)).head?
  match lo, hi with
  | some a, some b => if a.1 = b.1 then a.2 else divRound (a.2 * (b.1 - a.1) + (b.2 - a.2) * (t - a.1)) (b.1 - a.1)
  | some a, none => a.2
  | none, some b => b.2
  | none, none => dflt

/-- A field of word `w` at temperature `t`, read by `get`, under measured flag `f` (R609). -/
def Chip.calAt (c : Chip) (h : Port) (b : BeamNo) (f w : Nat) (get : Nat → Int) (t : Int) : Int :=
  let pts := (List.range 6).filterMap fun k =>
    if c.calFlag k h b f then some (calPoints.getD k 0, get (c.calWord k h b w)) else none
  interpolate pts (get (calDefault w).toNat) t

/-- Edge trim of a beam in eighths (R602, R607). -/
def Chip.edgeTrim (c : Chip) (h : Port) (b : BeamNo) : Int :=
  clampI (-3) 3 (c.calAt h b 203 258 (fun w => sext 8 w) (c.portTemp h))

/-- A write symbol with the edge trim added to E (R602). -/
def trimSymbol (trim : Int) (y : Nat) : Nat :=
  let e := slice 2 3 y
  if e = 0 then y else y - 4 * e + 4 * (clampI 1 7 (e + trim)).toNat

/-- R370: loads a strategy table of 256 words into bank `k` of a beam, with the edge trim. -/
def Chip.loadStrategy (c : Chip) (h : Port) (b : BeamNo) (k : Nat) (tbl : List Word) : Chip :=
  let p : Page := .beam h b
  let t := c.edgeTrim h b
  (tbl.take 256).zipIdx.foldl (fun (c : Chip) e =>
    let w := e.1.toNat
    let i := 256 * k + e.2
    [(Reg.BEAM.STRAT_FIRST, trimSymbol t (slice 0 8 w)), (Reg.BEAM.STRAT_MID, slice 8 8 w),
      (Reg.BEAM.STRAT_LAST, trimSymbol t (slice 16 8 w)), (Reg.BEAM.STRAT_COOL, slice 24 8 w)].foldl
        (fun c f => (c.putI p f.1 i f.2).putShI p f.1 i f.2) c) c

/-- Separation in nm in use for a side (R606, R609): the interpolated one, or the one under search. -/
def Chip.sepAt (c : Chip) (h : Port) (b : BeamNo) (right : Bool) (t : Int) : Int :=
  let lo := if right then 16 else 0
  let f := if right then 201 else 200
  if (List.range 6).any (fun k => c.calFlag k h b f) then c.calAt h b f 256 (fun w => sext 16 (slice lo 16 w)) t
  else
    match assocGet (2 * (beamIx h b).val + b2n right) c.assay.search with
    | some s => if right then (s.mag : Int) else -(s.mag : Int)
    | none => 0

end Sys2Proof.Machine
end

