-- ==== Sys2Proof/Machine/Samples.lean ====
section
/-!
DEFINITION. The sample path of a beam channel: conditioning, equaliser, neighbour exchange and canceller (R26 to R28, R299 to R314).
-/
namespace Sys2Proof.Machine

/-- A sample conditioned (R301): gain in Q3.9, offset in Q6.2, asymmetry in Q0.11, adaptive offset in 1/1,024 LSB and adaptive
gain in Q1.15. -/
def condition (gain : Nat) (ofs asym oa : Int) (ga : Nat) (x : Int) : Int :=
  let x1 := 1024 * x - 256 * ofs - oa
  satI 10 (divRound (gain * ga * (x1 * 2 ^ 29 + asym * x1 * x1)) (2 ^ 63))

/-- A sum of products of two lists. -/
def dot : List Int → List Int → Int
  | a :: r, b :: t => a * b + dot r t
  | _, _ => 0

/-- The equaliser (R305): taps c_0 to c_14 in Q1.12 over y[n + 7] down to y[n - 7]. -/
def equalise (taps ys : List Int) : Int := satI 10 (divRound (dot taps ys) 4096)

/-- The canceller (R313): own sample, and the products of the two sides in Q0.12. -/
def cancel (own inner outer : Int) : Int := satI 10 (divRound (4096 * own - inner - outer) 4096)

/-- An entry of the exchange as the canceller uses it (R314). -/
def XEntry.value : XEntry → Int
  | .sample w => w
  | _ => 0

/-- A marker freezes the adaptation of its side (R314). -/
def XEntry.isMarker : XEntry → Bool
  | .sample _ => false
  | _ => true

/-- The active equaliser taps of a beam (R305, R308). -/
def Chip.eqTaps (c : Chip) (p : Page) : List Int :=
  (List.range 15).map fun i => c.rdIS p (eqTapFld i) (i / 2)

/-- The sample of `x` conditioned under the beam's layer and zone (R301, R303). -/
def Chip.conditioned (c : Chip) (h : Port) (b : BeamNo) (x : Byte) : Int :=
  let p : Page := .beam h b
  let i := 24 * c.beamLayer h b + c.rd p Reg.BEAM.RD_STAT_ZONE
  condition (c.rdI p Reg.BEAM.ZT_GAIN i) (c.rdIS p Reg.BEAM.ZT_OFFSET i) (c.rdIS p Reg.BEAM.ZT_ASYM i)
    (c.rdS p Reg.BEAM.FE_STATE_O_A) (c.rd p Reg.BEAM.FE_STATE_G_A) x.toInt

/-- What the beam writes for an equalised sample (R295, R298, R309, R357). -/
def Chip.entry (c : Chip) (h : Port) (b : BeamNo) (w : Int) : XEntry :=
  let p : Page := .beam h b
  let r := c.beamRole h b
  if !c.enabled p ∨ r = 0 ∨ r = 5 ∨ c.linkState h ≠ 3 then .idle
  else if r = 4 then .write
  else if r ≠ 2 ∧ c.flag p Reg.BEAM.RD_STAT_COND_FAIL then .idle
  else .sample w

/-- Each equalised sample of `n` new indices; `ys` holds the conditioned samples newest first, 14 older ones behind them. -/
def equalised (taps : List Int) : Nat → List Int → List Int
  | 0, _ => []
  | n + 1, ys => equalise taps (ys.take 15) :: equalised taps n (ys.drop 1)

/-- Stages 1 to 3 of one beam over the samples of a link frame (R299, R309): the equaliser lags by 7 indices, and samples before
the alignment count as 0 (DESIGN CHOICE, log 126). -/
def Chip.exchangeWrite (c : Chip) (h : Port) (b : BeamNo) (xs : List Byte) : Chip :=
  if !c.pageUp (.beam h b) then c
  else
    let x := c.bm h b
    let ys := (xs.map (c.conditioned h b)).reverse ++ x.ys ++ List.replicate (14 - x.ys.length) 0
    let ws := (equalised (c.eqTaps (.beam h b)) xs.length ys).map (c.entry h b)
    c.modBm h b fun x => { x with ys := ys.take 2048, exch := (ws ++ x.exch).take 2048 }

/-- The seven entries of a neighbour that one side reads for the own index `k` entries behind the newest one: indices n + Δ - 3 to
n + Δ + 3 (R313). What is not in the exchange is the absent marker (R29). -/
def sideEntries (ex : List XEntry) (k : Nat) (delta : Int) : List XEntry :=
  (List.range 7).map fun (m : Nat) =>
    let at' := (k : Int) - delta - ((m : Int) - 3)
    if at' < 0 then .absent else (ex[at'.toNat]?).getD .absent

/-- The products of one side: taps h_-3 to h_+3 over its entries (R313, R314). -/
def sideSum (taps : List Int) (es : List XEntry) : Int := dot taps (es.map XEntry.value)

/-- The neighbour of an enabled side whose offset is in range (R311, R343). -/
def Chip.sideOf (c : Chip) (h : Port) (b : BeamNo) (right : Bool) : Option BeamNo :=
  let p : Page := .beam h b
  let on := if right then c.flag p Reg.BEAM.XT_CFG_EN_R && !c.flag p Reg.BEAM.XT_STAT_RANGE_R
    else c.flag p Reg.BEAM.XT_CFG_EN_L && !c.flag p Reg.BEAM.XT_STAT_RANGE_L
  if on then unitOf 5 0 (c.rd p (if right then Reg.BEAM.XT_CFG_NB_R else Reg.BEAM.XT_CFG_NB_L)) else none

/-- Δ of a side (R310). -/
def Chip.deltaOf (c : Chip) (h : Port) (b : BeamNo) (right : Bool) : Int :=
  c.rdS (.beam h b) (if right then Reg.BEAM.XT_STAT_DELTA_R else Reg.BEAM.XT_STAT_DELTA_L)

/-- The entries that a side reads; none for a side that contributes nothing. -/
def Chip.entriesAt (c : Chip) (h : Port) (b : BeamNo) (right : Bool) (k : Nat) : List XEntry :=
  match c.sideOf h b right with
  | some q => sideEntries (c.bm h q).exch k (c.deltaOf h b right)
  | none => []

/-- The inner or outer side of the canceller at the index `k` entries back; a disabled side contributes 0 (R311, R313). -/
def Chip.sideAt (c : Chip) (h : Port) (b : BeamNo) (right : Bool) (k : Nat) : Int :=
  let p : Page := .beam h b
  let t := if right then c.xtTaps p Reg.BEAM.XT_TAP_R_H_LO Reg.BEAM.XT_TAP_R_H_HI
    else c.xtTaps p Reg.BEAM.XT_TAP_L_H_LO Reg.BEAM.XT_TAP_L_H_HI
  sideSum (t.map (sext 13)) (c.entriesAt h b right k)

/-- The sample index of the exchange entry `k` entries behind the newest (R26). -/
def Chip.indexOf (c : Chip) (h : Port) (k : Nat) : Nat := ((c.hd h).sampleIx + 2 ^ 32 - 7 - k) % 2 ^ 32

/-- One side after the indices of a link frame, oldest first (R29, R314): a run of absent indices counts once and its producer sends
DEADLINE; the side's taps are frozen while its entries are markers, and 64 indices after an absent one. -/
def Chip.sideFrame (c : Chip) (h : Port) (b : BeamNo) (right : Bool) (ks : List Nat) : Chip :=
  let pick := fun (v : Bool × Bool) => if right then v.2 else v.1
  let fz := fun (v : Nat × Nat) => if right then v.2 else v.1
  let r := ks.foldl (fun (a : Bool × Nat × Nat × List Nat) k =>
    let es := c.entriesAt h b right k
    let gone := es.contains .absent
    let left := if gone then 64 else if es.any XEntry.isMarker then max 1 (a.2.2.1 - 1) else a.2.2.1 - 1
    (gone, a.2.1 + b2n (gone && !a.1), left, if left = 0 then a.2.2.2 else (c.indexOf h k :: a.2.2.2)))
    (pick (c.bm h b).absent, 0, fz (c.bm h b).frozen, [])
  let c := c.modBm h b fun x =>
    if right then { x with absent := (x.absent.1, r.1), frozen := (x.frozen.1, r.2.2.1), frozenR := (r.2.2.2 ++ x.frozenR).take 2048 }
    else { x with absent := (r.1, x.absent.2), frozen := (r.2.2.1, x.frozen.2), frozenL := (r.2.2.2 ++ x.frozenL).take 2048 }
  match c.sideOf h b right with
  | none => c
  | some q =>
    (List.range r.2.1).foldl (fun (c : Chip) _ =>
      ((c.inc (.beam h b) Reg.BEAM.QUAL_EVENTS_ABSENT_RUNS).dlMiss (.beam h q)).fault0 (.beam h q) 0 1 0) c

/-- Stage 4 of one beam for a link frame of `n` samples: the canceller works 768 indices behind deframing (R28), 761 behind the
newest equalised sample. -/
def Chip.cancelFrame (c : Chip) (h : Port) (b : BeamNo) (n : Nat) : Chip :=
  let ex := (c.bm h b).exch
  let ks := ((List.range n).map fun j => 761 + (n - 1 - j)).filter fun k =>
    match ex[k]? with
    | some (.sample _) => true
    | _ => false
  let vs := ks.map fun k => cancel ((ex[k]?).getD .absent).value (c.sideAt h b false k) (c.sideAt h b true k)
  let ix := (c.hd h).sampleIx + 2 ^ 32 - 767 - n
  ((c.modBm h b fun x => { x with vs := vs, vIx := if x.vq.isEmpty then ix % 2 ^ 32 else x.vIx }).sideFrame h b false ks).sideFrame h b
    true ks

/-- The RF samples of a link frame pass stages 1 to 4 of the five beams (R299). -/
def Chip.samplePath (c : Chip) (h : Port) (rf : List (List Byte)) : Chip :=
  let c := allBeams.foldl (fun (c : Chip) b => c.exchangeWrite h b (rf.getD b.val [])) c
  allBeams.foldl (fun (c : Chip) b => c.cancelFrame h b (rf.getD b.val []).length) c

/-- The exchange is empty at an alignment, where the index begins anew (R26). -/
def Chip.clearExchange (c : Chip) (h : Port) : Chip :=
  allBeams.foldl (fun (c : Chip) b => c.modBm h b fun x => { x with ys := [], exch := [], vs := [], vq := [], zpos := [], eps := [], due := [], frozenL := [], frozenR := [], tau := none }) c

end Sys2Proof.Machine
end

