-- ==== Sys2Proof/Machine/BitPath.lean ====
section
/-!
DEFINITION. The bit domain of a reading beam: interpolator, timing recovery, early decisions, adaptation, the classification of slots
and the data bits (R299, R302, R306, R307, R313, R315 to R317, R323 to R325, R333, R334).
-/
namespace Sys2Proof.Machine

/-- What the registers give the loop of a beam (R315, R316): STEP, KP and KI of acquisition and tracking, the detector target, the
probe offset in 2^-30 sample, and whether the loop holds over the whole slot. -/
structure LoopCfg where
  step : Nat
  kpAcq : Nat
  kiAcq : Nat
  kpTrk : Nat
  kiTrk : Nat
  target : DetTarget
  probe : Int
  /-- SYNC_TOL, LINK_TOL and BLANK_LEVEL (R323 to R325), and whether anything adapts (R338). -/
  syncTol : Nat
  linkTol : Nat
  blank : Nat
  adapt : Bool
  deriving DecidableEq, Repr

/-- The settings in force (R334, R346, R347, R349). The probe stands on one side for the first 32 sectors of a scan, on the other for
the rest. -/
def Chip.loopCfg (c : Chip) (h : Port) (b : BeamNo) : LoopCfg :=
  let p : Page := .beam h b
  let n := (c.bm h b).scan.length
  let q : Int := ((n % 32 + 1) * c.rd p Reg.BEAM.TR_NOM_STEP / 64 : Nat)
  { step := c.rd p Reg.BEAM.TR_NOM_STEP
    kpAcq := c.rd p Reg.BEAM.TR_CTL_KP_ACQ
    kiAcq := c.rd p Reg.BEAM.TR_CTL_KI_ACQ
    kpTrk := c.rd p Reg.BEAM.TR_CTL_KP_TRK
    kiTrk := c.rd p Reg.BEAM.TR_CTL_KI_TRK
    target := c.target h b
    probe := if n < 32 then q else -q
    syncTol := c.rd p Reg.BEAM.SYNC_CTL_SYNC_TOL
    linkTol := c.rd p Reg.BEAM.SYNC_CTL_LINK_TOL
    blank := c.rd p Reg.BEAM.SYNC_CTL_BLANK_LEVEL
    adapt := c.flag p Reg.BEAM.RD_CTL_ADAPT_EN }

/-- The value at position `pos`, in 2^-30 sample from the first waiting sample; positions outside read the nearest samples. -/
def BeamSt.interp (x : BeamSt) (pos : Int) : Int :=
  let m := pos / (2 ^ 30 : Nat)
  lagrange ((List.range 4).map fun (k : Nat) => x.vq.getD (m - 1 + k).toNat 0) (pos % (2 ^ 30 : Nat)).toNat

/-- The loop holds: over a servo field, a linking gap and a blank slot (R317, R325). -/
def BeamSt.holds (x : BeamSt) : Bool :=
  decide (x.per < 128) || x.slotKind == 2 ||
    (x.slotKind == 1 && decide (677536 ≤ (x.zn : Int) - x.slotStart) && decide ((x.zn : Int) - x.slotStart < 677632))

/-- μ moves on by `d` and the segment counter by one period. Samples that no later position needs are dropped. -/
def BeamSt.moveOn (x : BeamSt) (d : Int) : BeamSt :=
  let mu := ((x.mu : Int) + d).toNat
  let k := mu / 2 ^ 30 - 1
  { x with mu := mu - k * 2 ^ 30, vq := x.vq.drop k, vIx := (x.vIx + k) % 2 ^ 32, per := (x.per + 1) % 6510 }

/-- F_k within ±2,000 ppm of STEP (R315). -/
def clampFreq (step : Nat) (f : Int) : Int := clampI (-((2000 * step / 1000000 : Nat) : Int)) (2000 * step / 1000000 : Nat) f

/-! ## Errors (R302, R306) -/

/-- Adds `v` to the error of sample index `n`. -/
def addEps (n : Nat) (v : Int) : List (Nat × Int) → List (Nat × Int)
  | [] => [(n, v)]
  | q :: r => if q.1 = n then (n, q.2 + v) :: r else q :: addEps n v r

/-- The error `e` (in 1/16 LSB) of a period is placed back on the grid with its weights; what no later period adds to is complete
(R306). -/
def BeamSt.placeError (x : BeamSt) (at' : Nat × Nat) (e : Int) : BeamSt :=
  let near := (List.range 4).map fun (j : Nat) => (at'.1 + 2 ^ 32 - 1 + j) % 2 ^ 32
  let done := x.eps.filter fun q => !near.contains q.1
  let eps := (near.zip (lagrangeWeights at'.2)).foldl (fun l v => addEps v.1 (divRound (v.2 * e) ((96 * 2 ^ 66 : Nat))) l)
    (x.eps.filter fun q => near.contains q.1)
  { x with eps := eps, due := x.due ++ done }

/-- The error enters the block of 256 channel bits and the gain's sum (R302). -/
def BeamSt.sumError (x : BeamSt) (e ideal : Int) : BeamSt :=
  let x := { x with gains := x.gains + e * ideal }
  if x.block.2 = 255 then { x with block := (0, 0), blocks := x.blocks + x.block.1 + e }
  else { x with block := (x.block.1 + e, x.block.2 + 1) }

/-- The period `n` back from the newest data bit lies in the sectors of the slot (R302). -/
def BeamSt.inSectors (x : BeamSt) (n : Nat) : Bool :=
  let at' := (x.zn : Int) - 1 - (n : Nat) - x.slotStart
  x.slotKind == 1 && decide (128 ≤ at') && decide (at' < 677504)

/-- Early decisions on a new sample, the phase at traceback depth 8 and the error at depth 16 (R306, R315, R333, R334). -/
def BeamSt.decide' (x : BeamSt) (k : LoopCfg) (z pz : Int) : Int × BeamSt :=
  let v := k.target.survive x.paths x.surv z
  let zs := (z :: x.zs).take 17
  let pzs := (pz :: x.pzs).take 17
  let zpos := (((x.vIx + x.mu / 2 ^ 30) % 2 ^ 32, x.mu % 2 ^ 30) :: x.zpos).take 17
  let best := bestPath v.1 v.2
  let ideal := fun (n : Nat) => k.target.ideal ((best.drop n).take 5)
  let phi := if zs.length < 14 then 0 else k.target.phase (zs.getD 8 0) (zs.getD 9 0) (ideal 8) (ideal 9)
  let ready := decide (17 ≤ zs.length)
  let e := 16 * zs.getD 16 0 - ideal 16
  let ep := 16 * pzs.getD 16 0 - ideal 16
  let y := { x with
    paths := v.1, surv := v.2, zs := zs, pzs := pzs, zpos := zpos
    dphi := (phi.natAbs :: x.dphi).take 1024
    sq := if ready then (e * e).natAbs :: x.sq else x.sq
    probeSum := if ready then x.probeSum + (ep * ep).natAbs else x.probeSum
    probeN := if ready then x.probeN + 1 else x.probeN }
  (phi, if ready && k.adapt && x.found && x.inSectors 15 then (y.placeError (zpos.getD 16 (0, 0)) e).sumError e (ideal 16) else y)

/-! ## Sync marks and slots at the bit (R218, R323 to R325) -/

/-- The 48-bit mark `pat` in the 64 data bits up to the newest, nominally 8 behind the first of them (R323). -/
def BeamSt.markHere (x : BeamSt) (tol pat : Nat) : Bool :=
  (findSync ((x.window ((x.zn : Int) - 64) 64).map fun z => decide (0 < z)) 8 tol pat).isSome

/-- 90 % or more of the first 4,096 bits of the slot are marks (R325). -/
def BeamSt.burned (x : BeamSt) : Bool :=
  36864 ≤ 10 * ((x.window x.slotStart 4096).filter fun z => 0 < z).length

/-- The preamble's amplitude is below the blank level and sector 0 shows no sync mark (R325). -/
def BeamSt.blankSlot (x : BeamSt) (blank : Nat) : Bool :=
  !x.found && decide ((match x.swing with
    | some (lo, hi) => hi - lo
    | none => 0) < (blank : Int))

/-- After data bit `at'` of a slot: sync and linking marks are looked for where their places have passed (R323, R324), and the slot is
classified: burned after 4,096 bits, else blank or recorded once both sync marks of sector 0 have had their place (R325; DESIGN CHOICE for
the moments and for a period that is a mark where its sample is positive, log 190). -/
def BeamSt.frameAt (x : BeamSt) (k : LoopCfg) (at' : Nat) : BeamSt :=
  if at' < 128 then x
  else
    let r := (at' - 128) % 37632
    let x := if r = 16 then { x with found := false }
      else if r = 56 then
        { x with
          found := x.markHere k.syncTol 0xFFFFFFF0B38E
          linkAt := if x.markHere k.linkTol 0xF0F0F0F0F0F0 then some ((at' - 128) / 37632) else x.linkAt }
      else if r = 18920 then { x with found := x.found || x.markHere k.syncTol 0x0000000F4C71 }
      else x
    if !x.unclassed then x
    else if at' = 4096 ∧ x.burned then { x with slotKind := 3 }
    else if at' = 19048 ∧ x.slotKind = 1 ∧ x.blankSlot k.blank then { x with slotKind := 2 }
    else x

/-- v at the interpolator's position enters the amplitude of the preamble (R325). -/
def BeamSt.swingStep (x : BeamSt) : BeamSt :=
  let at' := (x.zn : Int) - x.slotStart
  if x.unclassed ∧ 0 ≤ at' ∧ at' < 128 then
    let v := x.vq.getD (x.mu / 2 ^ 30) 0
    { x with swing := some (match x.swing with
      | some (lo, hi) => (min lo v, max hi v)
      | none => (v, v)) }
  else x

/-- A data bit joins the channel (R317). -/
def BeamSt.dataBit (x : BeamSt) (k : LoopCfg) (z : Int) : BeamSt :=
  let x := x.swingStep
  let x := { x with zd := z :: x.zd, zn := x.zn + 1 }
  if (x.slotKind = 1 ∨ x.unclassed ∨ (x.slotKind = 0 ∧ x.sector = 18)) ∧ x.slotStart ≤ x.zn then x.frameAt k ((x.zn : Int) - x.slotStart).toNat else x

/-! ## The loop (R315 to R317) -/

/-- One channel bit period (R315 to R317). The phase of period k moves the loop 8 periods later, when its decisions are there
(DESIGN CHOICE, log 172). -/
def BeamSt.bitStep (x : BeamSt) (k : LoopCfg) : BeamSt :=
  let base : Int := (k.step : Nat) + x.freq
  let z := x.interp x.mu
  if x.holds then
    let x := if 128 ≤ x.per then x.dataBit k z else x
    x.moveOn base
  else
    let r := x.decide' k z (x.interp (x.mu + k.probe))
    let acq := decide (0 < x.acqLeft) && decide (x.slotStart ≤ (x.zn : Int))
    let kp := if acq then k.kpAcq else k.kpTrk
    let ki := if acq then k.kiAcq else k.kiTrk
    let y := { r.2.dataBit k z with
      acqLeft := x.acqLeft - b2n acq
      freq := clampFreq k.step (x.freq + divRound r.1 ((2 ^ ki : Nat))) }
    y.moveOn (base + divRound r.1 ((2 ^ kp : Nat)))

/-- As many periods as the waiting samples allow, at most `n`. -/
def BeamSt.runBits (k : LoopCfg) : Nat → BeamSt → BeamSt
  | 0, x => x
  | n + 1, x => if x.mu / 2 ^ 30 + 3 < x.vq.length then BeamSt.runBits k n (x.bitStep k) else x

/-! ## Adaptation (R302, R306 to R308, R313, R314)

The errors that a link frame completes move o_a, g_a and the taps at its end, before the samples of the next one, in the units of the
rules; each sum is held below the last place of its register (DESIGN CHOICE, log 188). -/

/-- A register's value and what lies `s` binary places below its last one, moved to `v` of that unit. -/
def roundRest (s : Nat) (v : Int) : Int × Int :=
  let r := divRound v ((2 ^ s : Nat))
  (r, v - r * (2 ^ s : Nat))

/-- o_a and g_a after the blocks and the gain sum of a link frame (R302). -/
def Chip.adaptFront (c : Chip) (h : Port) (b : BeamNo) : Chip :=
  let p : Page := .beam h b
  let x := c.bm h b
  let c := if x.blocks ≠ 0 ∧ c.flag p Reg.BEAM.FE_CTL_OFS_ADAPT then
      let v := c.rdS p Reg.BEAM.FE_STATE_O_A * (2 ^ 17 : Nat) + x.rest.ofs + x.blocks * (2 ^ (15 - c.rd p Reg.BEAM.FE_CTL_OFS_MU) : Nat)
      let r := roundRest 17 (clampI (-(16384 * 2 ^ 17 : Nat)) (16384 * 2 ^ 17 : Nat) v)
      (c.putS p Reg.BEAM.FE_STATE_O_A r.1).modBm h b fun x => { x with rest := { x.rest with ofs := r.2 } }
    else c
  let lev := c.rd p Reg.BEAM.DET_CTL_LEVEL_A
  if x.gains ≠ 0 ∧ c.flag p Reg.BEAM.FE_CTL_GAIN_ADAPT ∧ lev ≠ 0 then
    let d := divRound (x.gains * (128 * 2 ^ 15 : Nat)) ((lev * lev * 2 ^ c.rd p Reg.BEAM.FE_CTL_GAIN_MU : Nat))
    let v := (c.rd p Reg.BEAM.FE_STATE_G_A : Int) * (2 ^ 15 : Nat) + x.rest.gain - d
    let r := roundRest 15 (clampI (0x4000 * 2 ^ 15 : Nat) (0xFFFF * 2 ^ 15 : Nat) v)
    (c.put p Reg.BEAM.FE_STATE_G_A r.1.toNat).modBm h b fun x => { x with rest := { x.rest with gain := r.2 } }
  else c

/-- A tap of `w` bits, in 2^-27 of its last place, after the error ε of an index on its sample `y`: -2^-MU × ε × y (R306, R313). -/
def tapMove (w mu : Nat) (eps : Int) (t y : Int) : Int :=
  clampI (-(2 ^ (w + 26) : Nat)) ((2 ^ (w - 1) - 1 : Nat) * (2 ^ 27 : Nat)) (t - eps * y * (2 ^ (15 - mu) : Nat))

/-- The equaliser taps, in that unit, after one index: a pinned c_7 stays, and with PIN_SLOPE c_8 follows c_6 (R307). -/
def eqMove (mu : Nat) (centre slopePin : Bool) (slope eps : Int) (ts ys : List Int) : List Int :=
  let l := (List.range 15).map fun i => if i = 7 ∧ centre then ts.getD i 0 else tapMove 14 mu eps (ts.getD i 0) (ys.getD i 0)
  if slopePin then l.set 8 (clampI (-(2 ^ 40 : Nat)) (8191 * 2 ^ 27 : Nat) (l.getD 6 0 + slope * (2 ^ 27 : Nat))) else l

/-- Where the exchange and the conditioned samples hold index `n`: entries behind the newest equalised one. -/
def Chip.behind (c : Chip) (h : Port) (n : Nat) : Nat := ((c.hd h).sampleIx + 2 ^ 33 - 7 - n) % 2 ^ 32

/-- The equaliser taps after the complete errors of a link frame (R306, R307). -/
def Chip.adaptEq (c : Chip) (h : Port) (b : BeamNo) : Chip :=
  let p : Page := .beam h b
  let x := c.bm h b
  if x.due.isEmpty || !c.flag p Reg.BEAM.EQ_CTL_EQ_ADAPT then c
  else
    let ts := (List.range 15).map fun i => c.rdIS p (eqTapFld i) (i / 2) * (2 ^ 27 : Nat) + x.rest.eq.getD i 0
    let ts := x.due.foldl (fun ts q => eqMove (c.rd p Reg.BEAM.EQ_CTL_EQ_MU) (c.flag p Reg.BEAM.EQ_CTL_PIN_CENTRE)
      (c.flag p Reg.BEAM.EQ_CTL_PIN_SLOPE) x.slope q.2 ts ((x.ys.drop (c.behind h q.1)).take 15)) ts
    let rs := ts.map (roundRest 27)
    let c := (List.range 15).foldl (fun (c : Chip) i => c.putI p (eqTapFld i) (i / 2) (toBits 14 (satI 14 (rs.getD i (0, 0)).1))) c
    c.modBm h b fun x => { x with rest := { x.rest with eq := rs.map (·.2) } }

/-- The canceller taps of one side after them; an index at which the side was frozen moves none (R313, R314). -/
def Chip.adaptSide (c : Chip) (h : Port) (b : BeamNo) (right : Bool) : Chip :=
  let p : Page := .beam h b
  let x := c.bm h b
  let live := x.due.filter fun q => !(if right then x.frozenR else x.frozenL).contains q.1
  if live.isEmpty || !c.flag p Reg.BEAM.XT_CFG_XT_ADAPT || (c.sideOf h b right).isNone then c
  else
    let lo := if right then Reg.BEAM.XT_TAP_R_H_LO else Reg.BEAM.XT_TAP_L_H_LO
    let hi := if right then Reg.BEAM.XT_TAP_R_H_HI else Reg.BEAM.XT_TAP_L_H_HI
    let old := if right then x.rest.xtR else x.rest.xtL
    let reg := c.xtTaps p lo hi
    let ts := (List.range 7).map fun i => sext 13 (reg.getD i 0) * (2 ^ 27 : Nat) + old.getD i 0
    let ts := live.foldl (fun ts q =>
      ts.zipWith (tapMove 13 (c.rd p Reg.BEAM.XT_CFG_XT_MU) q.2) ((c.entriesAt h b right (c.behind h q.1)).map XEntry.value)) ts
    let rs := ts.map (roundRest 27)
    let c := c.putXtTaps p lo hi (rs.map fun r => toBits 13 (satI 13 r.1))
    c.modBm h b fun x => { x with
      rest := if right then { x.rest with xtR := rs.map (·.2) } else { x.rest with xtL := rs.map (·.2) } }

/-- What a link frame's errors move. -/
def Chip.adaptFrame (c : Chip) (h : Port) (b : BeamNo) : Chip :=
  ((((c.adaptFront h b).adaptEq h b).adaptSide h b false).adaptSide h b true).modBm h b fun x =>
    { x with due := [], blocks := 0, gains := 0 }

/-! ## The link frame -/

/-- The oscillator's period in 2^-24 H at STEP + F_k (R17, R315): 150 H hold S samples. -/
def oscPeriod (step : Nat) (f : Int) (s : Nat) : Nat := (((step : Nat) + f) * 150 / (64 * (s : Nat) : Int)).toNat

/-- What the bits of a link frame have shown of the slot: a burned or blank one is delivered (R325), and a linking mark abandons one whose
sector it begins (R324). -/
def Chip.slotJudge (c : Chip) (h : Port) (b : BeamNo) : Chip :=
  let x := c.bm h b
  let c := if !x.unclassed ∨ (x.zn : Int) - x.slotStart < 4096 then c
    else if x.slotKind = 3 then (c.modBm h b fun x => { x with unclassed := false }).deliver (c.itemAt h b (c.beamLayer h b) x.slot 0 6)
    else if x.slotKind = 2 then (c.modBm h b fun x => { x with unclassed := false }).deliver (c.itemAt h b (c.beamLayer h b) x.slot 0 7)
    else if 19048 ≤ (x.zn : Int) - x.slotStart then c.modBm h b fun x => { x with unclassed := false }
    else c
  if x.linkAt = some x.sector ∧ (x.slotKind = 1 ∨ (x.slotKind = 0 ∧ x.sector = 18)) then c.abandon h b x.sector else c

/-- The canceller samples of a link frame pass the bit domain of a beam that reads; one that does not read keeps F_k and the
oscillator's frequency (R17, R316). -/
def Chip.bitPath (c : Chip) (h : Port) (b : BeamNo) : Chip :=
  if c.reads h b then
    let k := c.loopCfg h b
    let s := rateS (c.hd h).rate
    let c := c.modBm h b fun x =>
      let y := BeamSt.runBits k (x.vq.length + x.vs.length) { x with vq := x.vq ++ x.vs }
      { y with
        zd := y.zd.take 150528, sq := y.sq.take 65536, osc := oscPeriod k.step y.freq s, oscBy := 1 }
    (c.adaptFrame h b).slotJudge h b
  else
    c.modBm h b fun x => { x with
      vq := [], mu := 1073741824, zs := [], pzs := [], paths := [], surv := [], zpos := [], eps := [], due := []
      oscBy := if x.oscBy = 1 then 0 else x.oscBy }

/-- The sample and bit domains of the five beams over the RF samples of a link frame (R299). -/
def Chip.readPath (c : Chip) (h : Port) (rf : List (List Byte)) : Chip :=
  allBeams.foldl (fun (c : Chip) b => c.bitPath h b) (c.samplePath h rf)

end Sys2Proof.Machine
end

