-- ==== Sys2Proof/Machine/Media.lean ====
section
/-!
DEFINITION. The pressed information record and the control records of a surface as pure functions (R197, R224 to R231, R383).
-/
namespace Sys2Proof.Machine

/-! ## Areas (R197) -/

/-- The slot carries an ingot: user area or spare area. -/
def ingotSlot (k : Nat) : Bool := decide (384 ≤ k) && decide (k ≤ 481855)
/-- First slot of a power test area: 0 leading, 1 trailing. -/
def testArea (area : Nat) : Nat := if area = 0 then 128 else 481856
/-- First slot of a control zone. -/
def ctrlArea (leading : Bool) : Nat := if leading then 64 else 482112

/-! ## Pressed information (R224 to R226) -/

/-- A pressed information record (R225). -/
structure Pressed where
  side : Nat
  layer : Nat
  discId : Nat
  maker : Nat
  batch : Nat
  r0 : Nat
  kappa : Nat
  readMax : Nat
  /-- Start peak and bias power by zone. -/
  power : List (Nat × Nat)
  /-- Start write-strategy entries, 256 words. -/
  strategy : List Word
  deriving DecidableEq, Repr

/-- A field of `n` bytes at byte `o` of a record. -/
def recField (l : List Byte) (o n : Nat) : Nat := leNat ((l.drop o).take n)

/-- The fields of a record (R225). -/
def parsePressed (l : List Byte) : Pressed :=
  { side := recField l 6 1
    layer := recField l 7 1
    discId := recField l 8 8
    maker := recField l 16 2
    batch := recField l 18 2
    r0 := recField l 20 4
    kappa := recField l 29 1
    readMax := recField l 30 2
    power := (List.range 24).map fun z => (recField l (32 + 4 * z) 2, recField l (34 + 4 * z) 2)
    strategy := (List.range 256).map fun i => BitVec.ofNat 32 (recField l (128 + 4 * i) 4) }

/-- CRC-32C of bytes (R207). -/
def crcBytes (l : List Byte) : Nat := crc crc32c (l.map (·.toNat))

/-- A sector's decode, CHECK and RECORD_CHECK all succeed, and it carries the record's signature and format (R225, R226). -/
def MediaSector.pressedOk (s : MediaSector) : Bool :=
  s.ok && crcBytes (s.payload.take 4156) == leNat (s.payload.drop 4156)
    && crcBytes (s.payload.take 4092) == recField s.payload 4092 4
    && recField s.payload 0 4 == 0x49504C4E && recField s.payload 4 2 == 0x0100

/-- The pressed information record of a layer: that of the first sector that succeeds (R226). -/
def pressedOf (l : List MediaSector) : Option Pressed := (l.find? MediaSector.pressedOk).map fun s => parsePressed s.payload

/-! ## Control records (R227 to R231) -/

/-- The 64-byte header of a control record (R229). -/
def ctrlHeader (r : CtrlRec) (discId side part parts : Nat) : List Byte :=
  bytesLE 4 0x5A434C4E ++ bytesLE 2 r.typ ++ bytesLE 2 0x0100 ++ bytesLE 8 r.csn ++ bytesLE 8 discId ++ bytesLE 1 side
    ++ bytesLE 1 r.layer ++ bytesLE 2 0 ++ bytesLE 4 r.body.length ++ bytesLE 4 (crcBytes r.body) ++ bytesLE 2 part ++ bytesLE 2 parts
    ++ List.replicate 24 0

/-- Slots that a record takes in each zone: 65,472 payload bytes in each (R227). -/
def ctrlParts (r : CtrlRec) : Nat := max 1 ((r.body.length + 65471) / 65472)

/-- The metadata of a control slot's sectors (R206, R227). -/
def ctrlMeta (polder member : Nat) : SectorMeta := { polder := polder, member := member, flags := 2 }

/-- A record read from a control zone, one part of it: what its header names, and its bytes. -/
structure CtrlPart where
  typ : Nat
  csn : Nat
  layer : Nat
  length : Nat
  check : Nat
  part : Nat
  parts : Nat
  bytes : List Byte
  deriving DecidableEq, Repr

/-- The part that a control slot holds, none where its header is not one of R229. -/
def parsePart (l : List Byte) : Option CtrlPart :=
  if recField l 0 4 ≠ 0x5A434C4E ∨ recField l 6 2 ≠ 0x0100 then none
  else some ⟨recField l 4 2, recField l 8 8, recField l 25 1, recField l 28 4, recField l 32 4, recField l 36 2, recField l 38 2,
    (l.drop 64).take 65472⟩

/-- The record of number `csn` in one zone, where it is complete: all parts, and its PAYLOAD_CHECK (R229, R231). -/
def joinParts (ps : List CtrlPart) (csn : Nat) : Option CtrlRec :=
  match ps.find? fun p => p.csn == csn with
  | none => none
  | some p =>
    let l := (List.range p.parts).map fun k => ps.find? fun x => x.csn == csn && x.part == k
    let body := ((l.flatMap fun x => (x.map (·.bytes)).getD [])).take p.length
    if l.all Option.isSome && body.length == p.length && crcBytes body == p.check then some ⟨p.typ, csn, p.layer, body⟩ else none

/-- The complete records of a zone of a layer. -/
def zoneRecords (l : List CtrlRead) (leading : Bool) (layer : Nat) : List CtrlRec :=
  let ps := (l.filter fun k => k.layer == layer && k.leading == leading).filterMap fun k => k.user.bind parsePart
  ((ps.map (·.csn)).eraseDups).filterMap (joinParts ps)

/-- The records of a layer: the union of both zones by CSN, the leading copy first (R231). -/
def layerRecords (l : List CtrlRead) (layer : Nat) : List CtrlRec :=
  let a := zoneRecords l true layer
  a ++ (zoneRecords l false layer).filter fun r => !a.any fun x => x.csn == r.csn

/-- The records of a surface in the order of their CSN. -/
def surfaceRecords (l : List CtrlRead) : List CtrlRec :=
  ((List.range 8).flatMap (layerRecords l)).mergeSort fun a b => decide (a.csn ≤ b.csn)

/-! ## Payloads (R230, R383); widths that R230 does not state are the model's (DESIGN CHOICE, log 175) -/

/-- Surface Information: POLDER_ID, MEMBER, serial number, first RSN, date of first recording. -/
def infoBody (polder member rsn date : Nat) : List Byte :=
  bytesLE 8 polder ++ bytesLE 1 member ++ bytesLE 8 Config.serial.toNat ++ bytesLE 8 rsn ++ bytesLE 8 date
/-- Slot Map. -/
def mapBody (l : List MapEntry) : List Byte :=
  l.flatMap fun e => bytesLE 1 e.spiral ++ bytesLE 1 e.reason ++ bytesLE 2 0 ++ bytesLE 4 e.slot
/-- Layer Closure: last slot, ingots and consumed slots of each spiral. -/
def closureBody (tops ingots consumed : List Nat) : List Byte := (tops ++ ingots ++ consumed).flatMap (bytesLE 4)
/-- Burn Intent with one region on all four spirals. -/
def intentBody (id op layer first last : Nat) : List Byte :=
  bytesLE 8 id ++ bytesLE 4 op ++ bytesLE 4 1 ++ bytesLE 1 layer ++ bytesLE 1 15 ++ bytesLE 2 0 ++ bytesLE 4 first ++ bytesLE 4 last
/-- Burn Completion: INTENT_ID, result and the slots that failed. -/
def burnedBody (id result layer : Nat) (bad : List (Nat × Nat)) : List Byte :=
  bytesLE 8 id ++ bytesLE 1 result ++ bad.flatMap fun b => bytesLE 1 layer ++ bytesLE 1 b.1 ++ bytesLE 2 0 ++ bytesLE 4 b.2
/-- Surface Finalisation: reason, final RSN, last slot of each spiral of each layer, consumed slot count. -/
def finalBody (reason rsn : Nat) (tops : List Nat) (count : Nat) : List Byte :=
  bytesLE 1 reason ++ bytesLE 8 rsn ++ tops.flatMap (bytesLE 4) ++ bytesLE 4 count
/-- Power Test Log (R383). -/
def testLogBody (l : List (List Byte)) : List Byte := bytesLE 4 l.length ++ bytesLE 4 0 ++ l.flatten
/-- One entry of the Power Test Log (R383). -/
def testEntry (slot area beam spiral : Nat) (step : Option Nat) (peak bias : Nat) (tj : Int) (zone : Nat) : List Byte :=
  bytesLE 4 slot ++ bytesLE 1 area ++ bytesLE 1 beam ++ bytesLE 1 spiral ++ bytesLE 1 (step.getD 0xFF) ++ bytesLE 2 peak
    ++ bytesLE 2 bias ++ bytesLE 1 (tj % 256).toNat ++ bytesLE 1 zone ++ bytesLE 2 0

/-- Entries of a Slot Map payload. -/
def parseMap (layer : Nat) (l : List Byte) : List MapEntry :=
  (List.range (l.length / 8)).map fun i => ⟨layer, recField l (8 * i) 1 % 4, recField l (8 * i + 4) 4, recField l (8 * i + 1) 1⟩

/-! ## A surface and its records -/

/-- Control slots used in a zone of a layer (R228). -/
def Surface.used (s : Surface) (layer : Nat) (leading : Bool) : Nat :=
  (s.ctrl.filter fun k => k.layer == layer && k.leading == leading).length
/-- Blank control slots of the fuller zone of a layer (R197, R233). -/
def Surface.blankCtrl (s : Surface) (layer : Nat) : Nat := 256 - max (s.used layer true) (s.used layer false)

/-- One copy of a record in a zone: the next slots in the order of R228. -/
def Surface.copy (s : Surface) (r : CtrlRec) (discId side : Nat) (leading : Bool) : Surface :=
  let n := s.used r.layer leading
  let k := ctrlParts r
  let l := (List.range k).map fun i =>
    CtrlSlot.mk r.layer leading (n + i) r.typ r.csn i k (s.nextRsn + i)
      (some (ctrlHeader r discId side i k ++ (r.body.drop (65472 * i)).take 65472))
  { s with ctrl := s.ctrl ++ l, nextRsn := s.nextRsn + k }

/-- A record enters both control zones of its layer, leading first, where both have room (R227, R228). -/
def Surface.put (s : Surface) (r : CtrlRec) (discId side : Nat) : Surface :=
  if s.blankCtrl r.layer < ctrlParts r then s else (s.copy r discId side true).copy r discId side false

/-- A new record with the next CSN (R229). -/
def Surface.append (s : Surface) (typ layer discId side : Nat) (body : List Byte) : Surface :=
  { s with csn := s.csn + 1 }.put ⟨typ, s.csn + 1, layer, body⟩ discId side

/-- Last slot recorded on a spiral, 0 for none (R230). -/
def Surface.lastSlot (s : Surface) (layer spiral : Nat) : Nat := (assocGet (layer * 4 + spiral) s.top).getD 0

/-- What a record read from the disc tells of its surface (R230, R231). -/
def Surface.learn (s : Surface) (r : CtrlRec) : Surface :=
  let s := { s with csn := max s.csn r.csn }
  match r.typ with
  | 1 => { s with info := some (recField r.body 0 8, recField r.body 8 1) }
  | 3 => { s with consumed := s.consumed ++ (parseMap r.layer r.body).filter fun e => !s.consumed.contains e }
  | 4 =>
    if s.closed.contains r.layer then s
    else { s with
      closed := s.closed ++ [r.layer]
      ingots := (List.range 4).foldl (fun m j => assocSet (r.layer * 4 + j) (recField r.body (16 + 4 * j) 4) m) s.ingots }
  | 7 => { s with finalised := s.finalised.or (some (recField r.body 0 1)) }
  | _ => s

/-- Burn Intents on a surface without a Burn Completion: INTENT_ID, operation, layer, first and last slot (R236). -/
def openIntents (l : List CtrlRec) : List (Nat × Nat × Nat × Nat × Nat) :=
  let done := (l.filter fun r => r.typ == 6).map fun r => recField r.body 0 8
  ((l.filter fun r => r.typ == 5 && !done.contains (recField r.body 0 8)).flatMap fun r =>
    (List.range (recField r.body 12 4)).map fun i =>
      (recField r.body 0 8, recField r.body 8 4, recField r.body (16 + 12 * i) 1, recField r.body (20 + 12 * i) 4,
        recField r.body (24 + 12 * i) 4))

/-- The control slots that were read, among those known (R228): an incomplete one counts as used. -/
def Surface.see (s : Surface) (l : List CtrlRead) : Surface :=
  l.foldl (fun (s : Surface) k =>
    if s.ctrl.any fun x => x.layer == k.layer && x.leading == k.leading && x.ix == k.ix then s
    else
      let p := k.user.bind parsePart
      { s with ctrl := s.ctrl ++ [⟨k.layer, k.leading, k.ix, (p.map (·.typ)).getD 0, (p.map (·.csn)).getD 0, (p.map (·.part)).getD 0,
        (p.map (·.parts)).getD 1, 0, k.user⟩] }) s

end Sys2Proof.Machine
end

