-- ==== Sys2Proof/Machine/Write.lean ====
section
/-!
DEFINITION. The write path of a beam: work items, encoding, write symbols, runs and their ends, running power control, power
tests and verify (chapter 08).
-/
namespace Sys2Proof.Machine

/-- WR_STAT.STATE (R403). -/
def Chip.wrState (c : Chip) (h : Port) (b : BeamNo) : Nat := c.rd (.beam h b) Reg.BEAM.WR_STAT_STATE
/-- Sets WR_STAT.STATE. -/
def Chip.wrPut (c : Chip) (h : Port) (b : BeamNo) (st : Nat) : Chip := c.put (.beam h b) Reg.BEAM.WR_STAT_STATE st
/-- The beam records (R357). -/
def Chip.wrActive (c : Chip) (h : Port) (b : BeamNo) : Bool :=
  let st := c.wrState h b
  st = 3 || st = 4 || st = 5

/-- A 64-bit recording sequence number is taken (R222). -/
def Chip.takeRsn (c : Chip) (h : Port) : Nat × Chip :=
  ((c.hd h).nextRsn, c.modHd h fun x => { x with nextRsn := (x.nextRsn + 1) % 2 ^ 64 })

/-! ## Encoding (R201 to R215, R361) -/

/-! ## Write symbols (R365, R368, R369) -/

/-- An entry of the strategy table in use: FIRST, MID, LAST, COOL. -/
def Chip.stratEntry (c : Chip) (h : Port) (b : BeamNo) (zone m s : Nat) : Nat × Nat × Nat × Nat :=
  let p : Page := .beam h b
  let i := 256 * (c.bm h b).bank + 32 * (zone / 3) + 4 * (m - 1) + (s - 1)
  (c.rdI p Reg.BEAM.STRAT_FIRST i, c.rdI p Reg.BEAM.STRAT_MID i, c.rdI p Reg.BEAM.STRAT_LAST i, c.rdI p Reg.BEAM.STRAT_COOL i)

/-- The symbols of one run (R368), with the space run it leaves and the COOL symbol owed. -/
def runSymbols (tbl : Nat → Nat → Nat × Nat × Nat × Nat) (mark : Bool) (n space : Nat) (cool : Option Nat) :
    List Nat × Nat × Option Nat :=
  if mark then
    let e := tbl (min n 8) (max 1 (min space 4))
    let l := if n = 1 then [e.1] else if n = 2 then [e.1, e.2.2.1] else [e.1] ++ List.replicate (n - 2) e.2.1 ++ [e.2.2.1]
    (l, space, some e.2.2.2)
  else ((cool.getD 1) :: List.replicate (n - 1) 1, n, none)

/-- Mapping state: symbols so far in reverse, the run in progress, the space run before it, the COOL owed. -/
structure SymAcc where
  out : List Nat := []
  cur : Option (Bool × Nat) := none
  space : Nat := 4
  cool : Option Nat := none

/-- Ends the run in progress. -/
def SymAcc.flush (tbl : Nat → Nat → Nat × Nat × Nat × Nat) (a : SymAcc) : SymAcc :=
  match a.cur with
  | none => a
  | some (m, n) =>
    let r := runSymbols tbl m n a.space a.cool
    { out := r.1.reverse ++ a.out, cur := none, space := r.2.1, cool := r.2.2 }

/-- One channel bit, or none for a servo field of 128 periods (R364, R368). -/
def SymAcc.put (tbl : Nat → Nat → Nat × Nat × Nat × Nat) (a : SymAcc) : Option Bool → SymAcc
  | none =>
    let a := a.flush tbl
    { out := List.replicate 128 0 ++ a.out, cur := none, space := 4, cool := none }
  | some v =>
    match a.cur with
    | none => { a with cur := some (v, 1) }
    | some (m, n) => if m = v then { a with cur := some (m, n + 1) } else { a.flush tbl with cur := some (v, 1) }

/-- Symbols at successive data periods with the servo fields between them, which carry 0 (R201, R375). -/
def spread (d : Nat) (l : List Nat) : List Nat :=
  (withFields d l).flatMap fun v => match v with
    | none => List.replicate 128 0
    | some s => [s]

/-- Channel bits join the symbol stream of the beam; `off` is their first data period in the slot; with `start` they begin a run, with
`last` the run of equal bits in progress ends too. -/
def Chip.emitBits (c : Chip) (h : Port) (b : BeamNo) (slot off : Nat) (bits : List Bool) (start last : Bool) : Chip :=
  let x := c.bm h b
  let tbl := c.stratEntry h b (c.rd (.beam h b) Reg.BEAM.RD_STAT_ZONE)
  let d := windowAt slot off start
  let a : SymAcc := { cur := x.lastRun, space := x.lastSpace, cool := x.cool }
  let a := (withFields d bits).foldl (SymAcc.put tbl) a
  let a := if last then a.flush tbl else a
  c.modBm h b fun x => { x with
    stream := x.stream ++ a.out.reverse, lastRun := a.cur, lastSpace := a.space, cool := a.cool }

/-! ## Work items and loading (R355, R356, R359, R361 to R363) -/

/-- An item of crossing `x` towards a gated island is discarded and reported (R19). -/
def Chip.absentItem (c : Chip) (x : Nat) : Chip := c.fault .sys 2 1 0 x 0x010

/-- R356: the beam accepts the item. -/
def Chip.itemOk (c : Chip) (h : Port) (b : BeamNo) (w : WorkItem) : Bool :=
  let p : Page := .beam h b
  let role := c.beamRole h b
  c.enabled p && c.rd p Reg.HDR.PAGE_STAT_STATE = 1 && !(c.bm h b).refused
    && c.flag p Reg.BEAM.WR_CTL_WR_ALLOW && (role = 1 || role = 4) && w.spiral = c.spiralOf h b w.layer
    && 384 ≤ w.slot && w.slot + w.ingots.length ≤ 481856 && !w.ingots.isEmpty

/-- A work item becomes the run in progress: loading begins (R403). -/
def Chip.startItem (c : Chip) (h : Port) (b : BeamNo) (w : WorkItem) : Chip :=
  let r := c.takeRsn h
  let c := r.2.modBm h b fun x => { x with
    run := some { item := w, queue := w.ingots, slot := w.slot, rsn := r.1 }, bufs := [], loadSec := 0, par16 := [], par17 := []
    lastRun := none, lastSpace := 4, cool := none }
  c.wrPut h b 1

/-- A beam without a run takes its next waiting item, unless it is quiesced (R278, R360). -/
def Chip.nextItem (c : Chip) (h : Port) (b : BeamNo) : Chip :=
  let x := c.bm h b
  match x.items with
  | [] => c
  | w :: r => if x.run.isSome || c.quiet h b then c else (c.modBm h b fun x => { x with items := r }).startItem h b w

/-- R355, R356: a work item is handed to a beam. -/
def Chip.workItem (c : Chip) (h : Port) (b : BeamNo) (w : WorkItem) : Chip :=
  if !c.itemOk h b w then
    (c.modBm h b fun x => { x with returned := x.returned ++ [(w, 11)] }).put (.beam h b) Reg.BEAM.WR_STAT_CAUSE 11
  else if (c.bm h b).run.isSome || c.quiet h b then c.modBm h b fun x => { x with items := x.items ++ [w] }
  else c.startItem h b w

/-- The run ends; the next waiting item begins to load (R360). -/
def Chip.runOver (c : Chip) (h : Port) (b : BeamNo) : Chip :=
  let p : Page := .beam h b
  let c := c.modBm h b fun x => { x with run := none, bufs := [], loadSec := 0, oscBy := 0 }
  let c := (c.wrPut h b 0).put p Reg.BEAM.WR_STAT_SECTOR 0x1F
  let c := c.put p Reg.BEAM.RD_STAT_ROLE (c.mapRole h b)
  c.nextItem h b

/-- Sectors 0 and 1 of the next ingot are in the beam and sector 0 is encoded (R359). -/
def BeamSt.nextReady (x : BeamSt) (from' : Nat) : Bool :=
  match x.bufs.drop from' with
  | a :: b :: _ => a.sec = 0 && a.coded.isSome && b.sec = 1
  | _ => false

/-- Under second-pass verify the beam's spiral has its PASS_LEN slots, or the verify read is in progress (R388). -/
def Chip.passFull (c : Chip) (h : Port) (spiral : Nat) : Bool :=
  let p : Page := .head h
  c.rd p Reg.HEAD.WR_HSTAT_VFY_ACTIVE = 2 && ((c.hd h).verifying
    || atLeast1 (c.rd p Reg.HEAD.WR_HCTL_PASS_LEN) ≤ (assocGet spiral (c.hd h).passLen).getD 0)

/-- The run in progress waits for a verify pass; a burn, which is read back afterwards, does not (R388, R400). -/
def Chip.passWaits (c : Chip) (h : Port) (b : BeamNo) : Bool :=
  match (c.bm h b).run with
  | some r => !r.item.burn && c.passFull h r.item.spiral
  | none => false

/-- The beam arms where R359 holds, at no more than 3,600 rpm (R189), unless a verify pass is due (R388); the linking mark's symbols enter
the link buffer (R393). -/
def Chip.tryArm (c : Chip) (h : Port) (b : BeamNo) : Chip :=
  let x := c.bm h b
  if c.wrState h b = 1 && !c.passWaits h b && x.nextReady 0 && 8 ≤ x.gridGood && c.spTarget h.spin ≤ 3600 then
    let tbl := c.stratEntry h b (c.rd (.beam h b) Reg.BEAM.RD_STAT_ZONE)
    let a := ((bitsBE 48 0xF0F0F0F0F0F0).foldl (fun a v => SymAcc.put tbl a (some v)) ({} : SymAcc)).flush tbl
    (c.modBm h b fun x => { x with link := a.out.reverse }).wrPut h b 2
  else c

/-- The sector whose payload the beam loads next. -/
def BeamSt.nextSec (x : BeamSt) : Nat := if x.loadSec < 16 then x.loadSec else 0

/-- The payload that the beam loads next belongs to the ingot after the current one. -/
def BeamSt.loadsNext (x : BeamSt) : Bool := x.loadSec == 16 || x.bufs.any fun w => w.sec == 17

/-- The beam asks for a payload over X9: one of the current ingot, or of the next where the run goes on, while one of its three sector
buffers is free (R360, R362). A burn needs none (R399). -/
def Chip.loads (c : Chip) (h : Port) (b : BeamNo) : Bool :=
  let x := c.bm h b
  (x.bufs.filter fun w => decide (w.sec < 16)).length < 3 &&
    match x.run with
    | some r => !r.item.burn && (x.loadSec < 16 || (1 < r.queue.length && !r.stop))
    | none => false

/-- The RSN of the ingot whose payload is loaded: the next ingot takes its own with its first payload (R206, R222). -/
def Chip.loadRsn (c : Chip) (h : Port) (b : BeamNo) : Nat × Chip :=
  match (c.bm h b).run with
  | none => (0, c)
  | some r =>
    if !(c.bm h b).loadsNext then (r.rsn, c)
    else
      match r.rsnNext with
      | some n => (n, c)
      | none =>
        let (n, c) := c.takeRsn h
        (n, c.modBm h b fun x => { x with run := x.run.map fun r => { r with rsnNext := some n } })

/-- A payload arrives over X9: CHECK, outer parity, buffers (R361, R362). Sectors 16 and 17 form after sector 15. `spoil` has CHECK
recorded inverted (R656). -/
def Chip.sectorPayload (c : Chip) (h : Port) (b : BeamNo) (user md : List Byte) (spoil : Bool) : Chip :=
  let x := c.bm h b
  if !c.loads h b || user.length ≠ 4096 || md.length ≠ 60 then c
  else
    let sec := x.nextSec
    let n := beamHall h b
    let v := c.hallValue n ((user ++ md).map (·.toNat))
    let c := c.hallMessage n v none
    let v := if spoil then 2 ^ 32 - 1 - v % 2 ^ 32 else v
    let pl := user ++ md ++ bytesLE 4 v
    let par := outerStep (if sec = 0 then [] else x.par16) (if sec = 0 then [] else x.par17) pl
    let add := if sec = 15 then [⟨15, pl, none⟩, ⟨16, par.1, none⟩, ⟨17, par.2, none⟩] else [⟨sec, pl, none⟩]
    (c.modBm h b fun x => { x with bufs := x.bufs ++ add, loadSec := sec + 1, par16 := par.1, par17 := par.2 }).tryArm h b

/-- The first buffer without a code takes it. -/
def encodeFirst (f : WriteSector → Nat × List Bool) : List WriteSector → List WriteSector
  | [] => []
  | s :: r => if s.coded.isNone then { s with coded := some (f s) } :: r else s :: encodeFirst f r

/-- Encoding of the oldest payload completes (R361 steps 3 to 5, R363). -/
def Chip.encodeDone (c : Chip) (h : Port) (b : BeamNo) : Chip :=
  let x := c.bm h b
  match x.run with
  | none => c
  | some r =>
    let before := (x.bufs.takeWhile (·.coded.isSome)).any (·.sec = 17)
    let slot := r.slot + b2n before
    let code := fun (w : WriteSector) =>
      let k := pickSeed slot w.sec r.item.spiral (codeword w.payload)
      (headerWord w.sec k.1 r.item.side r.item.layer r.item.spiral slot, k.2)
    (c.modBm h b fun x => { x with bufs := encodeFirst code x.bufs }).tryArm h b

/-- R363. -/
def execSectorEncodeDone (h : Port) (b : BeamNo) (s : State) : Out := s.to fun c => c.encodeDone h b

/-! ## Ends (R391 to R396) -/

/-- A slot is consumed with its Slot Map reason (R219). -/
def Chip.consume (c : Chip) (h : Port) (layer spiral slot reason : Nat) : Chip :=
  { c with consumed := c.consumed ++ [⟨h.val, layer, spiral, slot, reason⟩] }

/-- One more early end or failed verify of an ingot on its spiral; at the third in succession the beam takes no more work
(R396). The answer says so. -/
def Chip.countFail (c : Chip) (h : Port) (b : BeamNo) (i : IngotRef) : Bool × Chip :=
  let x := c.bm h b
  let n := if x.failIngot = some i then x.fails + 1 else 1
  let c := c.modBm h b fun x => { x with failIngot := some i, fails := n }
  if 3 ≤ n then
    (true, (c.modBm h b fun x => { x with refused := true, fails := 0, failIngot := none }).fault0 (.beam h b) 2 11 1)
  else (false, c)

/-- The write of the current ingot has ended early: its slot is consumed and it is recorded again in the next slot with a new
RSN (R394, R395). -/
def Chip.earlyEnd (c : Chip) (h : Port) (b : BeamNo) (reason : Nat) : Chip :=
  let p : Page := .beam h b
  match (c.bm h b).run with
  | none => c.wrPut h b 0
  | some r =>
    let c := c.modBm h b fun x => { x with oscBy := 0 }
    let c := (c.inc p Reg.BEAM.WR_COUNT_ENDED).consume h r.item.layer r.item.spiral r.slot reason
    let c := c.modBm h b fun x => { x with
      stream := [], fifo := [], bufs := [], loadSec := 0, par16 := [], par17 := [], lastRun := none, lastSpace := 4, cool := none }
    let c := (c.put p Reg.BEAM.WR_STAT_SECTOR 0x1F).put p Reg.BEAM.RD_STAT_ROLE (c.mapRole h b)
    match r.queue with
    | [] => c.runOver h b
    | i :: _ =>
      let f := c.countFail h b i
      if f.1 ∨ 481855 < r.slot + 1 then
        (f.2.modBm h b fun x => { x with returned := x.returned ++ [({ r.item with slot := r.slot + 1, ingots := r.queue }, c.rd p Reg.BEAM.WR_STAT_CAUSE)] }).runOver h b
      else
        let n := f.2.takeRsn h
        (n.2.modBm h b fun x => { x with run := some { r with slot := r.slot + 1, rsn := n.1, rsnNext := none, goOn := false, monOk := true } }).wrPut h b 1

/-- A linking cause (R391, R392, R401): the first of them is recorded; `whole` says that the current sector's symbols are
completed first. -/
def Chip.linkCause (c : Chip) (h : Port) (b : BeamNo) (cause : Nat) (whole : Bool) : Chip :=
  let p : Page := .beam h b
  let st := c.wrState h b
  if st = 3 ∨ st = 5 then
    let c := (c.put p Reg.BEAM.WR_STAT_CAUSE cause).wrPut h b 4
    if whole then c else c.modBm h b fun x => { x with stream := [], fifo := [] }
  else c

/-- An immediate end with its cause and Slot Map reason (R394, R401). -/
def Chip.immediateEnd (c : Chip) (h : Port) (b : BeamNo) (cause reason : Nat) : Chip :=
  let p : Page := .beam h b
  if c.wrActive h b then
    let marked := c.wrState h b = 4 && (c.bm h b).link.isEmpty
    (c.put p Reg.BEAM.WR_STAT_CAUSE cause).earlyEnd h b (if marked then 3 else reason)
  else c

/-- R392: the linking mark has been placed: WRITE_EN clears and the FIFO is discarded. -/
def execWriteLinkingEnd (h : Port) (b : BeamNo) (s : State) : Out :=
  s.to fun c => if c.wrState h b = 4 then c.earlyEnd h b 3 else c

/-- WR_CTL.STOP (R402). -/
def Chip.writeStop (c : Chip) (h : Port) (b : BeamNo) : Chip :=
  c.modBm h b fun x => { x with run := x.run.map fun r => { r with stop := true } }
/-- R402. -/
def execWriteStop (r : Requester) (h : Port) (b : BeamNo) (s : State) : Out :=
  s.to fun c => c.write r (.beam h b) fun c => c.writeStop h b

/-- R402: WR_CTL.ABORT. -/
def execWriteAbort (r : Requester) (h : Port) (b : BeamNo) (s : State) : Out :=
  s.to fun c => c.write r (.beam h b) fun c => c.linkCause h b 5 true

/-- The payload that is due at the primary sync mark of the current sector is not complete: that of the next sector, or, in sector 16,
that of sector 0 of the next ingot of the run (R362). -/
def Chip.payloadLate (c : Chip) (h : Port) (b : BeamNo) : Bool :=
  let x := c.bm h b
  let s := c.rd (.beam h b) Reg.BEAM.WR_STAT_SECTOR
  match x.run with
  | none => false
  | some r =>
    if s < 15 then !x.bufs.any fun w => w.sec == s + 1
    else s == 16 && decide (1 < r.queue.length) && !r.stop && !x.bufs.any fun w => w.sec == 0

/-- R362: a payload incomplete by its deadline. -/
def execDataLate (h : Port) (b : BeamNo) (s : State) : Out :=
  s.to fun c =>
    let p : Page := .beam h b
    if c.wrState h b = 3 && c.payloadLate h b then
      (((c.linkCause h b 2 true).inc p Reg.BEAM.WR_EVENTS_DATA_LATE).dlMiss p).fault0 p 0 3 0
    else c

/-- The run is given back unexecuted before its first slot (R359, R489). -/
def Chip.runMissed (c : Chip) (h : Port) (b : BeamNo) : Chip :=
  let p : Page := .beam h b
  match (c.bm h b).run with
  | some r =>
    let c := (c.put p Reg.BEAM.WR_STAT_CAUSE 10).fault0 p 2 7 0
    (c.modBm h b fun x => { x with
      returned := x.returned ++ [({ r.item with slot := r.slot, ingots := r.queue }, 10)] }).runOver h b
  | none => c

/-- R359, R489: a beam not armed, or armed and inhibited, 10 us before its first slot. -/
def execRunMissed (h : Port) (b : BeamNo) (s : State) : Out :=
  s.to fun c =>
    if c.wrState h b = 1 ∨ (c.wrState h b = 2 ∧ bit (c.sv h).winh b.val) then c.runMissed h b else c

/-- The write inhibit of the servo ends a write (R391, R489). -/
def Chip.writeInhibit (c : Chip) (h : Port) (b : BeamNo) : Chip :=
  let p : Page := .beam h b
  if c.wrActive h b then ((c.inc p Reg.BEAM.WR_EVENTS_INHIBIT).fault0 p 2 6 0).immediateEnd h b 6 4 else c

/-- A grid fault (R373, R391). -/
def Chip.gridFault (c : Chip) (h : Port) (b : BeamNo) : Chip :=
  let p : Page := .beam h b
  ((c.inc p Reg.BEAM.WR_EVENTS_INHIBIT).fault0 p 2 5 0).immediateEnd h b 7 4

/-- The write reference follows the field spacing of the lowest-numbered writing beam (R372): a first-order loop of 2 kHz
(log 63). `err` is τ_f − τ̂_f in 1/256 period. -/
def Chip.steerRef (c : Chip) (h : Port) (err : Int) : Chip :=
  c.modHd h fun x =>
    let fieldNs : Int := (6510 * x.tHat * 4 / (3 * 16777216) : Nat)
    { x with tHat := ((x.tHat : Int) + divRound (err * x.tHat * 12566 * fieldNs) (1666560 * 1000000000)).toNat }

/-- τ̂_f of the field at hand, from the latest measured one (R371). -/
def Chip.tauHat (c : Chip) (h : Port) (b : BeamNo) : Option Nat :=
  let x := c.bm h b
  x.tau.map fun t => t + (x.gridMiss + 1) * 6510 * (c.hd h).tHat

/-- τ_f − τ̂_f in 1/256 period; 0 where no field has been measured before. -/
def Chip.gridErr (c : Chip) (h : Port) (b : BeamNo) (tau : Nat) : Int :=
  match c.tauHat h b with
  | some t => divRound (((tau : Int) - (t : Nat)) * 256) (max 1 (c.hd h).tHat : Nat)
  | none => 0

/-- The clock pits of a field (R371 to R373, R405). -/
def Chip.gridField (c : Chip) (h : Port) (b : BeamNo) (m : FieldMark) : Chip :=
  let p : Page := .beam h b
  let tol := 32 * atLeast1 (c.rd p Reg.BEAM.WR_CFG_GRID_TOL)
  let writing := c.wrActive h b
  match m.tau with
  | none =>
    let n := (c.bm h b).gridMiss + 1
    let c := c.modBm h b fun x => { x with gridMiss := n, gridGood := 0 }
    if writing && 3 ≤ n then c.gridFault h b else c
  | some t =>
    let err := c.gridErr h b t
    let ok := (c.bm h b).tau.isSome && err.natAbs ≤ tol
    let c := if allBeams.find? (c.wrActive h) = some b then c.steerRef h err else c
    let c := if writing then c.modBm h b fun x => { x with osc := (c.hd h).tHat, oscBy := 2 } else c
    let c := c.modBm h b fun x => { x with tau := some t, gridMiss := 0, gridGood := if ok then x.gridGood + 1 else 0 }
    let c := c.putS p Reg.BEAM.WR_GRID_ERR (satI 16 err)
    let c := c.put p Reg.BEAM.WR_GRID_ERR_MAX (max (c.rd p Reg.BEAM.WR_GRID_ERR_MAX) (min 65535 err.natAbs))
    if writing && !ok then c.gridFault h b else c.tryArm h b

/-- R318: one servo field under a beam. -/
def execBeamSegmentField (h : Port) (b : BeamNo) (m : FieldMark) (s : State) : Out :=
  s.to fun c => (c.readField h b m).gridField h b m

/-! ## Recording (R359, R360, R364, R397 to R399) -/

/-- Symbols of sector `w` of the current ingot join the stream (R364). -/
def Chip.emitSector (c : Chip) (h : Port) (b : BeamNo) (r : Run) : Chip :=
  match (c.bm h b).bufs with
  | w :: _ =>
    match w.coded with
    | some k => c.emitBits h b r.slot (128 + 37632 * w.sec) (sectorBits k.1 k.2) false false
    | none => c
  | [] => c

/-- The symbols of a linking gap (R201, R375). -/
def gapSymbols (slot : Nat) : List Nat := spread (windowAt slot 677536 false) (List.replicate 96 0)

/-- A burn's symbols for a whole slot (R234, R399): 0x02 on every recorded period, 0 over servo fields and the linking gap. -/
def Chip.emitBurn (c : Chip) (h : Port) (b : BeamNo) (slot : Nat) (start : Bool) : Chip :=
  let l := spread (windowAt slot 0 start) (List.replicate 677536 2) ++ gapSymbols slot
  c.modBm h b fun x => { x with stream := x.stream ++ l }

/-- Time of the first symbol of a run after the release of the next downlink frame, in 2^-24 H (R371, R374): period c of the segment in
which the slot starts, with SKEW. -/
def Chip.firstAt (c : Chip) (h : Port) (b : BeamNo) (slot : Nat) : Nat :=
  let x := c.bm h b
  let y := c.hd h
  let tau : Int := ((if x.gridMiss = 0 then x.tau else (c.tauHat h b).map fun t => t - 6510 * y.tHat).getD 0 : Nat)
  let t := tau + ((windowAt slot 0 true + 118) * y.tHat : Nat) + c.rdS (.beam h b) Reg.BEAM.WR_CFG_SKEW * 262144
  (t - ((150 * y.dlNext + y.dlRelease) * 16777216 : Nat)).toNat

/-- The recording of the run's current ingot begins at its slot; a burn leaves the highest slot recorded as it was (R220, R234). -/
def Chip.recordSlot (c : Chip) (h : Port) (b : BeamNo) (r : Run) (start : Bool) : Chip :=
  let p : Page := .beam h b
  let c := (c.put p Reg.BEAM.WR_STAT_SLOT r.slot).put p Reg.BEAM.WR_STAT_SECTOR 0
  let c := c.put p Reg.BEAM.RD_STAT_ROLE 4
  let c := c.modBm h b fun x => { x with bank := c.rd p Reg.BEAM.WR_CTL_BANK }
  let c := c.modHd h fun x => { x with
    topSlot := if r.item.burn then x.topSlot else assocSet (r.item.layer * 4 + r.item.spiral) r.slot x.topSlot
    passLen := if r.item.burn then x.passLen else assocSet r.item.spiral ((assocGet r.item.spiral x.passLen).getD 0 + 1) x.passLen }
  let c := c.modBm h b fun x => { x with
    osc := (c.hd h).tHat, oscBy := 2, symTime := if start then c.firstAt h b r.slot else x.symTime }
  if r.item.burn then (c.emitBurn h b r.slot start).wrPut h b 5
  else ((c.emitBits h b r.slot 0 (rest0011 128) start false).emitSector h b r).wrPut h b 3

/-- A slot begins under a beam with a run (R359, R360). -/
def Chip.writeSlot (c : Chip) (h : Port) (b : BeamNo) : Chip :=
  let p : Page := .beam h b
  let x := c.bm h b
  match x.run with
  | none => c
  | some r =>
    if slotAt x.turn x.field ≠ some r.slot then c
    else
      match c.wrState h b with
      | 2 =>
        if bit (c.sv h).winh b.val then c.runMissed h b
        else ((c.put p Reg.BEAM.WR_GRID_ERR_MAX 0).modBm h b fun x => { x with run := some { r with rpcSent := false } }).recordSlot h b r true
      | 3 => c.recordSlot h b r false
      | 5 => c.recordSlot h b r false
      | _ => c

/-- R325, R359: a slot begins under the beam. -/
def execSlotStart (h : Port) (b : BeamNo) (s : State) : Out :=
  s.to fun c => if c.reads h b then (c.slotBegin h b).writeSlot h b else c.writeSlot h b

/-- The ingot is complete (R360, R385): it waits for verify, but a burned slot, which the burn reads back itself (R400), does not; the run goes on or ends. -/
def Chip.ingotDone (c : Chip) (h : Port) (b : BeamNo) (r : Run) (armed : Bool) : Chip :=
  let p : Page := .beam h b
  let c := c.inc p Reg.BEAM.WR_COUNT_INGOTS
  let c := match r.queue with
    | i :: _ => if r.item.burn then c else c.modHd h fun x => { x with
        recorded := x.recorded ++ [Recorded.mk i r.item.layer r.item.spiral r.slot r.rsn b.val r.monOk !(c.trailing h)] }
    | [] => c
  let c := c.put (.head h) Reg.HEAD.WR_HSTAT_PENDING (min 65535 (c.hd h).recorded.length)
  let c := if c.trailing h && !r.item.burn then c.modHd h fun x => { x with trailOut := true } else c
  let c := c.modBm h b fun x => { x with fails := 0, failIngot := none }
  let q := r.queue.drop 1
  if q.isEmpty ∨ r.stop ∨ c.passWaits h b ∨ !(armed ∨ r.item.burn) then
    let c := if q.isEmpty then c
      else c.modBm h b fun x => { x with items := { r.item with slot := r.slot + 1, ingots := q } :: x.items }
    (c.put p Reg.BEAM.WR_STAT_CAUSE 0).runOver h b
  else
    let n := match r.rsnNext with
      | some n => (n, c)
      | none => c.takeRsn h
    n.2.modBm h b fun x => { x with run := some { r with queue := q, slot := r.slot + 1, rsn := n.1, rsnNext := none, goOn := false, monOk := true } }

/-- A sector boundary of a writing beam: the next sector's symbols follow, the postamble, or the linking mark of an end
under way (R364, R392, R393, R397). -/
def Chip.writeBoundary (c : Chip) (h : Port) (b : BeamNo) : Chip :=
  let p : Page := .beam h b
  let s := c.rd p Reg.BEAM.WR_STAT_SECTOR
  match (c.bm h b).run with
  | none => c
  | some r =>
    let st := c.wrState h b
    if st = 4 then
      let off := if s = 17 then 677504 else 128 + 37632 * (s + 1)
      c.modBm h b fun x => { x with stream := x.stream ++ spread (windowAt r.slot off false) x.link, link := [] }
    else if (st ≠ 3 ∧ st ≠ 5) ∨ 17 < s then c
    else if st = 5 then (if s = 17 then c.ingotDone h b r true else c.put p Reg.BEAM.WR_STAT_SECTOR (s + 1))
    else
      let c := c.modBm h b fun x => { x with bufs := x.bufs.drop 1 }
      if s = 17 then
        ((c.emitBits h b r.slot 677504 (rest0011 32) false true).modBm h b fun x =>
          { x with stream := x.stream ++ gapSymbols r.slot, lastSpace := 4, cool := none }).ingotDone h b r r.goOn
      else
        let c := if s = 16 then c.modBm h b fun x => { x with run := some { r with goOn := x.nextReady 1 } } else c
        (c.put p Reg.BEAM.WR_STAT_SECTOR (s + 1)).emitSector h b r

/-! ## Monitor and running power control (R378, R379) -/

/-- 2^-n of a number, rounded. -/
def shrRound (x : Int) (n : Nat) : Int := divRound x (2 ^ n : Nat)

/-- m_b after a sector (R379), in Q1.15. -/
def rpcStep (m delta target gain : Nat) : Int :=
  if target = 0 then (m : Nat)
  else
    let d : Int := (m : Nat) * ((target : Nat) - (delta : Nat) : Int)
    (m : Nat) + divRound d ((target * 2 ^ gain : Nat))

/-- PEAK_P and BIAS_P of an armed, writing or burning beam (R376, R399). -/
def Chip.writePower (c : Chip) (h : Port) (b : BeamNo) : Nat × Nat :=
  let z := c.rd (.beam h b) Reg.BEAM.RD_STAT_ZONE
  let i := 24 * b.val + min 23 z
  let pk := c.rdI (.head h) Reg.HEAD.WPOW_PEAK i
  let bi := c.rdI (.head h) Reg.HEAD.WPOW_BIAS i
  let m := c.rd (.beam h b) Reg.BEAM.RPC_STATE_M
  let mul := fun (v : Nat) => min 65535 ((v * m + 16384) / 32768)
  if c.wrState h b = 5 then ((pk * min 100 (c.rd (.head h) Reg.HEAD.BURN_CFG_PCT) + 50) / 100, bi) else (mul pk, mul bi)

/-- The level in force at three quarters of the period of a symbol (R365, R378). -/
def symLevel (sym : Nat) : Nat := if slice 2 3 sym = 7 then slice 5 2 sym else sym % 4

/-- The power of a level in µW, from the beam's setpoints in the last group (R366). -/
def Chip.levelPower (c : Chip) (h : Port) (b : BeamNo) (lev : Nat) : Nat :=
  let f := fun (k : Nat) => ((c.hd h).lastGroup.getD (k + 3 * b.val) 0).toNat
  match lev with
  | 0 => f 5
  | 1 => f 7
  | 2 => f 6
  | _ => min 50 Config.coolPower.toNat

/-- ρ of a sample under a symbol, in 2^-16 (R378). -/
def Chip.rho (c : Chip) (h : Port) (b : BeamNo) (sym : Nat) (y : BitVec 10) : Int :=
  divRound (y.toInt * c.levelPower h b 2 * 65536) (max 1 (c.levelPower h b (symLevel sym)) : Nat)

/-- Mark depth δ in 2^-12, where the samples give one, and the monitor error count of a sector (R378). -/
def Chip.monitor (c : Chip) (h : Port) (b : BeamNo) (m : MonitorSample) : Option Int × Nat :=
  let s := (m.spaces.map fun y => c.rho h b 1 y).sum
  let long := m.marks.filter fun v => 3 ≤ v.len
  let k := (long.map fun v => c.rho h b v.sym.toNat v.y).sum
  let ns : Int := (m.spaces.length : Nat)
  let nm : Int := (long.length : Nat)
  let thr : Int := (c.rd (.beam h b) Reg.BEAM.MON_CFG_MON_THR : Nat)
  (if s = 0 ∨ nm = 0 then none else some (divRound (4096 * (s * nm - k * ns)) (s * nm)),
   (m.marks.filter fun v => 2 ≤ v.len && decide (thr * s < 256 * ns * c.rho h b v.sym.toNat v.y)).length)

/-- δ as RPC_STATE.DELTA holds it; a sector that gives none leaves it open (log 189). -/
def Chip.delta (c : Chip) (h : Port) (b : BeamNo) (m : MonitorSample) : Nat × Chip :=
  match (c.monitor h b m).1 with
  | some d => ((clampI 0 4095 d).toNat, c)
  | none => c.free 12

/-- The end of a written sector (R378, R379, R385). Without the monitor there is no δ to follow (DEDUCED, log 183). -/
def Chip.writeSectorEnd (c : Chip) (h : Port) (b : BeamNo) (mon : MonitorSample) : Chip :=
  let p : Page := .beam h b
  match (c.bm h b).run with
  | none => c
  | some r =>
    if c.wrState h b ≠ 3 ∧ c.wrState h b ≠ 4 then c
    else if !c.flag p Reg.BEAM.WR_CTL_MON_EN then c
    else
      let ok := (c.monitor h b mon).2 ≤ c.rd p Reg.BEAM.MON_CFG_MON_LIMIT
      let d := c.delta h b mon
      let c := (d.2.modBm h b fun x => { x with run := some { r with monOk := r.monOk && ok } }).put p Reg.BEAM.RPC_STATE_DELTA d.1
      if !c.flag p Reg.BEAM.WR_CTL_RPC_EN then c
      else
        let lim := min 50 (c.rd p Reg.BEAM.RPC_CFG_RPC_LIM)
        let m := rpcStep (c.rd p Reg.BEAM.RPC_STATE_M) d.1 (c.rd p Reg.BEAM.RPC_CFG_TARGET) (c.rd p Reg.BEAM.RPC_CFG_RPC_GAIN)
        let lo : Int := (((100 - lim) * 32768 / 100 : Nat) : Int)
        let hi : Int := (((100 + lim) * 32768 / 100 : Nat) : Int)
        let m' := clampI lo hi m
        let at' := m' ≤ lo ∨ hi ≤ m'
        let c := (c.put p Reg.BEAM.RPC_STATE_M m'.toNat).putB p Reg.BEAM.RPC_STATE_CLAMPED (decide at')
        let sent := match (c.bm h b).run with
          | some r => r.rpcSent
          | none => true
        if decide at' && !sent then
          (c.modBm h b fun x => { x with run := x.run.map fun r => { r with rpcSent := true } }).fault0 p 2 9 0
        else c

/-- R379. -/
def execWriteSectorEnd (h : Port) (b : BeamNo) (mon : MonitorSample) (s : State) : Out := s.to fun c => c.writeSectorEnd h b mon

/-! ## Power tests and layers (R376, R377, R380 to R382, R398) -/

/-- c(z) × 1,000 of a beam (R377): the corrections of the inner and the outer area. -/
def HeadSt.corrAt (x : HeadSt) (b z : Nat) : Nat :=
  let get := fun (a : Nat) => match x.corr.find? (fun k => k.1 = b ∧ k.2.1 = a) with
    | some k => k.2.2
    | none => 1000
  let i : Int := (get 0 : Nat)
  let o : Int := (get 1 : Nat)
  (i + (o - i) * z / 23).toNat

/-- The write power table from the start powers and the corrections (R377), active and shadow. -/
def Chip.setPowers (c : Chip) (h : Port) : Chip :=
  let p : Page := .head h
  let x := c.hd h
  (List.range 5).foldl (fun c b => (List.range 24).foldl (fun (c : Chip) z =>
    let s := x.startPow.getD z (0, 0)
    let k := x.corrAt b z
    let i := 24 * b + z
    let pk := (s.1 * k + 500) / 1000
    let bi := (s.2 * k + 500) / 1000
    (((c.putI p Reg.HEAD.WPOW_PEAK i pk).putShI p Reg.HEAD.WPOW_PEAK i pk).putI p Reg.HEAD.WPOW_BIAS i bi).putShI p
      Reg.HEAD.WPOW_BIAS i bi) c) c

/-- m_b returns to 1.0 (R379). -/
def Chip.resetM (c : Chip) (h : Port) : Chip :=
  allBeams.foldl (fun c b => (c.put (.beam h b) Reg.BEAM.RPC_STATE_M 0x8000).put (.beam h b) Reg.BEAM.RPC_STATE_CLAMPED 0) c

/-- The step a power test chooses (R381) from the e_s of sectors 0 to 15; none when the test fails. -/
def powerStep (e : List Nat) : Option Nat :=
  let m := e.foldl min 37440
  if 37440 ≤ m then none
  else
    let ok := (List.range 16).filter fun s => e.getD s 37440 ≤ 2 * m + 16
    some ((ok.headD 0 + ok.getLast?.getD 0) / 2)

/-- The corrections after a power test of area `area` (0 inner, 1 outer); `e` gives each beam's e_s (R377, R381). The window of R387
begins anew with DEGRADED (DESIGN CHOICE, log 184). -/
def Chip.powerTest (c : Chip) (h : Port) (area : Nat) (e : List (BeamNo × List Nat)) : Chip :=
  let c := e.foldl (fun c v =>
    match powerStep v.2 with
    | some s => c.modHd h fun x => { x with
        corr := (x.corr.filter (fun k => !(k.1 = v.1.val && k.2.1 = area))) ++ [(v.1.val, area, 800 + 25 * s)] }
    | none => c.fault0 (.beam h v.1) 2 10 1) c
  let c := ((c.resetM h).put (.head h) Reg.HEAD.WR_HSTAT_DEGRADED 0).modHd h fun x => { x with escapes := [] }
  if (c.hd h).layerOpen.isSome then c.setPowers h else c

/-- VFY_ACTIVE, VFY_BEAM and the roles follow the map, the layer and the verify mode (R293, R384, R411). A beam whose role
changes ends its sector (R296); one that was writing ends its write with cause 0x4 (R391). Without trailing verify every ingot awaits
second-pass verify (R401). -/
def Chip.updRoles (c : Chip) (h : Port) : Chip :=
  let p : Page := .head h
  let dw : Int := (c.mapBase h : Int) - (c.rd p Reg.HEAD.BEAM_MAP_WINDOW : Nat)
  let c :=
    if dw ≠ 0 ∧ c.srvState h = 4 then
      (c.put p Reg.HEAD.SRV_STAT_TRACK_LOCK 0).modSv h fun x => { x with
        xRef := x.xRef + dw * 65536, walking := true, trkGood := 0, settle := 0, winh := 0x1F }
    else c
  let c := (c.put p Reg.HEAD.BEAM_MAP_MODE (c.mapMode h)).put p Reg.HEAD.BEAM_MAP_WINDOW (c.mapBase h)
  let c := c.put p Reg.HEAD.WR_HSTAT_VFY_ACTIVE (if (c.hd h).layerOpen.isNone then 0 else if c.trailing h then 1 else 2)
  let c := if c.trailing h then c else c.modHd h fun x => { x with
    trailOut := false, recorded := x.recorded.map fun q => { q with second := true } }
  let c := c.put p Reg.HEAD.WR_HSTAT_VFY_BEAM (c.spareOf h)
  allBeams.foldl (fun c b =>
    let q : Page := .beam h b
    let old := c.beamRole h b
    let new := c.mapRole h b
    let c := c.put q Reg.BEAM.RD_STAT_SPIRAL (c.spiralOf h b (c.beamLayer h b))
    if old = 4 then (if new = 1 then c else c.linkCause h b 4 true)
    else if old = new then c
    else (c.cutSector h b 9).put q Reg.BEAM.RD_STAT_ROLE new) c

/-- R398: a layer is opened with its start powers, strategy bank and spare. -/
def Chip.openLayer (c : Chip) (h : Port) (layer : Fin 8) (pow : List (Nat × Nat)) (strat : List Word) (bank : Fin 2) : Chip :=
  let p : Page := .head h
  let c := allBeams.foldl (fun c b => c.loadStrategy h b bank.val strat) c
  let c := c.modHd h fun x => { x with layerOpen := some layer.val, startPow := pow, corr := [], escapes := [], passLen := [] }
  let spare := if layer.val % 2 = 0 then 0 else 4
  let c := if c.rd p Reg.HEAD.BEAM_MAP_RETIRED = 0 then
      (c.put p Reg.HEAD.BEAM_MAP_SPARE spare).putSh p Reg.HEAD.BEAM_MAP_SPARE spare
    else c
  let c := allBeams.foldl (fun c b =>
    (c.put (.beam h b) Reg.BEAM.WR_CTL_BANK bank.val).putSh (.beam h b) Reg.BEAM.WR_CTL_BANK bank.val) c
  let c := ((c.setPowers h).resetM h).put p Reg.HEAD.WR_HSTAT_DEGRADED 0
  c.updRoles h

/-- WR_HCTL.MIN_RESET (R410, R412). -/
def Chip.fifoMinReset (c : Chip) (h : Port) : Chip :=
  [Reg.HEAD.FIFO_MIN_B0, Reg.HEAD.FIFO_MIN_B1, Reg.HEAD.FIFO_MIN_B2, Reg.HEAD.FIFO_MIN_B3, Reg.HEAD.FIFO_MIN2_B4].foldl
    (fun c f => c.put (.head h) f 127) c

/-- R410. -/
def execFifoMinReset (r : Requester) (h : Port) (s : State) : Out :=
  s.to fun c => c.write r (.head h) fun c => c.fifoMinReset h

/-! ## Verify (R384 to R390) -/

/-- Verdict of a readback (R385): 0 passes, 1 fails, 2 inconclusive. -/
def judgeReadback (checks : List SectorCheck) (iter errs : Nat) : Nat :=
  if checks.any (fun k => [3, 1, 2, 4, 10, 7, 5].contains k.status) then 1
  else if checks.any (fun k => [8, 9, 11, 12, 13].contains k.status) ∨ checks.length ≠ 18 then 2
  else if checks.all (fun k => k.status = 0 && k.iters ≤ iter && k.changed ≤ errs) then 0
  else 1

/-- An ingot is reported verified (R390). -/
def Chip.verifyPass (c : Chip) (h : Port) (b : BeamNo) (r : Recorded) : Chip :=
  let c := c.inc (.beam h b) Reg.BEAM.VFY_COUNT_PASS
  { c with verified := c.verified ++ [r.ingot] }

/-- An ingot fails verify: its slot is consumed with reason 0x02 and it is recorded again (R390, R395, R396). -/
def Chip.verifyFail (c : Chip) (h : Port) (b : BeamNo) (r : Recorded) : Chip :=
  let c := (c.inc (.beam h b) Reg.BEAM.VFY_COUNT_FAIL).consume h r.layer r.spiral r.slot 2
  match unitOf 5 0 r.beam with
  | none => c
  | some w =>
    let f := c.countFail h w r.ingot
    if f.1 then f.2
    else
      match (f.2.bm h w).run with
      | some run => f.2.modBm h w fun x => { x with run := some { run with queue := run.queue.take 1 ++ [r.ingot] ++ run.queue.drop 1 } }
      | none =>
        let top := (assocGet (r.layer * 4 + r.spiral) (f.2.hd h).topSlot).getD r.slot
        f.2.startItem h w { side := (f.2.hd h).side, layer := r.layer, spiral := r.spiral, slot := top + 1, ingots := [r.ingot], burn := false }

/-- Takes a recorded ingot off the list and sets PENDING (R411). With the last of a second pass the read is complete (R388). -/
def Chip.takeRecorded (c : Chip) (h : Port) (r : Recorded) : Chip :=
  let c := c.modHd h fun x => { x with
    recorded := x.recorded.erase r, verifying := x.verifying && (x.recorded.erase r).any (·.second) }
  let p : Page := .head h
  let c := if (c.hd h).verifying ∨ !c.trailing h then c else c.put p Reg.HEAD.WR_HSTAT_VFY_ACTIVE 1
  c.put p Reg.HEAD.WR_HSTAT_PENDING (min 65535 (c.hd h).recorded.length)

/-- Verified, failed, or held for second pass, by the monitor and the readback (R385). -/
def Chip.verifyJudge (c : Chip) (h : Port) (b : BeamNo) (r : Recorded) (verdict : Nat) : Chip :=
  if verdict = 2 then
    c.modHd h fun x => { x with recorded := x.recorded.map fun q => if q = r then { q with second := true } else q }
  else
    let c := c.takeRecorded h r
    if verdict = 0 ∧ r.monOk then c.verifyPass h b r else c.verifyFail h b r

/-- One readback-verified ingot enters the escape window (R386, R387). -/
def Chip.escapeWindow (c : Chip) (h : Port) (b : BeamNo) (esc : Bool) : Chip :=
  let p : Page := .head h
  let c := c.modHd h fun x => { x with escapes := (esc :: x.escapes).take 256 }
  let c := if esc then (c.inc (.beam h b) Reg.BEAM.WR_EVENTS_ESCAPE).fault0 (.beam h b) 2 8 0 else c
  let n := ((c.hd h).escapes.filter id).length
  if atLeast1 (c.rd p Reg.HEAD.WR_HCTL_ESC_LIMIT) ≤ n ∧ !c.flag p Reg.HEAD.WR_HSTAT_DEGRADED then
    ((c.put p Reg.HEAD.WR_HSTAT_DEGRADED 1).fault0 p 8 1 1).updRoles h
  else c

/-- The companions of a spiral-3 ingot (R386): those of the same layer and slot on spirals 0 to 2. -/
def HeadSt.companions (x : HeadSt) (r : Recorded) : List Recorded :=
  x.recorded.filter fun q => q.layer = r.layer && q.slot = r.slot && q.spiral != r.spiral && !q.second

/-- A verify result for the ingot at a disc address with its RSN (R385, R386, R390). -/
def Chip.verifyResult (c : Chip) (h : Port) (b : BeamNo) (layer spiral slot rsn : Nat) (checks : List SectorCheck) : Chip :=
  let p : Page := .beam h b
  let x := c.hd h
  match x.recorded.find? (fun r => r.layer = layer && r.spiral = spiral && r.slot = slot && r.rsn = rsn) with
  | none => c
  | some r =>
    let v := judgeReadback checks (atLeast1 (c.rd p Reg.BEAM.VFY_CFG_VFY_ITER)) (c.rd p Reg.BEAM.VFY_CFG_VFY_ERRS)
    if r.second then c.verifyJudge h b r v
    else
      let mates := x.companions r
      let esc := v = 1 ∧ r.monOk
      let c := c.verifyJudge h b r v
      if v = 2 then c
      else
        let c := c.escapeWindow h b (decide esc)
        if esc then
          c.modHd h fun y => { y with recorded := y.recorded.map fun q => if mates.contains q then { q with second := true } else q }
        else mates.foldl (fun c q => c.verifyJudge h b q 0) c

/-- R388: the port has been repositioned and reads back every ingot since the last pass; further recording waits until the
results have come. -/
def execSecondPassVerify (h : Port) (s : State) : Out :=
  s.to fun c =>
    if allBeams.any (fun b => c.wrActive h b) then c
    else
      let c := c.modHd h fun x => { x with
        passLen := [], verifying := !x.recorded.isEmpty, recorded := x.recorded.map fun q => { q with second := true } }
      if (c.hd h).verifying then c.put (.head h) Reg.HEAD.WR_HSTAT_VFY_ACTIVE 2 else c

/-- R389: the trail-out has brought the verify beam past the last spiral-3 ingot. What no spiral-3 ingot of its slot holds back passes on
its monitor (R386); a spiral-3 ingot without a readback goes to second pass. -/
def Chip.trailOutDone (c : Chip) (h : Port) : Chip :=
  let x := c.hd h
  let c := c.modHd h fun y => { y with
    trailOut := false, recorded := y.recorded.map fun q => if q.spiral = 3 then { q with second := true } else q }
  (x.recorded.filter fun q => q.spiral != 3 && !q.second
    && !x.recorded.any fun k => k.spiral == 3 && k.layer == q.layer && k.slot == q.slot).foldl
    (fun (c : Chip) q => c.verifyJudge h (Fin.ofNat 5 (c.spareOf h)) q 0) c

/-! ## Boundaries and commits -/

/-- Local commits of the beam's page and hallmark unit that wait for a sector or ingot boundary (R157, R158). -/
def Chip.boundaryPages (c : Chip) (h : Port) (b : BeamNo) (ingot : Bool) : List Page :=
  let n : Page := .hall (beamHall h b)
  (c.commits.filter fun k => k.owner.isNone && (k.page == .beam h b || k.page == n)
    && (k.boundary = 2 || (k.boundary = 3 && ingot)) && k.since + 5 ≤ c.now).map (·.page)

end Sys2Proof.Machine
end

