-- ==== Sys2Proof/Machine/Servo.lean ====
section
/-!
DEFINITION. Optical servo: field demodulation, field count and position, measurement words, locks, write inhibit, the
sequencer's commands and recovery, laser wear and runout tables (chapter 10).
-/
namespace Sys2Proof.Machine

/-- The largest number of Q1.31, 1 − 2^-31. -/
def qMax : Int := 2147483647

/-! ## Coordinates (R471 to R475) -/

/-- Demodulator of beam `b`. -/
def Chip.dm (c : Chip) (h : Port) (b : BeamNo) : Demod := (c.sv h).demod.get b
/-- Changes a demodulator. -/
def Chip.modDm (c : Chip) (h : Port) (b : BeamNo) (f : Demod → Demod) : Chip :=
  c.modSv h fun x => { x with demod := x.demod.set b.val (f (x.demod.get b)) b.isLt }

/-- Channel bit periods of one revolution (R188). -/
def revPeriods : Nat := 6666240

/-- The reference of FOLLOW: the coordinate of the spiral the base position reads on turn `t` at angle `a` in periods
(R475), in 2^-16 pitch. -/
def followRef (l t a : Nat) : Int :=
  let d : Int := divRound ((a : Int) * 262144) revPeriods
  let tp : Int := (physTurn l t : Nat)
  if l % 2 = 0 then tp * 262144 + d else (tp + 1) * 262144 - d

/-- The turn congruent with `low` modulo 64 that lies nearest `t` (R474). -/
def resolveTurn (t low : Nat) : Nat :=
  let k := (low + 64 - t % 64 + 32) % 64
  t + k - 32

/-- t̂ (R501). -/
def Chip.srvTurn (c : Chip) (h : Port) : Nat := c.rd (.head h) Reg.HEAD.SRV_STAT_TURN

/-- The present angle in periods: 6,510 f̂ + c (R475). -/
def Chip.srvAngle (c : Chip) (h : Port) : Nat :=
  let x := c.sv h
  let n := (c.now - x.fieldAt) * rateS (c.hd h).rate * 16384 / (20 * max 1 x.spanC)
  6510 * x.field + min 6509 n

/-- A one-bit lock of SRV_STAT. -/
def Chip.lockIs (c : Chip) (h : Port) (f : Fld) : Bool := c.flag (.head h) f

/-- Field lock of a beam (R469). -/
def Chip.fieldLock (c : Chip) (h : Port) (b : BeamNo) : Bool := bit (c.rd (.head h) Reg.HEAD.FIELD_STAT_LOCK) b.val

/-- PES_b is valid (R468, R469). -/
def Chip.pesValid (c : Chip) (h : Port) (b : BeamNo) : Bool := bit (c.rd (.head h) Reg.HEAD.FIELD_STAT_PES_VALID) b.val

/-- Working beams (R293). -/
def Chip.workers (c : Chip) (h : Port) : List BeamNo := allBeams.filter (fun b => c.mapRole h b = 1)

/-- The base beam (R471). -/
def Chip.baseBeam (c : Chip) (h : Port) : Option BeamNo :=
  match (c.workers h).find? (c.fieldLock h) with
  | some b => some b
  | none => (c.workers h).head?

/-- The array coordinate X_A, none without a working beam with valid PES (R475). -/
def Chip.arrayX (c : Chip) (h : Port) : Option Int :=
  let l := (c.workers h).filter (c.pesValid h)
  let w : Int := (c.mapBase h : Nat)
  if l.isEmpty then none
  else some (divRound ((l.map (fun b => (c.dm h b).x - ((b.val : Int) - w) * 65536)).foldl (· + ·) 0) (l.length : Nat))

/-- X_ref and X* advance along the spiral to the present angle; in FOLLOW the reference is that of the turn followed (R475,
R482, R494, R497). -/
def Chip.srvAdvance (c : Chip) (h : Port) : Chip :=
  let a := c.srvAngle h
  let l := c.portLayer h
  let t := c.srvTurn h
  c.modSv h fun x =>
    let d : Int := divRound ((((a + revPeriods - x.angle % revPeriods) % revPeriods : Nat) : Int) * 262144) revPeriods
    let d := if l % 2 = 0 then d else -d
    let y := { x with xRef := x.xRef + d, xStar := x.xStar + d, angle := a }
    if x.phase = .follow then
      if x.walking then { y with xStar := followRef l t a } else { y with xRef := followRef l t a }
    else y

/-- A coordinate as the SLED_REF word r / 65.536 mm (R476). -/
def sledWord (x : Int) : Nat := ((16600000 + divRound (210 * x) 65536) * 2147483648 / 65536000).toNat

/-! ## Sequencer steps -/

/-- The lens is retracted (R492). -/
def Chip.retract (c : Chip) (h : Port) : Chip := c.modSv h fun x => { x with focFF := -qMax }

/-- Both runout tables are cleared (R479). -/
def Chip.clearRunout (c : Chip) (h : Port) : Chip :=
  let lo := fieldKey (.head h) Reg.HEAD.RUNOUT_FOC 0
  { c with reg := { c.reg with plain := c.reg.plain.dropRange lo (lo + 256 * 32) } }

/-- The kick of a jump, 1/256 of full scale (R503). -/
def Chip.kickAmp (c : Chip) (h : Port) : Int := (c.rd (.head h) Reg.HEAD.JUMP_CFG_KICK_AMP : Nat) * 8388608

/-- ACQUIRE steps 1 and 2 (R493). -/
def Chip.acqStart (c : Chip) (h : Port) : Chip :=
  let p : Page := .head h
  let c := ((c.srvGates h false false false true).put p Reg.HEAD.SRV_STAT_COUNT_LOCK 0).clearRunout h
  ((c.retract h).srvEnter h 1 .sweep).modSv h fun x => { x with curves := 0, stage := 0, walking := false, jumped := false }

/-- A layer jump to layer `l`, then `after` (R495); a recovery stays in RECOVER. -/
def Chip.jumpStart (c : Chip) (h : Port) (l : Nat) (after : SrvAfter) : Chip :=
  let cur := c.portLayer h
  let n := if cur < l then l - cur else cur - l
  let k := c.kickAmp h
  let c := (c.srvGates h false false false true).srvEnter h (if (c.sv h).inRec then 8 else 7) .jump
  c.modSv h fun x => { x with
    after := after, aim := l, cross := n, deeper := l < cur, curves := 0, stage := 0, brakeAt := none, jumped := true
    walking := false
    focFF := x.bias + (if l < cur then k else -k)
    limit := c.now + ms 1 + n * us 500 }

/-- The layer now in focus is `l`; t̂ keeps the physical turn where the data order turns round (R184). -/
def Chip.srvLayer (c : Chip) (h : Port) (l : Nat) : Chip :=
  let p : Page := .head h
  let old := c.portLayer h
  let c := if old % 2 = l % 2 then c else c.put p Reg.HEAD.SRV_STAT_TURN (50028 - min 50028 (c.srvTurn h))
  c.put p Reg.HEAD.SRV_STAT_LAYER l

/-- A recovery ends in FAILED (R498). -/
def Chip.servoFail (c : Chip) (h : Port) : Chip :=
  let c := ((c.srvEnd h 6).laserOff h).fault0 (.head h) 6 1 2
  ((c.srvIdle h 11).retract h).modSv h fun x => { x with inRec := false }

/-- A recovery starts in phase `ph` (R497, R498). -/
def Chip.recover (c : Chip) (h : Port) (focus : Bool) (ph : SrvPhase) : Chip :=
  let p : Page := .head h
  if !c.flag p Reg.HEAD.RECOVER_CTL_AUTO then ((c.srvEnd h 6).srvIdle h 0).retract h
  else
  let c := c.inc p (if focus then Reg.HEAD.RECOVER_STAT_FOCUS_N else Reg.HEAD.RECOVER_STAT_TRACK_N)
  let recs := c.now :: (c.sv h).recs.filter (fun t => c.now ≤ t + secs 1)
  let c := (c.modSv h fun x => { x with recs := recs }).put p Reg.HEAD.RECOVER_STAT_STREAK (min 15 recs.length)
  if 3 ≤ recs.length then c.servoFail h
  else
    (c.srvEnter h 8 ph).modSv h fun x => { x with
      inRec := true, walking := false, curves := 0, stage := 0, limit := c.now + ms 20, jumped := false }

/-- The gates or the state leave the write path inhibited: any write of the port ends (R489). -/
def Chip.inhibitAll (c : Chip) (h : Port) : Chip :=
  allBeams.foldl (fun c b => c.writeInhibit h b) ((c.put (.head h) Reg.HEAD.SRV_STAT_WINH 1).modSv h fun x => { x with winh := 0x1F, settle := 0 })

/-- Track lock is lost (R488, R497). -/
def Chip.trackLost (c : Chip) (h : Port) : Chip :=
  let c := ((c.put (.head h) Reg.HEAD.SRV_STAT_TRACK_LOCK 0).event (.head h) 4).fault0 (.head h) 5 1 0
  ((c.srvGates h true false false false).recover h false .recTrack).inhibitAll h

/-- The layer a focus recovery aims at: the seek's or jump's layer, else the layer in focus (R497, R499). -/
def Chip.recAim (c : Chip) (h : Port) : Nat :=
  let x := c.sv h
  if x.phase = .jump ∨ x.jumped then x.aim else if x.cmd = 2 then x.layer else c.portLayer h

/-- Focus lock is lost (R488, R497). -/
def Chip.focusLost (c : Chip) (h : Port) : Chip :=
  let aim := c.recAim h
  let c := ((c.put (.head h) Reg.HEAD.SRV_STAT_FOCUS_LOCK 0).event (.head h) 4).fault0 (.head h) 4 1 0
  let c := (c.srvGates h false false false true).modSv h fun x => { x with focFF := x.bias, aim := aim }
  ((c.recover h true .recFocus).inhibitAll h)

/-- Count lock of one head is lost by a major index deviation (R472, R497, R499). -/
def Chip.countLost (c : Chip) (h : Port) : Chip :=
  let p : Page := .head h
  let x := c.sv h
  let c := ((c.put p Reg.HEAD.SRV_STAT_COUNT_LOCK 0).event p 4).modSv h fun x => { x with lastField := none, turnDiff := none }
  let c :=
    if x.phase = .follow then ((c.srvGates h true false false false).recover h false .recCount)
    else if x.walking then c.srvGates h true false false false
    else c
  c.inhibitAll h

/-- Rounded-down division of a signed coordinate by whole spirals of 4 pitches, to the nearest. -/
def nearestTurns (x : Int) : Int := divRound x 262144

/-- CAPTURE: a walk from X_A to the nearest coordinate at which the base position reads its spiral (R493 step 7). -/
def Chip.captureStart (c : Chip) (h : Port) : Chip :=
  let c := (c.srvAdvance h).srvGates h true true false false
  let l := c.portLayer h
  let f := followRef l (c.srvTurn h) (c.srvAngle h)
  let xa := (c.arrayX h).getD f
  (c.srvEnter h 3 .capture).modSv h fun x => { x with
    xRef := xa, xStar := f + nearestTurns (xa - f) * 262144, walking := true, trkGood := 0, trkBad := 0 }

/-- The radial part of a SEEK to X* (R494): a walk where it is near, else the coarse phase; `st` is the walk's state. -/
def Chip.radial (c : Chip) (h : Port) (xStar : Int) (fresh : Bool) (fine coarse : Nat) : Chip :=
  let p : Page := .head h
  let x := c.sv h
  let xa := (c.arrayX h).getD x.xRef
  if (xStar - xa).natAbs ≤ c.rd p Reg.HEAD.SEEK_CFG_FINE_MAX * 65536 then
    ((c.srvGates h true true false false).srvEnter h fine .walk).modSv h fun x => { x with
      xStar := xStar, xRef := if fresh then xa else x.xRef, walking := true, arrive := 0 }
  else
    ((c.srvGates h true false false true).srvEnter h coarse .coarse).modSv h fun x => { x with
      xStar := xStar, walking := false, sled := sledWord xStar, arrive := 0 }

/-- The radial part of the command in progress, to its turn (R494). -/
def Chip.radialCmd (c : Chip) (h : Port) (fresh : Bool) : Chip :=
  let c := c.srvAdvance h
  let x := c.sv h
  c.radial h (followRef (c.portLayer h) x.turn (c.srvAngle h)) fresh 5 6

/-- FOLLOW is reached (R493, R494, R497): a recovered command goes on to its target, any other ends. -/
def Chip.followReached (c : Chip) (h : Port) (resume : Bool) : Chip :=
  let x := c.sv h
  let c := (c.srvGates h true true true false).srvEnter h 4 .follow
  let c := c.modSv h fun x => { x with walking := false, inRec := false, jumped := false, rotGood := 0, rotBad := 0, settle := 0 }
  if x.cmd = 1 ∨ x.cmd = 2 then (if resume then c.radialCmd h false else c.srvEnd h 1) else c

/-- A layer has been verified (R493 step 5, R495 step 7, R497). -/
def Chip.layerVerified (c : Chip) (h : Port) : Chip :=
  let p : Page := .head h
  let c := c.srvAdvance h
  let x := c.sv h
  let xa := (c.arrayX h).getD x.xRef
  match x.after with
  | .acquire =>
    if c.flag p Reg.HEAD.KAPPA_STAT_REFINE_EN then
      (c.srvEnter h 2 .refine).modSv h fun x => { x with dMax := none, dMin := none }
    else c.captureStart h
  | .recover => (c.srvEnter h 8 .recTrack).modSv h fun x => { x with fields := 2 }
  | .seek =>
    let c := c.modSv h fun x => { x with xRef := xa }
    match x.next with
    | some n =>
      let c := (c.srvReport h 9 x.cmdFrame).modSv h fun x => { x with
        cmd := 2, cmdFrame := c.frameNum.toNat, layer := n.1, turn := n.2, next := none }
      if n.1 = c.portLayer h then c.radialCmd h true else c.jumpStart h n.1 .seek
    | none => c.radialCmd h true

/-- The attempt of an ACQUIRE to reach focus has failed (R493, R498). -/
def Chip.acqFailed (c : Chip) (h : Port) : Chip :=
  let n := (c.sv h).tries + 1
  let c := c.modSv h fun x => { x with tries := n }
  if n < 2 then c.acqStart h
  else
    let c := c.fault0 (.head h) 4 2 1
    if (c.sv h).inRec then c.servoFail h else ((c.srvEnd h 5).srvIdle h 0).retract h

/-! ## Commands (R490, R491, R496, R499) -/

/-- The RESULT that rejects a command now, none where it is accepted (R491, R499, R500; order of tests: log 51). -/
def Chip.srvJudge (c : Chip) (h : Port) (cmd turn : Nat) : Option Nat :=
  let st := c.srvState h
  if 5 ≤ cmd then some 4
  else if cmd = 1 ∨ cmd = 2 then
    if c.linkState h ≠ 3 ∨ !c.killHigh h ∨ c.headQuenched h then some 3
    else if 50028 < turn then some 4
    else if cmd = 1 then (if st = 0 ∨ st = 10 ∨ st = 11 then none else some 2)
    else (if st = 4 ∨ st = 5 ∨ st = 6 ∨ st = 7 then none else some 2)
  else none

/-- The command SRV_CMD names starts (R490 to R496). -/
def Chip.srvCommand (c : Chip) (h : Port) : Chip :=
  let p : Page := .head h
  let cmd := c.rd p Reg.HEAD.SRV_CMD_CMD
  let layer := c.rd p Reg.HEAD.SRV_CMD_LAYER
  let turn := c.rd p Reg.HEAD.SRV_CMD_TURN
  let now := c.frameNum.toNat
  if cmd = 0 then c
  else
    match c.srvJudge h cmd turn with
    | some r => c.srvReport h r now
    | none =>
      let start := fun (x : ServoSt) => { x with cmd := cmd, cmdFrame := now, layer := layer, turn := turn, next := none }
      match cmd with
      | 1 => (c.modSv h fun x => { start x with tries := 0, inRec := false, after := .acquire, aim := layer }).acqStart h
      | 2 =>
        if c.srvState h = 7 then c.modSv h fun x => { x with next := some (layer, turn) }
        else
          let c := (c.srvEnd h 9).modSv h start
          if layer = c.portLayer h then c.radialCmd h false else c.jumpStart h layer .seek
      | 3 =>
        let c := (c.srvEnd h 8).modSv h start
        let c := ((c.srvIdle h 9).retract h).inhibitAll h
        c.modSv h fun x => { x with inRec := false
                                    sled := c.rd p Reg.HEAD.PARK_CFG_PARK_UM * 1000 * 2147483648 / 65536000 }
      | _ =>
        let c := (((c.srvEnd h 8).srvIdle h 0).inhibitAll h).modSv h fun x => { x with inRec := false }
        c.srvReport h 1 now

/-- SRV_CMD as a commit applies it. -/
def Chip.srvCmdIs (c : Chip) (h : Port) (cmd layer turn : Nat) : Chip :=
  let p : Page := .head h
  let c := (c.put p Reg.HEAD.SRV_CMD_CMD cmd).putSh p Reg.HEAD.SRV_CMD_CMD cmd
  let c := (c.put p Reg.HEAD.SRV_CMD_LAYER layer).putSh p Reg.HEAD.SRV_CMD_LAYER layer
  (c.put p Reg.HEAD.SRV_CMD_TURN turn).putSh p Reg.HEAD.SRV_CMD_TURN turn

/-- R493: ACQUIRE applied by a commit. -/
def execSrvAcquire (h : Port) (layer : Fin 8) (turn : BitVec 16) (s : State) : Out :=
  s.to fun c => (c.srvCmdIs h 1 layer.val turn.toNat).srvCommand h
/-- R494: SEEK applied by a commit. -/
def execSrvSeek (h : Port) (layer : Fin 8) (turn : BitVec 16) (s : State) : Out :=
  s.to fun c => (c.srvCmdIs h 2 layer.val turn.toNat).srvCommand h
/-- R496: PARK applied by a commit; LAYER and TURN keep their values. -/
def execSrvPark (h : Port) (s : State) : Out :=
  s.to fun c => ((c.put (.head h) Reg.HEAD.SRV_CMD_CMD 3).putSh (.head h) Reg.HEAD.SRV_CMD_CMD 3).srvCommand h
/-- R496: STOP applied by a commit. -/
def execSrvStop (h : Port) (s : State) : Out :=
  s.to fun c => ((c.put (.head h) Reg.HEAD.SRV_CMD_CMD 4).putSh (.head h) Reg.HEAD.SRV_CMD_CMD 4).srvCommand h
/-- R491: a command that is rejected; one that would be accepted is no such event (log 4). -/
def execSrvCommandReject (h : Port) (cmd : Fin 16) (layer : Fin 8) (turn : BitVec 16) (s : State) : Out :=
  s.to fun c =>
    if (c.srvJudge h cmd.val turn.toNat).isSome then (c.srvCmdIs h cmd.val layer.val turn.toNat).srvCommand h else c

/-- R496: 100 ms after PARK the port is PARKED. -/
def execParkDone (h : Port) (s : State) : Out :=
  s.to fun c =>
    if c.srvState h = 9 then
      let c := c.until' ((c.sv h).at' + ms 100)
      (c.srvEnd h 1).srvEnter h 10 .idle
    else c

/-- R494: a coarse phase of a SEEK without its fields within 500 ms. -/
def execSeekFail (h : Port) (s : State) : Out :=
  s.to fun c =>
    if c.srvState h = 6 then
      let c := c.until' ((c.sv h).at' + ms 500)
      let c := (c.srvEnd h 6).fault0 (.head h) 5 2 1
      (c.srvGates h true false false true).recover h false .recTrack
    else c

/-- R498: a recovery past its limit: 20 ms of a walk, or the 500 ms of a coarse phase. -/
def execServoFail (h : Port) (s : State) : Out :=
  s.to fun c =>
    let x := c.sv h
    if c.srvState h = 8 then
      match x.phase with
      | .coarse => (c.until' (x.at' + ms 500)).servoFail h
      | .walk => (c.until' x.limit).servoFail h
      | .recTrack => (c.until' x.limit).servoFail h
      | _ => c
    else c

/-- R497: a focus recovery without focus lock within 100 ms runs ACQUIRE steps 1 to 7 on the same layer. -/
def execFocusRecoveryTimeout (h : Port) (s : State) : Out :=
  s.to fun c =>
    let x := c.sv h
    if c.srvState h = 8 ∧ !c.lockIs h Reg.HEAD.SRV_STAT_FOCUS_LOCK ∧ !x.gTrk then
      let c := c.until' (x.recs.headD 0 + ms 100)
      (c.modSv h fun x => { x with tries := 0, after := .acquire, inRec := true }).acqStart h
    else c

/-! ## Refinement of κ (R470) -/

/-- The KAPPA byte of a layer (R506). -/
def Chip.kappa (c : Chip) (h : Port) (l : Nat) : Nat :=
  slice (8 * (l % 4)) 8 (c.rd (.head h) (if l < 4 then Reg.HEAD.KAPPA_LO_K0_K3 else Reg.HEAD.KAPPA_HI_K4_K7))

/-- Writes the KAPPA byte of a layer. -/
def Chip.setKappa (c : Chip) (h : Port) (l v : Nat) : Chip :=
  let f := if l < 4 then Reg.HEAD.KAPPA_LO_K0_K3 else Reg.HEAD.KAPPA_HI_K4_K7
  let w := c.rd (.head h) f
  let k := 2 ^ (8 * (l % 4))
  c.put (.head h) f (w - slice (8 * (l % 4)) 8 w * k + v % 256 * k)

/-- The refinement ends after one revolution (R470, R499). A value above one byte is open (log 52). -/
def Chip.kappaRefine (c : Chip) (h : Port) : Chip :=
  let p : Page := .head h
  let x := c.sv h
  let l := c.portLayer h
  match x.dMax, x.dMin with
  | some hi, some lo =>
    let d := (hi - lo).toNat
    let old := c.kappa h l
    let new := (d * 16 + 32768) / 65536
    let c := c.put p Reg.HEAD.KAPPA_STAT_LAST_DPP (min 65535 (d / 256))
    if x.kappaWrite = some c.frameNum.toNat then c
    else if old * 65536 < 4 * ((d : Int) * 16 - old * 65536).natAbs then c.fault0 p 5 5 0
    else
      let v := if new < 256 then (new, c) else c.free 8
      (v.2.setKappa h l v.1).orBits p Reg.HEAD.KAPPA_STAT_REFINED (2 ^ l)
  | _, _ => c

/-- R470. -/
def execKappaRefine (h : Port) (s : State) : Out :=
  s.to fun c =>
    let x := c.sv h
    if x.phase = .refine ∧ 1024 ≤ x.fields then (c.kappaRefine h).captureStart h else c

/-- R479. -/
def execRunoutClear (r : Requester) (h : Port) (s : State) : Out :=
  s.to fun c => c.write r (.head h) fun c => c.clearRunout h

/-! ## Write inhibit (R489) -/

/-- Beam `b` is write-inhibited (R489). -/
def Chip.inhibited (c : Chip) (h : Port) (b : BeamNo) : Bool :=
  let p : Page := .head h
  let x := c.sv h
  let d := c.dm h b
  c.srvState h != 4 || decide (x.settle < c.rd p Reg.HEAD.SEEK_CFG_WI_SETTLE)
    || !c.lockIs h Reg.HEAD.SRV_STAT_FOCUS_LOCK || !c.lockIs h Reg.HEAD.SRV_STAT_TRACK_LOCK
    || !c.lockIs h Reg.HEAD.SRV_STAT_ROT_LOCK || !c.lockIs h Reg.HEAD.SRV_STAT_COUNT_LOCK
    || !c.fieldLock h b || decide (c.rd p Reg.HEAD.TRACK_CFG_WI_FOC * 8388608 < x.fe.natAbs)
    || decide (c.rd p Reg.HEAD.TRACK_CFG_WI_TRK * 16777216 < d.pesLast.natAbs) || c.headQuenched h

/-- Every beam's inhibit is evaluated; a writing beam that is inhibited ends its write (R489). -/
def Chip.srvInhibit (c : Chip) (h : Port) : Chip :=
  let m := (allBeams.map (fun b => if c.inhibited h b then 2 ^ b.val else 0)).foldl (· + ·) 0
  let c := (c.putB (.head h) Reg.HEAD.SRV_STAT_WINH (m != 0)).modSv h fun x => { x with winh := m }
  allBeams.foldl (fun c b => if bit m b.val then c.writeInhibit h b else c) c

/-! ## Servo sets (R476, R478, R486, R488, R493, R495) -/

/-- A first lobe has begun: in a jump, that of the last curve brakes (R495 step 4). -/
def Chip.srvLobe (c : Chip) (h : Port) : Chip :=
  let x := c.sv h
  if x.phase = .jump ∧ x.curves + 1 = x.cross then
    let k := c.kickAmp h
    c.modSv h fun x => { x with
      focFF := x.bias + (if x.deeper then -k else k)
      brakeAt := some (c.now + us (atLeast1 (c.rd (.head h) Reg.HEAD.JUMP_CFG_BRAKE_US))) }
  else c

/-- Focus closes on the layer aimed at (R493 step 3, R495 step 5, R497). -/
def Chip.focusClose (c : Chip) (h : Port) (bias : Bool) (limit : Nat) : Chip :=
  let st := c.srvState h
  let c := (c.srvLayer h (c.sv h).aim).srvGates h true false false true
  (c.srvEnter h st .locking).modSv h fun x => { x with
    bias := if bias then x.focFF else x.bias, limit := limit, focGood := 0, focLow := 0, focBad := 0 }

/-- An S-curve has been counted at its zero crossing. -/
def Chip.srvCurve (c : Chip) (h : Port) : Chip :=
  let x := c.sv h
  match x.phase with
  | .sweep => if x.curves = 9 - x.aim then c.focusClose h true (c.now + ms 1) else c
  | .jump => if x.curves = x.cross then c.focusClose h false x.limit else c
  | .recFocus => c.focusClose h true 0
  | _ => c

/-- S-curves (R492): a lobe beyond FOC_LOST, a zero crossing with SUM at SUM_MIN or more, and a lobe of the other sign within
200 us; a crossing whose second lobe does not follow is taken back. -/
def Chip.sCurve (c : Chip) (h : Port) (fe : Int) (sumOk : Bool) : Chip :=
  let thr := c.rd (.head h) Reg.HEAD.FOCUS_CFG_FOC_LOST * 8388608
  let x := c.sv h
  let pos := decide (0 < fe)
  let out := decide (thr < fe.natAbs)
  let late := decide (x.lobeAt + us 200 < c.now)
  let lobe := fun (c : Chip) =>
    (c.modSv h fun x => { x with stage := 1, lobePos := pos, lobeAt := c.now }).srvLobe h
  let cross := fun (c : Chip) (st : Nat) =>
    if sumOk && !late then (c.modSv h fun x => { x with stage := st, curves := x.curves + 1 }).srvCurve h
    else c.modSv h fun x => { x with stage := 0 }
  match x.stage with
  | 1 =>
    if out && pos == x.lobePos then c.modSv h fun x => { x with lobeAt := c.now }
    else if out then cross c 3
    else if pos != x.lobePos then cross c 2
    else c
  | 2 =>
    if out && pos != x.lobePos && !late then c.modSv h fun x => { x with stage := 3, lobePos := pos, lobeAt := c.now }
    else if out then lobe (c.modSv h fun x => { x with curves := x.curves - 1 })
    else if late then c.modSv h fun x => { x with stage := 0, curves := x.curves - 1 }
    else c
  | 3 =>
    if !out then c.modSv h fun x => { x with stage := 0 }
    else if pos != x.lobePos then lobe c
    else c
  | _ => if out then lobe c else c

/-- Focus lock (R488). -/
def Chip.focusLock (c : Chip) (h : Port) (fe : Option Int) (sumOk : Bool) : Chip :=
  let p : Page := .head h
  let small := match fe with
    | some v => decide (v.natAbs ≤ c.rd p Reg.HEAD.FOCUS_CFG_FOC_LOCK * 8388608)
    | none => false
  let big := match fe with
    | some v => decide (c.rd p Reg.HEAD.FOCUS_CFG_FOC_LOST * 8388608 < v.natAbs)
    | none => false
  let c := c.modSv h fun x => { x with
    focGood := if small && x.gFoc then x.focGood + 1 else 0
    focLow := if sumOk then 0 else x.focLow + 1
    focBad := if big then x.focBad + 1 else 0 }
  let x := c.sv h
  if c.lockIs h Reg.HEAD.SRV_STAT_FOCUS_LOCK then
    if 8 ≤ x.focLow ∨ 8 ≤ x.focBad then c.focusLost h else c
  else if x.gFoc ∧ 16 ≤ x.focGood then
    let c := c.put p Reg.HEAD.SRV_STAT_FOCUS_LOCK 1
    if x.phase = .locking then c.srvEnter h (c.srvState h) .verify else c
  else c

/-- The servo word set of a photodetector sample (R476, R478); FE where the sum is 0 is open (log 53). -/
def Chip.setWords (c : Chip) (h : Port) (valid : Bool) (pd : List Nat) : Option Int × Bool × List (Nat × Option Int) × Chip :=
  let p : Page := .head h
  let q := fun (i : Nat) => ((pd.getD i 0 : Nat) : Int)
  let sum := q 0 + q 1 + q 2 + q 3
  let dif := q 0 + q 2 - (q 1 + q 3)
  let sumOk := decide (((4 * c.rd p Reg.HEAD.FOCUS_CFG_SUM_MIN : Nat) : Int) ≤ sum)
  let v := if sum = 0 then (let f := c.free 32; (sext 32 f.1, f.2)) else (satI 32 (divRound (dif * 2147483648) sum), c)
  let fe := if sumOk && valid then some v.1 else none
  let mark := fun (i : Int) => if valid then some i else none
  let ofs := fun (f : Fld) => c.rdS p f * 65536
  let words : List (Nat × Option Int) :=
    [(12, if (c.sv h).gFoc then fe else some 0), (13, mark (satI 32 (sum * 131072))),
      (14, mark (satI 32 ((q 4 - 2048) * 1048576 - ofs Reg.HEAD.TILT_OFS_OFS_R))),
      (15, mark (satI 32 ((q 5 - 2048) * 1048576 - ofs Reg.HEAD.TILT_OFS_OFS_T))),
      (23, mark (satI 32 ((q 11 - 2048) * 1048576 - ofs Reg.HEAD.LPS_OFS_OFS)))]
  (fe, sumOk, words, v.2)

/-- Index of the RF sample period in which set `k` of servo frame `frame` was taken (R26, R247): two sets every five link frames. -/
def Chip.servoIndex (c : Chip) (h : Port) (frame k : Nat) : Nat :=
  let m := 5 * (frame - (c.hd h).alignFrame) + k
  let s := rateS (c.hd h).rate
  (if m % 2 = 0 then s * (5 * (m / 2)) else s * (5 * (m / 2) + 2) + s / 2) % 2 ^ 32

/-- A servo set reaches the head island (R261, R476, R486, R488, R489). -/
def Chip.servoSet (c : Chip) (h : Port) (frame k : Nat) (valid : Bool) (pd0 : List Nat) : Chip :=
  let writing := allBeams.filter (fun b => c.wrActive h b)
  let pd := pd0.zipIdx.map (fun v =>
    match unitOf 5 6 v.2 with
    | some b => if writing.contains b then (c.dm h b).pdHeld else v.1
    | none => v.1)
  let held := (writing.map (fun b => 2 ^ (6 + b.val))).foldl (· + ·) 0
  let c := if valid then allBeams.foldl (fun c b =>
      if writing.contains b then c else c.modDm h b fun d => { d with pdHeld := pd0.getD (6 + b.val) 0 }) c else c
  let w := c.setWords h valid pd
  let set : ServoSet := ⟨frame, k, c.servoIndex h frame k, valid, pd, held, w.2.2.1⟩
  let c := w.2.2.2
  let c := { c with sets := c.sets.set h.val ((set :: c.sets.get h).take 12) h.isLt }
  if !valid then c
  else
    let c := match w.1 with
      | some v => (c.modSv h fun x => { x with fe := v }).sCurve h v w.2.1
      | none => c
    ((c.focusLock h w.1 w.2.1).srvInhibit h)

/-! ## Servo fields (R466 to R475, R481, R488) -/

/-- The demodulator runs (R466). -/
def Chip.demodRuns (c : Chip) (h : Port) (b : BeamNo) : Bool :=
  c.liveBeam h b.val
    && decide ((c.rd (.head h) Reg.HEAD.RAMP_CFG_DEMOD_PMIN : Int) ≤ (c.hd h).lastGroup.getD (5 + 3 * b.val) 0)

/-- The identity word of a field, under its mark where it is found (R190, R192). -/
def identOf (f : FieldPulses) : Nat := identWord f.bits (((findMark f.bits).map (·.1)).getD 0)
/-- The field carries the index mark (R191). -/
def isIndex (f : FieldPulses) : Bool := ((findMark f.bits).map (·.2)).getD false
/-- A field is decoded (R467): C1 lies within 24 samples of the predicted time (R466; a first window is unbounded, log 185); while the beam writes, the pulse threshold scales by READ_P / PEAK_P. -/
def Chip.fieldOk (c : Chip) (h : Port) (b : BeamNo) (f : FieldPulses) : Bool :=
  let g := fun (k : Nat) => ((c.hd h).lastGroup.getD (k + 3 * b.val) 0).toNat
  let strong := fun (p : Pulse) =>
    if c.wrActive h b then decide (f.top * g 5 < 4 * p.amp * g 6) else decide (f.top < 4 * p.amp)
  let near := match (c.dm h b).c1 with
    | some t => decide ((f.c1.t - (t + divRound (6510 * (c.dm h b).span) 64)).natAbs ≤ 6144)
    | none => true
  near && (findMark f.bits).isSome && strong f.c1 && strong f.c2 && identOk (identOf f)

/-- D in 2^-16 period and whether PES may be valid (R193, R194, R468). -/
def fieldD (f : FieldPulses) : Int × Bool :=
  let sa : Int := (f.a1.amp + f.a2.amp : Nat)
  let sb : Int := (f.b1.amp + f.b2.amp : Nat)
  let ta := f.a1.amp * f.a1.t + f.a2.amp * f.a2.t
  let tb := f.b1.amp * f.b1.t + f.b2.amp * f.b2.t
  let d := divRound (4194304 * (tb * sa - ta * sb)) (sa * sb * (f.c2.t - f.c1.t))
  (d, decide (10 * (d - 1048576).natAbs ≤ 4194304) && decide ((f.c1.amp : Int) ≤ 4 * sa) && decide ((f.c1.amp : Int) ≤ 4 * sb)
    && sa ≠ 0 && sb ≠ 0 && f.c1.t < f.c2.t)

/-- The expected turn of R474. -/
def Chip.expectTurn (c : Chip) (h : Port) : Nat :=
  let x := c.sv h
  if x.phase = .coarse ∨ (x.phase = .verify ∧ !x.jumped ∧ x.after = .acquire ∧ !x.inRec) then x.turn else c.srvTurn h

/-- Field lock and PES of one beam after a field (R468, R469). κ of 0 gives no PES (log 53). -/
def Chip.demodField (c : Chip) (h : Port) (b : BeamNo) (f : FieldPulses) (ok : Bool) : Chip :=
  let p : Page := .head h
  let l := c.portLayer h
  let d := c.dm h b
  let lock := if ok then c.fieldLock h b || decide (1 ≤ d.got) else c.fieldLock h b && decide (d.miss = 0)
  let c := c.modDm h b fun d => { d with
    got := if ok then d.got + 1 else 0
    miss := if ok then 0 else d.miss + 1
    c1 := if ok then some f.c1.t else d.c1.map fun t => t + divRound (6510 * d.span) 64
    span := if ok then f.c2.t - f.c1.t else d.span
    lostRev := d.lostRev || (c.fieldLock h b && !lock) }
  let c :=
    if ok then
      let v := fieldD f
      let k := c.kappa h l
      let tp := physTurn l (resolveTurn (c.expectTurn h) (identTurn (identOf f)))
      let pes := if k = 0 then (let r := c.free 32; (sext 32 r.1, r.2)) else (satI 32 (divRound ((v.1 - 1048576) * 524288) k), c)
      let e := divRound pes.1 65536
      let j := identSpiral (identOf f)
      let a : Int := 256 * identField (identOf f)
      let x := if l % 2 = 0 then ((4 * tp + j : Nat) : Int) * 65536 + a + e else ((4 * tp + 7 - j : Nat) : Int) * 65536 - a - e
      (pes.2.modDm h b fun d => { d with pes := pes.1, d := v.1, x := x, inRange := v.2 })
    else c.addSat p Reg.HEAD.FIELD_STAT_MISSED 1
  let c := c.put p Reg.HEAD.FIELD_STAT_LOCK (setBit (c.rd p Reg.HEAD.FIELD_STAT_LOCK) b.val lock)
  let valid := lock && (c.dm h b).inRange
  (c.put p Reg.HEAD.FIELD_STAT_PES_VALID (setBit (c.rd p Reg.HEAD.FIELD_STAT_PES_VALID) b.val valid)).modDm h b fun d =>
    { d with pesLast := if ok && valid then d.pes else d.pesLast }

/-- An index deviation of `d` fields (R472, R473); `field` is the count it leaves. -/
def Chip.indexDev (c : Chip) (h : Port) (d : Int) (field : Nat) : Chip :=
  let p : Page := .head h
  let c := (c.putS p Reg.HEAD.INDEX_STAT_LAST_D (clampI (-127) 127 d)).event p 5
  if d.natAbs ≤ 2 then
    ((c.inc p Reg.HEAD.INDEX_STAT_MINOR).fault p 5 3 0 (toBits 10 d) p.num).modSv h fun x => { x with field := field }
  else
    let c := (c.inc p Reg.HEAD.INDEX_STAT_MAJOR).fault0 p 5 4 1
    (c.countLost h.spin.upper).countLost h.spin.lower

/-- The field counter, the index mark and the identity word of the base beam (R471 to R474). -/
def Chip.countField (c : Chip) (h : Port) (f : FieldPulses) (ok : Bool) : Chip :=
  let p : Page := .head h
  let n := ((c.sv h).field + 1) % 1024
  let c := if n = 0 then c.put p Reg.HEAD.SRV_STAT_TURN (c.srvTurn h + 1) else c
  let c := c.modSv h fun x => { x with
    field := n, fieldAt := c.now, sinceIndex := x.sinceIndex.map (· + 1)
    spanC := if ok then (f.c2.t - f.c1.t).toNat else x.spanC }
  let c :=
    if ok && !allBeams.any (c.wrActive h) then
      c.modHd h fun x => { x with tHat := (f.c2.t - f.c1.t).toNat * 153600 / rateS x.rate }
    else c
  let c :=
    if ok && isIndex f then
      let d : Int := match (c.sv h).sinceIndex with
        | some m => (m : Int) - 1024
        | none => 0
      let c := c.modSv h fun x => { x with sinceIndex := some 0 }
      if d = 0 then c else c.indexDev h d 0
    else
      match (c.sv h).sinceIndex with
      | some m => if 1027 < m then (c.modSv h fun x => { x with sinceIndex := none }).indexDev h 1028 n else c
      | none => c
  if !ok then c
  else
    let id := identField (identOf f)
    let t := resolveTurn (c.expectTurn h) (identTurn (identOf f))
    let x := c.sv h
    let c :=
      if c.lockIs h Reg.HEAD.SRV_STAT_COUNT_LOCK then
        let d := sext 10 ((x.field + 1024 - id) % 1024)
        let c :=
          if d = 0 then c.modSv h fun x => { x with diff := none }
          else if x.diff = some d then (c.modSv h fun x => { x with diff := none }).indexDev h d id
          else c.modSv h fun x => { x with diff := some d }
        if t = c.srvTurn h then c.modSv h fun x => { x with turnDiff := none }
        else if x.turnDiff = some t ∨ x.phase = .verify then
          (c.put p Reg.HEAD.SRV_STAT_TURN t).modSv h fun x => { x with turnDiff := none }
        else c.modSv h fun x => { x with turnDiff := some t }
      else if x.gFoc ∧ x.lastField.map (fun g => (g + 1) % 1024) = some id then
        ((c.put p Reg.HEAD.SRV_STAT_TURN t).put p Reg.HEAD.SRV_STAT_COUNT_LOCK 1).modSv h fun x => { x with
          field := id, diff := none, turnDiff := none }
      else c
    c.modSv h fun x => { x with lastField := some id }

/-- Three-beam mode: which of B0 and B4 works for the coming revolution (R481). -/
def Chip.revSwap (c : Chip) (h : Port) : Chip :=
  let w := c.workSet h
  let c :=
    if c.mapMode h = 1 ∧ w.contains 0 ∧ w.contains 4 then
      let lead : BeamNo := if c.portLayer h % 2 = 0 then 4 else 0
      (c.putB (.head h) Reg.HEAD.SRV_STAT_REV_SWAP (c.dm h lead).lostRev).updRoles h
    else c
  allBeams.foldl (fun c b => c.modDm h b fun d => { d with lostRev := false }) c

/-- ROT_E: difference of PES per beam step, none where fewer than two beams qualify (R476, R478). -/
def Chip.rotE (c : Chip) (h : Port) : Option Int :=
  let l := allBeams.filter (fun b => let r := c.beamRole h b; (r = 1 ∨ r = 2 ∨ r = 3 ∨ r = 4) ∧ c.pesValid h b)
  match l.head?, l.getLast? with
  | some lo, some hi =>
    if lo = hi then none else some (divRound ((c.dm h hi).pes - (c.dm h lo).pes) ((hi.val : Int) - lo.val))
  | _, _ => none

/-- Track lock after a base field (R488); the disagreement of SPIRAL and turn counts in FOLLOW (log 54). -/
def Chip.trackLock (c : Chip) (h : Port) (wrong : Bool) : Chip :=
  let p : Page := .head h
  let x := c.sv h
  let dev := (c.arrayX h).map (fun a => (a - x.xRef).natAbs)
  let small := match dev with
    | some d => decide (d ≤ c.rd p Reg.HEAD.TRACK_CFG_TRK_LOCK * 256)
    | none => false
  let big := match dev with
    | some d => decide (32768 < d)
    | none => false
  let c := c.modSv h fun x => { x with
    trkGood := if small && x.gTrk then x.trkGood + 1 else 0
    trkBad := if big then x.trkBad + 1 else 0
    noPes := if dev.isNone then x.noPes + 1 else 0
    trkWrong := if wrong && x.phase = .follow then x.trkWrong + 1 else 0 }
  let x := c.sv h
  if c.lockIs h Reg.HEAD.SRV_STAT_TRACK_LOCK then
    if 4 ≤ x.trkBad ∨ 4 ≤ x.noPes ∨ 2 ≤ x.trkWrong then c.trackLost h else c
  else if x.gTrk ∧ 8 ≤ x.trkGood then c.put p Reg.HEAD.SRV_STAT_TRACK_LOCK 1
  else c

/-- Rotation lock after a base field (R488). -/
def Chip.rotLock (c : Chip) (h : Port) : Chip :=
  let p : Page := .head h
  let wi := c.rd p Reg.HEAD.TRACK_CFG_WI_ROT * 16777216
  match c.rotE h with
  | none => c
  | some v =>
    let c := c.modSv h fun x => { x with
      rotGood := if v.natAbs ≤ wi && x.gRot then x.rotGood + 1 else 0
      rotBad := if 2 * wi < v.natAbs then x.rotBad + 1 else 0 }
    let x := c.sv h
    if x.gRot ∧ 8 ≤ x.rotGood then c.put p Reg.HEAD.SRV_STAT_ROT_LOCK 1
    else if 4 ≤ x.rotBad ∧ c.lockIs h Reg.HEAD.SRV_STAT_ROT_LOCK then (c.put p Reg.HEAD.SRV_STAT_ROT_LOCK 0).event p 4
    else c

/-- The layer check of a verification after a decoded base field (R493 step 5, R495 step 7); after a jump it waits for count lock
(R499). -/
def Chip.verifyField (c : Chip) (h : Port) : Chip :=
  let x := c.sv h
  let need := if x.after = .acquire ∧ !x.jumped then 4 else 2
  if x.fields < need || (x.jumped && !c.lockIs h Reg.HEAD.SRV_STAT_COUNT_LOCK) then c
  else if x.layerRead = x.aim then c.layerVerified h
  else if x.jumped then c.focusLost h
  else
    let c := if x.inRec then c else c.fault0 (.head h) 4 3 0
    (c.srvLayer h x.layerRead).jumpStart h x.aim x.after

/-- The sequencer after a base field (R493 to R497). -/
def Chip.srvField (c : Chip) (h : Port) (f : FieldPulses) (ok : Bool) : Chip :=
  let p : Page := .head h
  let c := c.modSv h fun x => { x with
    fields := if ok || x.phase = .refine || x.phase = .recCount then x.fields + 1 else x.fields
    layerRead := if ok then identLayer (identOf f) else x.layerRead }
  let x := c.sv h
  let near := match c.arrayX h with
    | some a => decide ((x.xStar - a).natAbs ≤ c.rd p Reg.HEAD.SEEK_CFG_FINE_MAX * 65536)
    | none => false
  let count := c.lockIs h Reg.HEAD.SRV_STAT_COUNT_LOCK
  match x.phase with
  | .verify => if ok then c.verifyField h else c
  | .refine =>
    match c.baseBeam h with
    | some b =>
      let d := (c.dm h b).d
      if ok then c.modSv h fun x => { x with dMax := some (max d (x.dMax.getD d)), dMin := some (min d (x.dMin.getD d)) } else c
    | none => c
  | .capture =>
    if !x.gTrk ∧ count then
      (c.srvGates h true true false false).modSv h fun x => { x with xRef := (c.arrayX h).getD x.xRef, walking := true }
    else if c.lockIs h Reg.HEAD.SRV_STAT_TRACK_LOCK ∧ !x.walking then c.followReached h true
    else c
  | .coarse =>
    let n := if ok && near then x.arrive + 1 else 0
    let c := c.modSv h fun x => { x with arrive := n }
    if 8 ≤ n ∧ count then
      let st := if x.inRec then 8 else 5
      c.radial h x.xStar true st st
    else c
  | .walk =>
    if !x.gTrk then
      if count then
        (c.srvGates h true true false false).modSv h fun x => { x with xRef := (c.arrayX h).getD x.xRef, walking := true }
      else c
    else
      let close := match c.arrayX h with
        | some a => decide ((a - x.xRef).natAbs ≤ c.rd p Reg.HEAD.TRACK_CFG_TRK_LOCK * 256)
        | none => false
      let n := if close && !x.walking then x.arrive + 1 else 0
      let c := c.modSv h fun x => { x with arrive := n }
      if atLeast1 (c.rd p Reg.HEAD.SEEK_CFG_ARRIVE_F) ≤ n then c.followReached h x.inRec else c
  | .recTrack => if 2 ≤ x.fields ∧ count then c.radial h x.xRef true 8 8 else c
  | .recCount =>
    if count then c.radial h x.xRef true 8 8
    else if 64 ≤ x.fields then
      (c.fault0 p 5 1 0).modSv h fun x => { x with phase := .recTrack, fields := 0 }
    else c
  | _ => c

/-- R467: one servo field under a beam. -/
def Chip.servoField (c : Chip) (h : Port) (b : BeamNo) (f : FieldPulses) : Chip :=
  if !c.pageUp (.head h) || !c.demodRuns h b then c
  else
    let ok := c.fieldOk h b f
    let c := c.demodField h b f ok
    let c :=
      if c.baseBeam h = some b then
        let c := (c.countField h f ok).srvAdvance h
        let c := if (c.sv h).field = 0 then c.revSwap h else c
        let wrong := ok && (identSpiral (identOf f) != c.spiralOf h b (c.portLayer h) || (c.sv h).turnDiff.isSome)
        let c := ((c.trackLock h wrong).rotLock h).srvField h f ok
        let all := c.lockIs h Reg.HEAD.SRV_STAT_FOCUS_LOCK && c.lockIs h Reg.HEAD.SRV_STAT_TRACK_LOCK
          && c.lockIs h Reg.HEAD.SRV_STAT_ROT_LOCK && c.lockIs h Reg.HEAD.SRV_STAT_COUNT_LOCK
        c.modSv h fun x => { x with settle := if all then x.settle + 1 else 0 }
      else c
    c.srvInhibit h

/-- R467. -/
def execServoFieldDecode (h : Port) (b : BeamNo) (f : FieldPulses) (s : State) : Out := s.to fun c => c.servoField h b f

/-! ## Per frame (R476, R477, R479, R482, R485, R487) -/

/-- Interpolated entry of a runout table at field `f`, in Q1.31 (R479). -/
def Chip.runoutAt (c : Chip) (h : Port) (fld : Fld) (f : Nat) : Int :=
  let a := c.rdIS (.head h) fld (f / 4 % 256)
  let b := c.rdIS (.head h) fld ((f / 4 + 1) % 256)
  divRound ((a * 4 + (b - a) * (f % 4 : Nat)) * 65536) 4

/-- Learning of one runout table over the frame that ends (R479): `cmd` is the command sent, `ff` the value delivered. -/
def Chip.runoutLearn (c : Chip) (h : Port) (fld : Fld) (cmd ff : Int) : Chip :=
  let i := (c.sv h).field / 4 % 256
  let mu := c.rd (.head h) Reg.HEAD.RRO_CTL_MU
  let v := c.rdIS (.head h) fld i + divRound (cmd * 65536 - ff) (65536 * 2 ^ mu : Nat)
  c.putI (.head h) fld i (toBits 16 (satI 16 v))

/-- The wear ratio of a beam over the frame that ends (R487); the quotient at a monitored power of 0 is open (log 53). -/
def Chip.wearFrame (c : Chip) (h : Port) (b : BeamNo) : Chip :=
  let p : Page := .head h
  let rp := ((c.hd h).lastGroup.getD (5 + 3 * b.val) 0).toNat
  if c.wrActive h b || decide (rp < c.rd p Reg.HEAD.RAMP_CFG_DEMOD_PMIN) || bit (c.hd h).groupHit b.val then c
  else
    let pm := (c.dm h b).pdHeld * c.rdI p Reg.HEAD.MON_SCALE b.val
    let q := if pm = 0 then c.free 32 else (rp * 256 * 2147483648 / pm, c)
    let c := q.2.modDm h b fun d => { d with wear := (((d.wear : Int) + divRound ((q.1 : Int) - d.wear) 65536)).toNat }
    let w := (c.dm h b).wear / 65536
    let c := c.putI p Reg.HEAD.LWEAR_RATIO b.val (min 65535 w)
    let c :=
      if c.rdI p Reg.HEAD.LWEAR_WARNED b.val = 0 ∧ c.rd p Reg.HEAD.WEAR_CFG_WARN < w then
        (c.putI p Reg.HEAD.LWEAR_WARNED b.val 1).fault p 7 2 0 b.val p.num
      else c
    if c.rdI p Reg.HEAD.LWEAR_LIMITED b.val = 0 ∧ c.rd p Reg.HEAD.WEAR_CFG_LIMIT < w then
      (c.putI p Reg.HEAD.LWEAR_LIMITED b.val 1).fault p 7 3 1 b.val p.num
    else c

/-- The focus feed-forward of a recovery's sweep after `dt` ticks: between ±1/8 of full scale about the bias at `r` per ms. -/
def sweepAbout (r dt : Nat) : Int :=
  let a := 268435456
  let u := r * dt / 100000 % (4 * a)
  if u < a then (u : Nat) else if u < 3 * a then ((2 * a : Nat) : Int) - u else (u : Int) - (4 * a : Nat)

/-- The sequencer's timed steps in a frame (R493, R495, R497). -/
def Chip.srvTimed (c : Chip) (h : Port) : Chip :=
  let p : Page := .head h
  let x := c.sv h
  let rate := atLeast1 (c.rd p Reg.HEAD.JUMP_CFG_SWEEP) * 8388608
  match x.phase with
  | .sweep =>
    let dt := c.now - x.at'
    if dt ≤ ms 2 then c
    else
      let v : Int := -qMax + (rate * (dt - ms 2) / 100000 : Nat)
      if qMax ≤ v then c.acqFailed h else c.modSv h fun x => { x with focFF := v }
  | .locking =>
    let c := c.modSv h fun x => match x.brakeAt with
      | some t => if t ≤ c.now then { x with focFF := x.bias, brakeAt := none } else x
      | none => x
    if x.limit = 0 ∨ c.now ≤ x.limit then c
    else if x.jumped then c.focusLost h
    else c.acqFailed h
  | .jump =>
    let c := c.modSv h fun x => match x.brakeAt with
      | some t => if t ≤ c.now then { x with focFF := x.bias, brakeAt := none } else x
      | none =>
        if x.at' + us (atLeast1 (c.rd p Reg.HEAD.JUMP_CFG_KICK_US)) ≤ c.now then { x with focFF := x.bias } else x
    if x.limit < c.now then c.focusLost h else c
  | .recFocus => c.modSv h fun x => { x with focFF := clampI (-qMax) qMax (x.bias + sweepAbout rate (c.now - x.at')) }
  | _ => c

/-- The walk of one frame (R482). -/
def Chip.walkFrame (c : Chip) (h : Port) : Chip :=
  let w : Int := (atLeast1 (c.rd (.head h) Reg.HEAD.SEEK_CFG_WALK_V) * 256 : Nat)
  c.modSv h fun x =>
    if x.walking && x.gTrk then
      let r := x.xRef + clampI (-w) w (x.xStar - x.xRef)
      { x with xRef := r, walking := r ≠ x.xStar }
    else x

/-- PWR_RAMP (R485). -/
def Chip.pwrRamp (c : Chip) (h : Port) : Int :=
  match (c.sv h).rampSince with
  | none => 0
  | some t =>
    let n := us (atLeast1 (c.rd (.head h) Reg.HEAD.RAMP_CFG_RAMP_US))
    (2147483647 * min n (c.now - t) / n : Nat)

/-- The per-frame words 16 to 22 and 24 to 31 (R476, R478). -/
def Chip.frameWords (c : Chip) (h : Port) : List (Nat × Option Int) :=
  let x := c.sv h
  let gate := fun (g : Bool) => some (if g then qMax else 0)
  allBeams.map (fun b => (16 + b.val, if c.pesValid h b then some (c.dm h b).pes else none))
    ++ [(21, if !x.gTrk then some 0 else (c.arrayX h).map (fun a => satI 32 ((a - x.xRef) * 65536))),
      (22, if !x.gRot then some 0 else c.rotE h), (24, some x.ffFoc), (25, some x.ffTrk), (26, gate x.gFoc),
      (27, gate x.gTrk), (28, some (sext 32 x.sled)), (29, gate x.gRot), (30, some (c.pwrRamp h)), (31, gate x.gCtr)]

/-- A frame begins at a head: what the last frame taught, walks and timed steps, then the words of the frame (R476, R477). -/
def Chip.servoFrame (c : Chip) (h : Port) : Chip :=
  let p : Page := .head h
  let c := allBeams.foldl (fun c b =>
    if c.demodRuns h b then c.wearFrame h b else (c.wearFrame h b).modDm h b fun d => { d with c1 := none }) c
  let locks := c.lockIs h Reg.HEAD.SRV_STAT_FOCUS_LOCK && c.lockIs h Reg.HEAD.SRV_STAT_TRACK_LOCK
    && c.lockIs h Reg.HEAD.SRV_STAT_ROT_LOCK && c.lockIs h Reg.HEAD.SRV_STAT_COUNT_LOCK
    && c.srvState h = 4
  let g := (c.hd h).lastGroup
  let x := c.sv h
  let c := if locks && c.flag p Reg.HEAD.RRO_CTL_FOC_EN then c.runoutLearn h Reg.HEAD.RUNOUT_FOC (g.getD 0 0) x.ffFoc else c
  let c := if locks && c.flag p Reg.HEAD.RRO_CTL_TRK_EN then c.runoutLearn h Reg.HEAD.RUNOUT_TRK (g.getD 1 0) x.ffTrk else c
  let c := ((c.srvAdvance h).walkFrame h).srvTimed h
  let c := c.put p Reg.HEAD.RECOVER_STAT_STREAK (min 15 ((c.sv h).recs.filter (fun t => c.now ≤ t + secs 1)).length)
  let f := (c.sv h).field
  let c := c.modSv h fun x => { x with
    ffFoc := satI 32 (x.focFF + c.runoutAt h Reg.HEAD.RUNOUT_FOC f)
    ffTrk := satI 32 (c.runoutAt h Reg.HEAD.RUNOUT_TRK f)
    sled := if x.phase = .follow ∨ x.phase = .walk ∨ x.phase = .capture then sledWord x.xRef
            else if x.phase = .coarse then sledWord x.xStar else x.sled }
  let set : ServoSet := ⟨c.frameNum.toNat, 0, (c.hd h).sampleIx, true, [], 0, c.frameWords h⟩
  { c with sets := c.sets.set h.val ((set :: c.sets.get h).take 12) h.isLt }

end Sys2Proof.Machine
end

