-- ==== Sys2Proof/Machine/Links.lean ====
section
/-!
DEFINITION. OPU links: training, uplink and downlink frames, the group cut-off, power limits, housekeeping, presence and the
laser lines (chapter 06; R30, R31, R376, R399, R483).
-/
namespace Sys2Proof.Machine

/-! ## Loss of alignment and presence (R269, R272, R276) -/

/-- What every reading and writing beam of a port does when its link is lost (R269, R331, R391). -/
def Chip.beamsLost (c : Chip) (h : Port) : Chip :=
  allBeams.foldl (fun c b => (c.immediateEnd h b 9 1).cutSector h b 11) c

/-- A port leaves RUNNING or training for state `st`, 4 lost or 5 absent: lasers off, the local clock, no servo (R16, R269). -/
def Chip.linkDown (c : Chip) (h : Port) (st : Nat) : Chip :=
  let p : Page := .head h
  let was := c.linkState h = 3
  let c := (c.put p Reg.HEAD.LINK_STAT_STATE st).put p Reg.HDR.PAGE_STAT_CLK_LOCAL 1
  let c := ((c.put p Reg.HEAD.LINK_STAT_UL0_LOCK 0).put p Reg.HEAD.LINK_STAT_UL1_LOCK 0).put p Reg.HEAD.LINK_STAT_DL_ALIGNED 0
  let c := (c.modHd h fun x => { x with lostAt := c.now, trainWait := false, groupReady := false }).updKill h
  if was then ((c.beamsLost h).srvAbort h).inhibitAll h else c

/-- A housekeeping request ends without a response (R269, R279). -/
def Chip.hkEnd (c : Chip) (h : Port) (status : Nat) : Chip :=
  let p : Page := .head h
  let c := c.modHd h fun x => { x with hkSend := false, hkSent := none }
  ((c.put p Reg.HEAD.HK_CTL_DONE 1).putB p Reg.HEAD.HK_CTL_ERROR (status != 0)).put p Reg.HEAD.HK_CTL_STATUS status

/-- Loss of alignment of a running port (R269). -/
def Chip.linkLost (c : Chip) (h : Port) : Chip := (c.linkDown h 4).fault0 (.head h) 0 2 1

/-! ## Training (R266 to R268) -/

/-- ALIGN_FAIL at step `step`; `retry` sets the retry bit (R267, R268, log 7). -/
def Chip.alignFail (c : Chip) (h : Port) (step : Nat) (retry : Bool) : Chip :=
  let d := if retry then step ||| 2 ^ (Config.alignRetryBit % 10) else step
  (c.linkDown h 4).fault (.head h) 0 3 1 d (Page.head h).num

/-- The step of R266 at which training fails, 0 where it reaches RUNNING (R258, R262, R266, R267). -/
def Chip.trainStep (c : Chip) (h : Port) (a : OpuAnswer) : Nat :=
  let p : Page := .head h
  let rate := c.rd p Reg.HEAD.LINK_CTL_RATE
  let l := c.rd p Reg.HEAD.LINK_CFG_L_DL
  let r := c.rd p Reg.HEAD.LINK_CFG_DL_RELEASE
  if a.failStep = 2 ∨ a.failStep = 3 ∨ a.failStep = 4 then a.failStep
  else if 5 ≤ rate ∨ !bit a.caps.toNat rate ∨ !a.hkOk ∨ c.rd p Reg.HEAD.LINK_CFG_UL_DELAY < a.txLat + 166
      ∨ l < r ∨ 436 < l - r then 5
  else if a.failStep = 0 then 0 else a.failStep

/-- Frames from the start of the current one to the next even one, 1 or 2 (R244). -/
def Chip.toEven (c : Chip) : Nat := if c.frameNum.toNat % 2 = 0 then 2 else 1

/-- Training fails at step `step` (R267, R268). -/
def Chip.trainFail (c : Chip) (h : Port) (step : Nat) : Chip :=
  (c.alignFail h step (c.hd h).trainLast).modHd h fun x => { x with tries := x.tries + 1 }

/-- Both uplink lanes are locked and aligned, frame 0 has begun and the port's own clock runs (steps 2 to 4 of R266, R16): STATE
SETUP. -/
def Chip.trainAlign (c : Chip) (h : Port) (a : OpuAnswer) : Chip :=
  let p : Page := .head h
  let t := if c.framesRunning then c.frameStart + 250 * c.toEven else c.now
  let f := if c.framesRunning then c.frameNum.toNat + c.toEven else 0
  let u : HallNo := ⟨80 + h.val, by omega⟩
  let c := ((c.hallIdle u true).hallRelease u).clearExchange h
  let c := c.modHd h fun x => { x with
    rate := c.rd p Reg.HEAD.LINK_CTL_RATE
    ulDelay := c.rd p Reg.HEAD.LINK_CFG_UL_DELAY
    dlRelease := c.rd p Reg.HEAD.LINK_CFG_DL_RELEASE
    alignFrame := f, ulNext := 0, dlNext := 0, opuFault := false, rf := [], opuTemp := none, trainWait := false }
  let c := (c.put p Reg.HEAD.ALIGN_TB_LO_TB (t % 2 ^ 32)).put p Reg.HEAD.ALIGN_TB_HI_TB (t / 2 ^ 32)
  let c := (c.put p Reg.HEAD.LINK_FRAME_N 0).put p Reg.HDR.PAGE_STAT_CLK_LOCAL 0
  let c := ((c.put p Reg.HEAD.LINK_STAT_UL0_LOCK 1).put p Reg.HEAD.LINK_STAT_UL1_LOCK 1).put p Reg.HEAD.LINK_STAT_DL_ALIGNED 1
  let c := (c.put p Reg.HEAD.LAT_STAT_UL_MARGIN a.ulMargin).put p Reg.HEAD.LAT_STAT_DL_MARGIN a.dlMargin
  (c.hallIdle u false).put p Reg.HEAD.LINK_STAT_STATE 2

/-- Steps 5 and 6 of R266: STATE RUNNING. -/
def Chip.trainRun (c : Chip) (h : Port) (a : OpuAnswer) : Chip :=
  let p : Page := .head h
  let c := c.modHd h fun x => { x with tries := 0, opuId := a.opuId, caps := a.caps, txLat := a.txLat }
  let c := (c.put p Reg.HEAD.LINK_STAT_STATE 3).event p 0
  allBeams.foldl (fun c b => c.updCond h b) ((c.updKill h).updRoles h)

/-- A training in progress goes on, at the latest to t0 + 10 ms (R266, R267): it fails at the step that the answer or the configuration
gives, or stands where the answer says, or reaches RUNNING. The times of the steps are bounds and are not modelled (log 64). -/
def Chip.trainOn (c : Chip) (h : Port) (a : OpuAnswer) : Chip :=
  let s := c.trainStep h a
  if (c.hd h).trainT0 + ms 10 < c.now then c.trainFail h (if c.linkState h = 1 then 2 else 5)
  else if s ≠ 0 ∧ (c.linkState h = 1 ∨ 5 ≤ s) then c.trainFail h s
  else if c.linkState h = 1 ∧ a.reach = 1 then c
  else
    let c := if c.linkState h = 1 then c.trainAlign h a else c
    if a.reach = 2 then c else c.trainRun h a

/-- Training that has been ordered starts once DEVCLK has run for 1 ms (R266); where that is not by t0 + 10 ms it fails at step 2, the
first not reached (R267). `last` says that nothing more is waited for. -/
def Chip.trainStart (c : Chip) (h : Port) (a : OpuAnswer) (last : Bool) : Chip :=
  let t0 := (c.hd h).trainT0
  let wait := fun (c : Chip) => if last then (c.until' (t0 + ms 10)).trainFail h 2 else c.modHd h fun x => { x with trainWait := true }
  match (c.hd h).clkSince with
  | some t => if t + ms 1 ≤ t0 + ms 10 then ((c.until' (t + ms 1)).modHd h fun x => { x with trainWait := false }).trainOn h a else wait c
  | none => wait c

/-- A training begins: t0 and STATE LOCKING (step 1 of R266). -/
def Chip.trainBegin (c : Chip) (h : Port) (retry : Bool) : Chip :=
  (c.linkDown h 1).modHd h fun x => { x with trainT0 := c.now, trainLast := retry }

/-- TRAIN (R266, R282); ignored while the port is ABSENT. -/
def Chip.trainGo (c : Chip) (h : Port) (a : OpuAnswer) : Chip :=
  if c.linkState h = 5 then c
  else ((c.modHd h fun x => { x with tries := 0 }).trainBegin h false).trainStart h a false

/-- R266. -/
def execLinkTrain (r : Requester) (h : Port) (a : OpuAnswer) (s : State) : Out :=
  s.to fun c => c.write r (.head h) fun c => c.trainGo h a

/-- R268: a port in LOST trains again 1 ms after it entered LOST; the third failure in succession carries the retry bit. A training in
progress goes on here too. -/
def execAutoRetrain (h : Port) (a : OpuAnswer) (s : State) : Out :=
  s.to fun c =>
    let p : Page := .head h
    let x := c.hd h
    if x.trainWait then c.trainStart h a true
    else if c.linkState h = 1 ∨ c.linkState h = 2 then c.trainOn h a
    else if c.linkState h = 4 ∧ c.flag p Reg.HEAD.LINK_CTL_AUTO_RETRAIN ∧ x.tries < 3 then
      let c := (c.until' (x.lostAt + ms 1)).inc p Reg.HEAD.LINK_STAT_RETRAINS
      (c.trainBegin h (decide (x.tries + 1 = 3))).trainStart h a false
    else c

/-! ## Uplink (R248 to R251, R260 to R262, R269) -/

/-- A little-endian number. -/
def leBytes : List Byte → Nat
  | [] => 0
  | b :: r => b.toNat + 256 * leBytes r

/-- `n` octets of `l` from `at'`. -/
def octets (l : List Byte) (at' n : Nat) : List Byte := (l.drop at').take n

/-- Elements of two lists in turn. -/
def interleave {α : Type} : List α → List α → List α
  | a :: r, b :: t => a :: b :: interleave r t
  | l, [] => l
  | [], l => l

/-- The RF samples of the five beams (R248). -/
def deframe (s : Nat) (u : Uplink) : List (List Byte) :=
  [octets u.lane0 8 s, octets u.lane0 (8 + s) s, interleave (octets u.lane0 (8 + 2 * s) (s / 2)) (octets u.lane1 8 (s / 2)),
    octets u.lane1 (8 + s / 2) s, octets u.lane1 (8 + 3 * s / 2) s]

/-- Photodetector channels 2p and 2p + 1 (R251). -/
def pdPair (l : List Byte) (p : Nat) : List Nat :=
  let w := leBytes (octets l (328 + 3 * p) 3)
  [w % 4096, w / 4096 % 4096]

/-- The 12 channels of a servo set. -/
def pdSet (l : List Byte) : List Nat := (List.range 6).flatMap (pdPair l)

/-- A housekeeping response (R264). -/
def Chip.hkResponse (c : Chip) (h : Port) (status : Nat) (data : List Nat) : Chip :=
  let p : Page := .head h
  if c.flag p Reg.HEAD.HK_CTL_DONE ∨ (c.hd h).hkSent.isNone then c
  else
    let c :=
      if c.flag p Reg.HEAD.HK_CTL_WRITE ∨ status ≠ 0 then c
      else ((data.take (c.rd p Reg.HEAD.HK_CTL_COUNT + 1)).zipIdx).foldl (fun c v => c.putI p Reg.HEAD.HK_DATA_DATA v.2 v.1) c
    c.hkEnd h status

/-- What an uplink frame reports whether or not its alignment holds (R269): CRC errors, and with a readable header DL_CHECK_FAIL and
OPU_FAULT. -/
def Chip.uplinkEvents (c : Chip) (h : Port) (whole : Bool) (u : Uplink) : Chip :=
  let p : Page := .head h
  let flags := leBytes (octets u.lane0 2 1)
  let c := (List.range u.crcErrors).foldl (fun c _ => (c.inc p Reg.HEAD.UL_ERR_CRC_ERR).fault0 p 0 1 0) c
  if !whole then c
  else
    let c := if bit flags 2 then
        allBeams.foldl (fun c b => c.linkCause h b 3 true) ((c.inc p Reg.HEAD.DL_ERR_CHECK_FAIL).fault0 p 0 4 0)
      else c
    let c := if bit flags 5 && !(c.hd h).opuFault then c.fault0 p 1 1 1 else c
    c.modHd h fun x => { x with opuFault := bit flags 5 }

/-- Samples and servo set of a good frame `n` of a running port (R248 to R251). -/
def Chip.uplinkData (c : Chip) (h : Port) (n : Nat) (u : Uplink) : Chip :=
  let p : Page := .head h
  let flags := leBytes (octets u.lane0 2 1)
  let c := c.modHd h fun x => { x with rf := deframe (rateS x.rate) u, sampleIx := (rateS x.rate * (n + 1) - 1) % 2 ^ 32 }
  let c := c.readPath h (c.hd h).rf
  if n % 5 = 1 ∨ n % 5 = 3 then
    let m := 2 * (n / 5) + (if n % 5 = 1 then 0 else 1)
    let ok := bit flags 0 && !u.servoCrcBad
    let c := if ok then c else c.inc p Reg.HEAD.UL_ERR_SV_INVALID
    c.servoSet h ((c.hd h).alignFrame + m / 5) (m % 5) ok (pdSet u.lane0)
  else c

/-- The parts of a good uplink frame `n` (R248 to R251). -/
def Chip.uplinkGood (c : Chip) (h : Port) (n : Nat) (u : Uplink) : Chip :=
  let p : Page := .head h
  let flags := leBytes (octets u.lane0 2 1)
  let c := c.put p Reg.HEAD.LAT_STAT_UL_MARGIN (min (c.rd p Reg.HEAD.LAT_STAT_UL_MARGIN) u.margin)
  let c := c.put p Reg.HEAD.LINK_FRAME_N n
  let c := c.modHd h fun x => { x with ulNext := n + 1 }
  let c := if c.linkState h = 3 then c.uplinkData h n u else c
  if bit flags 1 then
    c.hkResponse h (leBytes (octets u.lane1 333 1)) ((List.range 8).map fun k => leBytes (octets u.lane1 (336 + 4 * k) 4))
  else c

/-- An uplink frame at its release (R248, R250, R262, R269). -/
def Chip.uplink (c : Chip) (h : Port) (u : Uplink) : Chip :=
  if !c.pageUp (.head h) ∨ (c.linkState h ≠ 2 ∧ c.linkState h ≠ 3) then c
  else
    let n := (c.hd h).ulNext
    let fnum := fun (l : List Byte) => leBytes (octets l 0 2)
    let whole := u.locked && u.complete && fnum u.lane0 == n % 65536 && fnum u.lane1 == n % 65536
    let c := c.uplinkEvents h whole u
    if whole && (bit (leBytes (octets u.lane0 2 1)) 6 || c.linkState h == 2) then c.uplinkGood h n u else c.linkLost h

/-- R248. -/
def execUplinkFrame (h : Port) (u : Uplink) (s : State) : Out := s.to fun c => c.uplink h u

/-! ## Laser power (R376, R399, R483) -/

/-- The lower of two limits where a jump is under way (R483). -/
def Chip.layerRmax (c : Chip) (h : Port) : Nat :=
  let at' := fun (l : Nat) => c.rdI (.head h) (if l % 2 = 0 then Reg.HEAD.LAYER_RMAX_RMAX_LO else Reg.HEAD.LAYER_RMAX_RMAX_HI) (l / 2)
  let cur := at' (c.portLayer h)
  let x := c.sv h
  if x.phase = .jump then min cur (at' x.aim) else cur

/-- The power fields of beam `b` after R376 and R483, with whether a clamp changed one. -/
def Chip.beamPower (c : Chip) (h : Port) (b : BeamNo) (g : List Int) : List Int × Bool :=
  let p : Page := .head h
  if !c.liveBeam h b.val then ([0, 0, 0], false)
  else
    let f := fun (k : Nat) => (g.getD (k + 3 * b.val) 0).toNat
    let st := c.wrState h b
    let w := if 2 ≤ st ∧ st ≤ 5 then c.writePower h b else (f 6, f 7)
    let rmax := min (c.rdI p Reg.HEAD.PLIM_READ_MAX b.val) (c.layerRmax h)
    let pmax := c.rdI p Reg.HEAD.PLIM_PEAK_MAX b.val
    let rd := min (f 5) rmax
    let pk := min w.1 pmax
    let bi := min w.2 (min pmax pk)
    ([(rd : Int), (pk : Int), (bi : Int)], rd ≠ f 5 || pk ≠ w.1 || bi ≠ w.2)

/-- A group before transmission (R376, R483): PLIM_STAT.HIT and PLIM_HIT follow the clamps. -/
def Chip.limitGroup (c : Chip) (h : Port) (g : List Int) : List Int × Chip :=
  let p : Page := .head h
  let c' := allBeams.foldl (fun c b =>
    if (c.beamPower h b g).2 then
      let c := if bit (c.rd p Reg.HEAD.PLIM_STAT_HIT) b.val then c else c.fault p 7 1 0 b.val p.num
      (c.orBits p Reg.HEAD.PLIM_STAT_HIT (2 ^ b.val)).modHd h fun x => { x with groupHit := setBit x.groupHit b.val true }
    else c) (c.modHd h fun x => { x with groupHit := 0 })
  (g.take 5 ++ allBeams.flatMap (fun b => (c.beamPower h b g).1), c')

/-! ## Cut-off and downlink (R30, R252 to R259, R374, R375) -/

/-- R30: at 230 ticks the complete groups leave; one of a running owner without its GCLOSE is a group miss. -/
def Chip.cutoff (c : Chip) (h : Port) : Chip :=
  let p : Page := .head h
  if !c.pageUp p ∨ !c.headDriven h then c.modHd h fun x => { x with groupReady := false }
  else
    let g := c.groups.get h
    if g.closed then c.modHd h fun x => { x with groupReady := true, nextGroup := g.fields }
    else
      let c := ((c.inc p Reg.HEAD.DL_ERR_GROUP_MISS).dlMiss p).fault0 p 3 1 0
      c.modHd h fun x => { x with groupReady := false }

/-- R30. -/
def execFrameCutoff (s : State) : Out :=
  s.to fun c => allPorts.foldl Chip.cutoff (c.until' (c.frameStart + 230))

/-- `k` octets of `n`, little-endian. -/
def leOctets (k : Nat) (n : Int) : List Nat := (List.range k).map fun i => (n / (256 ^ i : Nat) % 256).toNat

/-- Servo frame, counted from the alignment, whose group link frame `n` carries, with its offset in H (R257). -/
def carried (n : Nat) : Option Nat :=
  let t := 200 * n
  if t + 199 < 2300 then none
  else
    let g := (t + 199 - 2300) / 2500
    if t ≤ 2500 * g + 2300 then some (if g % 2 = 0 then 75 else 0) else none

/-- The octets of an actuator group (R255). -/
def groupOctets (applyAt : Nat) (g : List Int) : List Nat :=
  leOctets 2 (applyAt % 512 : Nat) ++ leOctets 2 0 ++ ((g.take 5).flatMap fun v => leOctets 2 v) ++ leOctets 2 0
    ++ (((g.drop 5).take 15).flatMap fun v => leOctets 2 v) ++ List.replicate 10 0

/-- The write symbols a frame takes for one beam (R374): SCOUNT, FIRST, the symbols and what becomes of the beam; the last is
true for an underrun (R31). -/
def BeamSt.takeSymbols (x : BeamSt) (tHat lead : Nat) (linking : Bool) : Nat × Nat × List Nat × BeamSt × Bool :=
  let fifo := x.fifo ++ x.stream.take (min 512 lead - x.fifo.length)
  let stream := x.stream.drop (min 512 lead - x.fifo.length)
  let w := 150 * 16777216
  let n := if w ≤ x.symTime then 0 else min 84 ((w - x.symTime + tHat - 1) / max 1 tHat)
  let got := fifo.take n
  let pad := List.replicate (n - got.length) 0
  (n, x.symTime / 262144, got ++ pad,
    { x with fifo := fifo.drop n, stream := stream, symTime := x.symTime + n * tHat - w }, decide (got.length < n) && !linking)

/-- FIFO_MIN of a beam (R412). -/
def fifoMinFld (b : Nat) : Fld :=
  match b with
  | 0 => Reg.HEAD.FIFO_MIN_B0
  | 1 => Reg.HEAD.FIFO_MIN_B1
  | 2 => Reg.HEAD.FIFO_MIN_B2
  | 3 => Reg.HEAD.FIFO_MIN_B3
  | _ => Reg.HEAD.FIFO_MIN2_B4

/-- One beam's part of a downlink frame: the timing word and the symbol region; an underrun starts a linking end (R31, R269,
R391). -/
def Chip.beamSymbols (c : Chip) (h : Port) (b : BeamNo) : List Nat × List Nat × Chip :=
  let q : Page := .beam h b
  let p : Page := .head h
  let st := c.wrState h b
  let x := c.bm h b
  if !(c.wrActive h b || !x.stream.isEmpty || !x.fifo.isEmpty) then
    (List.replicate 8 0, List.replicate 84 0, c.modBm h b fun x => { x with symTime := 0 })
  else
    let t := (c.hd h).tHat
    let r := x.takeSymbols t (c.rd q Reg.BEAM.WR_CFG_FIFO_LEAD) (st != 3 && st != 5)
    let f := fifoMinFld b.val
    let fill := min 127 ((x.fifo ++ x.stream.take (min 512 (c.rd q Reg.BEAM.WR_CFG_FIFO_LEAD) - x.fifo.length)).length / 4)
    let c := (c.modBm h b fun _ => r.2.2.2.1).put p f (min (c.rd p f) fill)
    let c :=
      if r.2.2.2.2 then
        (((c.dlMiss p).fault0 p 3 2 0).inc q Reg.BEAM.WR_EVENTS_UNDERRUN).linkCause h b 1 false
      else c
    (leOctets 1 r.1 ++ [0] ++ leOctets 2 r.2.1 ++ leOctets 4 t, r.2.2.1 ++ List.replicate (84 - r.1) 0, c)

/-- The housekeeping request of a frame (R264). -/
def Chip.hkOctets (c : Chip) (h : Port) : List Nat :=
  let p : Page := .head h
  let wr := c.flag p Reg.HEAD.HK_CTL_WRITE
  let cnt := c.rd p Reg.HEAD.HK_CTL_COUNT + 1
  [if wr then 2 else 1, (c.hd h).hkTag % 256] ++ leOctets 2 (c.rd p Reg.HEAD.HK_CTL_ADDR) ++ [cnt, 0, 0, 0]
    ++ ((List.range 8).flatMap fun k => leOctets 4 (if wr ∧ k < cnt then c.rdI p Reg.HEAD.HK_DATA_DATA k else 0))
    ++ List.replicate 24 0

/-- The group of the frame now sent (R257 to R259): GVALID, APPLY_AT and fields. -/
def Chip.frameGroup (c : Chip) (h : Port) (n : Nat) : Bool × Nat × List Int × Chip :=
  let x := c.hd h
  if c.headQuenched h then
    let g := x.lastGroup.take 5 ++ List.replicate 15 0
    (true, 0, g, c.modHd h fun x => { x with lastGroup := g, groupHit := 0, groupReady := false })
  else
    match carried n with
    | some ofs =>
      if x.groupReady && !x.held then
        let g := c.limitGroup h x.nextGroup
        let l := c.rd (.head h) Reg.HEAD.LINK_CFG_L_DL
        (true, ofs + l - x.dlRelease, g.1, g.2.modHd h fun x => { x with lastGroup := g.1, groupReady := false })
      else (false, 0, List.replicate 20 0, c)
    | none => (false, 0, List.replicate 20 0, c)

/-- One downlink frame (R252). -/
def Chip.downlink (c : Chip) (h : Port) : Chip :=
  let p : Page := .head h
  if !c.pageUp p ∨ (c.linkState h ≠ 2 ∧ c.linkState h ≠ 3) then c
  else
    let n := (c.hd h).dlNext
    let g := c.frameGroup h n
    let c := g.2.2.2
    let hk := (c.hd h).hkSend
    let hkReq := if hk then c.hkOctets h else List.replicate 64 0
    let c := if hk then c.modHd h fun x => { x with hkSend := false, hkSent := some c.now } else c
    let quenched := c.headQuenched h
    let en := (allBeams.map (fun b =>
      if !quenched && (c.bm h b).symTime < 150 * 16777216 && (c.wrActive h b || !(c.bm h b).stream.isEmpty || !(c.bm h b).fifo.isEmpty) then 2 ^ b.val else 0)).foldl (· + ·) 0
    let r := allBeams.foldl (fun (a : List Nat × List Nat × Chip) b =>
      let s := a.2.2.beamSymbols h b
      (a.1 ++ s.1, a.2.1 ++ s.2.1, s.2.2)) (([], [], c) : List Nat × List Nat × Chip)
    let c := r.2.2
    let body := leOctets 2 (n % 65536 : Nat) ++ [b2n g.1 + 2 * b2n hk, en, 0, 0, 0, 0] ++ r.1 ++ r.2.1 ++ hkReq
      ++ [0, 0, 0, 0] ++ (if g.1 then groupOctets g.2.1 g.2.2.1 else List.replicate 56 0)
    let u : HallNo := ⟨80 + h.val, by omega⟩
    let v := c.hallValue u body
    let c := c.hallMessage u v none
    c.modHd h fun x => { x with
      dlNext := n + 1, lastFrame := (body ++ leOctets 8 v).map (BitVec.ofNat 8) }

/-- R252. -/
def execDownlinkFrame (h : Port) (s : State) : Out := s.to fun c => c.downlink h

/-! ## Housekeeping (R264, R269, R285, R289, R603) -/

/-- HK_CTL.GO (R289): one request, ignored while DONE is 0 or STATE is neither setup nor running. -/
def Chip.hkGo (c : Chip) (h : Port) : Chip :=
  let p : Page := .head h
  if c.flag p Reg.HEAD.HK_CTL_DONE ∧ (c.linkState h = 2 ∨ c.linkState h = 3) then
    (c.put p Reg.HEAD.HK_CTL_DONE 0).modHd h fun x => { x with hkSend := true, hkSent := none, hkAt := c.now, hkTag := (x.hkTag + 1) % 256 }
  else c

/-- R289: the write carries WRITE, COUNT and ADDR, which the request uses. -/
def execHkRequest (r : Requester) (h : Port) (wr : Bool) (count : Fin 8) (addr : BitVec 16) (s : State) : Out :=
  s.to fun c => c.write r (.head h) fun c =>
    let p : Page := .head h
    let c := (c.putB p Reg.HEAD.HK_CTL_WRITE wr).put p Reg.HEAD.HK_CTL_COUNT count.val
    (c.put p Reg.HEAD.HK_CTL_ADDR addr.toNat).hkGo h

/-- R264. -/
def execHkResponse (h : Port) (status : Byte) (data : Vector Word 8) (s : State) : Out :=
  s.to fun c => if c.linkState h = 2 ∨ c.linkState h = 3 then c.hkResponse h status.toNat (data.toList.map (·.toNat)) else c

/-- R269: no response within 64 link frames (12.8 us) of the request; a request that no frame has taken any more, because the link went
down, runs from GO. -/
def execHkTimeout (h : Port) (s : State) : Out :=
  s.to fun c =>
    if c.flag (.head h) Reg.HEAD.HK_CTL_DONE then c
    else
      let out := fun (t : Nat) => ((c.until' (t + 1280)).hkEnd h 255).fault0 (.head h) 0 5 0
      match (c.hd h).hkSent with
      | some t => out t
      | none => if c.linkState h = 2 ∨ c.linkState h = 3 then c else out (c.hd h).hkAt

/-- R285. -/
def execDlMarginPoll (h : Port) (m : BitVec 10) (s : State) : Out :=
  s.to fun c => if c.linkState h = 3 then c.put (.head h) Reg.HEAD.LAT_STAT_DL_MARGIN m.toNat else c

/-- R603: the die temperature in the OPU's STATUS word. -/
def execOpuTempPoll (h : Port) (status : Word) (s : State) : Out :=
  s.to fun c =>
    if c.linkState h = 3 then c.modHd h fun x => { x with opuTemp := some (sext 8 (slice 8 8 status.toNat)) } else c

/-! ## Lasers and presence (R271 to R277) -/

/-- ARM written: where the kill line is low, every inhibited beam ends its write (R273, R489). -/
def Chip.armGo (c : Chip) (h : Port) (on : Bool) : Chip :=
  let c := c.writeArm h on
  if c.killHigh h then c else allBeams.foldl (fun c b => if bit (c.sv h).winh b.val then c.writeInhibit h b else c) c

/-- R271, R287. Clearing ARM turns the lasers off and leaves the servo in OFF (R499). -/
def execLaserArm (r : Requester) (h : Port) (on : Bool) (s : State) : Out :=
  s.to fun c => c.write r (.head h) fun c => c.armGo h on

/-- R272: PRESENT_N has been high for the 50 ns of the glitch filter. -/
def execPresentNRise (h : Port) (s : State) : Out :=
  s.to fun c =>
    if bit c.pins.presentLow h.val then
      let c := { c with pins := { c.pins with presentLow := setBit c.pins.presentLow h.val false } }
      let c := (c.put (.head h) Reg.HEAD.LASER_CTL_WHY_ABSENT 1).modHd h fun x => { x with riseAt := some c.now, fallAt := none }
      allBeams.foldl (fun c b => c.writeInhibit h b) (c.updKill h)
    else c

/-- Insertion of the port's OPU has been recognised and no removal since (R869). -/
def Chip.present (c : Chip) (h : Port) : Bool := bit (c.rd .clk Reg.CLK.OPU_PRESENT_PRESENT) h.val

/-- PRESENT_N is low from now on. -/
def Chip.presentFalls (c : Chip) (h : Port) : Chip :=
  { c with pins := { c.pins with presentLow := setBit c.pins.presentLow h.val true } }.modHd h fun x =>
    { x with riseAt := none, fallAt := some c.now }

/-- R275: PRESENT_N of a port whose OPU is present is low again before REMOVE_MS; that of another port becomes low. -/
def execPresentGlitch (h : Port) (s : State) : Out :=
  s.to fun c =>
    if !c.present h then (if bit c.pins.presentLow h.val then c else c.presentFalls h)
    else
      match (c.hd h).riseAt with
      | some t => if c.now < t + ms (atLeast1 (c.hd h).removeMs) then (c.presentFalls h).fault0 (.head h) 2 1 0 else c
      | none => c

/-- The presence bits of a port (R283, R869). -/
def Chip.setPresent (c : Chip) (h : Port) (v : Bool) : Chip :=
  let m := setBit (c.rd .clk Reg.CLK.OPU_PRESENT_PRESENT) h.val v
  (c.put .clk Reg.CLK.OPU_PRESENT_PRESENT m).putB (.head h) Reg.HEAD.LINK_STAT_PRESENT v

/-- Removal (R276, R279). -/
def Chip.opuRemoved (c : Chip) (h : Port) : Chip :=
  let p : Page := .head h
  let c := (c.linkDown h 5).setPresent h false
  let c := if c.flag p Reg.HEAD.HK_CTL_DONE then c else c.hkEnd h 255
  let c := c.modHd h fun x => { x with clkSince := none, riseAt := none, trainWait := false, opuTemp := none }
  ((c.axStop h.sled 8 5).fault0 p 2 2 0).event p 1

/-- R276: PRESENT_N high for REMOVE_MS. -/
def execOpuRemoved (h : Port) (s : State) : Out :=
  s.to fun c =>
    match (c.hd h).riseAt with
    | some t => if c.present h then (c.until' (t + ms (atLeast1 (c.hd h).removeMs))).opuRemoved h else c
    | none => c

/-- Insertion (R277): the port goes from absent to off; DEVCLK runs again where OPU_CLK still permits it. -/
def Chip.opuInserted (c : Chip) (h : Port) : Chip :=
  let p : Page := .head h
  let c := { c with pins := { c.pins with presentLow := setBit c.pins.presentLow h.val true } }
  let c := if c.linkState h = 5 then c.put p Reg.HEAD.LINK_STAT_STATE 0 else c
  let c := c.modHd h fun x => { x with
    riseAt := none
    clkSince := if bit (c.rd .clk Reg.CLK.OPU_CLK_DEVCLK_EN) h.val then some c.now else none }
  (((c.setPresent h true).fault0 p 2 3 0).event p 2)

end Sys2Proof.Machine
end

