-- ==== Sys2Proof/Machine/Assay.lean ====
section
/-!
DEFINITION. Assay: the reference, converter calibration, temperatures and VHOLD, capture into the calibration set, and its
commit into the pages of the beams (chapter 13).
-/
namespace Sys2Proof.Machine

/-! ## Reference and converters (R591 to R599) -/

/-- Sets a converter's corrections and counts. -/
def Chip.setConv (c : Chip) (n : Nat) (x : ConvSt) : Chip := c.modAssay fun a => { a with convs := assocSet n x a.convs }

/-- R597: the new corrections of a converter from its three sums, none where they are rejected. `lo`, `hi` and `mid` are
three times the ideal codes, `tol` the MID tolerance in LSB. -/
def judgeConv (lo hi mid tol : Int) (s : SlotSums) : Option (Nat × Int) :=
  let r := hi - lo
  let d : Int := (s.hi : Int) - s.lo
  let ofs := s.lo * r - lo * d
  let midErr := ((s.mid : Int) - s.lo) * r + (lo - mid) * d
  if d ≤ 0 then none
  else if (256 * r - d).natAbs * 100 ≤ d.natAbs ∧ (ofs.natAbs : Int) ≤ 16 * 768 * r ∧ (midErr.natAbs : Int) ≤ tol * 3 * d then
    some ((divRound (256 * r * 2 ^ 30) d).toNat, divRound (16 * ofs) (768 * r))
  else none

/-- One island's converter under calibration is judged (R597, R599); a rejection in the assay island is counted and sent. -/
def Chip.judgeOne (c : Chip) (isl ix : Nat) (lo hi mid tol : Int) (s : SlotSums) : Chip :=
  let n := isl * 64 + ix
  let x := c.conv n
  match judgeConv lo hi mid tol s with
  | some (g, o) => c.setConv n { x with gain := g, ofs := o, cals := min 65535 (x.cals + 1) }
  | none =>
    if isl = 2 then (c.setConv n { x with rejects := min 255 (x.rejects + 1) }).fault .assay 2 1 0 ix Page.assay.num else c

/-- The CAL_M part of slot `n` (R595, R596). -/
def Chip.calSlotM (c : Chip) (n : Nat) (i : CalSlotIn) : Chip :=
  let x := c.assay
  let is := if n % 9 = 0 then 48 else x.nextSpin
  let ia := if n % 9 = 0 then 44 else x.nextAxis
  let c := c.judgeOne 0 is 1536 10752 6144 1 i.spin
  let c := c.judgeOne 1 ia 1536 10752 6144 1 i.axis
  let c := c.addSat .assay Reg.ASSAY.CAL_CYCLES_M_SLOTS 1
  if n % 9 = 0 then c
  else
    c.modAssay fun x => { x with
      nextSpin := (x.nextSpin + 1) % 48, cycSpin := x.cycSpin || x.nextSpin == 47
      nextAxis := (x.nextAxis + 1) % 44, cycAxis := x.cycAxis || x.nextAxis == 43 }

/-- The CAL_H part of slot `n`; the thirteenth converter completes a cycle (R596, R620, R624). -/
def Chip.calSlotH (c : Chip) (n : Nat) (i : CalSlotIn) : Chip :=
  let ix := if n % 9 = 0 then 13 else c.assay.nextAssay
  let c := (c.judgeOne 2 ix 4096 45056 24576 4 i.assay).addSat .assay Reg.ASSAY.CAL_CYCLES_H_SLOTS 1
  if n % 9 = 0 then c
  else
    let last := c.assay.nextAssay = 12
    let c := c.modAssay fun x => { x with nextAssay := (x.nextAssay + 1) % 13, cycAssay := x.cycAssay || last }
    if last then (c.event .assay 0).put .assay Reg.ASSAY.ASSAY_STAT_FIRST_CYCLE 1 else c

/-- One slot completes, from u = 3,584 on (R594 to R597). A converter whose bus is idle in the slot is not calibrated, and the pointers stay. -/
def Chip.calSlot (c : Chip) (i : CalSlotIn) : Chip :=
  let n := c.frameNum.toNat / 4096
  if !c.islandUp .assay ∨ !c.framesRunning ∨ c.frameNum.toNat % 4096 < 3584 ∨ c.assay.lastSlot = some n then c
  else
    let c := c.modAssay fun x => { x with lastSlot := some n }
    let enM := c.flag .assay Reg.ASSAY.ASSAY_CTL_CAL_M_EN
    let enH := c.flag .assay Reg.ASSAY.ASSAY_CTL_CAL_H_EN
    let c := c.putB .assay Reg.ASSAY.ASSAY_STAT_CAL_M_READY (enM && i.trimM)
    let c := c.putB .assay Reg.ASSAY.ASSAY_STAT_CAL_H_READY (enH && i.trimH)
    let c := if enM && i.trimM then c.calSlotM n i else if enM then c.fault0 .assay 1 1 1 else c
    if enH && i.trimH then c.calSlotH n i else if enH then c.fault0 .assay 1 1 1 else c

/-- R595. -/
def execCalSlot (i : CalSlotIn) (s : State) : Out := s.to fun c => c.calSlot i

/-- R591, R592: the deviation of the current trim after the reference converter has measured its offset. -/
def Chip.refDev (c : Chip) (ppm : Int) : Chip :=
  let ok := decide (ppm.natAbs ≤ 3000)
  let was := c.flag .assay Reg.ASSAY.ASSAY_STAT_REF_OK
  let c := (c.putS .assay Reg.ASSAY.REF_DEV_PPM (satI 16 ppm)).putB .assay Reg.ASSAY.ASSAY_STAT_REF_OK ok
  let c := if ok = was then c else c.event .assay 1
  let c := if !ok && !c.assay.refOut then c.fault0 .assay 0 1 1 else c
  c.modAssay fun x => { x with refOut := !ok }

/-- R592: every second. -/
def execRefOffsetMeasure (ppm : Int) (s : State) : Out :=
  s.to fun c =>
    if !c.islandUp .assay then c
    else
      let c := match c.assay.refAt with
        | some t => c.until' (t + secs 1)
        | none => c
      (c.modAssay fun x => { x with refAt := some c.now }).refDev ppm

/-! ## Temperatures and VHOLD (R600, R601) -/

/-- Tj from the valid readings (R93, R600). With none valid TJ keeps its value (DESIGN CHOICE: no rule says, log 170). -/
def Chip.updTj (c : Chip) : Chip :=
  let v := (List.range 12).filter fun n => c.rdI .assay Reg.ASSAY.TEMP_VALID n != 0
  match v.map (fun n => c.rdIS .assay Reg.ASSAY.TEMP_T n) with
  | [] => c
  | t :: r => c.putS .assay Reg.ASSAY.TJ_T (satI 16 (r.foldl max t + 128))

/-- The temperature that sensor `n` shows, in 1/64 °C, for a difference of base-emitter voltages in nV, with ln 8 = 2.0794415416798357
(R600; units and rounding: log 177). -/
def sensorTemp (n : Nat) (nv : Nat) : BitVec 16 :=
  let den := (max 1 (Config.fusedIdeality n).toNat : Int) * 20794415416798357
  BitVec.ofInt 16 (satI 16 (divRound ((nv : Int) * (116045 * 64 * 10 ^ 13) - 174816 * den) (10 * den)))

/-- One conversion of the twelve sensors, to temperatures `t` (R600). -/
def Chip.tempConv (c : Chip) (t : List (BitVec 16)) : Chip :=
  ((t.take 12).zipIdx.foldl (fun (c : Chip) v =>
    let c := (c.putI .assay Reg.ASSAY.TEMP_T v.2 v.1.toNat).putI .assay Reg.ASSAY.TEMP_VALID v.2 1
    let c := c.modAssay fun x => { x with stamps := assocSet v.2 c.now x.stamps }
    c.putMeas (0x2F0 + v.2) (Config.measWord (0x2F0 + v.2) v.1.toNat).toNat true) c).updTj

/-- R600: a reading that was not converted within 150 us. -/
def execTempDeadline (n : Fin 12) (s : State) : Out :=
  s.to fun c =>
    if !c.islandUp .assay then c
    else
      let at' := ((assocGet n.val c.assay.stamps).getD 0) + us 150
      let c := ((c.until' at').putI .assay Reg.ASSAY.TEMP_VALID n.val 0).updTj
      let w := (Config.measWord (0x2F0 + n.val) (c.rdI .assay Reg.ASSAY.TEMP_T n.val)).toNat
      ((c.putMeas (0x2F0 + n.val) w false).dlMiss .assay).fault0 .assay 3 1 0

/-- The corrected code of a VHOLD sample (R598, R601), in 1/16 LSB. The spare serves while the converter is calibrated. -/
def Chip.vholdCode (c : Chip) (raw : Nat) : Int := c.corrected 2 0 raw

/-- A VHOLD sample is corrected, shown and delivered (R601). -/
def Chip.vholdIn (c : Chip) (raw : Nat) : Chip :=
  let v := (clampI 0 16383 (divRound (c.vholdCode raw) 16)).toNat
  (c.put .assay Reg.ASSAY.VHOLD_CODE v).putMeas 0x2FC (Config.measWord 0x2FC v).toNat true

/-! ## Capture (R603 to R606) -/

/-- A capture that moves a value in force by more than one field step makes a commit due (R610). -/
def Chip.markDirty (c : Chip) (h : Port) (new old : Int) : Chip :=
  if 1 < (new - old).natAbs then
    c.modAssay fun x => { x with dirty := if x.dirty.contains h.val then x.dirty else h.val :: x.dirty }
  else c

/-- R604: the zone entry of layer `l`, zone `z` at point `k`. -/
def Chip.captureZone (c : Chip) (h : Port) (b : BeamNo) (k l z : Nat) : Chip :=
  let p : Page := .beam h b
  let i := 24 * l + z
  let key := calKey k h b i
  if c.now < (assocGet key c.assay.capAt).getD 0 + secs 60 ∧ (assocGet key c.assay.capAt).isSome then c
  else
    let g := divRound ((c.rdI p Reg.BEAM.ZT_GAIN i : Nat) * (c.rd p Reg.BEAM.FE_STATE_G_A : Nat)) 32768
    let o := divRound (256 * c.rdIS p Reg.BEAM.ZT_OFFSET i + c.rdS p Reg.BEAM.FE_STATE_O_A) 256
    let w := (clampI 0 4095 g).toNat + toBits 8 (satI 8 o) * 2 ^ 12 + slice 20 12 (c.calWord k h b i) * 2 ^ 20
    let c := ((c.setCalWord k h b i w).setCalFlag k h b i).calChanged h
    let c := c.modAssay fun x => { x with capAt := assocSet key c.now x.capAt }
    let t := c.portTemp h
    let c := c.markDirty h (c.calAt h b i i (fun w => slice 0 12 w) t) (c.rdI p Reg.BEAM.ZT_GAIN i)
    c.markDirty h (c.calAt h b i i (fun w => sext 8 (slice 12 8 w)) t) (c.rdIS p Reg.BEAM.ZT_OFFSET i)

/-- R605: the equaliser entry of layer `l` at point `k`, where it has none or one older than 1 h. -/
def Chip.captureEq (c : Chip) (h : Port) (b : BeamNo) (k l : Nat) : Chip :=
  let p : Page := .beam h b
  let key := calKey k h b (192 + 8 * l)
  if c.calFlag k h b (192 + l) ∧ c.now ≤ (assocGet key c.assay.capAt).getD 0 + hours 1 then c
  else
    let c := c.write .mgmt p fun c => c.eqSnap h b
    let c := (List.range 8).foldl (fun (c : Chip) i =>
      c.setCalWord k h b (192 + 8 * l + i) (c.shI p Reg.BEAM.EQ_TAP_C_LO i + c.shI p Reg.BEAM.EQ_TAP_C_HI i * 2 ^ 16)) c
    let c := (c.setCalFlag k h b (192 + l)).calChanged h
    let c := c.modAssay fun x => { x with capAt := assocSet key c.now x.capAt }
    (List.range 8).foldl (fun (c : Chip) i =>
      c.markDirty h (c.calAt h b (192 + l) (192 + 8 * l + i) (fun w => sext 14 w) (c.portTemp h))
        (c.rdIS p Reg.BEAM.EQ_INIT_C_LO (8 * l + i))) c

/-- Sets SEP of a side at point `k`, and of the neighbour's facing side with the opposite sign (R606). -/
def Chip.setSep (c : Chip) (h : Port) (b : BeamNo) (right : Bool) (k : Nat) (v : Int) : Chip :=
  let put := fun (c : Chip) (b : BeamNo) (right : Bool) (v : Int) =>
    let w := c.calWord k h b 256
    let n := toBits 16 v
    (c.setCalWord k h b 256 (if right then slice 0 16 w + n * 2 ^ 16 else n + slice 16 16 w * 2 ^ 16)).setCalFlag k h b
      (if right then 201 else 200)
  let c := put c b right v
  let o := if right then unitOf 5 0 (b.val + 1) else if b.val = 0 then none else unitOf 5 0 (b.val - 1)
  match o with
  | some b' => (put c b' (!right) (-v)).calChanged h
  | none => c.calChanged h

/-- Σ h², and Σ m h², of one side's taps in Q0.12 squared. -/
def Chip.tapMoments (c : Chip) (p : Page) (lo hi : Fld) : Nat × Int :=
  (c.xtTaps p lo hi).zipIdx.foldl (fun a t =>
    let v := sext 13 t.1
    (a.1 + (v * v).toNat, a.2 + ((t.2 : Int) - 3) * (v * v))) (0, 0)

/-- One side after a qualifying ingot (R606): the estimate enters the point's value, or a search goes on. -/
def Chip.captureSide (c : Chip) (h : Port) (b : BeamNo) (right : Bool) (k : Nat) : Chip :=
  let p : Page := .beam h b
  let en := c.flag p (if right then Reg.BEAM.XT_CFG_EN_R else Reg.BEAM.XT_CFG_EN_L)
  let e := if right then c.tapMoments p Reg.BEAM.XT_TAP_R_H_LO Reg.BEAM.XT_TAP_R_H_HI
    else c.tapMoments p Reg.BEAM.XT_TAP_L_H_LO Reg.BEAM.XT_TAP_L_H_HI
  let l := c.beamLayer h b
  let x := c.bm h b
  let r : Int := (radiusNm l x.turn (c.spiralOf h b l) : Nat)
  let step : Int := (c.rd p Reg.BEAM.TR_NOM_STEP : Nat)
  let step := step + step * c.rdS p Reg.BEAM.TR_STAT_FREQ_PPM / 1000000
  let sample : Int × Int := (2 * 3141592653 * r * 2 ^ 30, 1000000000 * 6666240 * step)
  let ix := 2 * (beamIx h b).val + b2n right
  let known := (List.range 6).any fun k => c.calFlag k h b (if right then 201 else 200)
  if !en ∨ step ≤ 0 then c
  else if known then
    if e.1 < 16384 ∨ 5 * (e.1 : Int) < 2 * (e.2.natAbs : Int) then c
    else
      let d := c.rdS p (if right then Reg.BEAM.XT_STAT_DELTA_R else Reg.BEAM.XT_STAT_DELTA_L)
      let old := c.rdS p (if right then Reg.BEAM.XT_SEP_SEP_R else Reg.BEAM.XT_SEP_SEP_L)
      let num := (d * e.1 + e.2) * sample.1
      let den := (e.1 : Int) * sample.2
      let v := satI 16 (old + divRound (num - old * den) (8 * den))
      ((c.setSep h b right k v).markDirty h (c.sepAt h b right (c.portTemp h)) old)
  else
    match assocGet ix c.assay.search with
    | none => (c.modAssay fun a => { a with search := assocSet ix ⟨600, 600, 0⟩ a.search }).markDirty h 2 0
    | some q =>
      let best := if q.energy < e.1 then (q.mag, e.1) else (q.best, q.energy)
      let next := q.mag + (divRound (6 * sample.1) sample.2).toNat
      if next ≤ 1600 ∧ q.mag < next then
        (c.modAssay fun a => { a with search := assocSet ix ⟨next, best.1, best.2⟩ a.search }).markDirty h 2 0
      else
        let c := c.modAssay fun a => { a with search := assocDel ix a.search }
        (c.setSep h b right k (if right then (best.1 : Int) else -(best.1 : Int))).markDirty h 2 0

/-- R603 to R606: what follows the last sector of an ingot read GOOD. -/
def Chip.capture' (c : Chip) (h : Port) (b : BeamNo) : Chip :=
  match (c.bm h b).capReady, c.calPoint (c.portTemp h) with
  | some (l, z), some k =>
    let c := c.modBm h b fun x => { x with capReady := none }
    if c.beamRole h b ≠ 1 ∨ c.headQuenched h ∨ c.headGated h ∨ c.linkState h ≠ 3 ∨ !c.mgmt.resumed then c
    else
      let had := (assocGet (calKey k h b (24 * l + z)) c.assay.capAt)
      let c := c.captureZone h b k l z
      let c := if (assocGet (calKey k h b (24 * l + z)) c.assay.capAt) = had then c else c.captureEq h b k l
      (c.captureSide h b false k).captureSide h b true k
  | _, _ => c

/-- R604. -/
def execCaptureCalibration (h : Port) (b : BeamNo) (s : State) : Out := s.to fun c => c.capture' h b

/-! ## Interpolation and commit (R609 to R611, R618) -/

/-- Writes the shadow of one field where the new value differs from the active one (R610). -/
def Chip.calShadow (c : Chip) (p : Page) (f : Fld) (i : Nat) (v : Int) : Chip :=
  let n := toBits f.w v
  if c.rdI p f i = n then c else c.putShI p f i n

/-- The values of one beam at temperature `t` go into its shadows (R609, R610). -/
def Chip.calBeam (c : Chip) (h : Port) (b : BeamNo) (t : Int) : Chip :=
  let p : Page := .beam h b
  let c := (List.range 192).foldl (fun (c : Chip) i =>
    let c := c.calShadow p Reg.BEAM.ZT_GAIN i (c.calAt h b i i (fun w => slice 0 12 w) t)
    let c := c.calShadow p Reg.BEAM.ZT_OFFSET i (c.calAt h b i i (fun w => sext 8 (slice 12 8 w)) t)
    c.calShadow p Reg.BEAM.ZT_ASYM i (c.calAt h b i i (fun w => sext 12 (slice 20 12 w)) t)) c
  let c := (List.range 64).foldl (fun (c : Chip) i =>
    let f := 192 + i / 8
    let c := c.calShadow p Reg.BEAM.EQ_INIT_C_LO i (c.calAt h b f (192 + i) (fun w => sext 14 w) t)
    c.calShadow p Reg.BEAM.EQ_INIT_C_HI i (c.calAt h b f (192 + i) (fun w => sext 14 (slice 16 14 w)) t)) c
  let c := c.calShadow p Reg.BEAM.XT_SEP_SEP_L 0 (c.sepAt h b false t)
  let c := c.calShadow p Reg.BEAM.XT_SEP_SEP_R 0 (c.sepAt h b true t)
  c.calShadow p Reg.BEAM.WR_CFG_SKEW 0 (c.calAt h b 202 257 (fun w => sext 12 w) t)

/-- The port's values at its temperature go into the shadows of its pages and the pages are armed (R610). The monitor scale
is a plain register and takes its value at once. -/
def Chip.calPort (c : Chip) (h : Port) : Chip :=
  let t := c.portTemp h
  let c := allBeams.foldl (fun (c : Chip) b =>
    let p : Page := .beam h b
    if bit (c.rd (.head h) Reg.HEAD.BEAM_MAP_RETIRED) b.val ∨ c.frozen p then c
    else c.write .mgmt p fun c => (c.calBeam h b t).armPage .mgmt p) c
  let c := c.write .mgmt (.head h) fun c =>
    (allBeams.foldl (fun (c : Chip) b =>
      c.putI (.head h) Reg.HEAD.MON_SCALE b.val (toBits 16 (c.calAt h b 204 259 (fun w => slice 0 16 w) t))) c).armPage .mgmt (.head h)
  c.modAssay fun x => { x with
    valT := assocSet h.val t x.valT, valAt := assocSet h.val c.now x.valAt, dirty := x.dirty.filter (· != h.val) }

/-- The management requester's armed pages go in one global commit, 4 frames ahead (log 70). -/
def Chip.calGo (c : Chip) : Chip :=
  (c.modRq .mgmt fun q => { q with target := (c.frameNum.toNat + 4) % 2 ^ 32 }).globalGo .mgmt

/-- R610: the port's values are due for a commit. -/
def Chip.calDue (c : Chip) (h : Port) : Bool :=
  let step : Nat := 64 * max 1 (c.rd .assay Reg.ASSAY.SET_CFG_CH_STEP)
  let moved := match assocGet h.val c.assay.valT with
    | some t => decide (step ≤ (c.portTemp h - t).natAbs)
    | none => true
  let rested := match assocGet h.val c.assay.valAt with
    | some t => decide (t + secs 10 ≤ c.now)
    | none => true
  (moved || c.assay.dirty.contains h.val) && rested

/-- Pages of the port that the management requester has armed for a global commit of its own. -/
def Chip.portArmed (c : Chip) (h : Port) : Bool :=
  (c.armedPages .mgmt).any fun p => p == .head h || allBeams.any (fun b => p == .beam h b)

/-- R610, R618: the values join a global commit that the same requester has not yet started; one that waits goes first. -/
def Chip.interpCommit (c : Chip) (h : Port) : Chip :=
  if c.headGated h ∨ c.headQuenched h ∨ c.linkState h ≠ 3 ∨ !c.calDue h ∨ !c.mgmt.resumed ∨ c.rqMgmt.gcState = 1 then c
  else if c.portArmed h then c.calPort h
  else (c.calPort h).calGo

/-- R610. -/
def execInterpolationCommit (h : Port) (s : State) : Out := s.to fun c => c.interpCommit h

/-- R611: the ports of `m` are about to be enabled; without a set the defaults are committed once each island has
calibrated its converters, and a new set begins. -/
def Chip.portEnableCommit (c : Chip) (m : Nat) : Chip :=
  let ports := allPorts.filter fun h => bit m h.val && !c.headGated h
  let x := c.assay
  if ports.isEmpty ∨ c.rqMgmt.gcState = 1 ∨ (!x.setValid ∧ !(x.cycSpin && x.cycAxis && x.cycAssay)) then c
  else
    let c := if x.setValid then c else c.modAssay fun x => { x with setValid := true, seq := 1 }
    (ports.foldl (fun c h => c.calPort h) c).calGo

/-- R611. -/
def execPortEnableCommit (ports : BitVec 16) (s : State) : Out := s.to fun c => c.portEnableCommit ports.toNat

/-! ## Items written by the integrator and a new OPU (R607, R608) -/

/-- R607: item 0 SKEW, 1 monitor scale, 2 edge trim, at one point or at all six. -/
def Chip.calItem (c : Chip) (h : Port) (b : BeamNo) (item : Nat) (point : Option Nat) (v : Nat) : Chip :=
  let w := if item = 0 then 257 else if item = 1 then 259 else 258
  let f := if item = 0 then 202 else if item = 1 then 204 else 203
  let ks := match point with
    | some k => [k]
    | none => List.range 6
  let c := ks.foldl (fun c k => (c.setCalWord k h b w v).setCalFlag k h b f) c
  let c := c.calChanged h
  c.modAssay fun x => { x with dirty := if x.dirty.contains h.val then x.dirty else h.val :: x.dirty }

/-- R608: every item of the port takes its default and loses its flags; a store follows (R616). -/
def Chip.calPortReset (c : Chip) (h : Port) : Chip :=
  let mine := fun (n : Nat) => n % (80 * 272) / 272 / 5 = h.val
  let c := c.modAssay fun x => { x with
    cal := x.cal.filter (fun e => !mine e.1), capAt := x.capAt.filter (fun e => !mine e.1)
    search := x.search.filter (fun e => e.1 / 10 != h.val), storeReq := true, changed := some (x.changed.getD c.now) }
  (c.event .assay 2).modAssay fun x => { x with opuIds := assocSet h.val 0 x.opuIds }

/-- R275 to R277, R608: PRESENT_N has been low for INSERT_MS, since it fell or, where it has been low all along, since start-up. Where it is
still high it falls first. -/
def execOpuInserted (h : Port) (s : State) : Out :=
  s.to fun c =>
    if c.present h then c
    else
      let c := if bit c.pins.presentLow h.val then c else c.presentFalls h
      let c := c.until' (((c.hd h).fallAt.getD c.isl.bootAt) + ms (max 10 (c.hd h).insertMs))
      (c.opuInserted h).calPortReset h

/-- R623: STORE_REQ. -/
def execCalStoreRequest (r : Requester) (s : State) : Out :=
  s.to fun c => c.write r .assay fun c => (c.event .assay 2).modAssay fun x => { x with storeReq := true }

end Sys2Proof.Machine
end

