-- ==== Sys2Proof/Machine/HostOps.lean ====
section
/-!
DEFINITION. Operations over NVMe controllers, command slots, completions, asynchronous events and the logs that raise them
(chapters 15 and 20).
-/
namespace Sys2Proof.Machine

/-! ## Controllers and slots -/

/-- Changes the host side. -/
def Chip.modHost (c : Chip) (f : HostSt → HostSt) : Chip := { c with host := f c.host }
/-- Controller `n`. -/
def Chip.ctl (c : Chip) (n : Nat) : CtrlSt := c.host.ctrls.toList.getD n {}
/-- Changes controller `n`. -/
def Chip.modCtl (c : Chip) (n : Nat) (f : CtrlSt → CtrlSt) : Chip :=
  match unitOf 16 0 n with
  | some i => c.modHost fun h => { h with ctrls := h.ctrls.set i.val (f (h.ctrls.get i)) i.isLt }
  | none => c
/-- The command in a slot. -/
def Chip.cmdAt (c : Chip) (slot : Nat) : Option Cmd := assocGet slot c.host.slots
/-- Changes the command in a slot. -/
def Chip.modCmd (c : Chip) (slot : Nat) (f : Cmd → Cmd) : Chip :=
  match c.cmdAt slot with
  | some k => c.modHost fun h => { h with slots := assocSet slot (f k) h.slots }
  | none => c
/-- The command's phase becomes `p` now. -/
def Chip.setPhase (c : Chip) (slot : Nat) (p : CmdPhase) : Chip := c.modCmd slot fun k => { k with phase := p, since := c.now }

/-- INFLIGHT and INFLIGHT_HI (R730). -/
def Chip.updInflight (c : Chip) : Chip :=
  let n := c.host.slots.length + c.host.cplWait.length
  let c := c.stat .cmd Reg.CMD.INFLIGHT_NOW n
  if c.rd .cmd Reg.CMD.INFLIGHT_HI_HIGH < n then c.stat .cmd Reg.CMD.INFLIGHT_HI_HIGH n else c

/-- FUNC_STAT (R729). -/
def Chip.updFunc (c : Chip) : Chip :=
  let m := fun (f : CtrlSt → Bool) => (List.range 16).foldl (fun a n => a + b2n (f (c.ctl n)) * 2 ^ n) 0
  (c.stat .host Reg.HOST.FUNC_STAT_EN (m (·.en))).stat .host Reg.HOST.FUNC_STAT_RDY (m (·.rdy))

/-- A feature's value: default 413 K for the over-temperature threshold, 0 for the others (log 77). -/
def Chip.feat (c : Chip) (n fid : Nat) : Nat := (assocGet fid (c.ctl n).feats).getD (if fid = 0x04 then 413 else 0)

/-- Milliseconds of the Timestamp feature (NVMe): the value last set and the time since. -/
def Chip.timestamp (c : Chip) (n : Nat) : Nat := (c.feat n 0x0E + (c.now - c.feat n 0x1000E) / ms 1) % 2 ^ 48

/-- Wall-clock seconds since 2000-01-01 UTC, from the Timestamp feature of controller 0 (log 107). -/
def Chip.wall (c : Chip) : Nat := c.timestamp 0 / 1000 - 946684800

/-- Bits of the command's dwords. -/
def Sqe.slba (q : Sqe) : Nat := q.cdw10.toNat + q.cdw11.toNat * 2 ^ 32
/-- NLB, 1 based. -/
def Sqe.nlb (q : Sqe) : Nat := q.cdw12.toNat % 65536 + 1

/-! ## Completions -/

/-- Places a completion into its queue, or leaves it to wait for room (R678). -/
def Chip.deliverCpl (c : Chip) (k : Cpl) : Chip :=
  let x := c.ctl k.ctrl
  match x.sqs.find? (fun q => q.id == k.sq) with
  | none => c
  | some q =>
    match x.cqs.find? (fun y => y.id == q.cq) with
    | none => c
    | some y =>
      if y.entries.length + 1 < y.size then
        c.modCtl k.ctrl fun x => { x with
          cqs := x.cqs.map fun z => if z.id == q.cq then { z with tail := (z.tail + 1) % z.size, entries := z.entries ++ [k] } else z }
      else c.modHost fun h => { h with cplWait := h.cplWait ++ [k] }

/-- Counts and logs of a status (R682, R725, R730). -/
def Chip.countStatus (c : Chip) (k : Cpl) : Chip :=
  let c := if k.sct = 2 ∧ k.sc = 0x81 then c.statAdd .cmd Reg.CMD.STATUS_COUNT_URE 1 else c
  let c := if k.sct = 0 ∧ k.sc = 0x21 then c.statAdd .cmd Reg.CMD.STATUS_COUNT_INTERRUPTED 1 else c
  if k.sct = 0 ∧ k.sc = 0 then c else c.modCtl k.ctrl fun x => { x with errors := (k :: x.errors).take 64, errCount := x.errCount + 1 }

/-- Bytes of a frame on the link (R814). -/
def DaxFrame.bytes (f : DaxFrame) : Nat := 40 + divUp f.len 8 * 8

/-- Payload bytes of a frame: blocks of 4,160 bytes after a descriptor for MIRROR_DATA and FWD_DATA, whose last argument counts
them, else 4 bytes for each argument (the latter is the model's own, log 102). -/
def frameLen (typ : Nat) (arg : List Nat) : Nat :=
  if typ = 0x10 ∨ typ = 0x31 then 64 + 4160 * arg.getLastD 0 else 4 * arg.length

/-- A channel of the Daxlink: mirror, else control. -/
def Chip.chan (c : Chip) (mirror : Bool) : DaxChan := if mirror then c.peer.mir else c.peer.ctl
/-- Changes a channel of the Daxlink. -/
def Chip.modChan (c : Chip) (mirror : Bool) (f : DaxChan → DaxChan) : Chip :=
  { c with peer := if mirror then { c.peer with mir := f c.peer.mir } else { c.peer with ctl := f c.peer.ctl } }

/-- A check value is inserted into a frame that is transmitted (R769); the frame's bytes are not modelled, so the value shown is
free. -/
def Chip.hallOut (c : Chip) (mirror : Bool) : Chip :=
  let (v, c) := c.free 64
  c.hallMessage (if mirror then 106 else 104) v none

/-- Transmits the first waiting frames for which there is space (R816). -/
def Chip.daxDrain (mirror : Bool) : Nat → Chip → Chip
  | 0, c => c
  | fuel + 1, c =>
    let k := c.chan mirror
    match k.waiting with
    | [] => c
    | f :: r =>
      if 2 ^ 20 < (k.unacked.map DaxFrame.bytes).sum + f.bytes then c
      else
        let c := c.modChan mirror fun k => { k with
          tx := (k.tx + 1) % 2 ^ 32, waiting := r, unacked := k.unacked ++ [{ f with seq := k.tx, at' := c.now }]
          sentAt := if k.unacked.isEmpty then c.now else k.sentAt }
        Chip.daxDrain mirror fuel (c.hallOut mirror)

/-- Sends a Daxlink frame of the mirror or the control channel (R814, R816); none while no lane is trained. -/
def Chip.daxSend (c : Chip) (mirror : Bool) (typ : Nat) (arg : List Nat) : Chip :=
  if c.peer.lanes = 0 then c
  else
    let c := c.modChan mirror fun k => { k with waiting := k.waiting ++ [⟨0, typ, frameLen typ arg, arg, c.now⟩] }
    Chip.daxDrain mirror (c.chan mirror).waiting.length c

/-- The command in a slot completes: its slot is free, and its completion is posted where its controller still runs (R697,
R719). A forwarded command is answered to the partner (R830), one that came over NVMe-MI to the management bus (R176). -/
def Chip.complete (c : Chip) (slot : Nat) (f : Cpl → Cpl) : Chip :=
  match c.cmdAt slot with
  | none => c
  | some k =>
    let cpl := f { ctrl := k.ctrl, sq := k.sq, cid := k.sqe.cid.toNat }
    let c := c.modHost fun h => { h with slots := assocDel slot h.slots }
    let c :=
      if k.silent then c
      else if k.origin = 1 then
        c.daxSend true 0x32 [k.sqe.cid.toNat, cpl.sct, cpl.sc, cpl.crd, b2n cpl.dnr, cpl.dw0, cpl.dw1, cpl.data.length]
      else if k.origin = 2 then
        c.modHost fun h => { h with miOut := h.miOut ++ [[BitVec.ofNat 8 cpl.sc, BitVec.ofNat 8 cpl.sct] ++ cpl.data] }
      else (c.countStatus cpl).deliverCpl cpl
    c.updInflight

/-- Completes with a status (R725). -/
def Chip.fail (c : Chip) (slot sct sc : Nat) (dnr : Bool) : Chip :=
  c.complete slot fun k => { k with sct := sct, sc := sc, dnr := dnr }

/-- Command Interrupted with CRD 1 (R699). -/
def Chip.interrupted (c : Chip) (slot : Nat) : Chip := c.complete slot fun k => { k with sc := 0x21, crd := 1 }

/-! ## Asynchronous events (R856) -/

/-- A controller has an event kind enabled (Asynchronous Event Configuration): SMART by the warning bits, the vendor event
always (log 78), notices by their bits. -/
def Chip.eventOn (c : Chip) (n kind bits : Nat) : Bool :=
  let cfg := c.feat n 0x0B
  if kind = 1 then (cfg % 256 &&& bits) != 0
  else if kind = 2 then true
  else if kind = 3 then bit cfg 11
  else if kind = 4 then bit cfg 8
  else if kind = 5 then bit cfg 9
  else if kind = 6 then bit cfg 10
  else if kind = 7 then bit cfg 27
  else true

/-- Answers an Asynchronous Event Request of controller `n` with the oldest event that waits. -/
def Chip.serveEvent (c : Chip) (n : Nat) : Chip :=
  match (c.ctl n).events, c.host.slots.find? (fun s => s.2.ctrl == n && s.2.phase == .event) with
  | e :: r, some s =>
    (c.modCtl n fun x => { x with events := r }).complete s.1 fun k => { k with dw0 := e.1 + e.2.1 * 2 ^ 8 + e.2.2 * 2 ^ 16 }
  | _, _ => c

/-- Posts an event of a kind to one controller; it is not posted again until its log has been read (R856). -/
def Chip.postEvent (c : Chip) (n kind bits typ info log : Nat) : Chip :=
  let x := c.ctl n
  if !x.rdy ∨ !c.eventOn n kind bits ∨ x.masked.contains kind then c
  else (c.modCtl n fun x => { x with events := x.events ++ [(typ, info, log)], masked := kind :: x.masked }).serveEvent n

/-- Posts an event to every controller that has it enabled. -/
def Chip.postAll (c : Chip) (kind bits typ info log : Nat) : Chip :=
  (List.range 16).foldl (fun c n => c.postEvent n kind bits typ info log) c

/-! ## Logs (R854 to R860) -/

/-- Changes the logs. -/
def Chip.modLog (c : Chip) (f : LogSt → LogSt) : Chip := { c with log := f c.log }

/-- Appends to the Event log and posts the vendor event (R856, R860). -/
def Chip.logEvent (c : Chip) (code unit arg : Nat) : Chip :=
  (c.modLog fun l => { l with events := (⟨c.now, code, unit, arg⟩ :: l.events).take 1024, gen2 := l.gen2 + 1 }).postAll 2 0 7 0 0xC2

/-- Appends an event whose argument the spec does not state: a free value (R860, log 79). -/
def Chip.logEv (c : Chip) (code unit : Nat) : Chip :=
  let (a, c) := c.free 64
  c.logEvent code unit a

/-- Appends an event whose unit the spec does not state either. -/
def Chip.logEv0 (c : Chip) (code : Nat) : Chip :=
  let (u, c) := c.free 16
  c.logEv code u

/-- Enters a range into the Lost LBA log (R859). -/
def Chip.logLost (c : Chip) (nsid cause slba nlb : Nat) : Chip :=
  c.modLog fun l => { l with
    lost := (⟨nsid, cause, slba, nlb, c.now⟩ :: l.lost).take 4095, lostTotal := l.lostTotal + 1, gen1 := l.gen1 + 1 }

/-- Available spare in percent: the lowest ratio over mounted packages (R854). -/
def Chip.availSpare (c : Chip) : Nat :=
  let r := fun (p : PkgSt) => if p.mounted then 100 * p.spare / max 1 p.spareInit else 100
  min 100 (min (r c.rs.pkg0) (r c.rs.pkg1))

/-- Tj in kelvin (R854). -/
def Chip.tjKelvin (c : Chip) : Nat := (divRound (c.rdS .assay Reg.ASSAY.TJ_T) 64 + 273).toNat

/-- One package alone serves the record store. -/
def Chip.onePackage (c : Chip) : Bool := c.rs.mounted && (c.rs.pkg0.mounted != c.rs.pkg1.mounted)

/-- The Critical Warning byte (R854). -/
def Chip.warningNow (c : Chip) : Nat :=
  let t := c.tjKelvin
  let hot := (List.range 16).any fun n =>
    (c.ctl n).rdy && (c.feat n 0x04 ≤ t || (c.feat n 0x10004 ≠ 0 && t ≤ c.feat n 0x10004))
  let cap := c.rd .sluice Reg.SLUICE.CAP_MEAS_UF
  let low := c.flag .sluice Reg.SLUICE.SLUICE_STAT_CAP_VALID && cap < 1000 * c.rd .sluice Reg.SLUICE.CAP_CFG_CAP_MIN_MF
  let ready := c.flag .sys Reg.SYS.BOOT_STAT_READY
  let late := ready && !c.flag .sluice Reg.SLUICE.SLUICE_STAT_CAP_VALID
    && c.rd .sys Reg.SYS.BOOT_TIME_TICKS + secs 60 ≤ c.now
  b2n (c.rs.mounted && c.availSpare < c.rd .rstore Reg.RSTORE.WEAR_CFG_SPARE_WARN) + 2 * b2n hot
    + 4 * b2n c.log.unreliable + 16 * b2n (low || late)

/-- A change of a Critical Warning bit posts a SMART event (R856). The running on one package stands until Sanitize (R854). -/
def Chip.updWarning (c : Chip) : Chip :=
  let c := if c.onePackage then c.modLog fun l => { l with unreliable := true } else c
  let w := c.warningNow
  let d := w ^^^ c.log.warning
  if d = 0 then c
  else
    let info := if bit d 0 then 2 else if bit d 1 then 1 else 0
    (c.modLog fun l => { l with warning := w }).postAll 1 d 1 info 0x02

/-- The host-visible marks of a lost or unrecoverable range (R121, R642, R854). -/
def Chip.lostRange (c : Chip) (nsid cause slba nlb : Nat) : Chip :=
  ((c.logLost nsid cause slba nlb).modLog fun l => { l with unreliable := true }).updWarning

end Sys2Proof.Machine
end

