-- ==== Sys2Proof/Machine/Zones.lean ====
section
/-!
DEFINITION. Namespaces, zones and their bindings; assembly of stripe rows; staging, acknowledgement and release of batches
(chapters 14, 15 and 16).
-/
namespace Sys2Proof.Machine

/-- Blocks of a zone, its capacity, and blocks of a row (R634, R689). -/
def zoneSize : Nat := 524288
def zoneCap : Nat := 393216
def rowBlocks : Nat := 192

/-! ## Look-up -/

/-- A namespace. -/
def Chip.ns? (c : Chip) (nsid : Nat) : Option NsSt := c.host.nss.find? fun n => n.nsid == nsid
/-- Changes a namespace. -/
def Chip.modNs (c : Chip) (nsid : Nat) (f : NsSt → NsSt) : Chip :=
  c.modHost fun h => { h with nss := h.nss.map fun n => if n.nsid = nsid then f n else n }
/-- A zone of a namespace; an absent one is Empty. -/
def NsSt.zone (n : NsSt) (z : Nat) : ZoneSt := (assocGet z n.zones).getD { st := .empty }
/-- A zone. -/
def Chip.zone (c : Chip) (nsid z : Nat) : ZoneSt :=
  match c.ns? nsid with
  | some n => n.zone z
  | none => { st := .empty }

/-- The zone is open, or active (R689). -/
def ZState.isOpen : ZState → Bool
  | .iOpen | .eOpen => true
  | _ => false
/-- The zone is active (R689). -/
def ZState.isActive : ZState → Bool
  | .iOpen | .eOpen | .closed => true
  | _ => false

/-- Zones of a namespace in states `f`. -/
def NsSt.countZones (n : NsSt) (f : ZState → Bool) : Nat := (n.zones.filter fun z => f z.2.st).length
/-- Zones of all namespaces in states `f`. -/
def Chip.countZones (c : Chip) (f : ZState → Bool) : Nat := (c.host.nss.map fun n => n.countZones f).sum

/-- ZONE_STAT (R730, R731). -/
def Chip.updZones (c : Chip) : Chip :=
  let a := c.countZones ZState.isActive
  let o := c.countZones ZState.isOpen
  if c.rd .cmd Reg.CMD.ZONE_STAT_ACTIVE = a ∧ c.rd .cmd Reg.CMD.ZONE_STAT_OPEN = o then c
  else ((c.put .cmd Reg.CMD.ZONE_STAT_ACTIVE a).put .cmd Reg.CMD.ZONE_STAT_OPEN o).event .cmd 0

/-- Sets a zone; an Empty one is not kept. -/
def Chip.setZone (c : Chip) (nsid z : Nat) (x : ZoneSt) : Chip :=
  (c.modNs nsid fun n => { n with zones := if x.st = .empty then assocDel z n.zones else assocSet z x n.zones }).updZones
/-- Changes a zone. -/
def Chip.modZone (c : Chip) (nsid z : Nat) (f : ZoneSt → ZoneSt) : Chip := c.setZone nsid z (f (c.zone nsid z))

/-- Changes the library. -/
def Chip.modLib (c : Chip) (f : LibSt → LibSt) : Chip := { c with lib := f c.lib }
/-- A polder. -/
def Chip.polder? (c : Chip) (id : Nat) : Option Polder := c.lib.polders.find? fun p => p.id == id

/-- ACT_STAT.STATE (R667). -/
def PState.code : PState → Nat
  | .opened => 1 | .closed => 2 | .degraded => 3 | .completing => 4 | .retired => 5

/-- Members that lag, as bits (R652). -/
def Polder.lagMask (p : Polder) : Nat := p.lag.foldl (fun a l => a ||| 2 ^ l.1) 0

/-- Positions whose disc is mounted (R667): the disc of the newest segment. -/
def Chip.mountedBits (c : Chip) (p : Polder) : Nat :=
  bitSet 8 fun d => match (p.segs.getD d []).getLast? with
    | some s => c.lib.mounted.toList.contains (some s.disc)
    | none => false

/-- The least advanced completion target (R667). -/
def Polder.compQ (p : Polder) : Nat :=
  match p.targets with
  | [] => 0
  | t :: r => r.foldl (fun a x => min a x.next) t.next

/-- What the active table's registers show of each entry (R667). -/
def Chip.actView (c : Chip) : List (List Nat) :=
  c.lib.active.map fun e => match (e.map c.polder?).join with
    | some p => [p.id, p.st.code, c.mountedBits p, p.lagMask, p.nextQ, p.compQ, p.targets.length]
    | none => []

/-- A change of the library that the active table may show: any change there is event 0 of POLDER (R667, R672). -/
def Chip.modAct (c : Chip) (f : LibSt → LibSt) : Chip :=
  if (c.modLib f).actView = c.actView then c.modLib f else (c.modLib f).event .polder 0

/-- Changes a polder. -/
def Chip.modPolder (c : Chip) (id : Nat) (f : Polder → Polder) : Chip :=
  c.modAct fun l => { l with polders := l.polders.map fun p => if p.id = id then f p else p }
/-- An inventory record (R644). -/
def Chip.inv (c : Chip) (slot : Nat) : InvRec := (assocGet slot c.lib.inv).getD {}
/-- Changes an inventory record. -/
def Chip.modInv (c : Chip) (slot : Nat) (f : InvRec → InvRec) : Chip :=
  c.modLib fun l => { l with inv := assocSet slot (f (c.inv slot)) l.inv }

/-- The library's changed polder goes to the partner where it is shared (R815). -/
def Chip.tellPolder (c : Chip) (id : Nat) : Chip :=
  match c.polder? id with
  | some p => if p.shared && c.flag .peer Reg.PEER.PAIR_STAT_LINK_UP then c.daxSend true 0x20 [3, id] else c
  | none => c

/-- The disc that holds row `q` of a position (R628). -/
def Polder.discOf (p : Polder) (pos q : Nat) : Option Nat :=
  (((p.segs.getD pos []).filter fun s => s.first ≤ q).getLast?).map (·.disc)
/-- The run table of a polder zone. -/
def Polder.runsOf (p : Polder) (z : Nat) : List RowRun := (assocGet z p.runs).getD []
/-- The row sequence number of a row of a polder zone (R635). -/
def Polder.rowQ (p : Polder) (z r : Nat) : Option Nat :=
  ((p.runsOf z).find? fun x => x.r ≤ r && r < x.r + x.n).map fun x => x.q + (r - x.r)

/-! ## The pair (R817, R831) -/

/-- The Daxlink is up (R818). -/
def Chip.linkUp (c : Chip) : Bool := c.flag .peer Reg.PEER.PAIR_STAT_LINK_UP
/-- A change of a shared table goes to the partner (R815, R829); the arguments are the model's own (log 102). -/
def Chip.tableUpdate (c : Chip) (arg : List Nat) : Chip := if c.linkUp then c.daxSend true 0x20 arg else c
/-- PAIR_STAT.STATE. -/
def Chip.pairState (c : Chip) : Nat := c.rd .peer Reg.PEER.PAIR_STAT_STATE
/-- The controller holds the lease. -/
def Chip.isHolder (c : Chip) : Bool := c.flag .peer Reg.PEER.PAIR_STAT_HOLDER
/-- State of an ANA group: 0 Optimized to 4 Change (R717, R843). -/
def Chip.ana (c : Chip) (g : Nat) : Nat :=
  if g = 3 then c.rd .peer Reg.PEER.PAIR_STAT_ANA_3 else if g = 4 then c.rd .peer Reg.PEER.PAIR_STAT_ANA_4 else 0
/-- The controller owns an ANA group. -/
def Chip.owns (c : Chip) (g : Nat) : Bool :=
  if g = 3 then c.flag .peer Reg.PEER.PAIR_STAT_OWN_3 else if g = 4 then c.flag .peer Reg.PEER.PAIR_STAT_OWN_4 else true
/-- ANA group of a namespace. -/
def Chip.group (c : Chip) (nsid : Nat) : Nat := ((c.ns? nsid).map (·.ana)).getD 2
/-- The namespace is shared by a pair (R717). -/
def Chip.shared (c : Chip) (nsid : Nat) : Bool := 3 ≤ c.group nsid

/-! ## Binding (R626, R690) -/

/-- A blank disc that no polder has reserved. -/
def InvRec.blank (r : InvRec) : Bool := r.state == 1 && r.media == 0 && r.polder == 0 && !r.reserved

/-- Library slots of blank unreserved discs. -/
def Chip.blanks (c : Chip) : List Nat := (c.lib.inv.filter fun e => e.2.blank).map (·.1)

/-- A choice among `n` that firmware's policy makes: a free value (log 83). -/
def Chip.policy (c : Chip) (n : Nat) : Nat × Chip :=
  let (x, c) := c.free 32
  (x % max 1 n, c)

/-- Enters a polder into the active table (R667); with no free entry it takes the place of one that is neither mounted nor
being worked on. -/
def Chip.activate (c : Chip) (id : Nat) : Chip :=
  if c.lib.active.contains (some id) then c
  else
    let busy := fun (e : Option Nat) =>
      match e with
      | none => false
      | some i =>
        match c.polder? i with
        | none => false
        | some p => p.st == .completing || !p.rows.isEmpty || c.lib.mounted.toList.any fun m =>
            match m with
            | some d => (c.inv d).polder == i
            | none => false
    let ix := match c.lib.active.findIdx? (·.isNone) with
      | some i => some i
      | none => c.lib.active.findIdx? fun e => !busy e
    match ix with
    | some i => (c.modLib fun l => { l with active := l.active.set i (some id) }).event .polder 0
    | none => c

/-- Logs that few blank discs are left, when a reservation crosses the bound (R860). -/
def Chip.blanksLow (c : Chip) (before : Nat) : Chip :=
  if 16 ≤ before ∧ c.blanks.length < 16 then c.logEv0 0x0012 else c

/-- Creates a polder of a namespace with 8 blank discs (R626, R690), none where they are missing. Which discs is policy. -/
def Chip.newPolder (c : Chip) (nsid : Nat) : Option Nat × Chip :=
  let bs := c.blanks
  if bs.length < 8 ∨ 2 ^ 32 ≤ c.rs.polderNext then (none, c)
  else
    let (k, c) := c.policy bs.length
    let discs := ((bs.drop k ++ bs.take k)).take 8
    let id := Config.serial.toNat % 2 ^ 32 * 2 ^ 32 + c.rs.polderNext
    let c := { c with rs := { c.rs with polderNext := c.rs.polderNext + 1 } }
    let c := discs.zipIdx.foldl (fun (c : Chip) d =>
      c.modInv d.1 fun r => { r with reserved := true, polder := id, position := d.2 }) c
    let c := c.modLib fun l => { l with
      polders := l.polders ++ [{ id := id, nsid := nsid, segs := discs.map fun d => [⟨d, 0⟩], shared := c.shared nsid }] }
    (some id, ((c.blanksLow bs.length).activate id).tellPolder id)

/-- A polder that takes a new zone of the namespace: an OPEN one with a free zone index, chosen by policy, or a new one
(R690). -/
def Chip.pickPolder (c : Chip) (nsid : Nat) : Option Nat × Chip :=
  let ok := c.lib.polders.filter fun p => p.nsid == nsid && p.recording && p.nextZone < 7450
  if ok.isEmpty then c.newPolder nsid
  else
    let (k, c) := c.policy ok.length
    (ok[k]?.map (·.id), c)

/-- Binds a zone to the lowest free polder zone index (R690). -/
def Chip.bindZone (c : Chip) (nsid z : Nat) : Option (Nat × Nat) × Chip :=
  match c.pickPolder nsid with
  | (none, c) => (none, c)
  | (some id, c) =>
    match c.polder? id with
    | none => (none, c)
    | some p =>
      (some (id, p.nextZone),
        (c.modPolder id fun p => { p with zones := p.zones ++ [(p.nextZone, z)], nextZone := p.nextZone + 1 }).tellPolder id)

/-! ## Opening a zone (R692) -/

/-- The Implicitly Opened zone of a namespace that was written least recently. -/
def NsSt.leastWritten (n : NsSt) : Option Nat :=
  ((n.zones.filter fun z => z.2.st == .iOpen).foldl (fun (best : Option (Nat × ZoneSt)) z =>
    match best with
    | none => some z
    | some b => if z.2.touched < b.2.touched then some z else some b) none).map (·.1)

/-- Opens an Empty, Closed or open zone, implicitly or explicitly, binding an Empty one; answers a status where it may not
(R689, R690, R692). -/
def Chip.openZone (c : Chip) (nsid z : Nat) (explicit : Bool) : Option (Nat × Nat) × Chip :=
  match c.ns? nsid with
  | none => (some (0, 0x0B), c)
  | some n =>
    let x := n.zone z
    if x.st.isOpen then (none, if explicit then c.modZone nsid z fun x => { x with st := .eOpen } else c)
    else if x.st = .empty ∧ (256 ≤ n.countZones ZState.isActive ∨ 1024 ≤ c.countZones ZState.isActive) then (some (1, 0xBD), c)
    else
      let full := 256 ≤ n.countZones ZState.isOpen
      let victim := n.leastWritten
      if full ∧ victim.isNone then (some (1, 0xBE), c)
      else
        let (b, c) := if x.st = .empty then c.bindZone nsid z else (x.bind, c)
        if b.isNone then (some (0, 0x81), c)
        else
          let c := if full then c.modZone nsid (victim.getD 0) fun x => { x with st := .closed } else c
          (none, c.modZone nsid z fun x => { x with st := if explicit then .eOpen else .iOpen, bind := b })

/-! ## Rows (R635, R636, R653) -/

/-- The next row of a zone that can be assembled and its first PAD offset (R634, R636). -/
def ZoneSt.ready (x : ZoneSt) : Option (Nat × Nat) :=
  let s := x.rowNext * rowBlocks
  if s + rowBlocks ≤ x.dataEnd then some (x.rowNext, rowBlocks)
  else if x.st = .full ∧ s < x.dataEnd then some (x.rowNext, x.dataEnd - s)
  else none

/-- The run table without row `r` (R756). -/
def dropRow (r : Nat) (l : List RowRun) : List RowRun :=
  l.flatMap fun x =>
    if x.r ≤ r ∧ r < x.r + x.n then
      (if x.r < r then [⟨x.q, x.r, r - x.r⟩] else []) ++ (if r + 1 < x.r + x.n then [⟨x.q + (r - x.r) + 1, r + 1, x.r + x.n - r - 1⟩] else [])
    else [x]

/-- The run table with row `r` recorded as `q` (R635). -/
def addRow (q r : Nat) (l : List RowRun) : List RowRun :=
  let l := dropRow r l
  match l.getLast? with
  | some x => if x.q + x.n = q ∧ x.r + x.n = r then l.dropLast ++ [{ x with n := x.n + 1 }] else l ++ [⟨q, r, 1⟩]
  | none => [⟨q, r, 1⟩]

/-- The polder takes new rows: it records, and few enough members lag (R653, R666). -/
def Chip.takesRows (c : Chip) (p : Polder) : Bool :=
  p.recording && p.lag.length ≤ (if c.flag .polder Reg.POLDER.POLDER_CTL_DEFER_EN then 2 else 0)

/-- A row of a polder zone takes the next row sequence number (R627, R635). Its discs are then recorded ones. -/
def Chip.putRow (c : Chip) (id pz r pad : Nat) : Chip :=
  match c.polder? id with
  | none => c
  | some p =>
    let q := p.nextQ
    let c := c.modPolder id fun p => { p with
      nextQ := q + 1, rows := p.rows ++ [{ q := q, zone := pz, r := r, skipped := p.lagMask, pad := pad }]
      runs := if pz < 7450 then assocSet pz (addRow q r (p.runsOf pz)) p.runs else p.runs }
    (List.range 8).foldl (fun (c : Chip) d =>
      match p.discOf d q with
      | some k => c.modInv k fun e => { e with media := if e.media = 0 then 1 else e.media, lastRow := q
                                               tRecorded := if e.tRecorded = 0 then c.wall else e.tRecorded }
      | none => c) (c.tellPolder id)

/-- The zone whose row is recorded next: the current one for up to 256 rows, else the next with a row (R636). -/
def Chip.nextZone (c : Chip) (p : Polder) : Option (Nat × Nat × Nat × Nat) :=
  let can := p.zones.filterMap fun z => ((c.zone p.nsid z.2).ready).map fun y => (z.1, z.2, y)
  let cur := can.find? fun z => z.1 == p.curZone
  let other := match can.find? (fun z => decide (p.curZone < z.1)) with
    | some z => some z
    | none => can.find? fun z => decide (z.1 < p.curZone)
  if p.curCount < 256 then (cur.or other) else (other.or cur)

/-- Assembles the rows that can be assembled, at most `fuel`. -/
def Chip.assembleN (id : Nat) : Nat → Chip → Chip
  | 0, c => c
  | fuel + 1, c =>
    match c.polder? id with
    | none => c
    | some p =>
      if !c.takesRows p then c
      else
        match c.nextZone p with
        | none => c
        | some (pz, z, r, pad) =>
          let c := (c.putRow id pz r pad).modZone p.nsid z fun x => { x with rowNext := r + 1 }
          let c := c.modPolder id fun p => { p with
            curZone := pz, curCount := if p.curZone = pz ∧ p.curCount < 256 then p.curCount + 1 else 1 }
          Chip.assembleN id fuel c

/-- Assembles every row of a polder that can be assembled. -/
def Chip.assemble (c : Chip) (id : Nat) : Chip :=
  match c.polder? id with
  | none => c
  | some p => (Chip.assembleN id ((p.zones.map fun z => (c.zone p.nsid z.2).dataEnd / rowBlocks + 1).sum) c).event .polder 0

/-! ## Batches (R753 to R756) -/

/-- Changes the sluice. -/
def Chip.modSluice (c : Chip) (f : SluiceSt → SluiceSt) : Chip := { c with sluice := f c.sluice }
/-- A batch. -/
def Chip.batch? (c : Chip) (id : Nat) : Option Batch := c.sluice.batches.find? fun b => b.id == id
/-- Changes a batch. -/
def Chip.modBatch (c : Chip) (id : Nat) (f : Batch → Batch) : Chip :=
  c.modSluice fun s => { s with batches := s.batches.map fun b => if b.id = id then f b else b }

/-- Charge of a batch in bytes (R753). -/
def Batch.charge (b : Batch) : Nat := if b.kind = 0 then 522488 + 64 else 4160 * b.nlb + 64
/-- A: the charges admitted and not yet released (R753). -/
def Chip.admitted (c : Chip) : Nat := ((c.sluice.batches.filter fun b => b.seq.isSome && !b.wt).map (·.charge)).sum
/-- The namespace is in write-through (R756, R757). -/
def Chip.nsWt (c : Chip) (nsid : Nat) : Bool :=
  c.flag .sluice Reg.SLUICE.SLUICE_CTL_WT_FORCE || c.sluice.wt.contains nsid
/-- Namespaces in write-through (R757, R767). -/
def Chip.wtCount (c : Chip) : Nat :=
  if c.flag .sluice Reg.SLUICE.SLUICE_CTL_WT_FORCE then (c.host.nss.filter (·.std)).length else c.sluice.wt.length

/-- The status registers of the sluice (R767, R844). -/
def Chip.updSluice (c : Chip) : Chip :=
  let p : Page := .sluice
  let a := c.admitted
  let waits := c.sluice.batches.any fun b => b.seq.isNone && !b.wt
  let v := [(Reg.SLUICE.ADMITTED_KIB, divUp a 1024), (Reg.SLUICE.BUDGET_KIB, c.sluice.budget / 1024),
    (Reg.SLUICE.SLUICE_STAT_WAITING, b2n waits), (Reg.SLUICE.SLUICE_STAT_WT_ACTIVE, b2n (c.wtCount != 0)),
    (Reg.SLUICE.SLUICE_STAT_SHORT, b2n (decide (c.sluice.bMax < a))), (Reg.SLUICE.SLUICE_STAT_TESTING, b2n c.sluice.test.isSome),
    (Reg.SLUICE.SLUICE_STAT_WT_COUNT, c.wtCount)]
  let ch := v.any fun e => c.rd p e.1 != e.2
  let c := v.foldl (fun (c : Chip) e => c.put p e.1 e.2) c
  let c := c.put .peer Reg.PEER.MIRROR_STAT_UNMIRRORED
    (min 65535 (c.sluice.batches.filter fun b => b.seq.isSome && !b.mirrored).length)
  if ch then c.event p 0 else c

/-- The write pointer that the record store holds: up to the first block of a batch that has neither been released nor
acknowledged from the media (R870). -/
def Chip.recordPtr (c : Chip) (nsid z : Nat) : Chip :=
  let x := c.zone nsid z
  if x.st = .empty then c
  else
    let open' := (c.sluice.batches.filter fun b => b.nsid == nsid && b.zone == z && b.staged).map (·.ofs)
    c.modZone nsid z fun x => { x with wpRec := open'.foldl min x.wp }

/-- A flush record none of whose batches is charged any more is retired (R119). -/
def Chip.retireFlush (c : Chip) : Chip :=
  let live := fun (n : Nat) => c.sluice.batches.any fun b => b.replay == some n
  let done := fun (f : FlushRec) => !f.retired && !(c.rs.recover.any fun w => w.flush == some f.seq) && !live f.seq && c.rs.replayed
  if c.rs.flushes.any done then
    let c := { c with rs := { c.rs with flushes := c.rs.flushes.map fun f => if done f then { f with retired := true } else f } }
    if c.rs.flushes.all (·.retired) then c.put .rstore Reg.RSTORE.JOURNAL_STAT_RETIRED 1 else c
  else c

/-- The half for the next flush (R759): one without a complete record that is not retired; where both qualify, the one that
the newest record does not occupy; the lower half before any record. -/
def RStore.nextHalf (r : RStore) : Nat :=
  let used := fun (h : Nat) => r.flushes.any fun f => f.half == h && f.complete && !f.retired
  match used 0, used 1 with
  | true, _ => 1
  | false, true => 0
  | false, false =>
    match r.flushes.getLast? with
    | some f => 1 - f.half
    | none => 0

/-- Firmware sets what the always-on island keeps for the next flush (R759). -/
def Chip.setAonHalf (c : Chip) : Chip :=
  { c with rs := { c.rs with
      aonPkgs := b2n c.rs.pkg0.mounted + 2 * b2n c.rs.pkg1.mounted, aonHalf := c.rs.nextHalf } }

/-- A batch leaves the sluice: its charge is released (R754). -/
def Chip.dropBatch (c : Chip) (id : Nat) : Chip :=
  match c.batch? id with
  | none => c
  | some b =>
    let c := c.modSluice fun s => { s with batches := s.batches.filter fun b => b.id != id }
    let c := if b.staged then c.recordPtr b.nsid b.zone else c
    (c.retireFlush.setAonHalf).updSluice

/-- The command of a batch completes with success; a Zone Append returns its LBA (R694). -/
def Chip.ackBatch (c : Chip) (id : Nat) : Chip :=
  match c.batch? id with
  | none => c
  | some b =>
    match b.slot with
    | none => c
    | some slot =>
      let lba := b.zone * zoneSize + b.ofs
      let c := (c.modBatch id fun b => { b with slot := none }).modLog fun l => { l with blocksWritten := l.blocksWritten + b.nlb }
      c.complete slot fun k => if b.kind = 3 then { k with dw0 := lba % 2 ^ 32, dw1 := lba / 2 ^ 32 } else k

/-- Passes a batch to the partner in MIRROR_DATA frames of up to 3 whole blocks each (R815, R819; the split is log 102). -/
def Chip.mirrorSend (c : Chip) (b : Batch) : Chip :=
  let c := c.modBatch b.id fun b => { b with sent := true, mirrored := false }
  (List.range (divUp b.nlb 3)).foldl (fun (c : Chip) i =>
    c.daxSend true 0x10 [b.seq.getD 0, b.kind, b.nsid, b.zone, b.ofs, b.nlb, 0, min 3 (b.nlb - 3 * i)]) c

/-- A staged shared batch of a controller in SPLIT_NONHOLDER or FENCED ends with Asymmetric Access Transition, and its charge is
released (R834, R836). -/
def Chip.refuseBatch (c : Chip) (b : Batch) : Chip :=
  let c := (c.modBatch b.id fun b => { b with slot := none }).dropBatch b.id
  match b.slot with
  | some s => c.fail s 3 0x03 false
  | none => c

/-- A staged batch is passed to the peer island, or acknowledged where the link is not up (R819, R821, R834). A batch in
write-through waits for its rows (R756). -/
def Chip.mirrorBatch (c : Chip) (id : Nat) : Chip :=
  match c.batch? id with
  | none => c
  | some b =>
    let wait := fun (c : Chip) (p : CmdPhase) =>
      match b.slot with
      | some s => c.setPhase s p
      | none => c
    if b.wt then wait c .verify
    else if c.linkUp then wait (c.mirrorSend b) .mirror
    else if c.shared b.nsid && !(c.pairState == 3 && c.isHolder) then
      (if c.pairState = 4 ∨ c.pairState = 5 then c.refuseBatch b else wait c .mirror)
    else c.ackBatch id

/-- A batch whose rows are all verified (R754, R756, R822). -/
def Chip.verifiedBatch (c : Chip) (id : Nat) : Chip :=
  match c.batch? id with
  | none => c
  | some b =>
    if b.wt then (c.ackBatch id).dropBatch id
    else if c.linkUp && b.sent then
      if b.releasing then c
      else (c.modBatch id fun b => { b with releasing := true }).daxSend false 0x12 [b.seq.getD 0]
    else (c.ackBatch id).dropBatch id

/-- Offsets `[a, e)` of a polder zone's row `r` are verified: the batches that hold them lose the row (R754). -/
def Chip.rowDone (c : Chip) (nsid z r pad : Nat) : Chip :=
  let inRow := fun (b : Batch) => b.nsid == nsid && b.zone == z && b.staged && b.rows.contains r
    && decide (min (b.ofs + b.nlb) ((r + 1) * rowBlocks) ≤ r * rowBlocks + pad)
  let hit := c.sluice.batches.filter inRow
  let c := c.modSluice fun s => { s with
    batches := s.batches.map fun b => if inRow b then { b with rows := b.rows.filter (· != r) } else b }
  hit.foldl (fun (c : Chip) b =>
    match c.batch? b.id with
    | some b' => if b'.rows.isEmpty then c.verifiedBatch b.id else c
    | none => c) c

/-- The rows of a polder that every member which does not lag has verified (R653). -/
def Chip.settleRows (c : Chip) (id : Nat) : Chip :=
  match c.polder? id with
  | none => c
  | some p =>
    let ok := fun (x : RowSt) => (x.got ||| x.skipped ||| p.lagMask) % 65536 == 65535
    let done := p.rows.filter ok
    let c := c.modPolder id fun p => { p with rows := p.rows.filter fun x => !ok x }
    done.foldl (fun (c : Chip) x =>
      match p.zones.find? (fun z => z.1 == x.zone) with
      | some z => c.rowDone p.nsid z.2 x.r x.pad
      | none => c) c

/-- A member reports its ingot of a row verified (R390, R653). -/
def Chip.ingotVerified (c : Chip) (i : IngotRef) : Chip :=
  let c := c.modPolder i.polder fun p => { p with
    rows := p.rows.map fun x => if x.zone = i.zone ∧ x.r = i.row then { x with got := x.got ||| 2 ^ i.member } else x }
  c.settleRows i.polder

/-! ## Lost batches (R121) -/

/-- A zone becomes Offline: the Changed Zone List and its event (R692). -/
def Chip.offlineZone (c : Chip) (nsid z : Nat) : Chip :=
  let c := c.modZone nsid z fun x => { x with st := .offline }
  (List.range 16).foldl (fun (c : Chip) n =>
    if bit (((c.ns? nsid).map (·.attached)).getD 0) n then
      (c.modCtl n fun x => { x with changedZones := (nsid, z * zoneSize) :: x.changedZones }).postEvent n 7 0 2 0xEF 0xBF
    else c) c

/-- A batch is lost (R121): its zone is made Offline, JOURNAL_STAT.LOST and the critical warning are set, its range is logged
and BATCH_LOST sent. -/
def Chip.loseBatch (c : Chip) (nsid z ofs nlb : Nat) : Chip :=
  let c := (c.offlineZone nsid z).put .rstore Reg.RSTORE.JOURNAL_STAT_LOST 1
  let c := (c.modLog fun l => { l with mediaErrors := l.mediaErrors + nlb }).fault0 .rstore 3 1 2
  c.lostRange nsid 3 (z * zoneSize + ofs) nlb

end Sys2Proof.Machine
end

