-- ==== Sys2Proof/Machine/Mgmt.lean ====
section
/-!
DEFINITION. The management processors: watchdog, warm restart and what follows it (R43 to R48).
-/
namespace Sys2Proof.Machine

/-- Changes the management processors. -/
def Chip.modMgmt (c : Chip) (f : MgmtState → MgmtState) : Chip := { c with mgmt := f c.mgmt }

/-- A new watchdog period starts (R43); none runs before the island's first release or while EN is 0. -/
def Chip.wdogPeriod (c : Chip) : Chip :=
  c.modMgmt fun m => { m with
    wdogStart := if c.isl.mgmtOnce && c.isl.mgmtReleased && c.flag .sys Reg.SYS.WDOG_CTL_EN then some c.now else none }

/-- Ticks of the watchdog period (R44). -/
def Chip.wdogTicks (c : Chip) : Nat := ms (clampN 10 10000 (c.rd .sys Reg.SYS.WDOG_CTL_TIMEOUT_MS))

/-- A warm restart ends the management requester's submitted global commit and clears its other arms (R46). -/
def Chip.mgmtArms (c : Chip) : Chip :=
  let sub := c.submitted .mgmt
  let arms := c.armedPages .mgmt
  let c := if (c.rq .mgmt).gcState = 1 then sub.foldl Chip.activeToShadow (c.endGlobal .mgmt 4) else c
  arms.foldl Chip.disarm c

/-- A calibration store in progress starts again from its first step (R617). -/
def Chip.restartStore (c : Chip) : Chip :=
  match c.sluice.calStore with
  | some k => ((c.modSluice fun s => { s with calStore := none }).modAssay fun a => { a with
    storeReq := true, changed := some (a.changed.getD c.now) }).dropBatch k.batch
  | none => c

/-- A warm restart of the management island (R45, R46, R168); `cause` 0 the watchdog, 1 a request, 2 a firmware activation
(R863), 3 a poisoned word of its region (R738; log 81). Commands of firmware stay held (R47). -/
def Chip.warmRestart (c : Chip) (cause : Nat) : Chip :=
  let c := c.mgmtArms
  let c := allPages.foldl (fun c p => if c.frozen p then c else c.activeToShadow p) c
  let c := c.freeLocks .mgmt
  let c := c.inc .sys Reg.SYS.WDOG_CTL_RESTART_COUNT
  let c :=
    if cause = 0 then (c.put .sys Reg.SYS.RESET_CAUSE_WDOG 1).fault0 .sys 4 1 1
    else if cause = 1 then (c.put .sys Reg.SYS.RESET_CAUSE_MGMT_REQ 1).fault0 .sys 4 2 0
    else c.fault0 .sys 4 2 0
  let c := c.modMgmt fun m => { m with
    wdogStart := none, restarting := true, resumed := false, lastRestart := c.now
    fires := if cause = 0 then (c.now :: m.fires).take 2 else m.fires }
  let c := { c.restartStore with rs := { c.rs with asked := false, recover := c.rs.recover.filter fun w => w.flush.isNone } }
  c.logEv0 0x000F

/-- R43. -/
def execWatchdogKick (r : Requester) (s : State) : Out := s.to fun c => c.write r .sys Chip.wdogPeriod

/-- R43, R44: a write of WDOG_CTL that sets EN from 0 to 1 or changes TIMEOUT_MS starts a new period; EN 0 ends it. -/
def Chip.wdogConfig (c : Chip) (en : Bool) (timeout : Nat) : Chip :=
  let start := (en && !c.flag .sys Reg.SYS.WDOG_CTL_EN) || c.rd .sys Reg.SYS.WDOG_CTL_TIMEOUT_MS != timeout
  let c := (c.putB .sys Reg.SYS.WDOG_CTL_EN en).put .sys Reg.SYS.WDOG_CTL_TIMEOUT_MS timeout
  if start || !en then c.wdogPeriod else c

/-- R43. -/
def execWatchdogConfigWrite (r : Requester) (en : Bool) (timeoutMs : BitVec 16) (s : State) : Out :=
  s.to fun c => c.write r .sys fun c => c.wdogConfig en timeoutMs.toNat

/-- R43: the period ends unkicked. -/
def execWatchdogExpiry (s : State) : Out :=
  s.to fun c =>
    match c.mgmt.wdogStart with
    | some t => (c.until' (t + c.wdogTicks)).warmRestart 0
    | none => c

/-- WDOG_CTL.RESTART: no effect before the island's first release (R43, R44). -/
def Chip.restartRequest (c : Chip) : Chip := if c.isl.mgmtOnce && c.isl.mgmtReleased then c.warmRestart 1 else c

/-- R44. -/
def execMgmtRestartRequest (r : Requester) (s : State) : Out := s.to fun c => c.write r .sys Chip.restartRequest

/-- R43: the cores execute again, within 5 ms, and a new period starts. -/
def execMgmtCoresResume (s : State) : Out :=
  s.to fun c =>
    if c.mgmt.restarting && c.isl.mgmtReleased then
      (c.modMgmt fun m => { m with restarting := false }).wdogPeriod
    else c

/-- An admin command that firmware executes again from its start (R47): it has begun and is no Format, Sanitize, Keep Alive
or Asynchronous Event Request. -/
def Cmd.repeated (k : Cmd) : Bool :=
  k.sq == 0 && k.begun && k.phase != .event && k.sqe.opc != 0x80 && k.sqe.opc != 0x84

/-- Each held admin command returns to its start (R47). -/
def Chip.repeatAdmin (c : Chip) : Chip :=
  c.modHost fun h => { h with
    slots := h.slots.map fun x => if x.2.repeated then (x.1, { x.2 with phase := .fetched, begun := false }) else x }

/-- The activation whose warm restart has run completes (R863, step 6). -/
def Chip.activationDone (c : Chip) : Chip :=
  match c.host.activation with
  | some a =>
    let c := (List.range 16).foldl (fun (c : Chip) n => c.modCtl n fun x => { x with pp := false }) c
    let c := c.modHost fun h => { h with activation := none, lastActivation := some a.at' }
    let c := match a.cmd with
      | some slot => c.complete slot id
      | none => c
    c.logEv0 0x0010
  | none => c

/-- R47: firmware resumes admin command processing within 250 ms of the watchdog's firing. -/
def execAdminResume (s : State) : Out :=
  s.to fun c =>
    if c.isl.mgmtReleased && !c.mgmt.restarting && !c.mgmt.resumed then
      ((c.modMgmt fun m => { m with resumed := true }).activationDone).repeatAdmin
    else c

end Sys2Proof.Machine
end

