-- ==== Sys2Proof/Machine/Protect.lean ====
section
/-!
DEFINITION. End-to-end protection information and the encryption of blocks (R686, R705 to R708).
-/
namespace Sys2Proof.Machine

/-- The `n` low bytes of `v`, most significant first. -/
def beBytes (n v : Nat) : List Byte := (bytesLE n v).reverse
/-- The number that bytes spell, most significant first. -/
def natBE (l : List Byte) : Nat := l.foldl (fun a b => a * 256 + b.toNat) 0
/-- The number that bytes spell, least significant first. -/
def natLE (l : List Byte) : Nat := natBE l.reverse

/-- A block of zeros with `m` metadata bytes. -/
def zeroBlock (m : Nat) : Block := ⟨List.replicate 4096 0, List.replicate m 0⟩

/-- Metadata bytes of an LBA format (R686). -/
def lbafMd (f : Nat) : Nat := if f = 1 then 8 else if f = 2 then 16 else 0

/-- Protection type of a namespace: 0 none, 1 or 3 (R686). -/
def NsSt.piType (n : NsSt) : Nat := if n.lbaf = 0 then 0 else n.dps % 8

/-- The protection fields of a command: PRACT, PRCHK, reference tag, application tag and its mask (R705). -/
structure PiCmd where
  act : Bool
  guard : Bool
  app : Bool
  ref : Bool
  ilbrt : Nat
  lbat : Nat
  mask : Nat
  deriving DecidableEq, Repr

/-- Protection fields from CDW3, CDW12, CDW14 and CDW15 (NVMe NVM Command Set, PRESUMED, log 84). -/
def Sqe.pi (q : Sqe) : PiCmd :=
  { act := q.cdw12.toNat.testBit 29, guard := q.cdw12.toNat.testBit 28, app := q.cdw12.toNat.testBit 27
    ref := q.cdw12.toNat.testBit 26, ilbrt := q.cdw14.toNat + q.cdw3.toNat % 2 ^ 16 * 2 ^ 32
    lbat := q.cdw15.toNat % 2 ^ 16, mask := q.cdw15.toNat / 2 ^ 16 }

/-- Width in bits of the reference tag of a format. -/
def refBits (f : Nat) : Nat := if f = 2 then 48 else 32

/-- The guard of a block's data in a format (R705). -/
def guardOf (f : Nat) (data : List Byte) : Nat := crc (if f = 2 then crc64 else crc16) (data.map (·.toNat))

/-- The protection information of a block: guard, application tag and reference tag, each most significant byte first. -/
def piBytes (f guard app ref : Nat) : List Byte :=
  if f = 2 then beBytes 8 guard ++ beBytes 2 app ++ beBytes 6 ref else beBytes 2 guard ++ beBytes 2 app ++ beBytes 4 ref

/-- Guard, application tag and reference tag of protection information. -/
def piFields (f : Nat) (md : List Byte) : Nat × Nat × Nat :=
  if f = 2 then (natBE (md.take 8), natBE ((md.drop 8).take 2), natBE ((md.drop 10).take 6))
  else (natBE (md.take 2), natBE ((md.drop 2).take 2), natBE ((md.drop 4).take 4))

/-- Counts a failed check in PI_ERR and answers its status code (R725, R729). -/
def Chip.piErr (c : Chip) (sc : Nat) : Chip :=
  c.statAdd .host (if sc = 0x82 then Reg.HOST.PI_ERR_GUARD else if sc = 0x83 then Reg.HOST.PI_ERR_APP else Reg.HOST.PI_ERR_REF) 1

/-- The check of one block, whose reference tag should be `ref` (R705). Type 1 skips a block with application tag 0xFFFF,
Type 3 one whose reference tag is all ones too; Type 3 checks no reference tag. -/
def piCheck (t f : Nat) (q : PiCmd) (b : Block) (ref : Nat) : Option Nat :=
  let (g, a, r) := piFields f b.md
  if a = 0xFFFF ∧ (t = 1 ∨ r = 2 ^ refBits f - 1) then none
  else if q.guard ∧ g ≠ guardOf f b.data then some 0x82
  else if q.app ∧ (a &&& q.mask) ≠ (q.lbat &&& q.mask) then some 0x83
  else if q.ref ∧ t = 1 ∧ r ≠ ref then some 0x84
  else none

/-- Hallmark instance of a host transfer: engine, direction, guard width (R769). -/
def hostHall (engineB read wide : Bool) : HallNo :=
  match engineB, read, wide with
  | false, false, false => 96
  | false, false, true => 97
  | false, true, false => 98
  | false, true, true => 99
  | true, false, false => 100
  | true, false, true => 101
  | true, true, false => 102
  | true, true, true => 103

/-- Reference tag of block `i`: it follows the block in Type 1 and stays in Type 3. -/
def refAt (t f base i : Nat) : Nat := (if t = 1 then base + i else base) % 2 ^ refBits f

/-- Protection on receipt of a write's blocks (R705, R706): PRACT inserts, otherwise PRCHK checks; a Zone Append on a Type 1
namespace has its reference tags replaced by those from `lba`. Answers the blocks to store, or the failing status. -/
def Chip.piReceive (c : Chip) (n : NsSt) (q : PiCmd) (append engineB : Bool) (lba : Nat) (bs : List Block) :
    Chip × Sum Nat (List Block) :=
  let t := n.piType
  let f := n.lbaf
  if t = 0 then (c, .inr bs)
  else
    let hall := fun (c : Chip) (ok : Option Bool) (b : Block) => c.hallMessage (hostHall engineB false (f = 2)) (guardOf f b.data) ok
    bs.zipIdx.foldl (fun (a : Chip × Sum Nat (List Block)) bi =>
      match a.2 with
      | .inl _ => a
      | .inr done =>
        let ref := refAt t f q.ilbrt bi.2
        let stored := if append ∧ t = 1 then refAt t f lba bi.2 else ref
        if q.act then
          (hall a.1 none bi.1, .inr (done ++ [{ bi.1 with md := piBytes f (guardOf f bi.1.data) q.lbat stored }]))
        else
          let (g, ap, r) := piFields f bi.1.md
          let c := hall a.1 (some (!q.guard || g == guardOf f bi.1.data)) bi.1
          match piCheck t f q bi.1 ref with
          | some sc => (c.piErr sc, .inl sc)
          | none => (c, .inr (done ++ [if append ∧ t = 1 then { bi.1 with md := piBytes f g ap stored } else { bi.1 with md := piBytes f g ap r }])))
      (c, .inr [])

/-- Protection on the stored metadata of a read's blocks (R705); a block that was never written fails any check that is
asked for (R696). PRACT strips. Blocks come with whether they were written. -/
def Chip.piSend (c : Chip) (n : NsSt) (q : PiCmd) (engineB : Bool) (bs : List (Block × Bool)) : Chip × Sum Nat (List Block) :=
  let t := n.piType
  let f := n.lbaf
  let out := fun (b : Block) => if q.act ∧ t ≠ 0 then { b with md := [] } else b
  if t = 0 then (c, .inr (bs.map (·.1)))
  else
    bs.zipIdx.foldl (fun (a : Chip × Sum Nat (List Block)) bi =>
      match a.2 with
      | .inl _ => a
      | .inr done =>
        let b := bi.1.1
        let (g, _, _) := piFields f b.md
        let bad := if bi.1.2 then piCheck t f q b (refAt t f q.ilbrt bi.2)
          else if q.guard then some 0x82 else if q.app then some 0x83 else if q.ref then some 0x84 else none
        let c := a.1.hallMessage (hostHall engineB true (f = 2)) (guardOf f b.data) (some (!q.guard || g == guardOf f b.data))
        match bad with
        | some sc => (c.piErr sc, .inl sc)
        | none => (c, .inr (done ++ [out b])))
      (c, .inr [])

/-- The blocks from `lba` under the namespace's key, as staging and the record store hold them (R42, R707). -/
def NsSt.encrypt (n : NsSt) (lba : Nat) (bs : List Block) : List Block :=
  bs.zipIdx.map fun b => { b.1 with data := Config.xtsEncrypt n.key (lba + b.2) b.1.data }
/-- One block at `lba` decrypted (R707). -/
def NsSt.decrypt (n : NsSt) (lba : Nat) (b : Block) : Block := { b with data := Config.xtsDecrypt n.key lba b.data }

/-- The reference tag of a Type 1 command does not follow its LBA (NVMe, PRESUMED, log 84; R706 for a Zone Append). -/
def NsSt.badRef (n : NsSt) (q : PiCmd) (lba : Nat) : Bool :=
  n.piType == 1 && (q.act || q.ref) && q.ilbrt % 2 ^ refBits n.lbaf != lba % 2 ^ refBits n.lbaf

end Sys2Proof.Machine
end

