-- ==== Sys2Proof/Machine/Records.lean ====
section
/-!
DEFINITION. The records whose format names its own check value: the flush record, and a copy of the calibration set with its validity
word (R612, R613, R759). They pass a record-store hallmark instance (R769).
-/
namespace Sys2Proof.Machine

/-- CRC-64 of a message, as the fixed setting of the record-store instances gives it (R775). -/
def recordCrc (m : List Byte) : Nat := crc crc64 (m.map (·.toNat))

/-- A message with its CRC-64, least significant byte first (R774). -/
def withCrc (m : List Byte) : List Byte := m ++ bytesLE 8 (recordCrc m)

/-- The messages of a record written to the packages of `pkgs`, a bit for each: every one passes the program instance of each channel. -/
def Chip.programs (c : Chip) (pkgs : Nat) (ms : List (List Byte)) : Chip :=
  (([0, 1] : List (Fin 2)).filter fun k => bit pkgs k.val).foldl (fun (c : Chip) k =>
    let n : HallNo := if k = 0 then 108 else 110
    ms.foldl (fun (c : Chip) m => c.hallMessage n (c.hallValue n (m.map (·.toNat))) none) c) c

/-- The packages that take programs, as bits (R115). -/
def Chip.pkgBits (c : Chip) : Nat := b2n c.rs.pkg0.mounted + 2 * b2n c.rs.pkg1.mounted

/-! ## The flush record (R759) -/

/-- Bytes 0 to 55 of the header: FLUSH_SEQ, timebase at t0 and the batches to follow. -/
def flushHeader (seq tb : Nat) (bs : List Batch) : List Byte :=
  bytesLE 4 0x4A464C4E ++ bytesLE 2 0x0100 ++ bytesLE 2 0 ++ bytesLE 8 seq ++ bytesLE 8 tb ++ bytesLE 4 bs.length ++ bytesLE 4 0
    ++ bytesLE 8 ((bs.map (·.charge)).sum) ++ bytesLE 16 0

/-- A block as staged, 4,160 bytes. The fields that name the place of recording stand at 0, since no ingot holds it yet (DESIGN CHOICE:
R759 says only 'as R206 and R207', log 191). -/
def Batch.blockBytes (b : Batch) (i : Nat) (x : Block) : List Byte :=
  let user := (x.data ++ List.replicate 4096 0).take 4096
  let md := ({ hostMd := x.md, lba := b.zone * zoneSize + b.ofs + i, nsid := b.nsid, keyTag := b.keyTag, row := 0 } : SectorMeta).bytes 0 0
  user ++ md ++ bytesLE 4 (crc crc32c ((user ++ md).map (·.toNat)))

/-- The data of a batch. -/
def Batch.dataBytes (b : Batch) : List Byte := b.data.zipIdx.flatMap fun e => b.blockBytes e.2 e.1

/-- Bytes 0 to 55 of a batch's descriptor. -/
def Batch.descBytes (b : Batch) : List Byte :=
  bytesLE 8 (b.seq.getD 0) ++ bytesLE 4 b.nsid ++ bytesLE 4 b.nlb ++ bytesLE 8 (b.zone * zoneSize + b.ofs) ++ bytesLE 4 b.keyTag
    ++ bytesLE 1 b.kind ++ bytesLE 3 0 ++ bytesLE 8 (b.zone * zoneSize) ++ bytesLE 8 0 ++ bytesLE 8 (recordCrc b.dataBytes)

/-- Bytes 0 to 55 of the end marker. -/
def flushEnd (seq n : Nat) : List Byte := bytesLE 4 0x454A4C4E ++ bytesLE 8 seq ++ bytesLE 4 n ++ bytesLE 40 0

/-- The messages of a flush of `bs` that writes the batches of `out`: header, data and descriptor of each, and the end marker where the
flush ends complete. -/
def flushMessages (seq tb : Nat) (bs out : List Batch) (complete : Bool) : List (List Byte) :=
  flushHeader seq tb bs :: (out.flatMap fun b => [b.dataBytes, b.descBytes]) ++ (if complete then [flushEnd seq bs.length] else [])

/-- A complete flush record as it stands in the journal. -/
def flushRecord (seq tb : Nat) (bs : List Batch) : List Byte :=
  withCrc (flushHeader seq tb bs) ++ (bs.flatMap fun b => withCrc b.descBytes ++ b.dataBytes) ++ withCrc (flushEnd seq bs.length)

/-! ## The calibration set (R612, R613) -/

/-- Block `i` of point `k`: 272 words (R612). -/
def CalCopy.blockBytes (x : CalCopy) (k i : Nat) : List Byte :=
  (List.range 272).flatMap fun w => bytesLE 4 (Sparse.get (calDefault w) x.cal ((k * 80 + i) * 272 + w)).toNat

/-- Bytes 0 to 522,479 of a copy. -/
def CalCopy.body (x : CalCopy) : List Byte :=
  bytesLE 4 0x54534C4E ++ bytesLE 2 0x0100 ++ bytesLE 2 6 ++ bytesLE 4 x.seq ++ bytesLE 4 522488 ++ bytesLE 4 x.hours ++ bytesLE 44 0
    ++ ((List.range 16).flatMap fun h => bytesLE 4 ((assocGet h x.opuIds).getD 0).toNat ++ bytesLE 4 0)
    ++ ((List.range 6).flatMap fun k => bytesLE 2 (toBits 16 (calPoints.getD k 0 / 64)) ++ bytesLE 6 0
        ++ ((List.range 80).flatMap fun i => x.blockBytes k i))

/-- A stored copy: the body and CHECK. -/
def CalCopy.record (x : CalCopy) : List Byte := withCrc x.body

/-- Its validity word of 16 bytes: signature, SEQ and CHECK. -/
def CalCopy.validity (x : CalCopy) : List Byte := bytesLE 4 0x56434C4E ++ bytesLE 4 x.seq ++ bytesLE 8 (recordCrc x.body)

/-- A copy is valid where a package that takes programs holds it with a right CHECK: one whose instance inverted the value (R781) does
not. -/
def Chip.calHolds (c : Chip) : Bool :=
  (c.rs.pkg0.mounted && !(c.hallU 108).parity) || (c.rs.pkg1.mounted && !(c.hallU 110).parity)

/-- A copy is read at the mount from every package that is mounted (R769). -/
def Chip.calRead (c : Chip) (x : Option CalCopy) : Chip :=
  match x with
  | some x =>
    let v := recordCrc x.body
    let c := if c.rs.pkg0.mounted then c.hallMessage 109 v (some true) else c
    if c.rs.pkg1.mounted then c.hallMessage 111 v (some true) else c
  | none => c

end Sys2Proof.Machine
end

