-- ==== Sys2Proof/Machine/Sluice.lean ====
section
/-!
DEFINITION. The sluice: measurement of the hold-up bank, admission, the start of writes, write-through, the capacitance test and
the calibration store (R614 to R617, R694, R695, R749 to R757).
-/
namespace Sys2Proof.Machine

/-! ## The start of writes (R694, R695) -/

/-- Bytes of the write-through region (R733). -/
def wtRegion : Nat := 2 ^ 30

/-- The command of a batch has begun its data transfer. -/
def Chip.inDma (c : Chip) (b : Batch) : Bool :=
  match b.slot with
  | some s => ((c.cmdAt s).map (·.phase)) == some .dma
  | none => false

/-- Bytes of the write-through region in use (R756). -/
def Chip.wtUsed (c : Chip) : Nat := ((c.sluice.batches.filter fun b => b.wt && (b.staged || c.inDma b)).map (·.charge)).sum

/-- A batch leaves with its command's failure (R695). -/
def Chip.failBatch (c : Chip) (id sct sc : Nat) : Chip :=
  match c.batch? id with
  | none => c
  | some b =>
    let c := (c.modBatch id fun b => { b with slot := none }).dropBatch id
    match b.slot with
    | some s => c.fail s sct sc (sc != 0x08 && sc != 0x07 && sc != 0x04)
    | none => c

/-- The status that a write meets at the start of its data transfer, none where it may run (R694, R695). -/
def Chip.writeStatus (c : Chip) (b : Batch) : Option (Nat × Nat) :=
  let x := c.zone b.nsid b.zone
  if x.st = .offline then some (1, 0xBB)
  else if x.st = .full then some (1, 0xB9)
  else
    let ofs := if b.kind = 3 then x.wp else b.ofs
    if zoneCap < ofs + b.nlb then some (1, 0xB8)
    else if ofs ≠ x.wp then some (1, 0xBC)
    else none

/-- A batch is staged: its blocks lie in staging as ciphertext, the write pointer advances, its rows are assembled, and it is
mirrored or acknowledged (R42, R635, R694, R819). -/
def Chip.stageBatch (c : Chip) (id : Nat) (bs : List Block) : Chip :=
  match c.batch? id with
  | none => c
  | some b =>
    match c.ns? b.nsid with
    | none => c
    | some n =>
      let x := n.zone b.zone
      let wp := b.ofs + b.nlb
      let rows := (List.range (wp / rowBlocks + 1)).filter fun r => b.ofs / rowBlocks ≤ r ∧ r * rowBlocks < wp
      let c := c.modBatch id fun b => { b with
        data := n.encrypt (b.zone * zoneSize + b.ofs) bs, staged := true, rows := rows, keyTag := n.keyTag }
      let c := c.setZone b.nsid b.zone { x with
        wp := wp, dataEnd := wp, touched := c.host.touchSeq, lastAt := c.now, st := if wp = zoneCap then .full else x.st }
      let c := c.modHost fun h => { h with touchSeq := h.touchSeq + 1 }
      let c := c.mirrorBatch id
      match x.bind with
      | some (p, _) => c.assemble p
      | none => c

/-- The next write of a zone starts its data transfer where none runs (R694); a Write Zeroes transfers nothing. -/
def Chip.startZoneN (nsid z : Nat) : Nat → Chip → Chip
  | 0, c => c
  | fuel + 1, c =>
    match c.sluice.batches.find? (fun b => b.nsid == nsid && b.zone == z && !b.staged && b.slot.isSome) with
    | none => c
    | some b =>
      let room := decide (c.wtUsed + b.charge ≤ wtRegion)
      if c.inDma b || !(b.seq.isSome || (b.wt && room)) then c
      else
        match c.writeStatus b with
        | some (sct, sc) => Chip.startZoneN nsid z fuel (c.failBatch b.id sct sc)
        | none =>
          match c.openZone nsid z false with
          | (some (sct, sc), c) => Chip.startZoneN nsid z fuel (c.failBatch b.id sct sc)
          | (none, c) =>
            let c := c.modBatch b.id fun b => { b with ofs := (c.zone nsid z).wp }
            let slot := b.slot.getD 0
            let c := (c.setPhase slot .dma).modCmd slot fun k => { k with begun := true }
            if b.kind = 2 then
              match c.ns? nsid, c.cmdAt slot with
              | some n, some k =>
                let bs := List.replicate b.nlb (zeroBlock (lbafMd n.lbaf))
                let (c, r) := c.piReceive n { Sqe.pi k.sqe with guard := false, app := false, ref := false } false false 0 bs
                match r with
                | .inr bs => Chip.startZoneN nsid z fuel (c.stageBatch b.id bs)
                | .inl sc => Chip.startZoneN nsid z fuel (c.failBatch b.id 2 sc)
              | _, _ => c
            else c

/-- Starts what may start of a zone. -/
def Chip.startZone (c : Chip) (nsid z : Nat) : Chip := Chip.startZoneN nsid z (c.sluice.batches.length + 1) c

/-- Starts what may start of every zone that has a write in write-through waiting for space (R756). -/
def Chip.startWt (c : Chip) : Chip :=
  ((c.sluice.batches.filter fun b => b.wt && !b.staged).map fun b => (b.nsid, b.zone)).eraseDups.foldl
    (fun (c : Chip) z => c.startZone z.1 z.2) c

/-! ## Admission (R753 to R755) -/

/-- The writes to a polder that takes no rows, or of a group being handed back, wait (R653, R839). -/
def Chip.heldBack (c : Chip) (b : Batch) : Bool :=
  (match (c.zone b.nsid b.zone).bind with
   | some (p, _) => ((c.polder? p).map fun p => !c.takesRows p).getD false
   | none => false) || c.peer.handback == some (c.group b.nsid)

/-- STAGE_LIMIT in bytes (R766). -/
def Chip.stageLimit (c : Chip) : Nat := min 2040 (c.rd .sluice Reg.SLUICE.STAGE_LIMIT_MIB) * 2 ^ 20

/-- Admits batches in the order of their requests while the budget allows (R753). Those that wait for their polder are passed
over (DEDUCED, log 82). -/
def Chip.admitN : Nat → Chip → Chip
  | 0, c => c
  | fuel + 1, c =>
    match c.sluice.batches.find? (fun b => b.seq.isNone && !b.wt && !c.heldBack b) with
    | none => c
    | some b =>
      if c.sluice.budget < c.admitted + b.charge then c
      else
        let n := c.sluice.nextSeq
        let c := (c.modSluice fun s => { s with nextSeq := n + 1 }).modBatch b.id fun b => { b with seq := some n }
        Chip.admitN fuel (if b.kind = 0 then c else c.startZone b.nsid b.zone)

/-- Admission at a sample. -/
def Chip.admission (c : Chip) : Chip := (Chip.admitN (c.sluice.batches.length + 1) c).updSluice

/-! ## The hold-up bank (R749 to R752) -/

/-- B_max for a sample of code `num / den` (R749, R752): N / D is V_lo and K / D is V_CUT, both in volts. -/
def Chip.bMaxOf (c : Chip) (num den : Nat) : Nat :=
  let p : Page := .sluice
  let ratio : Int := max 1 (c.rd p Reg.SLUICE.DIVIDER_RATIO)
  let tol : Int := c.rd p Reg.SLUICE.DIVIDER_TOL_PPM
  let d : Int := 163840000000000 * den
  let n : Int := ratio * (12 * num * (999000 - tol) - 49152000 * den)
  let k : Int := c.rd p Reg.SLUICE.VCUT_V_CUT_MV * 163840000000 * den
  if n ≤ k then 0
  else
    let x : Int := c.rd p Reg.SLUICE.CAP_MEAS_UF * (100 - min 50 (c.rd p Reg.SLUICE.CAP_CFG_CAP_TOL))
      * min 100 (c.rd p Reg.SLUICE.VCUT_EFF_PCT) * (100 - clampN 5 90 (c.rd p Reg.SLUICE.VCUT_MARGIN_PCT)) * (n * n - k * k)
    let y : Int := 20000000000 * (d * d) * max 1 (c.rd p Reg.SLUICE.FLUSH_CFG_P_FLUSH)
    let r : Int := clampN 1 400 (c.rd p Reg.SLUICE.FLUSH_CFG_RATE)
    ((r * 1000000 * x - r * 20000 * y) / y).toNat

/-- C_ref in µF (R750). -/
def Chip.cRef (c : Chip) : Nat :=
  if c.flag .sluice Reg.SLUICE.SLUICE_STAT_CAP_VALID then c.rd .sluice Reg.SLUICE.CAP_MEAS_UF
  else c.rs.capStored.getD (1000 * c.rd .sluice Reg.SLUICE.CAP_CFG_CAP_MIN_MF)

/-- TEST_MS and R_LOAD as they act (R766). -/
def Chip.testMs (c : Chip) : Nat := clampN 1 20 (c.rd .sluice Reg.SLUICE.TEST_CFG_TEST_MS)
def Chip.rLoad (c : Chip) : Nat := max 1 (c.rd .sluice Reg.SLUICE.TEST_CFG_R_LOAD)

/-- The start condition of a due test at code `code` (R750). -/
def Chip.testMayStart (c : Chip) (code : Nat) : Bool :=
  let rc := 2 * c.rLoad * c.cRef
  let drop := 3 * c.testMs * 100000
  let b := if drop < rc then c.bMaxOf (code * (rc - drop)) rc else 0
  decide (c.admitted ≤ min b c.stageLimit)

/-- The part of a capacitance test at one sample (R750): the eight samples before the load, then the load, then its samples. -/
def Chip.testSample (c : Chip) (code : Nat) : Chip :=
  match c.sluice.test with
  | some t =>
    match t.t0 with
    | some _ => c.modSluice fun s => { s with test := some { t with codes := code :: t.codes } }
    | none =>
      if t.before.length < 8 then c.modSluice fun s => { s with test := some { t with before := code :: t.before } }
      else
        { c with pins := { c.pins with holdTest := true } }.modSluice fun s => { s with
          test := some { t with t0 := some c.now, len := c.testMs, codes := [code] } }
  | none =>
    if c.sluice.due && c.testMayStart code then
      c.modSluice fun s => { s with due := false, test := some { before := [code] } }
    else c

/-- B_max, Budget, SHORT and ENERGY_SHORT after a sample (R752, R755). -/
def Chip.measure (c : Chip) (code : Nat) : Chip :=
  let b := c.bMaxOf code 1
  let c := c.modSluice fun s => { s with bMax := b, budget := min b c.stageLimit }
  let short := decide (b < c.admitted)
  let c := if short && !c.sluice.shortSent then c.fault0 .sluice 0 1 1 else c
  c.modSluice fun s => { s with shortSent := short }

/-- The time for which Budget − A has stood at a quarter of STAGE_LIMIT (R757). -/
def Chip.room (c : Chip) : Chip :=
  let ok := decide (c.admitted + c.stageLimit / 4 ≤ c.sluice.budget)
  c.modSluice fun s => { s with roomSince := if ok then some (s.roomSince.getD c.now) else none }

/-- One VHOLD sample (R601, R749 to R755). Waiting under R653 does not count towards WT_DELAY_MS (R756). -/
def Chip.vhold (c : Chip) (raw : Nat) : Chip :=
  let c := c.until' c.sluice.nextSample
  let c := (c.modSluice fun s => { s with nextSample := c.now + 1000 }).vholdIn raw
  let code := c.rd .assay Reg.ASSAY.VHOLD_CODE
  if c.flag .sluice Reg.SLUICE.SLUICE_STAT_FLUSHING then c
  else
    let c := c.modSluice fun s => { s with
      batches := s.batches.map fun b => if b.seq.isNone && !b.wt && c.heldBack b then { b with since := b.since + 1000 } else b }
    ((((c.measure code).testSample code).admission).room).updSluice

/-- R752. -/
def execVholdSample (raw : BitVec 14) (s : State) : Out :=
  s.to fun c => if c.islandUp .assay && c.islandUp .mem then c.vhold raw.toNat else c

/-! ## The capacitance test (R750, R751) -/

/-- Ticks of PERIOD_MIN (R766). -/
def Chip.testPeriod (c : Chip) : Nat := secs (60 * max 1 (c.rd .sluice Reg.SLUICE.TEST_CFG_PERIOD_MIN))

/-- R750: a test falls due. -/
def execCapTestDue (s : State) : Out :=
  s.to fun c =>
    match c.sluice.dueAt with
    | some t => (c.until' t).modSluice fun s => { s with due := true, dueAt := some (t + c.testPeriod) }
    | none => c

/-- R765. -/
def execCapTestRequest (r : Requester) (s : State) : Out :=
  s.to fun c => c.write r .sluice fun c => c.modSluice fun s => { s with due := true }

/-- C_meas in µF and ESR in mΩ of a test, none where V_1 − V_2 is below 50 mV or nothing can be computed (R750). -/
def Chip.testResult (c : Chip) (t : CapTest) : Option (Nat × Nat) :=
  let s := t.codes.reverse
  let k := 100 * t.len - 1
  let v1 := s.getD 3 0
  let v2 := s.getD k 0
  let sum := ((s.drop 3).take (k - 2)).sum
  if v1 ≤ v2 ∨ (v1 - v2) * 12 * max 1 (c.rd .sluice Reg.SLUICE.DIVIDER_RATIO) < 8192000 then none
  else some (sum * 1000 / (c.rLoad * (v1 - v2)), (t.before.sum - 8 * v1) * c.rLoad * 10 / (8 * v1))

/-- The result of a test is accepted or rejected (R750). -/
def Chip.testJudge (c : Chip) (t : CapTest) : Chip :=
  let p : Page := .sluice
  let first := !c.flag p Reg.SLUICE.SLUICE_STAT_CAP_VALID && c.rs.capStored.isNone
  match c.testResult t with
  | some (uf, esr) =>
    if first ∨ (c.cRef ≤ 2 * uf ∧ uf ≤ 2 * c.cRef) then
      let c := ((c.put p Reg.SLUICE.CAP_MEAS_UF (min uf (2 ^ 24 - 1))).put p Reg.SLUICE.ESR_MEAS_MOHM (min esr 65535)).inc p Reg.SLUICE.ESR_MEAS_TESTS
      let c := (c.put p Reg.SLUICE.SLUICE_STAT_CAP_VALID 1).event p 0
      let c := if c.rs.mounted then { c with rs := { c.rs with capStored := some uf } } else c
      let c := if uf < 1000 * c.rd p Reg.SLUICE.CAP_CFG_CAP_MIN_MF then (c.fault0 p 1 1 2).logEv0 0x000A else c
      c.updWarning
    else c.fault0 p 1 2 1
  | none => c.fault0 p 1 2 1

/-- R750: HOLD_TEST falls. -/
def execCapTestEnd (s : State) : Out :=
  s.to fun c =>
    match c.sluice.test with
    | some t =>
      match t.t0 with
      | some t0 =>
        if t.codes.length < 100 * t.len then c
        else
          let c := c.until' (t0 + ms t.len)
          let c := { c with pins := { c.pins with holdTest := false } }.modSluice fun s => { s with test := none }
          (c.testJudge t).updSluice
      | none => c
    | none => c

/-! ## Write-through (R756, R757) -/

/-- The waiting writes of the namespaces in write-through leave the admission queue (R756). -/
def Chip.moveToWt (c : Chip) : Chip :=
  let c := c.modSluice fun s => { s with
    batches := s.batches.map fun b => if b.seq.isNone && b.kind != 0 && c.nsWt b.nsid then { b with wt := true } else b }
  c.startWt.updSluice

/-- A namespace enters write-through (R756). -/
def Chip.enterWt (c : Chip) (nsid : Nat) : Chip :=
  let c := (c.modSluice fun s => { s with wt := s.wt ++ [nsid] }).fault0 .sluice 0 2 1
  (c.logEv0 0x0008).moveToWt

/-- R756: the oldest waiting write of the namespace has waited WT_DELAY_MS. -/
def execWriteThroughEnter (nsid : Fin 1025) (s : State) : Out :=
  s.to fun c =>
    match c.sluice.batches.find? (fun b => b.nsid == nsid.val && b.seq.isNone && !b.wt && b.kind != 0 && !c.heldBack b) with
    | some b => (c.until' (b.since + ms (max 1 (c.rd .sluice Reg.SLUICE.WT_CFG_WT_DELAY_MS)))).enterWt nsid.val
    | none => c

/-- R757: the namespace leaves write-through. -/
def execWriteThroughLeave (nsid : Fin 1025) (s : State) : Out :=
  s.to fun c =>
    match c.sluice.roomSince with
    | some t =>
      if c.sluice.wt.contains nsid.val then
        let c := c.until' (t + ms (max 1 (c.rd .sluice Reg.SLUICE.WT_CFG_RESUME_MS)))
        ((c.modSluice fun s => { s with wt := s.wt.filter (· != nsid.val) }).logEv0 0x0009).updSluice
      else c
    | none => c

/-- WT_FORCE is written (R757). -/
def Chip.wtForce (c : Chip) (b : Bool) : Chip :=
  let c := c.putB .sluice Reg.SLUICE.SLUICE_CTL_WT_FORCE b
  if b then c.moveToWt else c.updSluice

/-- R757. -/
def execWtForceWrite (r : Requester) (b : Bool) (s : State) : Out := s.to fun c => c.write r .sluice fun c => c.wtForce b

/-- R756: the row that holds the end of a write-through command has had no data for 10 ms and is recorded with PAD. -/
def Chip.partialRow (c : Chip) (nsid z : Nat) : Chip :=
  let x := c.zone nsid z
  let r := x.rowNext
  let pad := x.dataEnd - r * rowBlocks
  let ends := c.sluice.batches.any fun b => b.wt && b.staged && b.nsid == nsid && b.zone == z && b.rows.contains r
  match x.bind with
  | some (id, pz) =>
    match c.polder? id with
    | some p =>
      if x.st = .full ∨ pad = 0 ∨ rowBlocks ≤ pad ∨ x.padAt = x.dataEnd ∨ !ends ∨ !c.takesRows p then c
      else ((c.until' (x.lastAt + ms 10)).putRow id pz r pad).modZone nsid z fun x => { x with padAt := x.dataEnd }
    | none => c
  | none => c

/-- R756. -/
def execPartialRowTimeout (nsid : Fin 1025) (zone : Nat) (s : State) : Out := s.to fun c => c.partialRow nsid.val zone

/-! ## The calibration store (R612 to R617) -/

/-- The newest valid SEQ (R614). -/
def Chip.calSeq (c : Chip) : Nat := max ((c.rs.calA.map (·.seq)).getD 0) ((c.rs.calB.map (·.seq)).getD 0)

/-- Copy B is the older one: invalid, or valid with the lower SEQ (R614). -/
def Chip.calOlderB (c : Chip) : Bool :=
  match c.rs.calA, c.rs.calB with
  | none, _ => false
  | some _, none => true
  | some a, some b => decide (b.seq < a.seq)

/-- A store is due (R616). -/
def Chip.calStoreDue (c : Chip) : Bool :=
  (c.assay.storeReq && c.assay.changed.isSome) ||
    (match c.assay.changed with
     | some t => decide (t + secs (60 * max 1 (c.rd .assay Reg.ASSAY.SET_CFG_STORE_MIN)) ≤ c.now)
     | none => false)

/-- Steps 1 and 2: the snapshot asks for admission (R614). -/
def Chip.calSnapshot (c : Chip) : Chip :=
  let snap : CalCopy := ⟨c.calSeq + 1, c.rs.hours + c.now / hours 1, c.assay.cal, c.assay.opuIds⟩
  let id := c.sluice.nextId
  let b : Batch := { id := id, kind := 0, slot := none, nsid := 0, zone := 0, ofs := 0, nlb := 0, keyTag := 0, since := c.now }
  let c := c.modSluice fun s => { s with
    nextId := id + 1, batches := s.batches ++ [b], calStore := some { batch := id, copyB := c.calOlderB, since := c.now, snap := snap } }
  (c.modAssay fun a => { a with storeReq := false, changed := none }).admission

/-- Step 3: erase intents, and the copy's blocks erased in each package (R614). -/
def Chip.calErase (c : Chip) (k : CalStore) : Chip :=
  let open' := c.rs.intents.filter (fun i => i.what != 1)
  let new := [(0, c.rs.pkg0), (1, c.rs.pkg1)].filterMap fun x => if x.2.mounted then some (⟨x.1, 1⟩ : NandIntent) else none
  let rs := if k.copyB then { c.rs with calB := none } else { c.rs with calA := none }
  { c with rs := { rs with intents := open' ++ new } }

/-- Steps 4 and 5 write the older copy, its validity word last (R613, R614); the erases are complete. -/
def Chip.calWrite (c : Chip) (k : CalStore) : Chip :=
  let copy := if c.calHolds then some k.snap else none
  let c := c.programs c.pkgBits [k.snap.body]
  let rs := if k.copyB then { c.rs with calB := copy } else { c.rs with calA := copy }
  let rs := { rs with intents := rs.intents.filter (fun i => i.what != 1) }
  { c with rs := { rs with calStores := rs.calStores + 1 } }.modAssay fun a => { a with seq := k.snap.seq, setValid := true }

/-- R614: a store that is due begins; one whose batch is admitted erases the older copy, then writes it, and its admission is released. -/
def execCalStore (s : State) : Out :=
  s.to fun c =>
    match c.sluice.calStore with
    | some k =>
      if !(((c.batch? k.batch).bind (·.seq)).isSome && c.rs.mounted && c.mgmt.resumed) then c
      else if !k.erased then (c.calErase k).modSluice fun s => { s with calStore := some { k with erased := true } }
      else
        ((c.calWrite k).modSluice fun s => { s with calStore := none }).dropBatch k.batch
    | none => if c.mgmt.resumed && c.rs.mounted && c.calStoreDue then c.calSnapshot else c

/-- R616: 60 s without admission; the store is tried again after STORE_MIN. -/
def execCalStoreAbandon (s : State) : Out :=
  s.to fun c =>
    match c.sluice.calStore with
    | some k =>
      if ((c.batch? k.batch).bind (·.seq)).isSome then c
      else
        let c := c.until' (k.since + secs 60)
        let c := (c.modSluice fun s => { s with calStore := none }).dropBatch k.batch
        let c := { c with rs := { c.rs with calDefers := c.rs.calDefers + 1 } }
        c.modAssay fun a => { a with changed := some c.now }
    | none => c

end Sys2Proof.Machine
end

