-- ==== Sys2Proof/Machine/Memory.lean ====
section
/-!
DEFINITION. Buffer memory with its check bits, the scrub, the checker test, and the buffer cache (R732 to R748).
-/
namespace Sys2Proof.Machine

/-! ## The code of a word (R735, R736) -/

/-- Address tag of word address `a` (R735). -/
def eccTag (a : Nat) : Nat :=
  (List.range 31).foldl (fun t k => if a.testBit k then t ^^^ 2 ^ (k % 7) else t) 0

/-- Check bits over `n` bits whose columns are the first `n` of the matrix (R735). -/
def eccCheck (n v : Nat) : Nat :=
  (List.range n).foldl (fun s i => if v.testBit i then s ^^^ (Config.eccColumn i).toNat else s) 0

/-- Column `i` of a code with `n` data columns: the 9 check columns are the unit vectors. -/
def eccCol (n i : Nat) : Nat := if i < n then (Config.eccColumn i).toNat else 2 ^ (i - n)

/-- What the decoder finds: no error, one corrected bit, or an uncorrectable word. -/
inductive EccResult where
  | clean
  | fixed (bit : Nat)
  | bad
  deriving DecidableEq, Repr

/-- Decodes `n` data bits with 9 check bits above them (R736). -/
def eccDecode (n v : Nat) : EccResult :=
  let s := eccCheck n (v % 2 ^ n) ^^^ (v / 2 ^ n)
  if s = 0 then .clean
  else
    match (List.range (n + 9)).find? (fun i => eccCol n i == s) with
    | some i => .fixed i
    | none => .bad

/-- The stored word of data `d` at word address `a` (R735). -/
def eccWord (a : Nat) (d : BitVec 128) : BitVec 144 :=
  let v := d.toNat + eccTag a * 2 ^ 128
  BitVec.ofNat 144 (v + eccCheck 135 v * 2 ^ 135)

/-! ## Regions (R733) -/

/-- Regions of buffer memory. -/
inductive Region where
  | management | tables | inventory | staging | writeThrough | mirror | stripe | cache
  deriving DecidableEq, Repr

/-- The region of a byte address (R733). -/
def regionOf (b : Nat) : Region :=
  if b < 0x20000000 then .management
  else if b < 0x120000000 then .tables
  else if b < 0x140000000 then .inventory
  else if b < 0x1C0000000 then .staging
  else if b < 0x200000000 then .writeThrough
  else if b < 0x280000000 then .mirror
  else if b < 0x380000000 then .stripe
  else .cache

/-- Only the first three regions are cacheable (R733). -/
def cacheable (b : Nat) : Bool := decide (b < 0x140000000)

/-! ## Words of buffer memory -/

/-- Word addresses of the stack (R732). -/
def ramWords : Nat := 1610612736

/-- Changes the memory island's stores. -/
def Chip.modMem (c : Chip) (f : MemSt → MemSt) : Chip := { c with mem := f c.mem }

/-- The stored word at word address `a`; an unlisted one is zero with valid check bits (R109). -/
def MemSt.raw (m : MemSt) (a : Nat) : BitVec 144 := (assocGet a m.ram).getD (eccWord a 0)

/-- Stores a word, in canonical form: a word equal to an unlisted one is not listed. -/
def MemSt.setRaw (m : MemSt) (a : Nat) (w : BitVec 144) : MemSt :=
  { m with ram := if w = eccWord a 0 then assocDel a m.ram else assocSet a w m.ram }

/-- The canonical form: word addresses rise strictly, and no entry equals what an unlisted address reads as. -/
abbrev MemSt.wf (m : MemSt) : Prop := (m.ram.map (·.1)).Pairwise (· < ·) ∧ ∀ e ∈ m.ram, e.2 ≠ eccWord e.1 0

/-- Word address of FLIP_ADDR (R740). -/
def Chip.flipAddr (c : Chip) : Nat := c.rd .mem Reg.MEM.FLIP_ADDR_LO_ADDR + c.rd .mem Reg.MEM.FLIP_ADDR_HI_ADDR * 2 ^ 28

/-- The bits that FLIP_CTL selects (R740). -/
def Chip.flipMask (c : Chip) : BitVec 144 :=
  let one := fun (en pos : Fld) => if c.flag .mem en then 2 ^ min 143 (c.rd .mem pos) else 0
  BitVec.ofNat 144 (one Reg.MEM.FLIP_CTL_EN0 Reg.MEM.FLIP_CTL_POS0 ^^^ one Reg.MEM.FLIP_CTL_EN1 Reg.MEM.FLIP_CTL_POS1)

/-- A write of data to word address `a`, with the inversion where it is armed there (R740), but in admitted staging (R741). -/
def Chip.ramWrite (c : Chip) (a : Nat) (d : BitVec 128) : Chip :=
  if c.flag .mem Reg.MEM.FLIP_CTL_ARMED && c.flipAddr == a then
    let mask := if regionOf (16 * a) == .staging then 0 else c.flipMask
    let c := c.modMem fun m => m.setRaw a (eccWord a d ^^^ mask)
    ((c.put .mem Reg.MEM.FLIP_CTL_ARMED 0).put .mem Reg.MEM.FLIP_CTL_DONE 1).event .mem 0
  else c.modMem fun m => m.setRaw a (eccWord a d)

/-- ECC_LAST (R763). -/
def Chip.eccLast (c : Chip) (a kind bit : Nat) : Chip :=
  let c := (c.put .mem Reg.MEM.ECC_LAST_LO_ADDR (16 * a)).put .mem Reg.MEM.ECC_LAST_HI_ADDR (16 * a / 2 ^ 32)
  ((c.put .mem Reg.MEM.ECC_LAST_HI_KIND kind).put .mem Reg.MEM.ECC_LAST_HI_BIT bit).event .mem 0

/-- A poisoned word is counted and reported (R738): `tag` an address error. -/
def Chip.eccBad (c : Chip) (a : Nat) (tag : Bool) : Chip :=
  let c := c.statAdd .mem (if tag then Reg.MEM.ECC_STAT_ADDR_ERR else Reg.MEM.ECC_STAT_UNCORR) 1
  (c.eccLast a (if tag then 3 else 2) 0).fault .mem 1 1 2 0 (16 * a)

/-- A read of word address `a` (R736 to R738): the data, none where the word is poisoned. -/
def Chip.ramRead (c : Chip) (a : Nat) : Option (BitVec 128) × Chip :=
  let w := (c.mem.raw a).toNat
  match eccDecode 135 w with
  | .bad => (none, c.eccBad a false)
  | .clean => if slice 128 7 w = eccTag a then (some (BitVec.ofNat 128 w), c) else (none, c.eccBad a true)
  | .fixed i =>
    let w := w ^^^ 2 ^ i
    if slice 128 7 w = eccTag a then
      (some (BitVec.ofNat 128 w), ((c.statAdd .mem Reg.MEM.ECC_STAT_CORR 1).eccLast a 1 i).fault .mem 0 1 0 0 (16 * a))
    else (none, c.eccBad a true)

/-! ## Poisoned words (R738) -/

/-- A batch whose word was poisoned (R738): taken from the partner's mirror where it has a copy, else lost (R121). -/
def Chip.batchPoisoned (c : Chip) (id : Nat) : Chip :=
  match c.batch? id with
  | none => c
  | some b =>
    if c.linkUp && b.mirrored then c.daxSend false 0x14 [b.seq.getD 0, b.seq.getD 0]
    else
      let c := if b.slot.isSome then c.failBatch id 0 0x06 else c.dropBatch id
      if b.staged then c.loseBatch b.nsid b.zone b.ofs b.nlb else c

/-- What a poisoned word leads to (R738). `owner` names the batch, stripe item or cache entry that holds the word, since the
allocation inside a region is not stated. -/
def Chip.poisoned (c : Chip) (a owner : Nat) : Chip :=
  match regionOf (16 * a) with
  | .management => if c.isl.mgmtOnce && c.isl.mgmtReleased then c.warmRestart 3 else c
  | .tables | .inventory =>
    let (x, c) := c.free 64
    let (y, c) := c.free 64
    c.ramWrite a (BitVec.ofNat 128 (x + y * 2 ^ 64))
  | .staging | .writeThrough => c.batchPoisoned owner
  | .mirror => c.fault0 .peer 5 2 1
  | .stripe => c.stripeTake owner
  | .cache => c.modLib fun l => { l with cache := l.cache.eraseIdx owner }

/-! ## Scrub and checker test (R739 to R741) -/

/-- The moment at which the scrub reads word `a` of its pass: one pass takes SCRUB_HOURS (R739, R762). -/
def Chip.scrubDue (c : Chip) (a : Nat) : Nat :=
  c.mem.scrubFrom + a * hours (max 1 (c.rd .mem Reg.MEM.ECC_CTL_SCRUB_HOURS)) / ramWords

/-- The scrub's next word, some of whose bits `upset` have flipped since it was written. -/
def Chip.scrubStep (c : Chip) (upset : BitVec 144) (owner : Nat) : Chip :=
  let a := c.mem.scrubAt
  let c := c.until' (c.scrubDue a)
  let c := c.modMem fun m => m.setRaw a (m.raw a ^^^ upset)
  let clean := eccDecode 135 (c.mem.raw a).toNat == .clean
  let (d, c) := c.ramRead a
  let c := match d with
    | some d => if clean then c else c.ramWrite a d
    | none => c.poisoned a owner
  let next := (a + 1) % ramWords
  let c := c.modMem fun m => { m with scrubAt := next, scrubFrom := if next = 0 then c.now else m.scrubFrom }
  let c := c.stat .mem Reg.MEM.SCRUB_STAT_PROGRESS (next * 65536 / ramWords)
  if next = 0 then (c.inc .mem Reg.MEM.SCRUB_STAT_PASSES).event .mem 0 else c

/-- R739. -/
def execMemoryScrubStep (upset : BitVec 144) (owner : Nat) (s : State) : Out :=
  s.to fun c => if c.islandUp .mem && c.flag .mem Reg.MEM.ECC_CTL_SCRUB_EN then c.scrubStep upset owner else c

/-- FLIP_CTL is written with ARM (R740, R741): in admitted staging the inversion is skipped. -/
def Chip.memFlipArm (c : Chip) (w : Nat) : Chip :=
  let c := (c.put .mem Reg.MEM.FLIP_CTL_POS0 (slice 0 8 w)).put .mem Reg.MEM.FLIP_CTL_EN0 (slice 8 1 w)
  let c := (c.put .mem Reg.MEM.FLIP_CTL_POS1 (slice 16 8 w)).put .mem Reg.MEM.FLIP_CTL_EN1 (slice 24 1 w)
  let skip := regionOf (16 * c.flipAddr) == .staging
  ((c.putB .mem Reg.MEM.FLIP_CTL_ARMED (!skip)).putB .mem Reg.MEM.FLIP_CTL_DONE skip).event .mem 0

/-- R740. -/
def execMemFlipArm (r : Requester) (w : Word) (s : State) : Out := s.to fun c => c.write r .mem fun c => c.memFlipArm w.toNat

/-! ## The buffer cache (R742 to R748) -/

/-- A sub-word of 16 bytes with its 9 check bits (R743). -/
def cacheSub (d : Nat) : BitVec 137 := BitVec.ofNat 137 (d % 2 ^ 128 + eccCheck 128 (d % 2 ^ 128) * 2 ^ 128)

/-- Set and tag of a line address (R742). -/
def lineSet (l : Nat) : Nat := l % 4096
def lineTag (l : Nat) : Nat := l / 4096

/-- ERR_LAST (R764). -/
def Chip.cacheLast (c : Chip) (key kind : Nat) : Chip :=
  (((c.put .cache Reg.CACHE.ERR_LAST_SET (key / 16)).put .cache Reg.CACHE.ERR_LAST_WAY (key % 16)).put
    .cache Reg.CACHE.ERR_LAST_KIND kind).event .cache 0

/-- A write to way `key`, data or tag, with the inversion of CACHE.FLIP where it is armed for it (R748). -/
def Chip.wayWrite (c : Chip) (key : Nat) (x : CacheLine) (data : Bool) : Chip :=
  let mode := c.rd .cache Reg.CACHE.FLIP_MODE
  let here := c.mem.cacheFlip && key == c.rd .cache Reg.CACHE.FLIP_SET * 16 + c.rd .cache Reg.CACHE.FLIP_WAY && (mode != 0 || data)
  if !here then c.modMem fun m => { m with lines := assocSet key x m.lines }
  else
    let sub := c.rd .cache Reg.CACHE.FLIP_SUB
    let bit' := min 136 (c.rd .cache Reg.CACHE.FLIP_BIT)
    let x := if mode = 0 then { x with sub := x.sub.modify sub fun v => v ^^^ BitVec.ofNat 137 (2 ^ bit') }
      else { x with badA := x.badA || mode = 1 || mode = 3, badB := x.badB || mode = 2 || mode = 3 }
    ((c.modMem fun m => { m with lines := assocSet key x m.lines, cacheFlip := false }).put .cache Reg.CACHE.FLIP_DONE 1).event .cache 0

/-- Both tag copies of a way fail (R744). -/
def Chip.tagLost (c : Chip) (key : Nat) : Chip :=
  ((c.modMem fun m => { m with lines := assocDel key m.lines }).cacheLast key 3).fault0 .cache 0 1 2

/-- The lookup's check of the tags of a set (R744). -/
def Chip.checkTags (c : Chip) (set : Nat) : Chip :=
  (List.range 16).foldl (fun (c : Chip) w =>
    let key := set * 16 + w
    match assocGet key c.mem.lines with
    | none => c
    | some x =>
      if x.badA && x.badB then c.tagLost key
      else if x.badA then
        ((c.modMem fun m => { m with lines := assocSet key { x with badA := false } m.lines }).inc
          .cache Reg.CACHE.ERR_STAT_TAG_PAR).event .cache 0
      else c) c

/-- The way that holds a line. -/
def Chip.wayOf (c : Chip) (line : Nat) : Option (Nat × CacheLine) :=
  c.mem.lines.find? fun e => e.1 / 16 == lineSet line && e.2.tag == lineTag line

/-- One sub-word leaves the cache for word address `a` (R743): corrected, or with its check bits inverted. -/
def Chip.subBack (c : Chip) (key a : Nat) (v : BitVec 137) : Chip :=
  match eccDecode 128 v.toNat with
  | .clean => c.ramWrite a (BitVec.ofNat 128 v.toNat)
  | .fixed i => ((c.statAdd .cache Reg.CACHE.ERR_STAT_DATA_CORR 1).cacheLast key 1).ramWrite a (BitVec.ofNat 128 (v.toNat ^^^ 2 ^ i))
  | .bad =>
    let c := ((c.statAdd .cache Reg.CACHE.ERR_STAT_DATA_UNCORR 1).cacheLast key 2).fault .cache 1 1 2 0 (16 * a)
    c.modMem fun m => m.setRaw a (eccWord a (BitVec.ofNat 128 v.toNat) ^^^ BitVec.ofNat 144 (511 * 2 ^ 135))

/-- The writeback of a line (R743). -/
def Chip.writeBack (c : Chip) (key line : Nat) (sub : List (BitVec 137)) : Chip :=
  sub.zipIdx.foldl (fun (c : Chip) v => c.subBack key (line * 8 + v.2) v.1) c

/-- The line of zeros that OP 0b001 allocates (R746). -/
def zeroLine (line used : Nat) : CacheLine := ⟨lineTag line, true, List.replicate 8 (cacheSub 0), false, false, used⟩

/-- Allocates a line of zeros in a free way, or in that of the line used least recently, whose data becomes a victim when it is
dirty (R742, R745); none where all 16 victim entries are occupied. -/
def Chip.allocZero (c : Chip) (line : Nat) : Option Chip :=
  let set := lineSet line
  let x := zeroLine line c.mem.uses
  let c := c.modMem fun m => { m with uses := m.uses + 1 }
  match (List.range 16).find? (fun w => (assocGet (set * 16 + w) c.mem.lines).isNone) with
  | some w => some (c.wayWrite (set * 16 + w) x true)
  | none =>
    let lru := (c.mem.lines.filter fun e => e.1 / 16 == set).foldl (fun (best : Option (Nat × CacheLine)) e =>
      match best with
      | none => some e
      | some b => if e.2.used < b.2.used then some e else some b) none
    match lru with
    | none => none
    | some (key, old) =>
      if !old.dirty then some (c.wayWrite key x true)
      else if 16 ≤ c.mem.victims.length then none
      else
        let c := c.modMem fun m => { m with victims := m.victims ++ [(old.tag * 4096 + set, old.sub)] }
        some (c.wayWrite key x true)

/-- OP_CTL.DONE (R764). -/
def Chip.opDone (c : Chip) (b : Bool) : Chip := (c.putB .cache Reg.CACHE.OP_CTL_DONE b).event .cache 0

/-- Zeroes a line (R746), waiting for a victim entry where it must. -/
def Chip.zeroLineOp (c : Chip) (line : Nat) : Chip :=
  let wait := (c.modMem fun m => { m with zeroWait := some line }).opDone false
  if c.mem.victims.any (fun v => v.1 == line) then wait
  else
    let c := c.checkTags (lineSet line)
    match c.wayOf line with
    | some (key, x) => (c.wayWrite key { x with sub := List.replicate 8 (cacheSub 0), dirty := true } true).opDone true
    | none =>
      match c.allocZero line with
      | some c => c.opDone true
      | none => wait

/-- Writes a dirty line back; it stays valid (R746). -/
def Chip.cleanWay (c : Chip) (key : Nat) (x : CacheLine) : Chip :=
  if x.dirty then
    let c := c.writeBack key (x.tag * 4096 + key / 16) x.sub
    let fix := x.sub.map fun v => match eccDecode 128 v.toNat with
      | .fixed i => v ^^^ BitVec.ofNat 137 (2 ^ i)
      | _ => v
    c.wayWrite key { x with dirty := false, sub := fix } false
  else c

/-- Line address of OP_ADDR. -/
def Chip.opLine (c : Chip) : Nat := c.rd .cache Reg.CACHE.OP_ADDR_LO_ADDR + c.rd .cache Reg.CACHE.OP_ADDR_HI_ADDR * 2 ^ 25

/-- OP_CTL written with GO (R746, R764): `f` acts on the line where it is cacheable; GO is ignored while DONE is 0. -/
def Chip.cacheOp (c : Chip) (op : Nat) (f : Chip → Nat → Chip) : Chip :=
  let c := c.put .cache Reg.CACHE.OP_CTL_OP op
  if !c.flag .cache Reg.CACHE.OP_CTL_DONE then c
  else if cacheable (c.opLine * 128) then f c c.opLine
  else c.opDone true

/-- Clean and invalidate, as asked. -/
def Chip.lineOp (c : Chip) (line : Nat) (clean inval : Bool) : Chip :=
  let c := c.checkTags (lineSet line)
  match c.wayOf line with
  | none => c.opDone true
  | some (key, x) =>
    let c := if clean then c.cleanWay key x else c
    (if inval then c.modMem fun m => { m with lines := assocDel key m.lines } else c).opDone true

/-- R746. -/
def execCacheZeroLine (r : Requester) (s : State) : Out :=
  s.to fun c => c.write r .cache fun c => c.cacheOp 1 Chip.zeroLineOp
/-- R746. -/
def execCacheCleanLine (r : Requester) (s : State) : Out :=
  s.to fun c => c.write r .cache fun c => c.cacheOp 2 fun c l => c.lineOp l true false
/-- R746. -/
def execCacheInvalidateLine (r : Requester) (s : State) : Out :=
  s.to fun c => c.write r .cache fun c => c.cacheOp 3 fun c l => c.lineOp l false true
/-- R746. -/
def execCacheCleanInvalidateLine (r : Requester) (s : State) : Out :=
  s.to fun c => c.write r .cache fun c => c.cacheOp 4 fun c l => c.lineOp l true true

/-- INV_ALL (R747): every way is dropped in 4,096 cycles of 1.6 GHz; victims stay (R761). -/
def Chip.cacheInvAll (c : Chip) : Chip :=
  if c.flag .cache Reg.CACHE.CACHE_CTL_BUSY then c
  else ((c.modMem fun m => { m with lines := [] }).until' (c.now + 256)).event .cache 0

/-- R747. -/
def execCacheInvAll (r : Requester) (s : State) : Out := s.to fun c => c.write r .cache Chip.cacheInvAll

/-- CLEAN_ALL (R747). -/
def Chip.cacheCleanAll (c : Chip) : Chip :=
  if c.flag .cache Reg.CACHE.CACHE_CTL_BUSY then c
  else (c.mem.lines.foldl (fun (c : Chip) e => c.cleanWay e.1 e.2) c).event .cache 0

/-- R747. -/
def execCacheCleanAll (r : Requester) (s : State) : Out := s.to fun c => c.write r .cache Chip.cacheCleanAll

/-- CACHE.FLIP is written with ARM (R748). -/
def Chip.cacheFlipArm (c : Chip) (w : Nat) : Chip :=
  let c := (c.put .cache Reg.CACHE.FLIP_SET (slice 0 12 w)).put .cache Reg.CACHE.FLIP_WAY (slice 12 4 w)
  let c := (c.put .cache Reg.CACHE.FLIP_SUB (slice 16 3 w)).put .cache Reg.CACHE.FLIP_BIT (slice 19 8 w)
  let c := (c.put .cache Reg.CACHE.FLIP_MODE (slice 27 2 w)).put .cache Reg.CACHE.FLIP_DONE 0
  (c.modMem fun m => { m with cacheFlip := true }).event .cache 0

/-- R748. -/
def execCacheFlipArm (r : Requester) (w : Word) (s : State) : Out := s.to fun c => c.write r .cache fun c => c.cacheFlipArm w.toNat

/-- R745, R746: the oldest victim's writeback completes and a zero-a-line that waited goes on. -/
def Chip.victimDone (c : Chip) : Chip :=
  match c.mem.victims with
  | [] => c
  | v :: r =>
    let c := (c.modMem fun m => { m with victims := r }).writeBack (lineSet v.1 * 16) v.1 v.2
    match c.mem.zeroWait with
    | some l => (c.modMem fun m => { m with zeroWait := none }).zeroLineOp l
    | none => c

/-- R745. -/
def execVictimWritebackDone (s : State) : Out := s.to fun c => if c.islandUp .mem then c.victimDone else c

/-- R744: both tag copies of a way fail parity at a lookup. -/
def execCacheTagLost (set : Fin 4096) (way : Fin 16) (s : State) : Out :=
  s.to fun c =>
    let key := set.val * 16 + way.val
    if c.islandUp .mem && (assocGet key c.mem.lines).isSome then c.tagLost key else c

end Sys2Proof.Machine
end

