-- ==== Sys2Proof/Machine/Fetch.lean ====
section
/-!
DEFINITION. Doorbells, arbitration and fetch of commands, and the checks that every I/O command meets (R678, R697, R698, R713,
R714, R718).
-/
namespace Sys2Proof.Machine

/-! ## Doorbells (R678) -/

/-- A write to a doorbell of a queue that does not exist, or with a value outside it, posts an error event (NVMe, PRESUMED,
log 94). -/
def Chip.doorbellError (c : Chip) (n : Nat) (info : Nat) : Chip := c.postEvent n 8 0 0 info 0x01

/-- The submission queue tail doorbell. -/
def Chip.sqDoorbell (c : Chip) (n qid tail : Nat) : Chip :=
  match (c.ctl n).sqs.find? (fun q => q.id == qid) with
  | none => c.doorbellError n 0
  | some q =>
    if q.size ≤ tail then c.doorbellError n 1
    else c.modCtl n fun x => { x with sqs := x.sqs.map fun y => if y.id = qid then { y with tail := tail } else y }

/-- R678. -/
def execSqDoorbell (n : Ctrl) (qid tail : BitVec 16) (s : State) : Out :=
  s.to fun c => if c.islandUp .host && c.host.linkUp && (c.ctl n.val).en then c.sqDoorbell n.val qid.toNat tail.toNat else c

/-- Completions that waited for room are placed, oldest first. -/
def Chip.retryCpl (c : Chip) : Chip :=
  let w := c.host.cplWait
  (w.foldl (fun (c : Chip) k => c.deliverCpl k) (c.modHost fun h => { h with cplWait := [] })).updInflight

/-- The completion queue head doorbell frees the entries before the new head. -/
def Chip.cqDoorbell (c : Chip) (n qid head : Nat) : Chip :=
  match (c.ctl n).cqs.find? (fun q => q.id == qid) with
  | none => c.doorbellError n 0
  | some q =>
    let k := (head + q.size - q.head) % q.size
    if q.size ≤ head ∨ q.entries.length < k then c.doorbellError n 1
    else
      (c.modCtl n fun x => { x with
        cqs := x.cqs.map fun y => if y.id = qid then { y with head := head, entries := y.entries.drop k } else y }).retryCpl

/-- R678. -/
def execCqDoorbell (n : Ctrl) (qid head : BitVec 16) (s : State) : Out :=
  s.to fun c => if c.islandUp .host && c.host.linkUp && (c.ctl n.val).en then c.cqDoorbell n.val qid.toNat head.toNat else c

/-! ## Slots and arbitration (R697, R698) -/

/-- Commands in flight of a controller, admin or I/O. -/
def Chip.slotsOf (c : Chip) (n : Nat) (admin : Bool) : Nat :=
  (c.host.slots.filter fun s => s.2.ctrl == n && s.2.origin == 0 && (s.2.sq == 0) == admin).length

/-- CMD.SLOT_CFG.GUAR as it acts (R730). -/
def Chip.guar (c : Chip) : Nat := clampN 4 192 (c.rd .cmd Reg.CMD.SLOT_CFG_GUAR)

/-- A free slot is open to controller `n` for an admin or an I/O command (R697): within its guarantee or among the shared
slots. -/
def Chip.slotFor (c : Chip) (n : Nat) (admin : Bool) : Bool :=
  let on := (List.range 16).filter fun i => (c.ctl i).online
  let g := c.guar
  let own := if admin then 4 else g - 4
  let shared := (on.map fun i => (c.slotsOf i true - 4) + (c.slotsOf i false - (g - 4))).sum
  let other := (c.host.slots.filter fun s => s.2.origin != 0).length
  decide (c.slotsOf n admin < own ∨ shared + other + g * on.length < 3072)

/-- The lowest free slot (DESIGN CHOICE, log 95). -/
def Chip.freeSlot (c : Chip) : Option Nat := (List.range 3072).find? fun i => (assocGet i c.host.slots).isNone

/-- A queue of controller `n` from which an entry may be fetched now. -/
def Chip.queueReady (c : Chip) (n : Nat) (q : SQueue) : Bool :=
  let mine := (c.host.slots.filter fun s => s.2.ctrl == n && s.2.sq == q.id && s.2.origin == 0).length
  q.tail != q.head && decide (mine < max 1 (c.rd .cmd Reg.CMD.SLOT_CFG_SQ_MAX)) && c.slotFor n (q.id == 0)

/-- The next of `qs` at or after number `k`, in turn. -/
def inTurn (k : Nat) (qs : List SQueue) : Option SQueue := (qs.find? fun q => k ≤ q.id).or qs.head?

/-- The queue that a controller's arbitration serves next, with the controller's state after it (R681, R698): round robin with
the arbitration burst, or weighted round robin with an urgent class. -/
def Chip.arbitrate (c : Chip) (n : Nat) : Option (SQueue × CtrlSt) :=
  let x := c.ctl n
  let ready := x.sqs.filter (c.queueReady n)
  let f := c.feat n 0x01
  if x.ams = 0 then
    let burst := if f % 8 = 7 then 4096 else 2 ^ (f % 8)
    let k := x.credits.headD 0
    match ready.find? (fun q => q.id + 1 == x.next && decide (0 < k)) with
    | some q => some (q, { x with credits := [k - 1] })
    | none => (inTurn x.next ready).map fun q => (q, { x with next := q.id + 1, credits := [burst - 1] })
  else
    let cls := fun (q : SQueue) => q.prio
    let admin := ready.filter (·.id == 0)
    let urgent := ready.filter fun q => q.id != 0 && cls q == 0
    let full := [f / 2 ^ 24 % 256 + 1, f / 2 ^ 16 % 256 + 1, f / 2 ^ 8 % 256 + 1]
    let can := fun (k : Nat) (cr : List Nat) => (0 < cr.getD (k - 1) 0) && ready.any fun q => q.id != 0 && cls q == k
    let cr := if [1, 2, 3].any (fun k => can k x.credits) then x.credits else full
    match inTurn 0 admin, inTurn x.next urgent with
    | some q, _ => some (q, x)
    | none, some q => some (q, { x with next := q.id + 1 })
    | none, none =>
      match [1, 2, 3].find? (fun k => can k cr) with
      | none => none
      | some k =>
        (inTurn x.next (ready.filter fun q => q.id != 0 && cls q == k)).map fun q =>
          (q, { x with next := q.id + 1, credits := cr.modify (k - 1) (· - 1) })

/-- The controller may be served: enabled, ready, not shut down and without a fatal status (R704, R721). -/
def CtrlSt.served (x : CtrlSt) : Bool := x.en && x.rdy && x.shst == 0 && !x.cfs

/-- Status of a command fetched while its namespace's group is in ANA state `a` (R718, R725). -/
def anaStatus (a : Nat) : Option Nat := if a = 2 then some 0x02 else if a = 3 then some 0x01 else if a = 4 then some 0x03 else none

/-- One submission entry is fetched (R697, R698, R718). -/
def Chip.fetch (c : Chip) (e : Sqe) : Chip :=
  let turn := (List.range 16).map fun i => (c.host.nextCtrl + i) % 16
  match turn.findSome? (fun n => if (c.ctl n).served then (c.arbitrate n).map fun r => (n, r) else none), c.freeSlot with
  | some (n, q, x), some slot =>
    let c := c.modCtl n fun _ => { x with sqs := x.sqs.map fun y => if y.id = q.id then { y with head := (y.head + 1) % y.size } else y }
    let k : Cmd := { ctrl := n, sq := q.id, sqe := e, seq := c.host.fetchSeq, since := c.now }
    let c := (c.modHost fun h => { h with
      slots := assocSet slot k h.slots, fetchSeq := h.fetchSeq + 1, nextCtrl := (n + 1) % 16 }).updInflight
    match (c.ns? e.nsid.toNat).bind (fun s => anaStatus (c.ana s.ana)) with
    | some sc => if q.id ≠ 0 then c.fail slot 3 sc false else c
    | none => c
  | _, _ => c

/-- R697. -/
def execCommandFetch (e : Sqe) (s : State) : Out :=
  s.to fun c => if c.islandUp .host && c.islandUp .cmd && !c.flag .sluice Reg.SLUICE.SLUICE_STAT_FLUSHING then c.fetch e else c

/-! ## The start of an I/O command -/

/-- Zone of an LBA. -/
def lbaZone (lba : Nat) : Nat := lba / zoneSize

/-- A write-class command (R698). -/
def Sqe.isWrite (q : Sqe) : Bool := q.opc == 0x01 || q.opc == 0x08 || q.opc == 0x7D

/-- The ordering mark is enabled for a command's controller (R698). -/
def Chip.marked (c : Chip) (k : Cmd) : Bool := k.origin == 0 && bit (c.rd .cmd Reg.CMD.ORDER_CFG_MARK) k.ctrl

/-- Commands of the same SQ fetched before `k` and not complete, that satisfy `f`. -/
def Chip.earlier (c : Chip) (k : Cmd) (f : Cmd → Bool) : Bool :=
  c.host.slots.any fun s => s.2.ctrl == k.ctrl && s.2.sq == k.sq && s.2.origin == k.origin && decide (s.2.seq < k.seq) && f s.2

/-- Ordering lets the command start (R694, R698): no Flush before it under an ordering mark, and no earlier write to its zone
that has not asked for admission. -/
def Chip.mayStart (c : Chip) (k : Cmd) : Bool :=
  !(c.marked k && c.earlier k fun e => e.sqe.opc == 0x00 && e.sq != 0) &&
    !(Sqe.isWrite k.sqe && c.host.slots.any fun s => s.2.phase == .fetched && s.2.sq != 0 && Sqe.isWrite s.2.sqe && decide (s.2.seq < k.seq)
      && s.2.sqe.nsid == k.sqe.nsid && lbaZone (Sqe.slba s.2.sqe) == lbaZone (Sqe.slba k.sqe))

/-- The command in slot `slot` begins where it holds a fetched I/O command that `is` accepts and ordering lets it. -/
def Chip.ioCmd (c : Chip) (slot : Nat) (is : Sqe → Bool) (f : Chip → Cmd → Chip) : Chip :=
  match c.cmdAt slot with
  | some k =>
    if k.phase == .fetched && k.sq != 0 && is k.sqe && c.mayStart k && c.islandUp .cmd then f (c.modCmd slot fun k => { k with begun := true }) k
    else c
  | none => c

/-- The status that meets every command to a namespace (R713 to R715): it is not attached, a sanitize runs, it is being
formatted or erased. -/
def Chip.nsStatus (c : Chip) (k : Cmd) (n : NsSt) : Option (Nat × Nat × Bool) :=
  if k.origin = 0 ∧ !bit n.attached k.ctrl then some (0, 0x0B, true)
  else if c.rs.san.status = 2 ∨ c.host.sanWait then some (0, 0x1D, false)
  else if c.rs.san.failMode then some (0, 0x1C, true)
  else if n.fpi.isSome then some (0, if n.notReady then 0x82 else 0x84, false)
  else none

/-- A command to a namespace of a group that the controller does not own is forwarded to the owner (R830). -/
def Chip.forward (c : Chip) (slot : Nat) (k : Cmd) : Chip :=
  (c.setPhase slot .forwarded).daxSend true 0x30
    [slot, k.sqe.opc.toNat, k.sqe.nsid.toNat, k.sqe.cdw3.toNat, k.sqe.cdw10.toNat, k.sqe.cdw11.toNat, k.sqe.cdw12.toNat,
      k.sqe.cdw13.toNat, k.sqe.cdw14.toNat, k.sqe.cdw15.toNat]

/-- As `ioCmd` for a command to one namespace, which meets the statuses of `nsStatus` or is forwarded first. -/
def Chip.nsCmd (c : Chip) (slot : Nat) (is : Sqe → Bool) (f : Chip → Cmd → NsSt → Chip) : Chip :=
  c.ioCmd slot is fun c k =>
    match c.ns? k.sqe.nsid.toNat with
    | none => c.fail slot 0 0x0B true
    | some n =>
      match c.nsStatus k n with
      | some (sct, sc, dnr) => c.fail slot sct sc dnr
      | none => if k.origin = 0 ∧ !c.owns n.ana ∧ c.linkUp then c.forward slot k else f c k n

/-- The range checks of a command with data: beyond the namespace, or beyond MDTS (R683). -/
def rangeStatus (n : NsSt) (q : Sqe) (data : Bool) : Option (Nat × Nat) :=
  if n.size < Sqe.slba q + Sqe.nlb q then some (0, 0x80)
  else if data ∧ 64 < Sqe.nlb q then some (0, 0x02)
  else none

end Sys2Proof.Machine
end

