-- ==== Sys2Proof/Machine/Reads.lean ====
section
/-!
DEFINITION. Reading: where a block lies, requests for discs, the stripe buffer, the cross-surface code, and how a command's
blocks come together (R630 to R643, R665, R696, R734).
-/
namespace Sys2Proof.Machine

/-! ## Requests for discs (R651) -/

/-- INV_STAT.QUEUE and CLASS (R670). -/
def Chip.updInv (c : Chip) : Chip :=
  let q := min 255 c.lib.reqs.length
  let k := (c.lib.reqs.map (·.cls)).foldl (fun a n => a ||| 2 ^ n) 0
  if c.rd .inv Reg.INV.INV_STAT_QUEUE = q ∧ c.rd .inv Reg.INV.INV_STAT_CLASS = k then c
  else ((c.put .inv Reg.INV.INV_STAT_QUEUE q).put .inv Reg.INV.INV_STAT_CLASS k).event .inv 0

/-- The disc of a library slot is on a spindle. -/
def Chip.isMounted (c : Chip) (disc : Nat) : Bool := c.lib.mounted.toList.contains (some disc)

/-- Asks for a disc at class `cls`; a request for a disc that is asked for or being mounted joins that mount (R665). -/
def Chip.askMount (c : Chip) (disc cls : Nat) : Chip :=
  if c.isMounted disc ∨ (c.lib.move.map fun m => m.disc == disc && m.kind == 1) = some true then c
  else if c.lib.reqs.any (fun r => r.kind == 0 && r.disc == disc && r.peer.isNone) then
    (c.modLib fun l => { l with
      reqs := l.reqs.map fun r => if r.kind = 0 ∧ r.disc = disc then { r with cls := min cls r.cls } else r }).updInv
  else (c.modLib fun l => { l with reqs := l.reqs ++ [{ cls := cls, kind := 0, spin := 8, disc := disc, at' := c.now }] }).updInv

/-- A disc that can still be mounted and read (R641, R649). -/
def InvRec.usable (r : InvRec) : Bool := (r.state == 1 || r.state == 2 || r.state == 3 || r.state == 5) && r.media ≤ 2

/-! ## Places (R634, R635, R663) -/

/-- Row, member and sector of offset `o` of a polder zone. -/
def Polder.place (p : Polder) (pz o : Nat) : Option (Nat × Nat × Nat) :=
  (p.rowQ pz (o / rowBlocks)).map fun q => (q, o % rowBlocks / 16, o % 16)

/-- Polder zone and row of a row sequence number, from the run tables. -/
def Polder.rowOf (p : Polder) (q : Nat) : Option (Nat × Nat) :=
  p.runs.findSome? fun z => (z.2.find? fun x => x.q ≤ q && q < x.q + x.n).map fun x => (z.1, x.r + (q - x.q))

/-- The disc from which member `m` of row `q` is read: that of its repair copy where there is one (R664), a completion target
where it has been recorded there (R665). -/
def Chip.sourceDisc (c : Chip) (p : Polder) (q m : Nat) : Option Nat :=
  match p.repairs.find? (fun r => r.1 == q && r.2.1 == m) with
  | some (_, _, rp, rq, rm) => (c.polder? rp).bind fun x => x.discOf (rm / 2) rq
  | none =>
    match p.targets.find? (fun t => t.member == m && q < t.next) with
    | some t => some t.disc
    | none => p.discOf (m / 2) q

/-- Member `m` has no ingot of row `q` to be read: it lags there, or its disc cannot be mounted (R641, R652). -/
def Chip.memberLost (c : Chip) (p : Polder) (q m : Nat) : Bool :=
  p.lag.any (fun l => l.1 == m && l.2 ≤ q && !p.targets.any fun t => t.member == m && q < t.next) ||
    match c.sourceDisc p q m with
    | some d => !(c.inv d).usable
    | none => true

/-- The host block that sector `sec` of data member `m` of row `q` holds: NSID and LBA, none for PAD (R691). -/
def Chip.blockAt (c : Chip) (p : Polder) (q m sec : Nat) : Option (Nat × Nat) :=
  (p.rowOf q).bind fun zr =>
    (p.zones.find? fun z => z.1 == zr.1).bind fun z =>
      let o := zr.2 * rowBlocks + m * 16 + sec
      if o < (c.zone p.nsid z.2).dataEnd then some (p.nsid, z.2 * zoneSize + o) else none

/-! ## A command's blocks (R696) -/

/-- A block of the read cache. -/
def Chip.cached (c : Chip) (nsid lba : Nat) : Option Block :=
  (c.lib.cache.find? fun e => e.1 == nsid && e.2.1 == lba).map (·.2.2)

/-- A staged block, as staging holds it. -/
def Chip.stagedBlock (c : Chip) (nsid z o : Nat) : Option Block :=
  (c.sluice.batches.find? fun b => b.nsid == nsid && b.zone == z && b.staged && b.ofs ≤ o && o < b.ofs + b.nlb).bind
    fun b => b.data[o - b.ofs]?

/-- A recorded block as the namespace reads it. -/
def NsSt.plain (n : NsSt) (lba : Nat) (b : Block) : Block := { n.decrypt lba b with md := b.md.take (lbafMd n.lbaf) }

/-- Blocks of the command that have not been found. -/
def Cmd.missing (k : Cmd) : List Nat := (List.range (Sqe.nlb k.sqe)).filter fun i => !k.got.any fun g => g.1 == i

/-- The command with block `i` found. -/
def Cmd.find (k : Cmd) (i : Nat) (b : Block) (written : Bool) : Cmd := { k with got := assocSet i (b, written) k.got }

/-- What is found of a read when its data path starts: zeros above the write pointer and PAD, staged data, cached data
(R696, R726). -/
def Chip.findBlocks (c : Chip) (n : NsSt) (k : Cmd) : Cmd :=
  let l := Sqe.slba k.sqe
  let z := l / zoneSize
  let x := n.zone z
  let k := { k with from' := x.bind, upTo := x.dataEnd, begun := true }
  (List.range (Sqe.nlb k.sqe)).foldl (fun (k : Cmd) i =>
    let o := l % zoneSize + i
    if x.dataEnd ≤ o then k.find i (zeroBlock (lbafMd n.lbaf)) false
    else
      match c.stagedBlock n.nsid z o, c.cached n.nsid (l + i) with
      | some b, _ => k.find i (n.plain (l + i) b) true
      | none, some b => k.find i (n.plain (l + i) b) true
      | none, none => k) k

/-- The end of a Verify: its checks on the stored metadata (R680, R705). -/
def Chip.verifyEnd (c : Chip) (slot : Nat) (k : Cmd) (n : NsSt) : Chip :=
  match c.piSend n (Sqe.pi k.sqe) false (k.got.map (·.2)) with
  | (c, .inl sc) => c.fail slot 2 sc true
  | (c, .inr _) => c.complete slot id

/-- The polder that a read takes its missing blocks from, and their places; none for a place that no run table gives. -/
def Chip.readPlaces (c : Chip) (k : Cmd) : Option (Polder × List (Option (Nat × Nat × Nat))) :=
  (k.from'.bind fun b => (c.polder? b.1).map fun p => (p, b.2)).map fun pz =>
    (pz.1, k.missing.map fun i => if pz.1.dirLoaded then pz.1.place pz.2 (Sqe.slba k.sqe % zoneSize + i) else none)

/-- Discs and sides that are wanted for one place: that of its member, those of the whole row where it is an erasure, all of the
polder where its directory is not loaded (R638, R641). -/
def Chip.wantsAt (c : Chip) (p : Polder) : Option (Nat × Nat × Nat) → List (Nat × Nat)
  | none => (List.range 16).filterMap fun m => (p.discOf (m / 2) p.nextQ).map fun d => (d, m % 2)
  | some (q, m, s) =>
    let erased := c.memberLost p q m || c.lib.sectors.any fun x =>
      x.polder == p.id && x.q == q && x.member == m && x.sec == s && x.data.isNone
    (if erased then List.range 16 else [m]).filterMap fun m =>
      if c.memberLost p q m then none else (c.sourceDisc p q m).map fun d => (d, m % 2)

/-- Discs and sides that a read wants. -/
def Chip.readWants (c : Chip) (k : Cmd) : List (Nat × Nat) :=
  match c.readPlaces k with
  | some (p, l) => (l.flatMap (c.wantsAt p)).eraseDups
  | none => []

/-- The phase of a read: its transfer once every block is found; failed where a block lies at a position declared
unrecoverable; else waiting for discs or for the media (R641, R642, R699). -/
def Chip.readGo (c : Chip) (slot : Nat) : Chip :=
  match c.cmdAt slot with
  | none => c
  | some k =>
    match c.ns? k.sqe.nsid.toNat with
    | none => c
    | some n =>
      let enter := fun (c : Chip) (ph : CmdPhase) => if k.phase = ph then c else c.setPhase slot ph
      if k.missing.isEmpty then (if k.sqe.opc = 0x0C then c.verifyEnd slot k n else enter c .dma)
      else
        match c.readPlaces k with
        | none => enter c .mount
        | some (p, l) =>
          if l.any (fun a => match a with
              | some (q, m, s) => p.dead.contains (q, m * 16 + s)
              | none => false) then c.fail slot 2 0x81 true
          else
            let far := ((c.readWants k).map (·.1)).eraseDups.filter fun d => !c.isMounted d
            enter (far.foldl (fun (c : Chip) d => c.askMount d 1) c) (if far.isEmpty then .media else .mount)

/-- A read, Compare or Verify of a standard namespace starts (R695, R696). -/
def Chip.readStart (c : Chip) (slot : Nat) (k : Cmd) (n : NsSt) : Chip :=
  let l := Sqe.slba k.sqe
  if l / zoneSize ≠ (l + Sqe.nlb k.sqe - 1) / zoneSize then c.fail slot 1 0xB8 true
  else if (n.zone (l / zoneSize)).st = .offline then c.fail slot 1 0xBB true
  else (c.modCmd slot fun _ => c.findBlocks n k).readGo slot

/-- Slots of the reads that wait for the media or a mount. -/
def Chip.waitingReads (c : Chip) : List Nat :=
  (c.host.slots.filter fun s => s.2.phase == .mount || s.2.phase == .media).map (·.1)

/-- Every waiting read looks again at what it needs. -/
def Chip.wakeReads (c : Chip) : Chip := c.waitingReads.foldl Chip.readGo c

/-- A block recorded in a polder zone reaches the reads that wait for it, and the read cache where the zone is still bound
there (R665, R734). -/
def Chip.feedBlock (c : Chip) (id pz nsid lba : Nat) (b : Block) : Chip :=
  match c.ns? nsid with
  | none => c
  | some n =>
    let x := n.zone (lba / zoneSize)
    let c := if x.bind = some (id, pz) ∨ x.moving = some (id, pz) then
        c.modLib fun l => { l with cache := (nsid, lba, b) :: l.cache.filter fun e => !(e.1 == nsid && e.2.1 == lba) }
      else c
    c.waitingReads.foldl (fun (c : Chip) slot =>
      match c.cmdAt slot with
      | none => c
      | some k =>
        let l := Sqe.slba k.sqe
        if k.from' = some (id, pz) ∧ k.sqe.nsid.toNat = nsid ∧ l ≤ lba ∧ lba < l + Sqe.nlb k.sqe then
          (c.modCmd slot fun k => if k.missing.contains (lba - l) then k.find (lba - l) (n.plain lba b) true else k).readGo slot
        else c) c

/-! ## The stripe buffer (R32, R639, R640) -/

/-- Enters a sector into the stripe buffer. -/
def Chip.placeSector (c : Chip) (x : RowSector) : Chip :=
  c.modLib fun l => { l with
    sectors := x :: l.sectors.filter fun y => !(y.polder == x.polder && y.q == x.q && y.member == x.member && y.sec == x.sec) }

/-- Slots of a layer and spiral of a surface that hold no ingot: recorded in Slot Maps, outstanding, or not yet passed on. -/
def Chip.consumedOn (c : Chip) (disc side layer spiral : Nat) : List Nat :=
  let s := (assocGet (disc * 2 + side) c.lib.surfaces).getD {}
  ((s.consumed ++ s.pending).filter fun x => x.layer == layer && x.spiral == spiral).map (·.slot)
    ++ (c.consumed.filter fun x => x.layer == layer && x.spiral == spiral && x.port % 2 == side
      && c.lib.mounted.toList.getD (x.port / 2) none == some disc).map (·.slot)

/-- Ordinal of the ingot of a slot on its surface (R639). -/
def Chip.ordinalOf (c : Chip) (disc side layer spiral slot : Nat) : Nat :=
  let s := (assocGet (disc * 2 + side) c.lib.surfaces).getD {}
  let below := ((List.range layer).map fun l =>
    if s.closed.contains l then ((List.range 4).map fun j => (assocGet (l * 4 + j) s.ingots).getD 0).sum else 1907456).sum
  let lost := ((c.consumedOn disc side layer spiral).filter fun x => 384 ≤ x && x < slot).length
  below + (slot - 384 - lost) * 4 + spiral

/-- Polder, row and member whose ingot a slot of a mounted disc should hold. -/
def Chip.expectAt (c : Chip) (i : ReadItem) : Option (Nat × Nat × Nat) :=
  match c.lib.mounted.toList.getD (i.port / 2) none with
  | none => none
  | some d =>
    let r := c.inv d
    if r.polder = 0 ∨ 8 ≤ r.position then none
    else some (r.polder, r.firstRow + c.ordinalOf d i.side i.layer i.spiral i.slot, 2 * r.position + i.side)

/-- Row sequence number that a sector's ZONE and ROW name in a polder (R635, R637, R663). -/
def Polder.seqOf (p : Polder) (zone row : Nat) : Option Nat :=
  if zone = 0xFFFF then p.dir.map fun d => d.1 + row else p.rowQ zone row

/-- The sector of the stripe buffer at an address came from an ingot of a higher RSN (R223). -/
def Chip.newerSector (c : Chip) (id q m sec rsn : Nat) : Bool :=
  c.lib.sectors.any fun y => y.polder == id && y.q == q && y.member == m && y.sec == sec && y.data.isSome && rsn < y.rsn

/-- A good sector is placed by its metadata (R206, R640): in the stripe buffer, and as a host block where it holds one. Of two copies the
one with the higher RSN holds the ingot (R223). -/
def Chip.placeGood (c : Chip) (i : ReadItem) : Chip :=
  let fld := metaField i.payload
  let id := fld 32 8
  let flags := fld 46 2
  match c.polder? id with
  | none => c
  | some p =>
    match p.seqOf (fld 40 2) (fld 42 2) with
    | none => c
    | some q =>
      if c.newerSector id q (fld 44 1) (fld 45 1) (fld 48 8) then c
      else
        let c := c.placeSector ⟨id, q, fld 44 1, fld 45 1, some (i.payload.take 4112), fld 48 8, some (i.layer, i.spiral, i.slot)⟩
        if flags.testBit 0 ∨ fld 16 8 = 2 ^ 64 - 1 then c
        else c.feedBlock id (fld 40 2) (fld 24 4) (fld 16 8) ⟨i.payload.take 4096, (i.payload.drop 4096).take 16⟩

/-- The slot of an item holds an ingot that may be used: not a test, control or pressed slot (R198), not consumed (R223), and not in a
region whose burn is open (R118, R236). -/
def Chip.usable (c : Chip) (i : ReadItem) : Bool :=
  ingotSlot i.slot &&
    match c.lib.mounted.toList.getD (i.port / 2) none with
    | none => true
    | some d => !(c.consumedOn d i.side i.layer i.spiral).contains i.slot
        && !c.lib.burns.any fun b => b.disc == d && b.side == i.side && b.layer == i.layer && b.first ≤ i.slot && i.slot ≤ b.last

/-- What was read of a slot that turns out to be abandoned holds no ingot (R218, R223). -/
def Chip.abandoned (c : Chip) (i : ReadItem) (id q m : Nat) : Chip :=
  c.modLib fun l => { l with
    sectors := l.sectors.map fun y =>
      if y.polder == id && y.q == q && y.member == m && y.src == some (i.layer, i.spiral, i.slot) then { y with data := none } else y }

/-- One item of X8 reaches the stripe buffer (R32, R631). -/
def Chip.placeItem (c : Chip) (i : ReadItem) : Chip :=
  if i.verify ∨ 16 ≤ i.sec ∨ !c.usable i then c
  else if i.status ≤ 2 then c.placeGood i
  else
    match c.expectAt i with
    | some (id, q, m) =>
      let c := if i.status = 5 then c.abandoned i id q m else c
      (if c.newerSector id q m i.sec 0 then c else c.placeSector ⟨id, q, m, i.sec, none, 0, none⟩).wakeReads
    | none => c

/-! ## The cross-surface code (R630) -/

/-- Locator of member `m`. -/
def rsLoc (m : Nat) : Nat := gfPow (15 - m)

/-- Coefficients, lowest first, of the product of (x + a) over `as`. -/
def gfPoly (as : List Nat) : List Nat :=
  as.foldl (fun p a => ((0 :: p).zip (p.map (gfMul a) ++ [0])).map fun v => v.1 ^^^ v.2) [1]

/-- One byte of erased member `e`, from the bytes of the other members, where the erased ones are `es`. -/
def rsByte (es : List Nat) (e : Nat) (known : List (Nat × Nat)) : Nat :=
  let others := es.filter (· != e)
  let num := gfPoly (others.map rsLoc)
  let den := others.foldl (fun a f => gfMul a (rsLoc e ^^^ rsLoc f)) 1
  let syn := fun (j : Nat) => known.foldl (fun a k => a ^^^ gfMul k.2 (gfPow ((15 - k.1) * j % 255))) 0
  gfMul (gfInv den) ((num.zipIdx.map fun v => gfMul v.1 (syn v.2)).foldl (· ^^^ ·) 0)

/-- The bytes of erased member `e` (R631). -/
def rsDecode (es : List Nat) (e : Nat) (known : List (Nat × List Byte)) : List Byte :=
  (List.range 4112).map fun i =>
    BitVec.ofNat 8 (rsByte es e (known.map fun k => (k.1, (k.2.getD i 0).toNat)))

/-- The members of a sector position in the stripe buffer. -/
def Chip.position (c : Chip) (id q sec : Nat) : List (Nat × List Byte) :=
  (List.range 16).filterMap fun m =>
    (c.lib.sectors.find? fun x => x.polder == id && x.q == q && x.member == m && x.sec == sec).bind fun x =>
      x.data.map fun d => (m, d)

/-- A position is unrecoverable (R632, R642): its erased data sectors are dead, their blocks are entered as lost and the row is
to be walked at once. -/
def Chip.unrecoverable (c : Chip) (p : Polder) (q sec kind : Nat) (es : List Nat) : Chip :=
  let ds := es.filter (· < 12)
  let c := c.modPolder p.id fun p => { p with dead := p.dead ++ ((ds.map fun m => (q, m * 16 + sec)).filter fun x => !p.dead.contains x) }
  let c := (c.statAdd .polder Reg.POLDER.READ_STAT_UNRECOVERED 1).fault .polder 0 kind 2 0 q
  let c := c.modLib fun l => { l with walkNow := (l.walkNow.filter fun x => !(x.1 == p.id && x.2.1 == q)) ++ [(p.id, q, 255)] }
  let c := ds.foldl (fun (c : Chip) m =>
    match c.blockAt p q m sec with
    | some (nsid, lba) => (c.modLog fun l => { l with mediaErrors := l.mediaErrors + 1 }).lostRange nsid 1 lba 1
    | none => c) c
  c.wakeReads

/-- The erased data sectors of a position are recovered and used (R631, R632). -/
def Chip.recovered (c : Chip) (p : Polder) (q sec : Nat) (es : List Nat) (known : List (Nat × List Byte)) : Chip :=
  let c := c.statAdd .polder Reg.POLDER.READ_STAT_RECON 1
  (es.filter (· < 12)).foldl (fun (c : Chip) m =>
    let d := rsDecode es m known
    let c := c.placeSector ⟨p.id, q, m, sec, some d, 0, none⟩
    match c.blockAt p q m sec, p.rowOf q with
    | some (nsid, lba), some (pz, _) => c.feedBlock p.id pz nsid lba ⟨d.take 4096, d.drop 4096⟩
    | _, _ => c) c

/-- Decodes a position, or declares it unrecoverable once its retry has run; `read` says which members have nothing more to
give (R631, R632, R642, R643). -/
def Chip.decodePos (c : Chip) (p : Polder) (q sec : Nat) (mismatch : Bool) (es : List Nat) (read : Nat → Bool) : Chip :=
  if es.isEmpty then c
  else if es.length ≤ 4 then
    (if mismatch then c.unrecoverable p q sec 2 es else c.recovered p q sec es (c.position p.id q sec))
  else if es.all read ∧ c.lib.retried.contains (p.id, q, sec) then c.unrecoverable p q sec 1 es
  else c

/-- Erased members of a position, as the stripe buffer shows them. -/
def Chip.erasedOf (c : Chip) (id q sec : Nat) : List Nat :=
  let known := c.position id q sec
  (List.range 16).filter fun m => !known.any fun k => k.1 == m

/-- Decodes a position by what is known of its erased members now (R631). -/
def Chip.decodeNow (c : Chip) (p : Polder) (q sec : Nat) (mismatch : Bool) : Chip :=
  c.decodePos p q sec mismatch (c.erasedOf p.id q sec) fun m => c.memberLost p q m || c.lib.sectors.any fun x =>
    x.polder == p.id && x.q == q && x.member == m && x.sec == sec

/-- The check of a regenerated sector has returned: the position is used or declared unrecoverable (R632, R770). -/
def Chip.returnCheck (c : Chip) (k : ReconCheck) : Chip :=
  match c.polder? k.polder with
  | none => c
  | some p => c.decodeNow p k.q k.sec k.bad

/-- R643: a new ACQUIRE, and every erased sector of the position is read once more. -/
def execErasureRetry (polder : BitVec 64) (q : BitVec 24) (sec : Fin 16) (s : State) : Out :=
  s.to fun c =>
    let k := (polder.toNat, q.toNat, sec.val)
    if !c.islandUp .polder ∨ c.lib.retried.contains k then c
    else c.modLib fun l => { l with
      retried := l.retried ++ [k]
      sectors := l.sectors.filter fun x => !(x.polder == k.1 && x.q == k.2.1 && x.sec == k.2.2 && x.data.isNone) }

/-! ## Crossings (R19 to R24) -/

/-- The page of the block that receives an item (R24): island `i`, and unit `u` of it where it has several blocks; the collector is
the block that receives X16. -/
def islandPage (u : Nat) : Island → Option Page
  | .aon => some .fault | .host => some .host | .cmd => some .cmd | .mem => some .mem | .polder => some .polder
  | .rstore => some .rstore | .mgmt => none | .ctrl => some (.loop (Fin.ofNat 4 u)) | .spindle => some (.spin (Fin.ofNat 8 u))
  | .axis => some (.axis (Fin.ofNat 22 u)) | .assay => some .assay | .peer => some .peer | .head h => some (.head h)
  | .beam h b => some (.beam h b)

/-- The newest item of crossing `x` that has not arrived is discarded (R19, R22): a conditioned sample, a servo set, an actuator
group, a write symbol, a spindle setpoint or a fault message. The levels of X6, X7 and X21 that go to the control engine are put
by the commands that carry them, so nothing of them waits. -/
def Chip.dropItem (c : Chip) (x u : Nat) (i : Island) : Chip :=
  match x, i with
  | 1, .beam h b => c.modBm h b fun y => { y with ys := y.ys.drop 1 }
  | 3, _ =>
    let h : Port := Fin.ofNat 16 u
    { c with sets := c.sets.set h.val ((c.sets.get h).drop 1) h.isLt }
  | 4, .head h => c.modHd h fun y => { y with groupReady := false }
  | 5, .head h => c.modBm h (Fin.ofNat 5 u) fun y => { y with stream := y.stream.drop 1 }
  | 6, .spindle => { c with spinDem := assocDel (u % 8) c.spinDem }
  | 16, _ => { c with x16 := c.x16.dropLast }
  | _, _ => c

/-- An item of crossing `x` towards unit `u` of island `i` (R19, R22, R24): discarded and reported where the island is absent or the
crossing overflowed, else delivered. X8 keeps the order of each beam, and `u` names the beam whose oldest item arrives. -/
def Chip.crossing (c : Chip) (x : Nat) (i : Island) (u : Nat) (overflow : Bool) : Chip :=
  if !c.islandUp i then (c.dropItem x u i).absentItem x
  else if overflow ∧ (x ≤ 7 ∨ x = 16 ∨ x = 21) then
    let c := (c.dropItem x u i).fault .sys 2 2 1 x 0x010
    match islandPage u i with
    | some p => c.dlMiss p
    | none => c
  else if x = 8 then
    match c.stripe.findIdx? (fun k => 5 * k.port + k.beam == u) with
    | some n => match c.stripe[n]? with
      | some k => k.checks.foldl Chip.returnCheck ((c.stripeTake n).placeItem k)
      | none => c
    | none => c
  else c

/-- R21: `x` is the crossing's number less 1 (X1 to X22), `unit` its ordering unit. An item of a crossing whose items the state does
not hold is what the command that carries it does; R23 gives no crossing a depth, so what back-pressures its sender is not seen
(log 161). -/
def execCrossingDelivery (x : Fin 22) (dest : Island) (unit : Fin 80) (overflow : Bool) (s : State) : Out :=
  s.to fun c => c.crossing (x.val + 1) dest unit.val overflow

end Sys2Proof.Machine
end

