-- ==== Sys2Proof/Machine/Io.lean ====
section
/-!
DEFINITION. The I/O commands, their data transfer and the mount wait (R680, R687 to R706, R725, R726).
-/
namespace Sys2Proof.Machine

/-! ## Writes (R694, R695) -/

/-- A write-class command of a standard namespace asks for admission, or takes its place in write-through (R694, R756). `kind` is
that of its batch. -/
def Chip.writeStart (c : Chip) (slot : Nat) (k : Cmd) (n : NsSt) (kind : Nat) : Chip :=
  let l := Sqe.slba k.sqe
  match rangeStatus n k.sqe (kind != 2) with
  | some (sct, sc) => c.fail slot sct sc true
  | none =>
    if kind = 3 ∧ l % zoneSize ≠ 0 then c.fail slot 0 0x02 true
    else if n.badRef (Sqe.pi k.sqe) l then c.fail slot 1 0x81 true
    else
      let id := c.sluice.nextId
      let wt := c.nsWt n.nsid
      let b : Batch := { id := id, kind := kind, slot := some slot, nsid := n.nsid, zone := l / zoneSize, ofs := l % zoneSize
                         nlb := Sqe.nlb k.sqe, keyTag := n.keyTag, since := c.now, wt := wt }
      let c := c.modSluice fun s => { s with nextId := id + 1, batches := s.batches ++ [b] }
      let c := (c.setPhase slot .admission).modCmd slot fun k => { k with batch := some id }
      if wt then (c.startZone n.nsid (l / zoneSize)).updSluice else c.admission

/-- Place of a maintenance block in the record store (R685). -/
def maintKey (nsid lba : Nat) : Nat := nsid * 2 ^ 22 + lba

/-- Programs blocks of a maintenance namespace (R688). -/
def Chip.maintStore (c : Chip) (n : NsSt) (lba : Nat) (bs : List Block) : Chip :=
  { c with rs := { c.rs with
      maint := (n.encrypt lba bs).zipIdx.foldl (fun m b => assocSet (maintKey n.nsid (lba + b.2)) b.1 m) c.rs.maint } }

/-- A maintenance write has its blocks: they are programmed, and it completes (R688). -/
def Chip.maintDone (c : Chip) (slot : Nat) (k : Cmd) (n : NsSt) (bs : List Block) : Chip :=
  if !c.rs.mounted then c.fail slot 0 0x82 false
  else ((c.maintStore n (Sqe.slba k.sqe) bs).modLog fun l => { l with blocksWritten := l.blocksWritten + bs.length }).complete slot id

/-- A write to a maintenance namespace starts (R685, R688); a Write Zeroes transfers nothing. -/
def Chip.maintWrite (c : Chip) (slot : Nat) (k : Cmd) (n : NsSt) (zeroes : Bool) : Chip :=
  match rangeStatus n k.sqe (!zeroes) with
  | some (sct, sc) => c.fail slot sct sc true
  | none =>
    if !c.rs.mounted then c.fail slot 0 0x82 false
    else if n.badRef (Sqe.pi k.sqe) (Sqe.slba k.sqe) then c.fail slot 1 0x81 true
    else if zeroes then
      let bs := List.replicate (Sqe.nlb k.sqe) (zeroBlock (lbafMd n.lbaf))
      match c.piReceive n { Sqe.pi k.sqe with guard := false, app := false, ref := false } false false (Sqe.slba k.sqe) bs with
      | (c, .inr bs) => c.maintDone slot k n bs
      | (c, .inl sc) => c.fail slot 2 sc true
    else c.setPhase slot .dma

/-- R694. -/
def execIoWrite (slot : Fin 3072) (s : State) : Out :=
  s.to fun c => c.nsCmd slot.val (fun q => q.opc == 0x01) fun c k n =>
    if n.std then c.writeStart slot.val k n 1 else c.maintWrite slot.val k n false

/-- R680. -/
def execIoWriteZeroes (slot : Fin 3072) (s : State) : Out :=
  s.to fun c => c.nsCmd slot.val (fun q => q.opc == 0x08) fun c k n =>
    if n.std then c.writeStart slot.val k n 2 else c.maintWrite slot.val k n true

/-- R694: not for a maintenance namespace (R680). -/
def execZoneAppend (slot : Fin 3072) (s : State) : Out :=
  s.to fun c => c.nsCmd slot.val (fun q => q.opc == 0x7D) fun c k n =>
    if n.std then c.writeStart slot.val k n 3 else c.fail slot.val 0 0x01 true

/-! ## Reads (R680, R685, R696) -/

/-- A read of a maintenance namespace finds its blocks at once (R685). -/
def Chip.maintRead (c : Chip) (slot : Nat) (k : Cmd) (n : NsSt) : Chip :=
  if !c.rs.mounted then c.fail slot 0 0x82 false
  else
    let l := Sqe.slba k.sqe
    let found := (List.range (Sqe.nlb k.sqe)).map fun i =>
      match assocGet (maintKey n.nsid (l + i)) c.rs.maint with
      | some b => (i, n.decrypt (l + i) b, true)
      | none => (i, zeroBlock (lbafMd n.lbaf), false)
    (c.modCmd slot fun k => { k with got := found }).readGo slot

/-- A command that reads starts; `data` says that it transfers its blocks. -/
def Chip.readCmd (c : Chip) (slot : Nat) (k : Cmd) (n : NsSt) (data : Bool) : Chip :=
  match rangeStatus n k.sqe data with
  | some (sct, sc) => c.fail slot sct sc true
  | none =>
    if n.badRef (Sqe.pi k.sqe) (Sqe.slba k.sqe) then c.fail slot 1 0x81 true
    else if n.std then c.readStart slot k n
    else c.maintRead slot k n

/-- R696. -/
def execIoRead (slot : Fin 3072) (s : State) : Out :=
  s.to fun c => c.nsCmd slot.val (fun q => q.opc == 0x02) fun c k n => c.readCmd slot.val k n true

/-- R680. -/
def execIoCompare (slot : Fin 3072) (s : State) : Out :=
  s.to fun c => c.nsCmd slot.val (fun q => q.opc == 0x05) fun c k n => c.readCmd slot.val k n true

/-- R680. -/
def execIoVerify (slot : Fin 3072) (s : State) : Out :=
  s.to fun c => c.nsCmd slot.val (fun q => q.opc == 0x0C) fun c k n => c.readCmd slot.val k n false

/-- R698: with the ordering mark a Flush waits for every command fetched before it from its SQ (log 93), else it completes at
once. -/
def execIoFlush (slot : Fin 3072) (s : State) : Out :=
  s.to fun c => c.ioCmd slot.val (fun q => q.opc == 0x00) fun c k =>
    if c.marked k && c.earlier k fun _ => true then c
    else if (c.ns? k.sqe.nsid.toNat).isNone ∧ k.sqe.nsid ≠ 0xFFFFFFFF then c.fail slot.val 0 0x0B true
    else c.complete slot.val id

/-! ## The end of a data transfer (R702 to R706) -/

/-- Counts and reports a DMA fault (R704). -/
def Chip.dmaFault (c : Chip) (f : DmaFault) : Chip :=
  (c.statAdd .host (match f with
    | .abort => Reg.HOST.DMA_ERR_CA | .unsupported => Reg.HOST.DMA_ERR_UR
    | .poison => Reg.HOST.DMA_ERR_POISON | .timeout => Reg.HOST.DMA_ERR_TIMEOUT) 1).fault0 .host 1 1 0

/-- A fault on writing a completion entry: CFS of that controller only, and no completion (R704). -/
def Chip.cqFault (c : Chip) (slot : Nat) (k : Cmd) : Chip :=
  ((c.modCtl k.ctrl fun x => { x with cfs := true }).fault0 .host 1 2 2).modCmd slot fun k => { k with silent := true }

/-- A command fails at its transfer; the zone of a write goes on from the unchanged write pointer (R694, R702). -/
def Chip.dmaFailed (c : Chip) (slot : Nat) (k : Cmd) (sct sc : Nat) (dnr : Bool) : Chip :=
  match k.batch.bind c.batch? with
  | some b => (((c.modBatch b.id fun b => { b with slot := none }).dropBatch b.id).fail slot sct sc dnr).startZone b.nsid b.zone
  | none => c.fail slot sct sc dnr

/-- Blocks as a transfer for namespace `n` carries them: with PRACT no metadata is transferred where it is all protection
information (NVMe, PRESUMED, log 84). -/
def Block.fits (n : NsSt) (q : PiCmd) (b : Block) : Bool :=
  b.data.length == 4096 && b.md.length == (if q.act && n.piType != 0 then 0 else lbafMd n.lbaf)

/-- A write has its data (R694, R705). -/
def Chip.writeDone (c : Chip) (slot : Nat) (k : Cmd) (n : NsSt) (r : DmaResult) : Chip :=
  match k.batch.bind c.batch? with
  | some b =>
    match c.piReceive n (Sqe.pi k.sqe) (b.kind == 3) r.engineB (b.zone * zoneSize + b.ofs) r.blocks with
    | (c, .inl sc) => c.dmaFailed slot k 2 sc true
    | (c, .inr bs) => (c.stageBatch b.id bs).startZone b.nsid b.zone
  | none =>
    match c.piReceive n (Sqe.pi k.sqe) false r.engineB (Sqe.slba k.sqe) r.blocks with
    | (c, .inl sc) => c.fail slot 2 sc true
    | (c, .inr bs) => c.maintDone slot k n bs

/-- Length of a descriptor (R701). -/
def SglDesc.len : SglDesc → Nat
  | .block n | .bucket n => n
  | .other => 0

/-- The bytes of a transfer that reach host memory: those of a Bit Bucket are dropped (R701). -/
def sglTake : List SglDesc → List Byte → List Byte
  | [], _ => []
  | .block n :: r, bs => bs.take n ++ sglTake r (bs.drop n)
  | .bucket n :: r, bs => sglTake r (bs.drop n)
  | .other :: r, bs => sglTake r bs

/-- The status of an SGL that cannot describe a transfer of `need` bytes: more than 256 Data Blocks or 16 segments, a descriptor that
the command does not accept, or too short; `short` is the status of the last (R701; NVMe's codes, PRESUMED, log 179). -/
def sglStatus (reads : Bool) (segs : List (List SglDesc)) (need short : Nat) : Option Nat :=
  let ds := segs.flatten
  let takes := fun (x : SglDesc) => match x with
    | .block _ => true
    | .bucket _ => reads
    | .other => false
  if 16 < segs.length ∨ 256 < (ds.filter fun x => match x with | .block _ => true | _ => false).length then some 0x0E
  else if !ds.all takes then some 0x11
  else if (ds.map SglDesc.len).sum < need then some short
  else none

/-- Bytes of data and of separate metadata that a transfer of `n` blocks moves (R686). -/
def NsSt.moves (n : NsSt) (q : Sqe) : Nat × Nat :=
  let md := if (Sqe.pi q).act && n.piType != 0 then 0 else lbafMd n.lbaf
  if n.extLba then (Sqe.nlb q * (4096 + md), 0) else (Sqe.nlb q * 4096, Sqe.nlb q * md)

/-- The status that the description of a command's buffers ends it with (R701). -/
def NsSt.bufferStatus (n : NsSt) (q : Sqe) (r : DmaResult) : Option Nat :=
  let m := n.moves q
  if q.psdt = 0 then none
  else if q.psdt = 3 then some 0x02
  else
    (sglStatus (q.opc == 0x02) r.sgl m.1 0x0F).or
      (if q.psdt = 2 ∧ m.2 ≠ 0 then sglStatus (q.opc == 0x02) [r.mdSgl] m.2 0x10 else none)

/-- A read's data have been transferred: extended LBAs in one buffer, or data and metadata in two, dropping what a Bit Bucket takes
(R686, R701). -/
def Chip.readDone (c : Chip) (slot : Nat) (n : NsSt) (q : Sqe) (r : DmaResult) (bs : List Block) : Chip :=
  let data := bs.flatMap fun b => if n.extLba then b.data ++ b.md else b.data
  let md := if n.extLba then [] else bs.flatMap (·.md)
  (c.modLog fun l => { l with blocksRead := l.blocksRead + bs.length }).complete slot fun k => { k with
    data := if q.psdt = 0 then data else sglTake r.sgl.flatten data
    md := if q.psdt = 2 then sglTake r.mdSgl md else md }

/-- The end of a Compare: metadata is compared where it was transferred (R680, R725). -/
def Chip.compareDone (c : Chip) (slot : Nat) (bs host : List Block) : Chip :=
  if bs = host then c.complete slot id else c.fail slot 2 0x85 true

/-- The stored blocks pass their protection checks and are transferred or compared, or the command fails (R703, R705). -/
def Chip.sendDone (c : Chip) (slot : Nat) (k : Cmd) (n : NsSt) (r : DmaResult) : Chip :=
  match c.piSend n (Sqe.pi k.sqe) r.engineB (k.got.map (·.2)) with
  | (c, .inl sc) => c.fail slot 2 sc true
  | (c, .inr bs) =>
    match r.fault with
    | some f => (c.dmaFault f).fail slot 0 0x04 false
    | none => if k.sqe.opc = 0x05 then c.compareDone slot bs r.blocks else c.readDone slot n k.sqe r bs

/-- The data of a write forwarded to the partner have been received from the host and go to it (R830). Where the transfer faulted,
the command ends here (log 112). -/
def Chip.fwdWrite (c : Chip) (slot : Nat) (st : Option Nat) (r : DmaResult) : Chip :=
  match r.fault, st with
  | some f, _ => (c.dmaFault f).fail slot 0 0x04 false
  | none, some sc => c.fail slot 0 sc true
  | none, none => (List.range (divUp r.blocks.length 3)).foldl (fun (c : Chip) i =>
      c.daxSend true 0x31 [slot, min 3 (r.blocks.length - 3 * i)]) c

/-- The end of the data transfer of the command in a slot. The blocks of a write that the partner forwarded are those of its
FWD_DATA frames. -/
def Chip.dmaDone (c : Chip) (slot : Nat) (r : DmaResult) : Chip :=
  match c.cmdAt slot with
  | none => c
  | some k =>
    match c.ns? k.sqe.nsid.toNat with
    | none => c
    | some n =>
      let r := if k.origin = 1 ∧ Sqe.isWrite k.sqe then { r with blocks := (assocGet k.sqe.cid.toNat c.peer.fwdHeld).getD [] } else r
      let whole := r.blocks.length == Sqe.nlb k.sqe && r.blocks.all (Block.fits n (Sqe.pi k.sqe))
      let takes := k.sqe.opc != 0x02
      if k.phase = .forwarded ∧ Sqe.isWrite k.sqe ∧ (r.fault.isSome ∨ whole) then c.fwdWrite slot (n.bufferStatus k.sqe r) r
      else if k.phase ≠ .dma ∨ (r.fault.isNone ∧ takes ∧ !whole) then c
      else
        let c := if r.cqFault then c.cqFault slot k else c
        let st := if k.origin = 1 ∨ r.fault.isSome then none else n.bufferStatus k.sqe r
        if let some sc := st then if Sqe.isWrite k.sqe then c.dmaFailed slot k 0 sc true else c.fail slot 0 sc true
        else if Sqe.isWrite k.sqe then
          match r.fault with
          | some f => (c.dmaFault f).dmaFailed slot k 0 0x04 false
          | none => c.writeDone slot k n r
        else c.sendDone slot k n r

/-- R694, R702 to R706. -/
def execCmdDmaDone (slot : Fin 3072) (r : DmaResult) (s : State) : Out :=
  s.to fun c => if c.islandUp .host && c.islandUp .mem then c.dmaDone slot.val r else c

/-- Ticks of MOUNT_WAIT (R730). -/
def Chip.mountWait (c : Chip) : Nat := secs (max 1 (c.rd .cmd Reg.CMD.MOUNT_WAIT_SECONDS))

/-- R699. -/
def execMountTimeout (slot : Fin 3072) (s : State) : Out :=
  s.to fun c =>
    match c.cmdAt slot.val with
    | some k => if k.phase = .mount then ((c.until' (k.since + c.mountWait)).fault0 .cmd 1 1 0).interrupted slot.val else c
    | none => c

/-! ## Zone Management Send (R692, R693) -/

/-- Zones of a namespace. -/
def NsSt.zoneCount (n : NsSt) : Nat := n.size / zoneSize

/-- A Zone Management Send of action `zsa` begins: on a standard namespace, naming the start of a zone unless Select All is
set (ZNS, PRESUMED, log 96). -/
def Chip.zoneSend (c : Chip) (slot zsa : Nat) (f : Chip → Cmd → NsSt → Bool → Nat → Chip) : Chip :=
  c.nsCmd slot (fun q => q.opc == 0x79 && q.cdw13.toNat % 256 == zsa) fun c k n =>
    let all := k.sqe.cdw13.toNat.testBit 8
    let l := Sqe.slba k.sqe
    if !n.std then c.fail slot 0 0x01 true
    else if !all ∧ n.size ≤ l then c.fail slot 0 0x80 true
    else if !all ∧ l % zoneSize ≠ 0 then c.fail slot 0 0x02 true
    else f c k n all (l / zoneSize)

/-- Zones of a namespace in states `f`, lowest first. -/
def NsSt.zonesIn (n : NsSt) (f : ZState → Bool) : List Nat := (n.zones.filter fun z => f z.2.st).map (·.1)

/-- Opens every Closed zone while the limits let it. -/
def Chip.openAll (c : Chip) (slot nsid : Nat) (zs : List Nat) : Chip :=
  match zs with
  | [] => c.complete slot id
  | z :: r =>
    match c.openZone nsid z true with
    | (some (sct, sc), c) => c.fail slot sct sc true
    | (none, c) => c.openAll slot nsid r

/-- R692. -/
def execZoneOpen (slot : Fin 3072) (s : State) : Out :=
  s.to fun c => c.zoneSend slot.val 3 fun c _ n all z =>
    if all then c.openAll slot.val n.nsid (n.zonesIn (· == .closed))
    else if (n.zone z).st = .full ∨ (n.zone z).st = .offline then c.fail slot.val 1 0xBF true
    else c.openAll slot.val n.nsid [z]

/-- R692. -/
def execZoneClose (slot : Fin 3072) (s : State) : Out :=
  s.to fun c => c.zoneSend slot.val 1 fun c _ n all z =>
    let close := fun (c : Chip) z => c.modZone n.nsid z fun x => { x with st := .closed }
    if all then ((n.zonesIn ZState.isOpen).foldl close c).complete slot.val id
    else if (n.zone z).st.isActive then (close c z).complete slot.val id
    else c.fail slot.val 1 0xBF true

/-- Batches of a zone that hold a command and satisfy `f`. -/
def Chip.zoneBatches (c : Chip) (nsid z : Nat) (f : Batch → Bool) : List Batch :=
  c.sluice.batches.filter fun b => b.nsid == nsid && b.zone == z && b.kind != 0 && f b

/-- Finishes a zone (R692, R726): what waits for admission or DMA completes with Zone Is Full, the write pointer goes to the zone
end and a partial last row is assembled with PAD. -/
def Chip.finishZone (c : Chip) (nsid z : Nat) : Chip :=
  let c := (c.zoneBatches nsid z fun b => !b.staged && b.slot.isSome).foldl (fun (c : Chip) b => c.failBatch b.id 1 0xB9) c
  let x := c.zone nsid z
  if x.st = .full then c
  else
    let c := c.modZone nsid z fun x => { x with st := .full, wp := zoneSize }
    match x.bind with
    | some (p, _) => c.assemble p
    | none => c

/-- R692. -/
def execZoneFinish (slot : Fin 3072) (s : State) : Out :=
  s.to fun c => c.zoneSend slot.val 2 fun c _ n all z =>
    if all then ((n.zonesIn ZState.isActive).foldl (fun (c : Chip) z => c.finishZone n.nsid z) c).complete slot.val id
    else if (n.zone z).st = .offline then c.fail slot.val 1 0xBF true
    else (c.finishZone n.nsid z).complete slot.val id

/-- Discs of a polder that has become RETIRED (R629; log 97). -/
def Chip.retireDiscs (c : Chip) (p : Polder) : Chip :=
  (p.segs.flatten.map (·.disc)).foldl (fun (c : Chip) d => c.modInv d fun r => { r with media := 6 }) c

/-- A polder zone is released or migrated; the polder becomes RETIRED with its last one (R629, R693). -/
def Chip.releaseZone (c : Chip) (id pz : Nat) : Chip :=
  let c := c.modPolder id fun p => { p with zones := p.zones.filter (·.1 != pz), released := p.released + 1 }
  match c.polder? id with
  | none => c
  | some p =>
    if p.zones.isEmpty ∧ (p.nextZone = 7450 ∨ !p.recording) ∧ p.st ≠ .retired then
      ((c.retireDiscs p).modPolder id fun p => { p with st := .retired, recording := false }).event .polder 0
    else c

/-- A Zone Migrate of a zone ends unfinished (R724). -/
def Chip.endMigrate (c : Chip) (nsid z : Nat) : Chip :=
  let x := c.zone nsid z
  match x.moving with
  | none => c
  | some (id, pz) =>
    let c := (c.modZone nsid z fun x => { x with moving := none }).releaseZone id pz
    match c.host.slots.find? (fun s => s.2.sqe.opc == 0xC2 && s.2.sq == 0 && s.2.phase == .firmware && s.2.sqe.nsid.toNat == nsid
        && Sqe.slba s.2.sqe == z * zoneSize) with
    | some s => c.fail s.1 0 0x07 true
    | none => c

/-- Drops what the read cache and the Lost LBA log hold of a range (R734, R859). -/
def Chip.forgetRange (c : Chip) (nsid lo hi : Nat) : Chip :=
  (c.modLib fun l => { l with cache := l.cache.filter fun e => !(e.1 == nsid && lo ≤ e.2.1 && e.2.1 < hi) }).modLog fun l => { l with
    lost := l.lost.filter fun e => !(e.nsid == nsid && lo ≤ e.slba && e.slba < hi) }

/-- Releases a zone's binding and returns it to Empty. -/
def Chip.emptyZone (c : Chip) (nsid z : Nat) : Chip :=
  let c := c.endMigrate nsid z
  let x := c.zone nsid z
  let c := match x.bind with
    | some (id, pz) => c.releaseZone id pz
    | none => c
  (c.forgetRange nsid (z * zoneSize) ((z + 1) * zoneSize)).setZone nsid z { st := .empty }

/-- Zone Reset of a zone whose staged commands have all been answered (R693). -/
def Chip.resetZone (c : Chip) (nsid z : Nat) : Chip :=
  let c := (c.zoneBatches nsid z fun b => b.staged && b.wt).foldl (fun (c : Chip) b => c.ackBatch b.id) c
  let c := (c.zoneBatches nsid z fun b => !b.staged && b.slot.isSome).foldl (fun (c : Chip) b => c.failBatch b.id 1 0xBC) c
  let c := (c.zoneBatches nsid z fun _ => true).foldl (fun (c : Chip) b =>
    (if c.linkUp && b.sent then c.daxSend false 0x12 [b.seq.getD 0] else c).dropBatch b.id) c
  (c.emptyZone nsid z).admission

/-- Zone Reset must wait for a staged command of the zone to be answered (R693); one in write-through does not hold it back. -/
def Chip.resetWaits (c : Chip) (nsid z : Nat) : Bool :=
  !(c.zoneBatches nsid z fun b => b.staged && b.slot.isSome && !b.wt).isEmpty

/-- R693: while it must wait, nothing happens (log 93). -/
def execZoneReset (slot : Fin 3072) (s : State) : Out :=
  s.to fun c => c.zoneSend slot.val 4 fun c _ n all z =>
    let zs := if all then n.zonesIn (fun t => t.isActive || t == .full) else [z]
    if !all ∧ (n.zone z).st = .offline then c.fail slot.val 1 0xBF true
    else if zs.any (c.resetWaits n.nsid) then c
    else (zs.foldl (fun (c : Chip) z => c.resetZone n.nsid z) c).complete slot.val id

/-- R692: no zone is Read Only. -/
def execZoneOfflineAction (slot : Fin 3072) (s : State) : Out :=
  s.to fun c => c.zoneSend slot.val 5 fun c _ _ _ _ => c.fail slot.val 1 0xBF true

/-- R692. -/
def execSetZoneDescriptorExtension (slot : Fin 3072) (s : State) : Out :=
  s.to fun c => c.zoneSend slot.val 0x10 fun c _ _ _ _ => c.fail slot.val 0 0x02 true

/-! ## Report Zones (R680) -/

/-- Zone state code of a zone descriptor (ZNS, PRESUMED, log 96). -/
def ZState.code : ZState → Nat
  | .empty => 1 | .iOpen => 2 | .eOpen => 3 | .closed => 4 | .full => 0xE | .offline => 0xF

/-- A zone descriptor of 64 bytes. -/
def zoneDesc (z : Nat) (x : ZoneSt) : List Byte :=
  let wp := if x.st = .full ∨ x.st = .offline then 2 ^ 64 - 1 else z * zoneSize + x.wp
  [2, BitVec.ofNat 8 (x.st.code * 16)] ++ List.replicate 6 0 ++ bytesLE 8 zoneCap ++ bytesLE 8 (z * zoneSize) ++ bytesLE 8 wp
    ++ List.replicate 32 0

/-- Zones from `z` on that a report of states `sel` lists. -/
def NsSt.reported (n : NsSt) (z sel : Nat) : List Nat :=
  let want := [1, 2, 3, 4, 0xE, 0xD, 0xF].getD (sel - 1) 0
  (List.range n.zoneCount).filter fun i => z ≤ i ∧ (sel = 0 ∨ (n.zone i).st.code = want)

/-- The data of a zone report of at most `len` bytes. -/
def NsSt.report (n : NsSt) (z sel len : Nat) (part : Bool) : List Byte :=
  let zs := n.reported z sel
  let fit := zs.take ((len - 64) / 64)
  let count := if part then fit.length else zs.length
  let body := bytesLE 8 count ++ List.replicate 56 0 ++ fit.flatMap fun i => zoneDesc i (n.zone i)
  (body ++ List.replicate len 0).take len

/-- R680: Report Zones only; Extended Report Zones is an invalid field (ZNS, PRESUMED, log 96). -/
def execReportZones (slot : Fin 3072) (s : State) : Out :=
  s.to fun c => c.nsCmd slot.val (fun q => q.opc == 0x7A) fun c k n =>
    let d := k.sqe.cdw13.toNat
    let len := (k.sqe.cdw12.toNat + 1) * 4
    let sel := slice 8 8 d
    if !n.std then c.fail slot.val 0 0x01 true
    else if d % 256 ≠ 0 ∨ 7 < sel ∨ 262144 < len then c.fail slot.val 0 0x02 true
    else if n.size ≤ Sqe.slba k.sqe then c.fail slot.val 0 0x80 true
    else c.complete slot.val fun r => { r with data := n.report (Sqe.slba k.sqe / zoneSize) sel len (d.testBit 16) }

/-- I/O opcodes supported for a namespace kind (R680). -/
def ioSupported (std : Bool) (opc : Byte) : Bool :=
  [0x00, 0x01, 0x02, 0x05, 0x08, 0x0C].contains opc.toNat || (std && [0x79, 0x7A, 0x7D].contains opc.toNat)

/-- R680: an opcode not listed, or a Zone Management Send with a reserved action. -/
def execUnsupportedIoCommand (slot : Fin 3072) (s : State) : Out :=
  s.to fun c => c.ioCmd slot.val (fun _ => true) fun c' k =>
    let std := ((c.ns? k.sqe.nsid.toNat).map (·.std)).getD true
    if !ioSupported std k.sqe.opc then c'.fail slot.val 0 0x01 true
    else if k.sqe.opc = 0x79 ∧ !([1, 2, 3, 4, 5, 0x10].contains (k.sqe.cdw13.toNat % 256)) then c'.fail slot.val 0 0x02 true
    else c

end Sys2Proof.Machine
end

