-- ==== Sys2Proof/Machine/Admin.lean ====
section
/-!
DEFINITION. Admin commands: queues, features, Abort, events, Keep Alive and Device Self-test (R677 to R681, R700, R722, R856).
-/
namespace Sys2Proof.Machine

/-- Admin opcodes that run while a sanitize is in progress or has failed (NVMe, PRESUMED, log 98). -/
def sanitizeAllows (opc : Byte) : Bool :=
  [0x00, 0x01, 0x02, 0x04, 0x05, 0x06, 0x08, 0x09, 0x0A, 0x0C, 0x18, 0x1D, 0x1E].contains opc.toNat

/-- The status that meets an admin command because of a sanitize (R713). -/
def Chip.adminStatus (c : Chip) (k : Cmd) : Option (Nat × Nat × Bool) :=
  if sanitizeAllows k.sqe.opc then none
  else if c.rs.san.status = 2 ∨ c.host.sanWait then some (0, 0x1D, false)
  else if c.rs.san.failMode ∧ k.sqe.opc ≠ 0x84 then some (0, 0x1C, true)
  else none

/-- The admin command of opcode `opc` in slot `slot` is executed by firmware (R47), unless a sanitize stands in its way. -/
def Chip.adminCmd (c : Chip) (slot : Nat) (opc : Byte) (f : Chip → Cmd → Chip) : Chip :=
  match c.cmdAt slot with
  | some k =>
    if k.phase ≠ .fetched ∨ k.sq ≠ 0 ∨ k.sqe.opc ≠ opc ∨ !c.islandUp .cmd ∨ !c.mgmt.resumed then c
    else
      match c.adminStatus k with
      | some (sct, sc, dnr) => c.fail slot sct sc dnr
      | none => f (c.modCmd slot fun k => { k with begun := true }) k
  | none => c

/-- As `adminCmd`, for the physical function only (R679, R723). -/
def Chip.pfCmd (c : Chip) (slot : Nat) (opc : Byte) (f : Chip → Cmd → Chip) : Chip :=
  c.adminCmd slot opc fun c k => if k.ctrl = 0 then f c k else c.fail slot 0 0x01 true

/-- The command completes with success and a first dword. -/
def Chip.done (c : Chip) (slot dw0 : Nat) : Chip := c.complete slot fun k => { k with dw0 := dw0 }
/-- The command completes with success and data. -/
def Chip.doneData (c : Chip) (slot : Nat) (d : List Byte) : Chip := c.complete slot fun k => { k with data := d }

/-- A command that waits ends with a status, and its batch leaves the sluice. -/
def Chip.abortCmd (c : Chip) (slot sct sc : Nat) : Chip :=
  match (c.cmdAt slot).bind (·.batch) with
  | some id =>
    match c.batch? id with
    | some b => if b.staged then c else ((c.modBatch id fun b => { b with slot := none }).dropBatch id).fail slot sct sc false
    | none => c.fail slot sct sc false
  | none => c.fail slot sct sc false

/-- The command waits: for admission, a mount or its data transfer (R700). -/
def Cmd.waits (k : Cmd) : Bool := k.sq != 0 && (k.phase == .fetched || k.phase == .admission || k.phase == .mount)

/-! ## Queues (R677, R678) -/

/-- I/O queue pairs and vectors of a controller (R677). -/
def Chip.ioQueues (c : Chip) (n : Nat) : Nat := if n = 0 then 32 + (c.ctl n).vq else (c.ctl n).vq - 1
/-- Interrupt vectors of a controller. -/
def Chip.vectors (c : Chip) (n : Nat) : Nat := if n = 0 then 33 + (c.ctl n).vi else (c.ctl n).vi

/-- The first field error of a Create I/O queue command (NVMe, PRESUMED, log 98). -/
def Chip.queueError (c : Chip) (k : Cmd) (used : Bool) : Option (Nat × Nat) :=
  let id := k.sqe.cdw10.toNat % 65536
  let size := k.sqe.cdw10.toNat / 65536
  if id = 0 ∨ c.ioQueues k.ctrl < id ∨ used then some (1, 0x01)
  else if size = 0 ∨ 4095 < size then some (1, 0x02)
  else if !k.sqe.cdw11.toNat.testBit 0 then some (0, 0x02)
  else none

/-- R679. -/
def execCreateIoCq (slot : Fin 3072) (s : State) : Out :=
  s.to fun c => c.adminCmd slot.val 0x05 fun c k =>
    let id := k.sqe.cdw10.toNat % 65536
    let d := k.sqe.cdw11.toNat
    match c.queueError k ((c.ctl k.ctrl).cqs.any fun q => q.id == id) with
    | some (sct, sc) => c.fail slot.val sct sc true
    | none =>
      if c.vectors k.ctrl ≤ d / 65536 then c.fail slot.val 1 0x08 true
      else
        (c.modCtl k.ctrl fun x => { x with
          cqs := x.cqs ++ [{ id := id, size := k.sqe.cdw10.toNat / 65536 + 1, ien := d.testBit 1, vector := d / 65536 }] }).done slot.val 0

/-- R679. -/
def execCreateIoSq (slot : Fin 3072) (s : State) : Out :=
  s.to fun c => c.adminCmd slot.val 0x01 fun c k =>
    let id := k.sqe.cdw10.toNat % 65536
    let d := k.sqe.cdw11.toNat
    match c.queueError k ((c.ctl k.ctrl).sqs.any fun q => q.id == id) with
    | some (sct, sc) => c.fail slot.val sct sc true
    | none =>
      if !(c.ctl k.ctrl).cqs.any (fun q => q.id == d / 65536 && q.id != 0) then c.fail slot.val 1 0x00 true
      else
        (c.modCtl k.ctrl fun x => { x with
          sqs := x.sqs ++ [{ id := id, size := k.sqe.cdw10.toNat / 65536 + 1, cq := d / 65536, prio := slice 1 2 d }] }).done slot.val 0

/-- Slots of the commands of a queue. -/
def Chip.slotsOn (c : Chip) (n sq : Nat) : List (Nat × Cmd) :=
  c.host.slots.filter fun s => s.2.ctrl == n && s.2.sq == sq && s.2.origin == 0

/-- R679, R725: its waiting commands are aborted; while others of the queue are in flight the command waits (log 93). -/
def execDeleteIoSq (slot : Fin 3072) (s : State) : Out :=
  s.to fun c => c.adminCmd slot.val 0x00 fun c k =>
    let id := k.sqe.cdw10.toNat % 65536
    if id = 0 ∨ !(c.ctl k.ctrl).sqs.any (fun q => q.id == id) then c.fail slot.val 1 0x01 true
    else
      let c := ((c.slotsOn k.ctrl id).filter fun s => s.2.waits).foldl (fun (c : Chip) s => c.abortCmd s.1 0 0x08) c
      if !(c.slotsOn k.ctrl id).isEmpty then c
      else (c.modCtl k.ctrl fun x => { x with sqs := x.sqs.filter (·.id != id) }).done slot.val 0

/-- R679. -/
def execDeleteIoCq (slot : Fin 3072) (s : State) : Out :=
  s.to fun c => c.adminCmd slot.val 0x04 fun c k =>
    let id := k.sqe.cdw10.toNat % 65536
    let x := c.ctl k.ctrl
    if id = 0 ∨ !x.cqs.any (fun q => q.id == id) then c.fail slot.val 1 0x01 true
    else if x.sqs.any (fun q => q.cq == id) then c.fail slot.val 1 0x0C true
    else (c.modCtl k.ctrl fun x => { x with cqs := x.cqs.filter (·.id != id) }).done slot.val 0

/-- R700: bit 0 of the first dword is 1 where the command was not aborted. -/
def execAbort (slot : Fin 3072) (s : State) : Out :=
  s.to fun c => c.adminCmd slot.val 0x08 fun c k =>
    let d := k.sqe.cdw10.toNat
    match (c.slotsOn k.ctrl (d % 65536)).find? (fun s => s.2.sqe.cid.toNat == d / 65536 && s.2.waits) with
    | some s => (c.abortCmd s.1 0 0x07).done slot.val 0
    | none => c.done slot.val 1

/-! ## Features (R681) -/

/-- Stores a feature. -/
def Chip.setFeat (c : Chip) (n key v : Nat) : Chip := c.modCtl n fun x => { x with feats := assocSet key v x.feats }

/-- Number of I/O queues granted for a request of `want` less 1. -/
def Chip.grant (c : Chip) (n want : Nat) : Nat := min (want % 65536) (c.ioQueues n - 1)

/-- Set Features of an identifier with value `v` and data `d`. -/
def Chip.setFeature (c : Chip) (slot : Nat) (k : Cmd) (v : Nat) (d : List Byte) : Chip :=
  let n := k.ctrl
  let ok := fun (key v : Nat) => (c.setFeat n key v).done slot 0
  let bad := c.fail slot 0 0x02 true
  match k.sqe.cdw10.toNat % 256 with
  | 0x01 => ok 0x01 v
  | 0x02 => if 2 < v % 32 then bad else (c.modHost fun h => { h with ps := v % 32 }).done slot 0
  | 0x04 =>
    if slice 16 4 v ≠ 0 ∧ slice 16 4 v ≠ 15 ∨ 1 < slice 20 2 v then bad
    else ((c.setFeat n (if slice 20 2 v = 1 then 0x10004 else 0x04) (v % 65536)).updWarning).done slot 0
  | 0x05 => if v.testBit 16 then bad else ok 0x05 (v % 65536)
  | 0x07 =>
    if v % 65536 = 65535 ∨ v / 65536 = 65535 then bad
    else if (c.ctl n).sqs.any (·.id != 0) ∨ (c.ctl n).cqs.any (·.id != 0) then c.fail slot 0 0x0C true
    else
      let g := c.grant n v + c.grant n (v / 65536) * 65536
      (c.setFeat n 0x07 g).done slot g
  | 0x08 => ok 0x08 (v % 65536)
  | 0x09 => if c.vectors n ≤ v % 65536 then bad else ok (0x09 + 65536 * (v % 65536 + 1)) (v % 2 ^ 17)
  | 0x0A => ok 0x0A (v % 2)
  | 0x0B => ok 0x0B v
  | 0x0E => ((c.setFeat n 0x0E (natLE (d.take 6))).setFeat n 0x1000E c.now).done slot 0
  | 0x0F => ((c.setFeat n 0x0F v).modCtl n fun x => { x with kaAt := if v = 0 then none else some c.now }).done slot 0
  | 0xC0 => (c.put .cmd Reg.CMD.ORDER_CFG_MARK (setBit (c.rd .cmd Reg.CMD.ORDER_CFG_MARK) n (v % 2 == 1))).done slot 0
  | 0xC1 => if n ≠ 0 ∨ 255 < v then bad else (c.put .cmd Reg.CMD.MOUNT_WAIT_SECONDS v).done slot 0
  | _ => bad

/-- R681. -/
def execSetFeatures (slot : Fin 3072) (d : List Byte) (s : State) : Out :=
  s.to fun c => c.adminCmd slot.val 0x09 fun c k =>
    if k.sqe.cdw10.toNat.testBit 31 then c.fail slot.val 1 0x0D true else c.setFeature slot.val k k.sqe.cdw11.toNat d

/-- The features that R681 lists. -/
def featureIds : List Nat := [0x01, 0x02, 0x04, 0x05, 0x07, 0x08, 0x09, 0x0A, 0x0B, 0x0E, 0x0F, 0xC0, 0xC1]

/-- The present value of a feature. -/
def Chip.getFeature (c : Chip) (n fid v : Nat) : Nat :=
  if fid = 0x02 then c.host.ps
  else if fid = 0x04 then (if slice 20 2 v = 1 then c.feat n 0x10004 else c.feat n 0x04)
  else if fid = 0x07 then (assocGet 0x07 (c.ctl n).feats).getD ((c.ioQueues n - 1) * 65537)
  else if fid = 0x09 then (assocGet (0x09 + 65536 * (v % 65536 + 1)) (c.ctl n).feats).getD (v % 65536)
  else if fid = 0xC0 then b2n (bit (c.rd .cmd Reg.CMD.ORDER_CFG_MARK) n)
  else if fid = 0xC1 then c.rd .cmd Reg.CMD.MOUNT_WAIT_SECONDS
  else c.feat n fid

/-- The default value of a feature (log 77). -/
def Chip.defaultFeature (c : Chip) (n fid v : Nat) : Nat :=
  if fid = 0x04 then (if slice 20 2 v = 1 then 0 else 413)
  else if fid = 0x07 then (c.ioQueues n - 1) * 65537
  else if fid = 0x09 then v % 65536
  else if fid = 0xC1 then 20
  else 0

/-- R681: selections current, default, saved (none is, so the default) and capabilities. -/
def execGetFeatures (slot : Fin 3072) (s : State) : Out :=
  s.to fun c => c.adminCmd slot.val 0x0A fun c k =>
    let fid := k.sqe.cdw10.toNat % 256
    let sel := slice 8 3 k.sqe.cdw10.toNat
    let v := k.sqe.cdw11.toNat
    if !featureIds.contains fid ∨ 3 < sel ∨ (fid = 0xC1 ∧ k.ctrl ≠ 0) then c.fail slot.val 0 0x02 true
    else if sel = 3 then c.done slot.val 4
    else if sel ≠ 0 then c.done slot.val (c.defaultFeature k.ctrl fid v)
    else if fid = 0x0E then c.doneData slot.val (bytesLE 6 (c.timestamp k.ctrl) ++ [2, 0])
    else c.done slot.val (c.getFeature k.ctrl fid v)

/-! ## Events and Keep Alive (R722, R856) -/

/-- R856: AERL is 15. -/
def execAsyncEventRequest (slot : Fin 3072) (s : State) : Out :=
  s.to fun c => c.adminCmd slot.val 0x0C fun c k =>
    let n := (c.host.slots.filter fun s => s.2.ctrl == k.ctrl && s.2.phase == .event).length
    if 16 ≤ n then c.fail slot.val 1 0x05 true else (c.setPhase slot.val .event).serveEvent k.ctrl

/-- R48, R722: answered in hardware too while firmware restarts. -/
def execKeepAlive (slot : Fin 3072) (s : State) : Out :=
  s.to fun c =>
    match c.cmdAt slot.val with
    | some k =>
      if k.phase = .fetched ∧ k.sq = 0 ∧ k.sqe.opc = 0x18 ∧ c.islandUp .cmd then
        (c.modCtl k.ctrl fun x => { x with kaAt := if c.feat k.ctrl 0x0F = 0 then none else some c.now }).done slot.val 0
      else c
    | none => c

/-- R722. -/
def execKeepAliveExpired (n : Ctrl) (s : State) : Out :=
  s.to fun c =>
    match (c.ctl n.val).kaAt with
    | some t =>
      ((c.until' (t + ms (c.feat n.val 0x0F))).fault0 .cmd 0 1 0).modCtl n.val fun x => { x with kaAt := none }
    | none => c

/-! ## Device Self-test (R679) -/

/-- A self-test that has run its longest time ends; its result is not stated: a free value (log 99). -/
def Chip.settleSelfTest (c : Chip) : Chip :=
  match c.host.selfTest with
  | some (code, t) =>
    if t + secs (if code = 1 then 120 else 1800) ≤ c.now then
      let (r, c) := c.free 4
      c.modHost fun h => { h with selfTest := none, selfTests := ((code, r) :: h.selfTests).take 20 }
    else c
  | none => c

/-- R679: short, extended, or abort of the one that runs. -/
def execDeviceSelfTest (slot : Fin 3072) (s : State) : Out :=
  s.to fun c => c.adminCmd slot.val 0x14 fun c k =>
    let c := c.settleSelfTest
    let code := k.sqe.cdw10.toNat % 16
    match c.host.selfTest with
    | some (run, _) =>
      if code = 15 then
        (c.modHost fun h => { h with selfTest := none, selfTests := ((run, 1) :: h.selfTests).take 20 }).done slot.val 0
      else c.fail slot.val 1 0x1D true
    | none =>
      if code = 1 ∨ code = 2 then (c.modHost fun h => { h with selfTest := some (code, c.now) }).done slot.val 0
      else if code = 15 then c.done slot.val 0
      else c.fail slot.val 0 0x02 true

/-- Admin opcodes that R679 lists. -/
def adminOpcodes : List Nat :=
  [0x00, 0x01, 0x02, 0x04, 0x05, 0x06, 0x08, 0x09, 0x0A, 0x0C, 0x0D, 0x10, 0x11, 0x14, 0x15, 0x18, 0x1C, 0x1D, 0x1E, 0x80, 0x84,
    0xC0, 0xC1, 0xC2]

/-- R679. -/
def execUnsupportedAdminCommand (slot : Fin 3072) (s : State) : Out :=
  s.to fun c =>
    match c.cmdAt slot.val with
    | some k =>
      if k.phase = .fetched ∧ k.sq = 0 ∧ c.islandUp .cmd ∧ c.mgmt.resumed ∧ !adminOpcodes.contains k.sqe.opc.toNat then
        c.fail slot.val 0 0x01 true
      else c
    | none => c

end Sys2Proof.Machine
end

