-- ==== Sys2Proof/Machine/Collector.lean ====
section
/-!
DEFINITION. The fault collector: source numbering and scopes, fused defaults, counting windows, classification, reactions on
the quench lines and ALERT_N, capture into fault memory, and its records (chapter 18).
-/
namespace Sys2Proof.Machine

/-- Fused defaults of sources 0x000 to 0x026, in order (R790). -/
def srcDefaultsSys : List SrcCfg :=
  [⟨255, 0, 0, true, 0, 1, 6, 0x1F111100⟩,
   ⟨16, 0, 1, true, 0, 1, 6, 0x1F111100⟩,
   ⟨16, 0, 2, true, 0, 1, 4, 0x1F111100⟩,
   ⟨1, 3, 3, true, 1, 1, 1, 0x1F111100⟩,
   ⟨3, 0, 2, true, 0, 36, 8, 0x1F111100⟩,
   ⟨2, 2, 3, true, 1, 1, 6, 0x1F111100⟩,
   ⟨1, 0, 1, true, 0, 1, 6, 0x1F111100⟩,
   ⟨4, 1, 2, true, 0, 36, 8, 0x1F111100⟩,
   ⟨1, 1, 1, true, 0, 36, 8, 0x1F111100⟩,
   ⟨4, 0, 1, true, 0, 36, 8, 0x1F111100⟩,
   ⟨8, 0, 1, true, 0, 36, 8, 0x1F111100⟩,
   ⟨16, 0, 1, true, 0, 1, 6, 0x1F111100⟩,
   ⟨8, 1, 2, true, 0, 36, 8, 0x1F111100⟩,
   ⟨64, 0, 1, true, 0, 1, 6, 0x1F111100⟩,
   ⟨1, 2, 2, true, 0, 36, 8, 0x1F111100⟩,
   ⟨3, 0, 1, true, 0, 36, 8, 0x1F111100⟩,
   ⟨64, 0, 1, true, 0, 36, 8, 0x1F111100⟩,
   ⟨64, 0, 1, true, 0, 1, 6, 0x1F111100⟩,
   ⟨1, 2, 2, true, 0, 36, 8, 0x1F111100⟩,
   ⟨1, 2, 2, true, 0, 36, 8, 0x1F111100⟩,
   ⟨1, 2, 2, true, 0, 36, 8, 0x1F111100⟩,
   ⟨4, 1, 2, true, 0, 36, 8, 0x1F111100⟩,
   ⟨3, 1, 2, true, 0, 36, 8, 0x1F111100⟩,
   ⟨1, 2, 2, true, 0, 36, 8, 0x1F111100⟩,
   ⟨2, 1, 2, true, 0, 36, 8, 0x1F111100⟩,
   ⟨255, 0, 0, true, 0, 36, 8, 0x1F111100⟩,
   ⟨1, 2, 2, true, 0, 36, 8, 0x1F111100⟩,
   ⟨4, 0, 1, true, 0, 36, 8, 0x1F111100⟩,
   ⟨255, 0, 0, true, 0, 36, 8, 0x1F111100⟩,
   ⟨16, 0, 1, true, 0, 36, 8, 0x1F111100⟩,
   ⟨16, 0, 1, true, 0, 36, 8, 0x1F111100⟩,
   ⟨2, 1, 2, true, 0, 36, 8, 0x1F111100⟩,
   ⟨1, 2, 2, true, 0, 36, 8, 0x1F111100⟩,
   ⟨16, 0, 1, true, 0, 1, 6, 0x1F111100⟩,
   ⟨8, 0, 1, true, 0, 1, 4, 0x1F111100⟩,
   ⟨3, 1, 2, true, 0, 1, 6, 0x1F111100⟩,
   ⟨1, 2, 2, true, 0, 36, 8, 0x1F111100⟩,
   ⟨4, 1, 2, true, 0, 1, 6, 0x1F111100⟩,
   ⟨4, 1, 2, true, 0, 36, 8, 0x1F111100⟩]

/-- Fused defaults of the loop pages' sources, by local number (R790). -/
def srcDefaultsLoop : List SrcCfg :=
  [⟨40, 0, 2, true, 0, 1, 3, 0x1F111100⟩,
   ⟨255, 0, 0, true, 0, 1, 6, 0x1F111100⟩,
   ⟨4, 1, 2, true, 0, 36, 8, 0x1F111100⟩]

/-- Fused defaults of the spin pages' sources, by local number (R790). -/
def srcDefaultsSpin : List SrcCfg :=
  [⟨2, 2, 3, true, 2, 36, 8, 0x1F111100⟩,
   ⟨3, 1, 3, true, 1, 1, 6, 0x1F111100⟩,
   ⟨8, 0, 2, true, 1, 1, 7, 0x1F111100⟩,
   ⟨20, 0, 3, true, 1, 1, 3, 0x1F111100⟩]

/-- Fused defaults of the axis pages' sources, by local number (R790). -/
def srcDefaultsAxis : List SrcCfg :=
  [⟨3, 2, 3, true, 1, 36, 8, 0x1F111100⟩,
   ⟨8, 0, 2, true, 1, 6, 7, 0x1F111100⟩,
   ⟨4, 0, 3, true, 1, 1, 6, 0x1F111100⟩,
   ⟨8, 0, 2, true, 1, 6, 7, 0x1F111100⟩,
   ⟨3, 1, 3, true, 1, 36, 8, 0x1F111100⟩,
   ⟨20, 0, 3, true, 1, 1, 3, 0x1F111100⟩]

/-- Fused defaults of the head pages' sources, by local number (R790). -/
def srcDefaultsHead : List SrcCfg :=
  [⟨16, 0, 2, true, 1, 1, 6, 0x1F111100⟩,
   ⟨3, 1, 3, true, 1, 1, 6, 0x1F111100⟩,
   ⟨8, 0, 1, true, 0, 1, 6, 0x1F111100⟩,
   ⟨40, 0, 2, true, 0, 1, 3, 0x1F111100⟩,
   ⟨8, 0, 1, true, 1, 1, 7, 0x1F111100⟩,
   ⟨16, 0, 1, true, 1, 1, 7, 0x1F111100⟩,
   ⟨3, 2, 3, true, 1, 36, 8, 0x1F111100⟩,
   ⟨255, 0, 0, true, 0, 36, 8, 0x1F111100⟩,
   ⟨4, 0, 1, true, 0, 36, 8, 0x1F111100⟩]

/-- Fused defaults of the beam pages' sources, by local number (R790). -/
def srcDefaultsBeam : List SrcCfg :=
  [⟨64, 0, 1, true, 0, 1, 6, 0x1F111100⟩,
   ⟨3, 0, 1, true, 0, 36, 8, 0x1F111100⟩,
   ⟨32, 0, 1, true, 0, 1, 7, 0x1F111100⟩]

/-- Fused defaults of the hall pages' sources, by local number (R790). -/
def srcDefaultsHall : List SrcCfg :=
  [⟨1, 2, 2, true, 0, 36, 8, 0x1F111100⟩]

/-- The page and local number of a populated source ID (R787). -/
def srcPage (id : Nat) : Option (Page × Nat) :=
  let pick := fun (p : Page) => if srcBase p ≤ id ∧ id < srcBase p + srcCount p then some (p, id - srcBase p) else none
  let unit := fun {m : Nat} (k : Nat → Option (Fin m)) (mk : Fin m → Page) (i : Nat) => (k i).bind fun u => pick (mk u)
  if id < 0x027 then
    [Page.sys, .clk, .fault, .assay, .host, .cmd, .mem, .cache, .sluice, .polder, .inv, .rstore, .peer].findSome? pick
  else if id < 0x040 then none
  else if id < 0x050 then unit (unitOf 4 0) .loop ((id - 0x040) / 4)
  else if id < 0x070 then unit (unitOf 8 0) .spin ((id - 0x050) / 4)
  else if id < 0x080 then none
  else if id < 0x130 then unit (unitOf 22 0) .axis ((id - 0x080) / 8)
  else if id < 0x140 then none
  else if id < 0x240 then unit (unitOf 16 0) .head ((id - 0x140) / 16)
  else if id < 0x380 then (hallBeam ((id - 0x240) / 4)).bind fun hb => pick (.beam hb.1 hb.2)
  else unit (unitOf 113 0x380) .hall id

/-- The fused default configuration of a source (R790). -/
def srcDefault (id : Nat) : SrcCfg :=
  let none' : SrcCfg := ⟨0, 0, 0, false, 0, 0, 0, 0⟩
  match srcPage id with
  | none => none'
  | some (p, n) =>
    match p with
    | .loop _ => srcDefaultsLoop.getD n none'
    | .spin _ => srcDefaultsSpin.getD n none'
    | .axis _ => srcDefaultsAxis.getD n none'
    | .head _ => srcDefaultsHead.getD n none'
    | .beam _ _ => srcDefaultsBeam.getD n none'
    | .hall _ => srcDefaultsHall.getD n none'
    | _ => srcDefaultsSys.getD id none'

/-- The configuration in force of a source. -/
def Collector.cfgOf (k : Collector) (id : Nat) : SrcCfg := (assocGet id k.cfg).getD (srcDefault id)
/-- The counts of a source. -/
def Collector.cntOf (k : Collector) (id : Nat) : SrcCnt := (assocGet id k.cnt).getD {}

/-- Units as three bit sets: ports, spindles, axes. -/
structure Units where
  ports : Nat := 0
  spins : Nat := 0
  axes : Nat := 0
  deriving DecidableEq, Repr

/-- Every unit of the chip (R789). -/
def unitsChip : Units := ⟨0xFFFF, 0xFF, 0x3FFFFF⟩
/-- The spindle group of Ss (R789). -/
def unitsGroup (s : Nat) : Units := ⟨3 * 4 ^ s, 2 ^ s, 3 * 4 ^ s⟩
/-- The picker axes 16 to 21. -/
def unitsPicker : Units := ⟨0, 0, 0x3F0000⟩

/-- The units in scope `scope` of a source's page (R789, R807). -/
def scopeUnits (p : Page) (scope : Nat) : Units :=
  if scope = 0 then {}
  else if scope = 3 then unitsChip
  else
    let port := fun (h : Nat) => if scope = 1 then (⟨2 ^ h, 0, 2 ^ h⟩ : Units) else unitsGroup (h / 2)
    match p with
    | .head h => port h.val
    | .beam h _ => port h.val
    | .hall n => if n.val < 80 then port (n.val / 5) else if n.val < 96 then port (n.val - 80) else unitsChip
    | .spin s => if scope = 1 then ⟨0, 2 ^ s.val, 0⟩ else unitsGroup s.val
    | .axis a => if a.val < 16 then port a.val else unitsPicker
    | _ => unitsChip

/-- The window length of a source in ticks (R793): T_MANT × 10^T_EXP us held between 10 us and 1 h. -/
def SrcCfg.ticks (k : SrcCfg) : Nat :=
  100 * clampN 10 3600000000 (max 1 k.tMant * 10 ^ min 9 k.tExp)

/-- The counts after an arrival stamped `t` (R793): a window that has changed starts from 0. -/
def SrcCnt.arrive (k : SrcCnt) (cfg : SrcCfg) (t : Nat) : SrcCnt :=
  let w := cfg.ticks
  let ai := t / w
  let bi := (t + w / 2) / w
  { k with aIx := ai, a := min 255 ((if k.aIx = ai then k.a else 0) + 1)
           bIx := bi, b := min 255 ((if k.bIx = bi then k.b else 0) + 1) }

/-- The class of a message, and whether it escalates, after it has been counted (R794). -/
def classify (cfg : SrcCfg) (k : SrcCnt) (hint : Nat) : Nat × Bool :=
  let n := max 1 cfg.n
  let up := n ≤ k.a || n ≤ k.b
  let base := if up then max cfg.base cfg.esc else cfg.base
  (if cfg.hintEn then max base hint else base, up)

/-- The reaction byte of a class (R796). -/
def SrcCfg.reaction (k : SrcCfg) (cls : Nat) : Nat := slice (8 * cls) 8 k.react

/-- Fault memory: the unacknowledged record of a source and its index (R801). -/
def Collector.openRec (k : Collector) (id : Nat) : Option (Nat × FaultRec) :=
  k.recs.find? (fun r => r.2.src == id && !r.2.acked)

/-- ALERT_N is driven low by a SEVERE or CRITICAL classification (R799). -/
def Chip.alert (c : Chip) : Chip :=
  let start := !c.pins.alertLow
  let c := { c with pins := { c.pins with alertLow := true }, col := { c.col with alertAt := c.now } }
  let c := (c.put .fault Reg.FAULT.ALERT_CTL_LOW 1).put .fault Reg.FAULT.ALERT_CTL_HELD 0
  if start then (c.inc .fault Reg.FAULT.ALERT_CTL_PULSES).event .fault 2 else c

/-- The lines active now. -/
def Chip.lines (c : Chip) : Units :=
  ⟨c.rd .fault Reg.FAULT.QUENCH_HEAD_PORTS, c.rd .fault Reg.FAULT.QUENCH_SPIN_SPINS, c.rd .fault Reg.FAULT.QUENCH_AXIS_AXES⟩

/-- Activates the quench lines of `u` (R796, R797); the lines that were not active are the second answer. -/
def Chip.activateLines (c : Chip) (u : Units) : Chip × Units :=
  let l := c.lines
  let new : Units := ⟨u.ports &&& (l.ports ^^^ 0xFFFF), u.spins &&& (l.spins ^^^ 0xFF), u.axes &&& (l.axes ^^^ 0x3FFFFF)⟩
  let n := popCount 16 new.ports + popCount 8 new.spins + popCount 22 new.axes
  let c := c.orBits .fault Reg.FAULT.QUENCH_HEAD_PORTS u.ports
  let c := c.orBits .fault Reg.FAULT.QUENCH_SPIN_SPINS u.spins
  let c := c.orBits .fault Reg.FAULT.QUENCH_AXIS_AXES u.axes
  let c := c.addSat .fault Reg.FAULT.QUENCH_EVENTS_ACTIVATIONS n
  (if n = 0 then c else c.event .fault 1, new)

/-- Places a classified message into the capture queue of 4,096 entries (R802). -/
def Chip.enqueue (c : Chip) (q : Capture) : Chip :=
  if c.col.queue.length < 4096 then { c with col := { c.col with queue := c.col.queue ++ [q] } }
  else { c with col := { c.col with overflow := true } }.inc .fault Reg.FAULT.MEM_EVENTS_CAPTURE_LOST

/-- A message arrives at the collector now: it is stamped, counted, classified, its lines are set, its ALERT_N pulse
started and it is queued for capture (R788, R791 to R799, R802, R803). `parity` says that its source's configuration was
found with a parity error while classifying. The second answer is the lines that became active. -/
def Chip.arrive (c : Chip) (m0 : Msg) (parity : Bool) : Chip × Units :=
  let known := (srcPage m0.src).isSome
  let m : Msg := if known then m0 else ⟨0x007, 1, 1, 0, m0.src % 4096⟩
  let c := if known then c else c.inc .fault Reg.FAULT.MEM_EVENTS_UNKNOWN
  let cfg := if parity then srcDefault m.src else c.col.cfgOf m.src
  let c := if parity then
      { c with col := { c.col with cfg := assocDel m.src c.col.cfg } }.inc .fault Reg.FAULT.MEM_EVENTS_HANDLING
    else c
  let k := (c.col.cntOf m.src).arrive cfg c.now
  let (cls, up) := classify cfg k m.hint
  let c := { c with col := { c.col with cnt := assocSet m.src { k with last := cls } c.col.cnt } }
  let react := cfg.reaction cls
  let scope := match srcPage m.src with
    | some (p, _) => scopeUnits p cfg.scope
    | none => {}
  let u : Units := ⟨if bit react 1 then scope.ports else 0, if bit react 3 then scope.spins else 0,
    if bit react 2 then scope.axes else 0⟩
  let c := if bit react 0 then c.event .fault 0 else c
  let (c, new) := c.activateLines u
  let c := if 2 ≤ cls then c.alert else c
  (c.enqueue ⟨m, c.now, cls, up, u != (⟨0, 0, 0⟩ : Units), cfg.scope, parity, bit react 4⟩, new)

/-- The record a message opens (R800). -/
def Capture.open' (q : Capture) (serial : Nat) : FaultRec :=
  { src := q.msg.src, kindFirst := q.msg.kind, kindLast := q.msg.kind, hint := q.msg.hint, cls := q.cls
    escalated := q.escalated, handling := q.handling, forced := q.msg.kind == 0xFF, quenched := q.quenched
    scope := q.scope, detail := q.msg.detail, argFirst := q.msg.arg, argLast := q.msg.arg
    tbFirst := q.stamp, tbLast := q.stamp, serial := serial, notify := q.notify }

/-- A record with a further message merged (R800, R801). -/
def FaultRec.merge (r : FaultRec) (q : Capture) : FaultRec :=
  { r with
    kindLast := q.msg.kind, hint := max r.hint q.msg.hint, cls := max r.cls q.cls
    escalated := r.escalated || q.escalated, handling := r.handling || q.handling
    forced := r.forced || q.msg.kind == 0xFF
    scope := if q.quenched && !r.quenched then q.scope else r.scope
    quenched := r.quenched || q.quenched
    detail := r.detail ||| q.msg.detail, count := min 16383 (r.count + 1), argLast := q.msg.arg, tbLast := q.stamp
    notify := r.notify || q.notify }

/-- The lowest free slot: not valid, or acknowledged and copied (R801; the lowest is DEDUCED, log 15). -/
def Collector.freeSlot (k : Collector) : Option Nat :=
  (List.range 1024).find? fun i =>
    match assocGet i k.recs with
    | none => true
    | some r => r.acked && r.copied

/-- The oldest of the records that satisfy `ok`. -/
def Collector.oldest (k : Collector) (ok : FaultRec → Bool) : Option Nat :=
  ((k.recs.filter (fun r => ok r.2)).foldl (fun (best : Option (Nat × FaultRec)) r =>
    match best with
    | none => some r
    | some b => if r.2.serial < b.2.serial then some r else some b) none).map (·.1)

/-- Captures one queued message (R801, R802): merged, opened in a free slot, or over the oldest acknowledged record. -/
def Chip.capture (c : Chip) (q : Capture) : Chip :=
  let k := c.col
  match k.openRec q.msg.src with
  | some (i, r) => { c with col := { k with recs := assocSet i (r.merge q) k.recs } }
  | none =>
    let put := fun (i : Nat) => { k with recs := assocSet i (q.open' k.serial) k.recs, serial := k.serial + 1 }
    match k.freeSlot with
    | some i => { c with col := put i }
    | none =>
      match k.oldest (fun r => r.acked && !r.copied) with
      | some i =>
        let c := { c with col := put i }
        ((c.inc .fault Reg.FAULT.MEM_EVENTS_LOST_UNCOPIED).fault0 .fault 0 1 1).event .fault 3
      | none => c

/-- The word `w` of a record (R800). -/
def FaultRec.word (r : FaultRec) (w : Nat) : Nat :=
  match w % 8 with
  | 0 => r.src + r.kindFirst * 2 ^ 10 + r.hint * 2 ^ 18 + r.cls * 2 ^ 20 + b2n r.escalated * 2 ^ 22
      + b2n r.handling * 2 ^ 23 + b2n r.acked * 2 ^ 24 + b2n r.copied * 2 ^ 25 + 2 ^ 26 + b2n r.forced * 2 ^ 27
      + b2n r.quenched * 2 ^ 28 + r.scope % 4 * 2 ^ 29
  | 1 => r.detail + r.kindLast * 2 ^ 10 + r.count * 2 ^ 18
  | 2 => r.argFirst
  | 3 => r.argLast
  | 4 => r.tbFirst % 2 ^ 32
  | 5 => r.tbFirst / 2 ^ 32 % 2 ^ 32
  | 6 => r.tbLast % 2 ^ 32
  | _ => r.tbLast / 2 ^ 32 % 2 ^ 32

/-- The scope of a source contains a unit of `u` (R789). -/
def inScope (src scope : Nat) (u : Units) : Bool :=
  match srcPage src with
  | some (p, _) =>
    let s := scopeUnits p scope
    (s.ports &&& u.ports) != 0 || (s.spins &&& u.spins) != 0 || (s.axes &&& u.axes) != 0
  | none => false

/-- An unacknowledged record with QUENCHED set has a scope that contains a unit of `u` (R798). -/
def Collector.holds (k : Collector) (u : Units) : Bool :=
  k.recs.any fun r => !r.2.acked && r.2.quenched && inScope r.2.src r.2.scope u

/-- Messages that arrived in this tick and are not captured yet: they come before a write of the same tick (R805). -/
def Chip.arrivedNow (c : Chip) : List Capture := c.col.queue.filter fun q => q.stamp == c.now

/-- A line of a unit may be released (R798, R805). -/
def Chip.mayRelease (c : Chip) (u : Units) : Bool :=
  !c.col.holds u && !(c.arrivedNow.any fun q => q.quenched && inScope q.msg.src q.scope u)
    && !c.flag .fault Reg.FAULT.QUENCH_EVENTS_FLUSH

/-- Releases the lines of QUENCH_HEAD written as 1 in `m`, one unit at a time; a denied one is counted (R798). -/
def Chip.releaseHeads (c : Chip) (m : Nat) : Chip :=
  (List.range 16).foldl (fun c i =>
    if bit m i && bit (c.rd .fault Reg.FAULT.QUENCH_HEAD_PORTS) i then
      if c.mayRelease ⟨2 ^ i, 0, 0⟩ then
        c.put .fault Reg.FAULT.QUENCH_HEAD_PORTS (setBit (c.rd .fault Reg.FAULT.QUENCH_HEAD_PORTS) i false)
      else c.inc .fault Reg.FAULT.QUENCH_EVENTS_DENIED
    else c) c

/-- As `releaseHeads` for QUENCH_SPIN. -/
def Chip.releaseSpins (c : Chip) (m : Nat) : Chip :=
  (List.range 8).foldl (fun c i =>
    if bit m i && bit (c.rd .fault Reg.FAULT.QUENCH_SPIN_SPINS) i then
      if c.mayRelease ⟨0, 2 ^ i, 0⟩ then
        c.put .fault Reg.FAULT.QUENCH_SPIN_SPINS (setBit (c.rd .fault Reg.FAULT.QUENCH_SPIN_SPINS) i false)
      else c.inc .fault Reg.FAULT.QUENCH_EVENTS_DENIED
    else c) c

/-- As `releaseHeads` for QUENCH_AXIS. -/
def Chip.releaseAxes (c : Chip) (m : Nat) : Chip :=
  (List.range 22).foldl (fun c i =>
    if bit m i && bit (c.rd .fault Reg.FAULT.QUENCH_AXIS_AXES) i then
      if c.mayRelease ⟨0, 0, 2 ^ i⟩ then
        c.put .fault Reg.FAULT.QUENCH_AXIS_AXES (setBit (c.rd .fault Reg.FAULT.QUENCH_AXIS_AXES) i false)
      else c.inc .fault Reg.FAULT.QUENCH_EVENTS_DENIED
    else c) c

/-- ALERT_N goes high (R799). -/
def Chip.alertOff (c : Chip) : Chip :=
  (({ c with pins := { c.pins with alertLow := false }, col := { c.col with alertRel := false } }.put
    .fault Reg.FAULT.ALERT_CTL_LOW 0).put .fault Reg.FAULT.ALERT_CTL_HELD 0)

/-- End of the 20 us minimum (R799). -/
def Chip.alertEnd (c : Chip) : Chip :=
  if !c.pins.alertLow then c
  else
    let c := c.until' (c.col.alertAt + us 20)
    if c.flag .fault Reg.FAULT.ALERT_CTL_HOLD && !c.col.alertRel then c.put .fault Reg.FAULT.ALERT_CTL_HELD 1
    else c.alertOff

/-- ALERT_CTL.RELEASE (R799): during the minimum it takes effect at its end; with ALERT_N high it does nothing. -/
def Chip.alertRelease (c : Chip) : Chip :=
  if !c.pins.alertLow then c
  else if c.now < c.col.alertAt + us 20 then { c with col := { c.col with alertRel := true } }
  else c.alertOff

/-- REC_ACK.ACK of the record at INDEX, with COUNT as written (R804); a message of this tick makes it stale (R805). -/
def Chip.recAck (c : Chip) : Chip :=
  let i := c.rd .fault Reg.FAULT.REC_ACK_INDEX
  match assocGet i c.col.recs with
  | some r =>
    if !r.acked && r.count == c.rd .fault Reg.FAULT.REC_ACK_COUNT && !(c.arrivedNow.any fun q => q.msg.src == r.src) then
      { c with col := { c.col with recs := assocSet i { r with acked := true } c.col.recs } }.put
        .fault Reg.FAULT.REC_ACK_STALE 0
    else c.put .fault Reg.FAULT.REC_ACK_STALE 1
  | none => c.put .fault Reg.FAULT.REC_ACK_STALE 1

/-- REC_ACK.COPIED (R804). -/
def Chip.recCopied (c : Chip) : Chip :=
  let i := c.rd .fault Reg.FAULT.REC_ACK_INDEX
  match assocGet i c.col.recs with
  | some r => { c with col := { c.col with recs := assocSet i { r with copied := true } c.col.recs } }
  | none => c

/-- SRC_SEL.RESTORE (R790, R795): the fused defaults of the selected source return and its counts become 0. -/
def Chip.srcRestore (c : Chip) : Chip :=
  let id := c.rd .fault Reg.FAULT.SRC_SEL_SOURCE
  { c with col := { c.col with cfg := assocDel id c.col.cfg, cnt := assocDel id c.col.cnt } }

/-- A write of SRC_CFG for the selected source (R795): the counts become 0; an unpopulated ID is left alone (R807). -/
def Chip.srcCfgWrite (c : Chip) (w : Nat) : Chip :=
  let id := c.rd .fault Reg.FAULT.SRC_SEL_SOURCE
  if (srcPage id).isNone then c
  else
    let k := c.col.cfgOf id
    let k' := { k with
      n := slice 0 8 w, base := slice 8 2 w, esc := slice 10 2 w, hintEn := bit w 12, scope := slice 13 2 w
      tMant := slice 16 10 w, tExp := slice 26 4 w }
    { c with col := { c.col with cfg := assocSet id k' c.col.cfg, cnt := assocDel id c.col.cnt } }

/-- A write of SRC_REACT for the selected source (R807). -/
def Chip.srcReactWrite (c : Chip) (w : Nat) : Chip :=
  let id := c.rd .fault Reg.FAULT.SRC_SEL_SOURCE
  if (srcPage id).isNone then c
  else { c with col := { c.col with cfg := assocSet id { c.col.cfgOf id with react := w } c.col.cfg } }

/-- SRC_CFG as it reads for the selected source (R807). -/
def Chip.srcCfgWord (c : Chip) : Nat :=
  let k := c.col.cfgOf (c.rd .fault Reg.FAULT.SRC_SEL_SOURCE)
  k.n + k.base * 2 ^ 8 + k.esc * 2 ^ 10 + b2n k.hintEn * 2 ^ 12 + k.scope * 2 ^ 13 + k.tMant * 2 ^ 16 + k.tExp * 2 ^ 26

/-- SRC_STAT as it reads for the selected source (R807). -/
def Chip.srcStatWord (c : Chip) : Nat :=
  let id := c.rd .fault Reg.FAULT.SRC_SEL_SOURCE
  if (srcPage id).isNone then 0
  else
    let k := c.col.cntOf id
    let w := (c.col.cfgOf id).ticks
    let a := if k.aIx = c.now / w then k.a else 0
    let b := if k.bIx = (c.now + w / 2) / w then k.b else 0
    let r := c.col.openRec id
    a + b * 2 ^ 8 + k.last * 2 ^ 16 + b2n r.isSome * 2 ^ 18 + ((r.map (·.1)).getD 0) * 2 ^ 20

end Sys2Proof.Machine
end

