-- ==== Sys2Proof/Machine/Logs.lean ====
section
/-!
DEFINITION. Log pages (R682, R712, R717, R854 to R862). The places of fields that the spec takes from NVMe are PRESUMED (log 98).
-/
namespace Sys2Proof.Machine

/-- `n` bytes: at the places of `fs` (offset, width, value, little-endian) those values, elsewhere `base`. -/
def layout (n : Nat) (base : Nat → Byte) (fs : List (Nat × Nat × Nat)) : List Byte :=
  (List.range n).map fun i =>
    match fs.find? fun f => f.1 ≤ i && i < f.1 + f.2.1 with
    | some f => BitVec.ofNat 8 (f.2.2 / 256 ^ (i - f.1))
    | none => base i


/-- Whole number of 1,000 × 512 bytes in blocks of 4,096 bytes, rounded up. -/
def dataUnits (blocks : Nat) : Nat := divUp (blocks * 8) 1000

/-- Percentage used of a package: mean erase count over rated endurance. -/
def PkgSt.used (p : PkgSt) : Nat := 100 * p.eraseMean / max 1 p.rated

/-- Percentage used of the lasers: 100 × (W − 1) / (LIMIT − 1), the largest over live beams (R854). -/
def Chip.laserUsed (c : Chip) : Nat :=
  (allPorts.flatMap fun h =>
    let lim := c.rd (.head h) Reg.HEAD.WEAR_CFG_LIMIT
    (List.range 5).map fun b =>
      if bit (c.rd (.head h) Reg.HEAD.BEAM_MAP_RETIRED) b then 0
      else 100 * (c.rdI (.head h) Reg.HEAD.LWEAR_RATIO b - 32768) / max 1 (lim - 32768)).foldl max 0

/-- Percentage Used (R854, R855). -/
def Chip.percentUsed (c : Chip) : Nat :=
  min 255 (max (max c.rs.pkg0.used c.rs.pkg1.used) (max (c.log.life * 100 / 29495836800000) c.laserUsed))

/-- SMART / Health Information (R854). -/
def Chip.smartLog (c : Chip) : List Byte :=
  layout 512 (fun _ => 0) [(0, 1, c.warningNow), (1, 2, c.tjKelvin), (3, 1, c.availSpare),
    (4, 1, min 100 (c.rd .rstore Reg.RSTORE.WEAR_CFG_SPARE_WARN)), (5, 1, c.percentUsed), (32, 16, dataUnits c.log.blocksRead),
    (48, 16, dataUnits c.log.blocksWritten), (144, 16, c.log.unsafeShutdowns), (160, 16, c.log.mediaErrors),
    (192, 4, c.log.warnMin), (196, 4, c.log.critMin)]

/-- Log identifiers supported (R682). -/
def logIds : List Nat :=
  [0x00, 0x01, 0x02, 0x03, 0x04, 0x05, 0x06, 0x07, 0x08, 0x0C, 0x81, 0xBF, 0xC0, 0xC1, 0xC2, 0xC3]

/-- One entry of the Error Information log. -/
def errorEntry (n : Nat) (k : Cpl) : List Byte :=
  layout 64 (fun _ => 0) [(0, 8, n), (8, 2, k.sq), (10, 2, k.cid),
    (12, 2, (k.sc + k.sct * 256 + k.crd * 2048 + b2n k.dnr * 16384) * 2), (14, 2, 0xFFFF)]

/-- Error Information of a controller: 64 entries. -/
def CtrlSt.errorLog (x : CtrlSt) : List Byte :=
  (x.errors.zipIdx.flatMap fun e => errorEntry (x.errCount - e.2) e.1) ++ List.replicate ((64 - x.errors.length) * 64) 0

/-- Firmware Slot Information: slot 1 is boot flash A, slot 2 B. -/
def Chip.slotLog (c : Chip) : List Byte :=
  let nextB := decide (c.rs.slotA.seq < c.rs.slotB.seq) && c.rs.slotB.ok || !c.rs.slotA.ok
  let run := c.rd .sys Reg.SYS.BOOT_STAT_IMAGE
  let next := if nextB = (run == 1) then 0 else if nextB then 2 else 1
  layout 512 (fun _ => 0) [(0, 1, run + 1 + next * 16), (8, 8, if c.rs.slotA.ok then c.rs.slotA.version else 0),
    (16, 8, if c.rs.slotB.ok then c.rs.slotB.version else 0)]

/-- Commands Supported and Effects: bit 0 supported, bit 1 changes of block contents, bit 3 changes of the inventory. -/
def effectsLog : List Byte :=
  let admin := fun (o : Nat) =>
    if !adminOpcodes.contains o then 0 else if o = 0x80 ∨ o = 0x84 then 3 else if o = 0x0D ∨ o = 0x15 then 9 else 1
  let io := fun (o : Nat) => if !ioSupported true (BitVec.ofNat 8 o) then 0 else if [0x01, 0x08, 0x79, 0x7D].contains o then 3 else 1
  layout 4096 (fun _ => 0) (((List.range 256).map fun o => (4 * o, 4, admin o)) ++ (List.range 256).map fun o => (1024 + 4 * o, 4, io o))

/-- Device Self-test log: the running test and its share of the longest time, and 20 results. -/
def Chip.selfTestLog (c : Chip) : List Byte :=
  let now := match c.host.selfTest with
    | some (code, t) => [BitVec.ofNat 8 code, BitVec.ofNat 8 ((c.now - t) * 100 / secs (if code = 1 then 120 else 1800)), 0, 0]
    | none => [0, 0, 0, 0]
  let one := fun (r : Nat × Nat) => BitVec.ofNat 8 (r.1 * 16 + r.2) :: List.replicate 27 0
  now ++ (c.host.selfTests.flatMap one) ++ (List.replicate (20 - c.host.selfTests.length) (0x0F :: List.replicate 27 0)).flatten

/-- Asymmetric Namespace Access log; groups without their namespaces where `rgo`. -/
def Chip.anaLog (c : Chip) (n : Nat) (rgo : Bool) : List Byte :=
  let code := fun (g : Nat) => if c.ana g = 4 then 0xF else c.ana g + 1
  let one := fun (g : Nat) =>
    let ids := if rgo then [] else (c.host.nss.filter fun x => x.ana == g && bit x.attached n).map (·.nsid)
    bytesLE 4 g ++ bytesLE 4 ids.length ++ bytesLE 8 c.log.anaChanges ++ bytesLE 1 (code g) ++ List.replicate 15 0
      ++ ids.flatMap (bytesLE 4)
  bytesLE 8 c.log.anaChanges ++ bytesLE 2 4 ++ List.replicate 6 0 ++ [1, 2, 3, 4].flatMap one

/-- Sanitize Status (R712). -/
def Chip.sanitizeLog (c : Chip) : List Byte :=
  let s := c.rs.san
  let prog := if s.status = 2 then min 65535 (65536 * s.done / max 1 s.total) else 65535
  layout 512 (fun _ => 0) [(0, 2, prog), (2, 2, s.status), (4, 4, s.action + b2n s.ause * 8 + (if s.action = 3 then 16 else 0)),
    (8, 4, (s.total - s.done) * 1458 / 16), (12, 4, 0xFFFFFFFF), (16, 4, 10)]

/-- Changed Zone List of a namespace. -/
def CtrlSt.changedZoneLog (x : CtrlSt) (nsid : Nat) : List Byte :=
  let zs := (x.changedZones.filter fun z => z.1 == nsid).map (·.2)
  ((bytesLE 2 (if 511 < zs.length then 65535 else zs.length) ++ List.replicate 6 0 ++ (zs.take 511).flatMap (bytesLE 8))
    ++ List.replicate 4096 0).take 4096

/-- The 16-byte header of a vendor log (R857). -/
def vendorHeader (lid len gen : Nat) : List Byte := bytesLE 1 lid ++ [1, 0, 0] ++ bytesLE 4 len ++ bytesLE 8 gen

/-- The lowest detector margin of the port's beams in the last hour; with none the spec states no value (log 156). -/
def Chip.lowMargin (c : Chip) (h : Port) : Nat :=
  let l := (c.log.margins.filter fun e => e.1 == h.val && c.now < e.2.1 + secs 3600).map (·.2.2)
  match l with
  | [] => Config.noMargin.toNat
  | m :: r => r.foldl min m

/-- A port entry of the Bay Health log (R858); the rounding of the fraction is the model's (log 100). -/
def Chip.portEntry (c : Chip) (h : Port) : List Byte :=
  let p : Page := .head h
  let any := (List.range 6).foldl (fun a k =>
    a + b2n (allBeams.any fun b => (List.range 205).any fun f => c.calFlag k h b f) * 2 ^ k) 0
  let part := match c.calPoint (c.portTemp h) with
    | some k => (allBeams.map fun b => ((List.range 192).filter fun f => c.calFlag k h b f).length).sum * 255 / 960
    | none => 0
  layout 32 (fun _ => 0) ([(0, 1, c.rd p Reg.HEAD.BEAM_MAP_MODE), (1, 1, c.rd p Reg.HEAD.BEAM_MAP_RETIRED),
    (2, 1, c.rd p Reg.HEAD.BEAM_MAP_SPARE),
    (3, 1, c.rd p Reg.HEAD.WR_HSTAT_VFY_ACTIVE + 4 * c.rd p Reg.HEAD.WR_HSTAT_DEGRADED)]
    ++ ((List.range 5).map fun b => (4 + 2 * b, 2, c.rdI p Reg.HEAD.LWEAR_RATIO b))
    ++ [(14, 2, toBits 16 (divRound (c.portTemp h) 64)), (16, 4, (c.hd h).opuId.toNat),
      (20, 2, c.lowMargin h), (22, 2, (assocGet h.val c.log.hoursLeft).getD 0xFFFF), (24, 1, any), (25, 1, part)])

/-- A package entry of the Bay Health log. -/
def Chip.pkgEntry (c : Chip) (i : Nat) (p : PkgSt) : List Byte :=
  layout 32 (fun _ => 0) [(0, 1, c.rdI .rstore Reg.RSTORE.PKG_STAT_STATE i), (4, 4, p.spare), (8, 4, p.spareInit), (12, 4, p.eraseMean),
    (16, 4, p.eraseMax), (20, 4, p.eraseMin), (24, 4, p.programFails)]

/-- The copy of the calibration set in force: 1 for B (R615). -/
def Chip.copyInForce (c : Chip) : Nat :=
  match c.rs.calA, c.rs.calB with
  | some a, some b => b2n (a.seq < b.seq)
  | none, some _ => 1
  | _, _ => 0

/-- Bay Health (R858). -/
def Chip.bayLog (c : Chip) (gen : Nat) : List Byte :=
  vendorHeader 0xC0 4096 gen ++ bytesLE 4 (c.rd .sluice Reg.SLUICE.ADMITTED_KIB) ++ bytesLE 4 (c.rd .sluice Reg.SLUICE.BUDGET_KIB)
    ++ bytesLE 4 (c.rd .sluice Reg.SLUICE.CAP_MEAS_UF) ++ bytesLE 2 c.wtCount ++ [0, 0]
    ++ allPorts.flatMap c.portEntry ++ c.pkgEntry 0 c.rs.pkg0 ++ c.pkgEntry 1 c.rs.pkg1
    ++ layout 32 (fun _ => 0) [(0, 2, c.rd .assay Reg.ASSAY.REF_DEV_PPM), (4, 4, c.assay.seq), (8, 1, c.copyInForce),
      (12, 4, c.rs.calStores), (16, 4, c.rs.calDefers), (20, 4, c.rs.calFails)]
    ++ List.replicate 3456 0

/-- Lost LBA log (R859). -/
def Chip.lostLog (c : Chip) : List Byte :=
  let one := fun (e : LostEntry) =>
    layout 32 (fun _ => 0) [(0, 4, e.nsid), (4, 1, e.cause), (8, 8, e.slba), (16, 4, e.nlb), (24, 8, e.tb)]
  let body := c.log.lost.flatMap one
  (vendorHeader 0xC1 (16 + body.length) c.log.gen1).take 12 ++ bytesLE 4 c.log.lostTotal ++ body

/-- An entry of the Event log (R860). -/
def eventBytes (e : EventEntry) : List Byte := bytesLE 8 e.tb ++ bytesLE 2 e.code ++ bytesLE 2 e.unit ++ bytesLE 8 e.arg ++ List.replicate 12 0
/-- The Event log: a ring of 1,024 entries, newest first. -/
def Chip.ringLog (c : Chip) : List Byte :=
  ((c.log.events.flatMap eventBytes) ++ List.replicate 32768 0).take 32768
/-- Event log (R860). -/
def Chip.eventLog (c : Chip) : List Byte := vendorHeader 0xC2 32784 c.log.gen2 ++ c.ringLog

/-- Temperature and Life log (R861). -/
def Chip.lifeLog (c : Chip) : List Byte :=
  vendorHeader 0xC3 108 c.log.gen3 ++ (c.log.bins.flatMap (bytesLE 4)) ++ bytesLE 8 (c.log.life / 60000)
    ++ bytesLE 2 (toBits 16 (c.log.maxTj.getD 0)) ++ bytesLE 2 (toBits 16 (c.log.maxOpu.getD 0))

/-- Fills up to a whole number of 512-byte blocks. -/
def blocks512 (l : List Byte) : List Byte := l ++ List.replicate (divUp l.length 512 * 512 - l.length) 0

/-- Telemetry: a header that names the last block of each data area, and the areas (R862). -/
def Chip.telemetry (c : Chip) (lid gen : Nat) : List Byte :=
  let words := fun (l : List Word) => l.flatMap fun w => bytesLE 4 w.toNat
  let a1 := blocks512 (c.bayLog gen ++ c.lifeLog)
  let a2 := blocks512 (c.eventLog ++ c.rs.history.flatMap words)
  let a3 := blocks512 (c.traces.toList.flatMap fun t => t.buf.reverse.flatMap words)
  let n1 := a1.length / 512
  let n2 := n1 + a2.length / 512
  let n3 := n2 + a3.length / 512
  layout 512 (fun _ => 0) [(0, 1, lid), (8, 2, n1), (10, 2, n2), (12, 2, n3), (382, 1, b2n (c.log.captures != 0)), (383, 1, c.log.captures % 256)]
    ++ a1 ++ a2 ++ a3

/-- Captures the controller-initiated telemetry (R862) and posts its event to the controllers that ask for it. -/
def Chip.captureTelemetry (c : Chip) : Chip :=
  let (gen, c) := c.free 64
  let c := c.modLog fun l => { l with captures := l.captures + 1 }
  (c.modLog fun l => { l with ctrlTel := c.telemetry 0x08 gen }).postAll 6 0 2 4 0x08

/-- The kind of event that reading a log unmasks (R856). -/
def logKind (lid : Nat) : Nat :=
  match lid with
  | 0x02 => 1 | 0xC2 => 2 | 0x0C => 3 | 0x04 => 4 | 0x03 => 5 | 0x08 => 6 | 0xBF => 7 | _ => 0

/-- The content of a log for controller `n`, with what producing it changes. -/
def Chip.logPage (c : Chip) (n lid lsp nsid : Nat) : List Byte × Chip :=
  match lid with
  | 0x00 => (layout 1024 (fun _ => 0) (logIds.map fun i => (4 * i, 4, 1)), c)
  | 0x01 => ((c.ctl n).errorLog, c)
  | 0x02 => (c.smartLog, c)
  | 0x03 => (c.slotLog, c)
  | 0x04 => ((((c.ctl n).changedNs.flatMap (bytesLE 4)) ++ List.replicate 4096 0).take 4096, c)
  | 0x05 => (effectsLog, c)
  | 0x06 => (c.settleSelfTest.selfTestLog, c.settleSelfTest)
  | 0x07 =>
    if lsp % 2 = 1 then
      let (gen, c) := c.free 64
      let c := c.modLog fun l => { l with hostTel := c.telemetry 0x07 gen }
      (c.log.hostTel, c)
    else (c.log.hostTel, c)
  | 0x08 => (c.log.ctrlTel, c)
  | 0x0C => (c.anaLog n (lsp % 2 == 1), c)
  | 0x81 => (c.sanitizeLog, c)
  | 0xBF => ((c.ctl n).changedZoneLog nsid, c)
  | 0xC0 =>
    let (gen, c) := c.free 64
    (c.bayLog gen, c)
  | 0xC1 => (c.lostLog, c)
  | 0xC2 => (c.eventLog, c)
  | _ => (c.lifeLog, c)

/-- Reading a log without Retain Asynchronous Event unmasks its events and empties a list of changes. -/
def Chip.logRead (c : Chip) (n lid nsid : Nat) : Chip :=
  c.modCtl n fun x => { x with
    masked := x.masked.filter (· != logKind lid)
    changedNs := if lid = 0x04 then [] else x.changedNs
    changedZones := if lid = 0xBF then x.changedZones.filter (·.1 != nsid) else x.changedZones }

/-- R682. -/
def execGetLogPage (slot : Fin 3072) (s : State) : Out :=
  s.to fun c => c.adminCmd slot.val 0x02 fun c k =>
    let d := k.sqe.cdw10.toNat
    let lid := d % 256
    let n := (d / 65536 + k.sqe.cdw11.toNat % 65536 * 65536 + 1) * 4
    let off := k.sqe.cdw12.toNat + k.sqe.cdw13.toNat * 2 ^ 32
    if !logIds.contains lid then c.fail slot.val 1 0x09 true
    else if 262144 < n then c.fail slot.val 0 0x02 true
    else
      let r := c.logPage k.ctrl lid (slice 8 7 d) k.sqe.nsid.toNat
      let c := if d.testBit 15 then r.2 else r.2.logRead k.ctrl lid k.sqe.nsid.toNat
      c.doneData slot.val ((r.1.drop off ++ List.replicate n 0).take n)

end Sys2Proof.Machine
end

