-- ==== Sys2Proof/Machine/Ident.lean ====
section
/-!
DEFINITION. Identify (R674, R677 to R686, R689). The places of fields are those of NVMe Base 2.0 and its command sets (PRESUMED,
log 98); a byte that neither states is open (log 101).
-/
namespace Sys2Proof.Machine

/-- An Identify structure of 4,096 bytes. -/
def identify (cns : Nat) (fs : List (Nat × Nat × Nat)) : List Byte := layout 4096 (Config.identify cns) fs

/-- Identify Controller (R674, R683, R684). -/
def Chip.identController (_c : Chip) (n : Nat) : List Byte :=
  identify 1 ([(0, 2, 0x1F48), (2, 2, 0x1F48), (77, 1, 6), (78, 2, n), (80, 4, 0x00020000), (84, 4, 6000000), (88, 4, 2000000),
    (111, 1, 1), (128, 2, 10), (256, 2, 0xDE), (258, 1, 15), (259, 1, 15), (260, 1, 0x14), (262, 1, 63), (263, 1, 2), (265, 1, 0),
    (266, 2, 413), (268, 2, 423), (272, 8, 0), (316, 2, 30), (319, 1, 1), (320, 2, 1), (322, 2, 0), (328, 4, 5), (338, 4, 0),
    (342, 1, 10), (343, 1, 0x1F), (344, 4, 4), (348, 4, 4), (516, 4, 1024), (520, 2, 201), (522, 2, 0), (524, 1, 4), (525, 1, 0),
    (526, 4, 0), (531, 1, 0), (536, 4, 2 + 2 ^ 16 + 2 ^ 19)]
    ++ [(2048, 2, 7200), (2051, 1, 0), (2080, 2, 5000), (2083, 1, 0), (2084, 8, 0), (2112, 2, 1200), (2115, 1, 2), (2116, 4, 100000),
      (2120, 4, 20000000)])

/-- The fields of the three LBA formats: metadata size and data size exponent (R686). -/
def lbaFormats : List (Nat × Nat × Nat) := [(128, 4, 12 * 65536), (132, 4, 8 + 12 * 65536), (136, 4, 16 + 12 * 65536)]

/-- Format progress: supported, and the percentage that remains (R715). -/
def NsSt.fpiByte (n : NsSt) : Nat := 128 + n.fpi.getD 0

/-- Identify Namespace (R683 to R687, R696, R717). -/
def NsSt.ident (n : NsSt) (cns : Nat) : List Byte :=
  let atom := if n.std then 63 else 0
  identify cns ([(0, 8, n.size), (8, 8, n.size), (25, 1, 2), (26, 1, n.lbaf + 16 * b2n n.extLba), (27, 1, 3), (28, 1, 0x1D), (29, 1, n.dps),
    (32, 1, n.fpiByte), (33, 1, 1), (34, 2, atom), (36, 2, atom), (42, 2, 0), (92, 4, n.ana)] ++ lbaFormats)

/-- Zones of a standard namespace, or protection formats, as the command set specific structure gives them (R686, R689). -/
def NsSt.identSet (n : NsSt) (cns csi : Nat) : List Byte :=
  if csi = 2 ∧ n.std then
    identify cns ([(4, 4, 255), (8, 4, 255)] ++ [0, 1, 2].flatMap fun i => [(2816 + 16 * i, 8, zoneSize), (2824 + 16 * i, 1, 0)])
  else identify cns [(12, 4, 0), (16, 4, 0), (20, 4, 2 * 128)]

/-- Command set independent Identify Namespace. -/
def NsSt.identAny (n : NsSt) : List Byte := identify 8 [(3, 1, n.fpiByte), (4, 4, n.ana)]

/-- Namespace Identification Descriptor list: the command set identifier. -/
def NsSt.identIds (n : NsSt) : List Byte := (([4, 1, 0, 0, if n.std then 2 else 0] : List Byte) ++ List.replicate 4096 0).take 4096

/-- A list of numbers of 4 bytes, 4,096 bytes long. -/
def idList (l : List Nat) : List Byte := ((l.flatMap (bytesLE 4)) ++ List.replicate 4096 0).take 4096

/-- A controller list. -/
def ctrlList (l : List Nat) : List Byte := ((bytesLE 2 l.length ++ l.flatMap (bytesLE 2)) ++ List.replicate 4096 0).take 4096

/-- Flexible resources of the secondaries. -/
def Chip.secondaryUse (c : Chip) (f : CtrlSt → Nat) : Nat := ((List.range 16).drop 1).map (fun i => f (c.ctl i)) |>.sum

/-- Primary Controller Capabilities (R677). -/
def Chip.identPrimary (c : Chip) : List Byte :=
  identify 0x14 [(0, 2, 0), (4, 1, 3), (32, 4, 480), (36, 4, c.secondaryUse (·.vq)), (40, 2, (c.ctl 0).vq), (42, 2, 33), (46, 2, 1),
    (64, 4, 480), (68, 4, c.secondaryUse (·.vi)), (72, 2, (c.ctl 0).vi), (74, 2, 33), (78, 2, 1)]

/-- Secondary Controller List from controller `from'` on (R676, R677). -/
def Chip.identSecondary (c : Chip) (from' : Nat) : List Byte :=
  let ids := ((List.range 16).drop 1).filter (from' ≤ ·)
  layout 4096 (fun _ => 0) ((0, 1, ids.length) :: ids.zipIdx.flatMap fun e =>
    let o := 32 + 32 * e.2
    [(o, 2, e.1), (o + 2, 2, 0), (o + 4, 1, b2n (c.ctl e.1).online), (o + 8, 2, e.1), (o + 10, 2, (c.ctl e.1).vq), (o + 12, 2, (c.ctl e.1).vi)])

/-- The structure that CNS `cns` asks for, or a status (R679, R683). -/
def Chip.identData (c : Chip) (k : Cmd) : Sum (Nat × Nat) (List Byte) :=
  let nsid := k.sqe.nsid.toNat
  let cns := k.sqe.cdw10.toNat % 256
  let cnt := k.sqe.cdw10.toNat / 65536
  let csi := k.sqe.cdw11.toNat / 2 ^ 24
  let ns := fun (attached : Bool) (f : NsSt → List Byte) =>
    if nsid = 0 ∨ 1024 < nsid then .inl (0, 0x0B)
    else
      match c.ns? nsid with
      | some n => if attached ∧ !bit n.attached k.ctrl then .inr (List.replicate 4096 0) else .inr (f n)
      | none => .inr (List.replicate 4096 0)
  let attached := fun (x : NsSt) => bit x.attached k.ctrl
  let ids := fun (f : NsSt → Bool) => idList (((c.host.nss.filter fun x => f x && decide (nsid < x.nsid)).map (·.nsid)).mergeSort (· ≤ ·))
  match cns with
  | 0x00 => ns true fun n => n.ident 0
  | 0x01 => .inr (c.identController k.ctrl)
  | 0x02 => .inr (ids attached)
  | 0x03 => ns true NsSt.identIds
  | 0x05 => ns true fun n => n.identSet 5 csi
  | 0x06 => .inr (if csi = 2 then layout 4096 (fun _ => 0) [(0, 1, 6)] else identify 6 [])
  | 0x08 => ns true NsSt.identAny
  | 0x0A => ns false fun n => n.identSet 0x0A csi
  | 0x10 => .inr (ids fun _ => true)
  | 0x11 => ns false fun n => n.ident 0x11
  | 0x12 => ns false fun n => ctrlList ((List.range 16).filter fun i => cnt ≤ i && bit n.attached i)
  | 0x13 => .inr (ctrlList ((List.range 16).filter (cnt ≤ ·)))
  | 0x14 => .inr c.identPrimary
  | 0x15 => .inr (c.identSecondary cnt)
  | 0x1C => .inr (layout 4096 (fun _ => 0) [(0, 8, 5)])
  | _ => .inl (0, 0x02)

/-- R683. -/
def execIdentify (slot : Fin 3072) (s : State) : Out :=
  s.to fun c => c.adminCmd slot.val 0x06 fun c k =>
    match c.identData k with
    | .inl (sct, sc) => c.fail slot.val sct sc true
    | .inr d => c.doneData slot.val d

end Sys2Proof.Machine
end

