-- ==== Sys2Proof/Machine/Nvm.lean ====
section
/-!
DEFINITION. Namespaces, Format NVM and Sanitize (R685, R707 to R715).
-/
namespace Sys2Proof.Machine

/-! ## Keys and namespaces -/

/-- A new key: what the controller's random generator gives, a free value (R707). -/
def Chip.newKey (c : Chip) : Nat × Chip :=
  let (a, c) := c.free 64
  let (b, c) := c.free 64
  let (d, c) := c.free 64
  let (e, c) := c.free 64
  let (f, c) := c.free 64
  let (g, c) := c.free 64
  let (h, c) := c.free 64
  let (i, c) := c.free 64
  ([a, b, d, e, f, g, h, i].foldl (fun x y => x * 2 ^ 64 + y) 0, c)

/-- XTS_STAT.KEYS (R729). -/
def Chip.updKeys (c : Chip) : Chip := c.stat .host Reg.HOST.XTS_STAT_KEYS c.host.nss.length

/-- Replaces a namespace's key (R707, R708). -/
def Chip.rekey (c : Chip) (nsid : Nat) : Chip :=
  let (k, c) := c.newKey
  let c := c.modNs nsid fun n => { n with key := k, keyTag := n.keyTag + 1 }
  if c.shared nsid then c.tableUpdate [1, nsid] else c

/-- A new namespace with its key (R685, R707). -/
def Chip.addNs (c : Chip) (n : NsSt) : Chip :=
  let (k, c) := c.newKey
  let c := (c.modHost fun h => { h with nss := h.nss ++ [{ n with key := k }] }).updKeys
  if 3 ≤ n.ana then c.tableUpdate [1, n.nsid] else c

/-- The maintenance namespaces, as the record store is formatted with them (R685); they are attached to every controller
(DESIGN CHOICE, log 103). -/
def Chip.addMaint (c : Chip) : Chip :=
  [1, 2].foldl (fun (c : Chip) i =>
    if (c.ns? i).isSome then c else c.addNs { nsid := i, std := false, size := 4194304, ana := 1, attached := 0xFFFF }) c

/-- Namespace Attribute Changed for the controllers of `mask` (NVMe, PRESUMED, log 98). -/
def Chip.nsChanged (c : Chip) (nsid mask : Nat) : Chip :=
  (List.range 16).foldl (fun (c : Chip) n =>
    if bit mask n then (c.modCtl n fun x => { x with changedNs := x.changedNs.filter (· != nsid) ++ [nsid] }).postEvent n 4 0 2 0 0x04
    else c) c

/-- The status that meets a creation with data `d`, or the namespace it asks for (R685, R686, R717, R831). -/
def Chip.createCheck (c : Chip) (k : Cmd) (d : List Byte) : Sum (Nat × Nat) NsSt :=
  let num := fun (o n : Nat) => natLE ((d.drop o).take n)
  let size := num 0 8
  let f := num 26 1 % 16
  let dps := num 29 1
  let g := if num 92 4 = 0 then 2 else num 92 4
  let free := ((List.range 1025).drop 3).find? fun i => (c.ns? i).isNone
  if k.sqe.cdw11.toNat / 2 ^ 24 ≠ 2 then .inl (1, 0x29)
  else if size = 0 ∨ size % zoneSize ≠ 0 ∨ num 8 8 ≠ size then .inl (0, 0x02)
  else if 2 < f then .inl (1, 0x0A)
  else if dps % 8 ≠ 0 ∧ (f = 0 ∨ (dps % 8 ≠ 1 ∧ dps % 8 ≠ 3)) then .inl (0, 0x02)
  else if g < 2 ∨ 4 < g ∨ (3 ≤ g ∧ c.pairState ≠ 2) then .inl (1, 0x24)
  else
    match free with
    | none => .inl (1, 0x16)
    | some i => .inr { nsid := i, std := true, size := size, lbaf := f, extLba := bit (num 26 1) 4, dps := dps, ana := g }

/-- Ends every command of a namespace that is in flight with a status; what is staged has taken effect and is acknowledged. -/
def Chip.endNsCommands (c : Chip) (nsid sct sc : Nat) : Chip :=
  let c := (c.sluice.batches.filter fun b => b.nsid == nsid && b.staged && b.slot.isSome).foldl (fun (c : Chip) b => c.ackBatch b.id) c
  (c.host.slots.filter fun s => s.2.sq != 0 && s.2.sqe.nsid.toNat == nsid && s.2.phase != .event).foldl (fun (c : Chip) s => c.abortCmd s.1 sct sc) c

/-- Every zone of a namespace becomes Empty: staging dropped, bindings released (R710, R714). -/
def Chip.emptyNs (c : Chip) (nsid : Nat) : Chip :=
  match c.ns? nsid with
  | none => c
  | some n => (n.zones.map (·.1)).foldl (fun (c : Chip) z => c.resetZone nsid z) c

/-- Deletes a standard namespace. -/
def Chip.deleteNs (c : Chip) (n : NsSt) : Chip :=
  let c := ((c.endNsCommands n.nsid 0 0x0B).emptyNs n.nsid).forgetRange n.nsid 0 (2 ^ 64)
  let c := (c.modHost fun h => { h with nss := h.nss.filter fun x => x.nsid != n.nsid }).updKeys
  (if 3 ≤ n.ana then c.tableUpdate [2, n.nsid] else c).nsChanged n.nsid n.attached

/-- R685: which free NSID a creation takes is the model's choice (log 103). -/
def execNamespaceManagement (slot : Fin 3072) (d : List Byte) (s : State) : Out :=
  s.to fun c => c.adminCmd slot.val 0x0D fun c k =>
    let nsid := k.sqe.nsid.toNat
    match k.sqe.cdw10.toNat % 16 with
    | 0 =>
      match c.createCheck k d with
      | .inl (sct, sc) => c.fail slot.val sct sc true
      | .inr n => (c.addNs n).done slot.val n.nsid
    | 1 =>
      if nsid = 2 ^ 32 - 1 then ((c.host.nss.filter (·.std)).foldl Chip.deleteNs c).done slot.val 0
      else
        match c.ns? nsid with
        | none => c.fail slot.val 0 0x0B true
        | some n => if n.std then (c.deleteNs n).done slot.val 0 else c.fail slot.val 0 0x02 true
    | _ => c.fail slot.val 0 0x02 true

/-- Controllers that a controller list names. -/
def ctrlListOf (d : List Byte) : List Nat :=
  (List.range (natLE (d.take 2))).map fun i => natLE ((d.drop (2 + 2 * i)).take 2)

/-- R679: of standard namespaces only. -/
def execNamespaceAttachment (slot : Fin 3072) (d : List Byte) (s : State) : Out :=
  s.to fun c => c.adminCmd slot.val 0x15 fun c k =>
    let sel := k.sqe.cdw10.toNat % 16
    let ids := ctrlListOf d
    match c.ns? k.sqe.nsid.toNat with
    | none => c.fail slot.val 0 0x0B true
    | some n =>
      if !n.std ∨ 1 < sel then c.fail slot.val 0 0x02 true
      else if ids.isEmpty ∨ ids.any (16 ≤ ·) then c.fail slot.val 1 0x1C true
      else if ids.any (fun i => bit n.attached i == (sel == 0)) then c.fail slot.val 1 (if sel = 0 then 0x18 else 0x1A) true
      else
        let m := ids.foldl (fun a i => setBit a i (sel == 0)) n.attached
        let hit := ids.foldl (fun a i => setBit a i true) 0
        ((c.modNs n.nsid fun n => { n with attached := m }).nsChanged n.nsid hit).done slot.val 0

/-! ## Format NVM (R714, R715) -/

/-- Secure Erase Settings of a format. -/
def Cmd.ses (k : Cmd) : Nat := slice 9 3 k.sqe.cdw10.toNat

/-- A format begins: its intent record is written, and commands to the namespace meet Format In Progress. -/
def Chip.formatStart (c : Chip) (slot : Nat) (k : Cmd) : Chip :=
  match c.ns? k.sqe.nsid.toNat with
  | none => c.fail slot 0 0x0B true
  | some n =>
    let d := k.sqe.cdw10.toNat
    let t := slice 5 3 d
    if n.fpi.isSome then c.fail slot 0 0x84 false
    else if 2 < d % 16 then c.fail slot 1 0x0A true
    else if 2 < k.ses ∨ (n.std ∧ k.ses = 1) ∨ (t ≠ 0 ∧ (d % 16 = 0 ∨ (t ≠ 1 ∧ t ≠ 3))) then c.fail slot 0 0x02 true
    else
      let c := { c with rs := { c.rs with formats := c.rs.formats ++ [(n.nsid, k.ses)] } }
      let c := c.endNsCommands n.nsid 0 0x84
      (c.modNs n.nsid fun n => { n with fpi := some 100 }).setPhase slot .firmware

/-- The effect of a format on its namespace: with SES 2 the key is replaced. -/
def Chip.formatNs (c : Chip) (n : NsSt) (ses : Nat) : Chip :=
  let c := if n.std then c.emptyNs n.nsid
    else { c with rs := { c.rs with maint := c.rs.maint.filter fun e => e.1 / 2 ^ 22 != n.nsid } }
  let c := if ses = 2 then c.rekey n.nsid else c
  let c := { c with rs := { c.rs with formats := c.rs.formats.filter fun f => f.1 != n.nsid } }
  (c.forgetRange n.nsid 0 (2 ^ 64)).modNs n.nsid fun n => { n with fpi := none, notReady := false }

/-- A format ends: its completion record is written and the command completes. -/
def Chip.formatEnd (c : Chip) (slot : Nat) (k : Cmd) : Chip :=
  match c.ns? k.sqe.nsid.toNat with
  | none => c
  | some n =>
    let d := k.sqe.cdw10.toNat
    let c := (c.formatNs n k.ses).modNs n.nsid fun n => { n with lbaf := d % 16, extLba := bit d 4, dps := slice 5 4 d }
    (c.nsChanged n.nsid n.attached).done slot 0

/-- R714: a fetched command begins, one that has begun ends (log 104). With `resumed`, an erase that a power loss interrupted
ends (R715). -/
def execFormatNvm (slot : Fin 3072) (resumed : Bool) (s : State) : Out :=
  s.to fun c =>
    if resumed then
      match c.rs.formats.findSome? fun f => (c.ns? f.1).bind fun n => if n.notReady then some (n, f.2) else none with
      | some (n, ses) => if c.mgmt.resumed then c.formatNs n ses else c
      | none => c
    else
      match c.cmdAt slot.val with
      | some k =>
        if k.phase = .firmware ∧ k.sq = 0 ∧ k.sqe.opc = 0x80 then (if c.mgmt.resumed then c.formatEnd slot.val k else c)
        else c.adminCmd slot.val 0x80 fun c k => c.formatStart slot.val k
      | none => c

/-! ## Sanitize (R709 to R713) -/

/-- The polder was created by this controller (R626, R709). -/
def Polder.own (p : Polder) : Bool := p.id / 2 ^ 32 == Config.serial.toNat % 2 ^ 32

/-- The recorded layers of the surfaces of the polders that a sanitize acts on: disc, side, layer. -/
def Chip.sanitizeRegions (c : Chip) : List (Nat × Nat × Nat) :=
  let discs := ((c.lib.polders.filter Polder.own).flatMap fun p => p.segs.flatten.map (·.disc)).eraseDups
  c.lib.surfaces.flatMap fun e =>
    if discs.contains (e.1 / 2) then
      ((List.range 8).filter fun l => (List.range 4).any fun j => (assocGet (l * 4 + j) e.2.top).isSome).map fun l => (e.1 / 2, e.1 % 2, l)
    else []

/-- Crypto Erase (R710). -/
def Chip.cryptoErase (c : Chip) : Chip :=
  let ids := c.host.nss.map (·.nsid)
  let c := ids.foldl Chip.emptyNs c
  let c := ids.foldl Chip.rekey c
  let c := { c with rs := { c.rs with maint := [], flushes := [] } }
  let c := (c.lib.polders.filter Polder.own).foldl (fun (c : Chip) p =>
    if p.st = .retired then c else (c.retireDiscs p).modPolder p.id fun p => { p with st := .retired, recording := false, zones := [] }) c
  let c := c.modLib fun l => { l with cache := [] }
  let c := c.modLog fun l => { l with lost := [], unreliable := false, gen1 := l.gen1 + 1 }
  ({ c with rs := { c.rs with san := { c.rs.san with erased := true, done := 1 } } }.event .polder 0).updWarning

/-- The burns of an overwrite that are not done are entered (R711), each of the ingot slots 384 to 481,855 of its layer (DESIGN CHOICE, log
196); an overwrite with none left is complete. -/
def Chip.sanitizeBurns (c : Chip) : Chip :=
  let have' := fun (r : Nat × Nat × Nat) => c.lib.burns.any fun b => b.sanitize && b.disc == r.1 && b.side == r.2.1 && b.layer == r.2.2
  let done := fun (r : Nat × Nat × Nat) =>
    ((assocGet (r.1 * 2 + r.2.1) c.lib.surfaces).getD {}).burns.any fun b => b.1 == r.2.2 && b.2.1 == 384 && b.2.2.1 == 481855
  let todo := c.sanitizeRegions.filter fun r => !have' r && !done r
  let c := c.modLib fun l => { l with
    burns := l.burns ++ todo.zipIdx.map fun r => { id := l.intentNext + r.2, op := c.rs.san.op, disc := r.1.1, side := r.1.2.1, layer := r.1.2.2, first := 384, last := 481855, step := 0, sanitize := true }
    intentNext := l.intentNext + todo.length }
  let c := (todo.map (·.1)).eraseDups.foldl (fun (c : Chip) d => c.askMount d 2) c
  if c.rs.san.total ≤ c.rs.san.done then { c with rs := { c.rs with san := { c.rs.san with status := 1 } } } else c

/-- The sanitize starts (R713): its regions are fixed, the crypto erase runs, and an overwrite goes on with its burns. -/
def Chip.sanitizeRun (c : Chip) : Chip :=
  let n := if c.rs.san.action = 3 then c.sanitizeRegions.length else 0
  let c := { c with rs := { c.rs with san := { c.rs.san with status := 2, total := n + 1, done := 0, erased := false, op := c.rs.san.op + 1 } } }
  let c := c.cryptoErase
  if c.rs.san.action = 3 then c.sanitizeBurns
  else { c with rs := { c.rs with san := { c.rs.san with status := 1 } } }

/-- The status that meets a Sanitize, none where it may run. -/
def Chip.sanitizeCheck (c : Chip) (k : Cmd) : Option (Nat × Nat) :=
  let d := k.sqe.cdw10.toNat
  let act := d % 8
  if act = 1 then (if c.rs.san.failMode ∧ !c.rs.san.ause then some (0, 0x1C) else none)
  else if act = 4 then none
  else if act = 3 ∧ slice 4 4 d = 1 ∧ !d.testBit 8 ∧ k.sqe.cdw11 = 0 then none
  else some (0, 0x02)

/-- A Sanitize is accepted: commands that wait for mounts are interrupted (R726), and it waits for those in flight (R713). -/
def Chip.sanitizeAccept (c : Chip) (slot : Nat) (k : Cmd) : Chip :=
  let d := k.sqe.cdw10.toNat
  if d % 8 = 1 then ({ c with rs := { c.rs with san := { c.rs.san with failMode := false } } }).done slot 0
  else
    let c := (c.host.slots.filter fun s => s.2.phase == .mount).foldl (fun (c : Chip) s => c.interrupted s.1) c
    let c := { c with rs := { c.rs with san := { c.rs.san with action := d % 8, ause := d.testBit 3, failMode := false } } }
    (c.modHost fun h => { h with sanWait := true }).setPhase slot .firmware

/-- Commands in flight that a sanitize waits for: all but the admin commands that it allows and its own. -/
def Chip.sanitizeHeld (c : Chip) (slot : Nat) : Bool :=
  c.host.slots.any fun s => s.1 != slot && (s.2.sq != 0 || !sanitizeAllows s.2.sqe.opc)

/-- R709: a fetched command is accepted; one accepted starts the sanitize and completes, once the commands in flight have
completed (log 93). -/
def execSanitize (slot : Fin 3072) (s : State) : Out :=
  s.to fun c =>
    match c.cmdAt slot.val with
    | some k =>
      if k.phase = .firmware ∧ k.sq = 0 ∧ k.sqe.opc = 0x84 then
        if !c.mgmt.resumed ∨ c.sanitizeHeld slot.val then c
        else ((c.modHost fun h => { h with sanWait := false }).sanitizeRun).done slot.val 0
      else c.adminCmd slot.val 0x84 fun c k =>
        match c.sanitizeCheck k with
        | some (sct, sc) => c.fail slot.val sct sc true
        | none => c.sanitizeAccept slot.val k
    | none => c

/-- R712: what an unfinished sanitize has not done is done. -/
def execSanitizeResume (s : State) : Out :=
  s.to fun c =>
    if c.rs.san.status = 2 ∧ c.rs.mounted ∧ c.mgmt.resumed then
      if !c.rs.san.erased then c.sanitizeRun else c.sanitizeBurns
    else c

end Sys2Proof.Machine
end

