-- ==== Sys2Proof/Machine/Firm.lean ====
section
/-!
DEFINITION. Firmware images and their activation, virtualization, NVMe-MI, and the vendor admin commands (R176, R677, R716, R723,
R724, R863, R864).
-/
namespace Sys2Proof.Machine

/-! ## Firmware (R716, R863, R864) -/

/-- R716: pieces of 4 KiB, up to 8 MiB. -/
def execFirmwareImageDownload (slot : Fin 3072) (s : State) : Out :=
  s.to fun c => c.adminCmd slot.val 0x11 fun c k =>
    let n := (k.sqe.cdw10.toNat + 1) * 4
    let o := k.sqe.cdw11.toNat * 4
    let ps := (List.range (n / 4096)).map (o / 4096 + ·)
    if n % 4096 ≠ 0 ∨ o % 4096 ≠ 0 ∨ 2 ^ 23 < o + n then c.fail slot.val 0 0x02 true
    else if ps.any c.host.download.pieces.contains then c.fail slot.val 1 0x14 true
    else (c.modHost fun h => { h with download := { h.download with pieces := h.download.pieces ++ ps } }).done slot.val 0

/-- Slot of the running image: 0 A, 1 B (R131). -/
def Chip.runningSlot (c : Chip) : Nat := c.rd .sys Reg.SYS.BOOT_STAT_IMAGE
/-- An image slot of the boot flash. -/
def Chip.imageSlot (c : Chip) (n : Nat) : ImageSlot := if n = 0 then c.rs.slotA else c.rs.slotB
/-- Writes an image slot. -/
def Chip.setSlot (c : Chip) (n : Nat) (i : ImageSlot) : Chip :=
  { c with rs := if n = 0 then { c.rs with slotA := i } else { c.rs with slotB := i } }
/-- A sequence number above those of both slots: its slot is loaded at the next full reset (R111). -/
def Chip.nextSeq (c : Chip) : Nat := max c.rs.slotA.seq c.rs.slotB.seq + 1

/-- Minutes after an activation during which another is prohibited (R863). -/
def Chip.activeLately (c : Chip) : Bool :=
  match c.host.lastActivation with
  | some t => c.now < t + secs 600
  | none => false

/-- Activation without reset from the copying of the image on: the event, CSTS.PP and the warm restart (R863, steps 2 to 5). -/
def Chip.activateImage (c : Chip) (slot n : Nat) (img : ImageSlot) : Chip :=
  let old := c.imageSlot n
  let c := c.setSlot n { img with seq := c.nextSeq }
  let c := c.postAll 5 0 2 1 0x03
  let c := (List.range 16).foldl (fun (c : Chip) i => c.modCtl i fun x => { x with pp := true }) c
  let c := (c.modHost fun h => { h with activation := some ⟨n, some slot, c.now, old⟩, download := {} }).setPhase slot .firmware
  (c.warmRestart 2).put .sys Reg.SYS.BOOT_STAT_IMAGE n

/-- A Firmware Commit to slot `n` with action `act` (R716, R863); an image kept for a later activation gets sequence number 0
(DESIGN CHOICE, log 105). -/
def Chip.commitImage (c : Chip) (slot n act : Nat) (img : ImageSlot) : Chip :=
  let fresh := !c.host.download.pieces.isEmpty && act != 2
  let img := if fresh then img else c.imageSlot n
  if act = 3 ∧ n = c.runningSlot then c.fail slot 1 0x06 true
  else if act = 3 ∧ c.activeLately then c.fail slot 1 0x13 true
  else if !img.ok then c.fail slot 1 0x07 true
  else if act = 3 then c.activateImage slot n img
  else
    let c := c.setSlot n { img with seq := if act = 0 then 0 else c.nextSeq }
    (c.modHost fun h => { h with download := {} }).done slot 0

/-- R716: `img` is what authentication finds in the downloaded image. Slot 0 leaves the choice to the controller: the slot that
does not run (DESIGN CHOICE, log 105). -/
def execFirmwareCommit (slot : Fin 3072) (img : ImageSlot) (s : State) : Out :=
  s.to fun c => c.adminCmd slot.val 0x10 fun c k =>
    let d := k.sqe.cdw10.toNat
    let fs := d % 8
    let act := slice 3 3 d
    if 3 < act then c.fail slot.val 0 0x02 true
    else if 2 < fs then c.fail slot.val 1 0x06 true
    else c.commitImage slot.val (if fs = 0 then 1 - c.runningSlot else fs - 1) act img

/-- The controller goes back to the kept image (R864): the next warm restart runs it, and the new slot's header is erased. -/
def Chip.revert (c : Chip) (n : Nat) : Chip :=
  let c := c.setSlot n { c.imageSlot n with ok := false, seq := 0 }
  let c := (List.range 16).foldl (fun (c : Chip) i => c.modCtl i fun x => { x with pp := false }) c
  let t := (c.host.activation.map (·.at')).getD (c.host.lastActivation.getD c.now)
  let c := c.modHost fun h => { h with activation := none, lastActivation := some t, revert := true }
  ((c.put .sys Reg.SYS.BOOT_STAT_IMAGE (1 - n)).logEv0 0x0011).captureTelemetry

/-- R864: two fires of the watchdog within 10 minutes of the activation, or no resumption within 250 ms. -/
def execFirmwareRevert (s : State) : Out :=
  s.to fun c =>
    if c.host.revert then c
    else
      match c.host.activation with
      | some a => if c.mgmt.resumed then c else (c.until' (a.at' + ms 250)).revert a.slot
      | none =>
        match c.host.lastActivation, c.mgmt.fires with
        | some t, [_, f] => if t ≤ f ∧ c.activeLately then c.revert c.runningSlot else c
        | _, _ => c

/-! ## Virtualization Management (R677) -/

/-- Flexible resources of a kind that nobody has. -/
def Chip.unassigned (c : Chip) (f : CtrlSt → Nat) : Nat := 480 - f (c.ctl 0) - c.secondaryUse f

/-- A secondary controller is taken offline: its queues go, and its flexible resources are returned (NVMe, PRESUMED, log 98). -/
def Chip.secondaryOff (c : Chip) (n : Nat) : Chip :=
  (c.modCtl n fun x => { x with online := false, vq := 0, vi := 0, en := false, rdy := false, sqs := [], cqs := [] }).updFunc

/-- R677. -/
def execVirtualizationManagement (slot : Fin 3072) (s : State) : Out :=
  s.to fun c => c.pfCmd slot.val 0x1C fun c k =>
    let d := k.sqe.cdw10.toNat
    let act := d % 16
    let rt := slice 8 3 d
    let n := d / 65536
    let nr := k.sqe.cdw11.toNat % 65536
    let use := fun (x : CtrlSt) => if rt = 0 then x.vq else x.vi
    let x := c.ctl n
    if act ≠ 1 ∧ act ≠ 7 ∧ act ≠ 8 ∧ act ≠ 9 then c.fail slot.val 0 0x02 true
    else if (act = 1 ∧ n ≠ 0) ∨ (act ≠ 1 ∧ (n = 0 ∨ 15 < n)) then c.fail slot.val 1 0x1F true
    else if (act = 1 ∨ act = 8) ∧ 1 < rt then c.fail slot.val 1 0x22 true
    else if act = 1 then
      if 480 - c.secondaryUse use < nr then c.fail slot.val 1 0x21 true
      else
        (c.modCtl 0 fun x => if rt = 0 then { x with vqNext := some nr } else { x with viNext := some nr }).done slot.val nr
    else if act = 8 then
      if x.online then c.fail slot.val 1 0x20 true
      else if c.unassigned use + use x < nr then c.fail slot.val 1 0x21 true
      else (c.modCtl n fun x => if rt = 0 then { x with vq := nr } else { x with vi := nr }).done slot.val nr
    else if act = 9 then
      if x.vq < 2 ∨ x.vi < 1 then c.fail slot.val 1 0x20 true
      else (c.modCtl n fun x => { x with online := true }).done slot.val 0
    else
      let c := (c.host.slots.filter fun s => s.2.ctrl == n && s.2.origin == 0).foldl (fun (c : Chip) s =>
        c.modCmd s.1 fun k => { k with silent := true }) c
      (c.secondaryOff n).done slot.val 0

/-! ## NVMe-MI (R176, R679) -/

/-- R679: the message is passed on; what its completion's first dword tells is not stated: a free value (log 106). -/
def execNvmeMiSend (slot : Fin 3072) (d : List Byte) (s : State) : Out :=
  s.to fun c => c.adminCmd slot.val 0x1D fun c _ =>
    let (v, c) := c.free 32
    (c.modMgmt fun m => { m with miQueue := m.miQueue ++ [d] }).done slot.val v

/-- R679: the oldest management response; with none, its data are not stated: free values (log 106). -/
def execNvmeMiReceive (slot : Fin 3072) (s : State) : Out :=
  s.to fun c => c.adminCmd slot.val 0x1E fun c _ =>
    match c.host.miOut with
    | r :: rest => (c.modHost fun h => { h with miOut := rest }).doneData slot.val r
    | [] =>
      let (v, c) := c.free 64
      c.doneData slot.val (bytesLE 8 v)

/-- R176, R723: a message of the management bus is passed to firmware; an admin command in it takes an admin slot. -/
def execNvmeMiMctpMessage (d : List Byte) (admin : Option Sqe) (s : State) : Out :=
  s.to fun c =>
    if !c.isl.aonUp then c
    else
      match admin, c.freeSlot with
      | some e, some slot =>
        (c.modHost fun h => { h with
          slots := assocSet slot { ctrl := 0, sq := 0, sqe := e, seq := h.fetchSeq, since := c.now, origin := 2 } h.slots
          fetchSeq := h.fetchSeq + 1 }).updInflight
      | _, _ => c.modMgmt fun m => { m with miQueue := m.miQueue ++ [d] }

/-! ## Vendor commands (R723, R724) -/

/-- A geometry entry of 32 bytes (R645). -/
def geometryEntry (d : List Byte) : List Int := (List.range 6).map fun i => sext 32 (natLE ((d.drop (4 * i)).take 4))

/-- R723. -/
def execLibraryGeometryWrite (slot : Fin 3072) (d : List Byte) (s : State) : Out :=
  s.to fun c => c.pfCmd slot.val 0xC0 fun c k =>
    let first := k.sqe.cdw10.toNat % 2048
    let n := k.sqe.cdw11.toNat % 256 + 1
    if 128 < n ∨ 1032 < first + n then c.fail slot.val 0 0x02 true
    else
      let g := (List.range n).foldl (fun m i => assocSet (first + i) (geometryEntry (d.drop (32 * i))) m) c.rs.geometry
      ({ c with rs := { c.rs with geometry := g } }).done slot.val 0

/-- R607, R723: the fields of CDW10 and CDW11. -/
def execCalibrationItemWrite (slot : Fin 3072) (s : State) : Out :=
  s.to fun c => c.pfCmd slot.val 0xC1 fun c k =>
    let d := k.sqe.cdw10.toNat
    let v := k.sqe.cdw11.toNat % 65536
    let item := d % 4
    let x := sext 16 v
    match unitOf 16 0 (slice 8 4 d), unitOf 5 0 (slice 12 3 d) with
    | some h, some b =>
      if item = 3 ∨ (!d.testBit 2 ∧ 5 < slice 3 3 d) ∨ (item = 0 ∧ (x < -2048 ∨ 2047 < x)) ∨ (item = 2 ∧ (x < -3 ∨ 3 < x)) then
        c.fail slot.val 0 0x02 true
      else
        let w := if item = 0 then toBits 12 x else if item = 2 then toBits 8 x else v
        (c.calItem h b item (if d.testBit 2 then none else some (slice 3 3 d)) w).done slot.val 0
    | _, _ => c.fail slot.val 0 0x02 true

/-- The rows of a zone are recorded in its new polder zone (R724). -/
def Chip.migrateRows (c : Chip) (id pz dataEnd : Nat) : Chip :=
  (List.range (divUp dataEnd rowBlocks)).foldl (fun (c : Chip) r => c.putRow id pz r (min rowBlocks (dataEnd - r * rowBlocks))) c

/-- A Zone Migrate begins: a polder zone is bound, and the rows are copied to it. -/
def Chip.migrateStart (c : Chip) (slot nsid z : Nat) : Chip :=
  let x := c.zone nsid z
  if x.moving.isSome then c.setPhase slot .firmware
  else if x.st ≠ .full then c.fail slot 0 0x02 true
  else if !(c.zoneBatches nsid z fun _ => true).isEmpty then c
  else if x.bind.isNone then c.done slot 0
  else
    match c.bindZone nsid z with
    | (none, c) => c.fail slot 0 0x81 true
    | (some (id, pz), c) =>
      let c := c.modZone nsid z fun x => { x with moving := some (id, pz) }
      (c.migrateRows id pz x.dataEnd).setPhase slot .firmware

/-- The binding moves once every row of the copy has been verified (R724). -/
def Chip.migrateEnd (c : Chip) (slot nsid z : Nat) : Chip :=
  let x := c.zone nsid z
  match x.moving, x.bind with
  | some (id, pz), some (old, opz) =>
    if (c.polder? id).any fun p => p.rows.any fun r => r.zone == pz then c
    else ((c.modZone nsid z fun x => { x with bind := some (id, pz), moving := none }).releaseZone old opz).done slot 0
  | _, _ => c

/-- R724: a fetched command begins once the zone's rows are all recorded; one that has begun ends when the copy is verified
(log 93). -/
def execZoneMigrate (slot : Fin 3072) (s : State) : Out :=
  s.to fun c =>
    match c.cmdAt slot.val with
    | some k =>
      if k.phase = .firmware ∧ k.sq = 0 ∧ k.sqe.opc = 0xC2 then
        (if c.mgmt.resumed then c.migrateEnd slot.val k.sqe.nsid.toNat (lbaZone (Sqe.slba k.sqe)) else c)
      else c.pfCmd slot.val 0xC2 fun c k =>
        match c.ns? k.sqe.nsid.toNat with
        | none => c.fail slot.val 0 0x0B true
        | some n =>
          let l := Sqe.slba k.sqe
          if !n.std ∨ l % zoneSize ≠ 0 then c.fail slot.val 0 0x02 true
          else if n.size ≤ l then c.fail slot.val 0 0x80 true
          else c.migrateStart slot.val n.nsid (lbaZone l)
    | none => c

end Sys2Proof.Machine
end

