-- ==== Sys2Proof/Machine/Ctrlr.lean ====
section
/-!
DEFINITION. Enabling, reset and shutdown of the controllers, and the PCI Express link (R124, R673, R719 to R721, R727, R728).
-/
namespace Sys2Proof.Machine

/-- CC.EN is set (R124): the admin queues exist, and the controller is ready once start-up is complete. -/
def Chip.ctrlEnable (c : Chip) (n ams sq cq : Nat) : Chip :=
  let x := c.ctl n
  if !x.online ∨ x.en then c
  else
    (c.modCtl n fun x => { x with
      en := true, rdy := c.flag .sys Reg.SYS.BOOT_STAT_READY, ams := ams, shst := 0, next := 0, credits := []
      sqs := [{ id := 0, size := sq + 1, cq := 0 }], cqs := [{ id := 0, size := cq + 1 }] }).updFunc

/-- The controllers' registers can be reached: the host island runs and the PCIe link is up (R871). -/
def Chip.hostUp (c : Chip) : Bool := c.islandUp .host && c.host.linkUp

/-- A property of a controller as last written (R136); one not written reads 0 (NVMe, PRESUMED, log 194). -/
def Chip.prop (c : Chip) (n off : Nat) : Nat := (assocGet off (c.ctl n).props).getD 0
/-- A property of a controller is written. -/
def Chip.setProp (c : Chip) (n off w : Nat) : Chip := c.modCtl n fun x => { x with props := assocSet off w x.props }

/-- R124: AMS of CC and the sizes of AQA (an offline secondary ignores CC.EN, R677). -/
def execControllerEnable (n : Ctrl) (ams : Fin 8) (asqs acqs : BitVec 12) (s : State) : Out :=
  s.to fun c =>
    if c.hostUp then
      ((c.setProp n.val 0x24 (asqs.toNat + 2 ^ 16 * acqs.toNat)).setProp n.val 0x14 (1 + 2 ^ 11 * ams.val)).ctrlEnable n.val ams.val
        asqs.toNat acqs.toNat
    else c

/-- A command of a controller that is reset (R719): staged writes stay, the rest is discarded without completion; an admin
command that has begun runs on in silence. -/
def Chip.dropCmd (c : Chip) (slot : Nat) (k : Cmd) : Chip :=
  if k.sq = 0 ∧ k.begun ∧ k.phase ≠ .event then c.modCmd slot fun k => { k with silent := true }
  else
    let c := match k.batch.bind c.batch? with
      | some b =>
        let c := c.modBatch b.id fun b => { b with slot := none }
        if b.staged then c.modLog fun l => { l with blocksWritten := l.blocksWritten + b.nlb } else c.dropBatch b.id
      | none => c
    (c.modHost fun h => { h with slots := assocDel slot h.slots }).updInflight

/-- Resets a controller (R719). -/
def Chip.ctrlReset (c : Chip) (n : Nat) : Chip :=
  let mine := c.host.slots.filter fun s => s.2.ctrl == n && s.2.origin == 0
  let c := mine.foldl (fun (c : Chip) s => c.dropCmd s.1 s.2) c
  let c := (c.modHost fun h => { h with cplWait := h.cplWait.filter fun k => k.ctrl != n }).updInflight
  let zones := ((mine.filterMap fun s => s.2.batch).isEmpty)
  let c := c.modCtl n fun x =>
    { online := x.online, vq := x.vqNext.getD x.vq, vi := x.viNext.getD x.vi
      props := x.props.filter fun e => 0x24 ≤ e.1
      changedNs := x.changedNs, changedZones := x.changedZones, errors := x.errors, errCount := x.errCount }
  let c := c.updFunc
  if zones then c
  else
    let zs := (c.sluice.batches.filter fun b => !b.staged).map fun b => (b.nsid, b.zone)
    (zs.eraseDups.foldl (fun (c : Chip) z => c.startZone z.1 z.2) c).admission

/-- R719. -/
def execControllerReset (n : Ctrl) (s : State) : Out := s.to fun c => if c.hostUp then c.ctrlReset n.val else c

/-- R719. -/
def execFunctionLevelReset (n : Ctrl) (s : State) : Out := s.to fun c => if c.hostUp then c.ctrlReset n.val else c

/-- CC.SHN is written (R721): fetching stops, commands waiting for a mount are interrupted, and a normal shutdown asks for the
calibration store. -/
def Chip.shutdownStart (c : Chip) (n : Nat) (abrupt : Bool) : Chip :=
  let c := c.modCtl n fun x => { x with shst := 1 }
  let c := (c.host.slots.filter fun s => s.2.ctrl == n && s.2.origin == 0 && s.2.phase == .mount).foldl
    (fun (c : Chip) s => c.interrupted s.1) c
  if abrupt then c else c.modAssay fun a => { a with storeReq := a.storeReq || a.changed.isSome }

/-- The commands in flight have ended and the store is done: SHST is complete (R721). -/
def Chip.shutdownEnd (c : Chip) (n : Nat) (abrupt : Bool) : Chip :=
  let busy := c.host.slots.any fun s => s.2.ctrl == n && s.2.origin == 0 && s.2.phase != .event
  let store := c.sluice.calStore.isSome || (c.assay.storeReq && c.assay.changed.isSome)
  if busy ∨ (!abrupt ∧ store) then c else c.modCtl n fun x => { x with shst := 2 }

/-- A shutdown starts, or one that has started completes (R721). -/
def Chip.shutdown (c : Chip) (n : Nat) (abrupt : Bool) : Chip :=
  let x := c.ctl n
  if !x.en then c
  else if x.shst = 0 then (c.shutdownStart n abrupt).shutdownEnd n abrupt
  else if x.shst = 1 then c.shutdownEnd n abrupt
  else c

/-- R721: the first time it starts, later it completes once nothing is in flight (log 93). -/
def execControllerShutdown (n : Ctrl) (abrupt : Bool) (s : State) : Out :=
  s.to fun c =>
    if c.hostUp then c.shutdown n.val abrupt else c

/-! ## The PCI Express link -/

/-- LINK_CTL as it acts (R728). -/
def Chip.maxSpeed (c : Chip) : Nat :=
  let v := c.rd .host Reg.HOST.LINK_CTL_MAX_SPEED
  if v = 0 ∨ 5 < v then 5 else v
/-- The widest width offered. -/
def Chip.maxWidth (c : Chip) : Nat :=
  let v := c.rd .host Reg.HOST.LINK_CTL_MAX_WIDTH
  if v = 1 ∨ v = 2 then v else 4

/-- The link has trained to at most `speed` and `width` (R673, R727). -/
def Chip.linkTrained (c : Chip) (speed width : Nat) : Chip :=
  let p : Page := .host
  let sp := min speed c.maxSpeed
  let w := min width c.maxWidth
  let bad := decide (sp < 5 ∨ w < 4)
  let c := (((c.put p Reg.HOST.LINK_STAT_SPEED sp).put p Reg.HOST.LINK_STAT_WIDTH w).put p Reg.HOST.LINK_STAT_UP 1).putB p Reg.HOST.LINK_STAT_DEGRADED bad
  let c := (c.modHost fun h => { h with linkUp := true }).event p 0
  if bad then (c.fault0 p 0 1 1).logEv0 0x000B else c

/-- R673, R871: the best that both ends manage; widths x1, x2, x4. The link stays down while PERST_N is low. -/
def execPcieLinkTraining (speed : Fin 5) (width : Fin 3) (s : State) : Out :=
  s.to fun c => if c.islandUp .host && !c.pins.perstNLow then c.linkTrained (speed.val + 1) (2 ^ width.val) else c

/-- R731: L0 is lost. -/
def execPcieLinkDown (byHost : Bool) (s : State) : Out :=
  s.to fun c =>
    if !c.islandUp .host ∨ !c.host.linkUp then c
    else
      let p : Page := .host
      let c := ((c.put p Reg.HOST.LINK_STAT_SPEED 0).put p Reg.HOST.LINK_STAT_WIDTH 0).put p Reg.HOST.LINK_STAT_UP 0
      let c := ((c.put p Reg.HOST.LINK_STAT_DEGRADED 0).modHost fun h => { h with linkUp := false }).event p 0
      if byHost then c else c.fault0 p 0 2 1

/-- R727, R728: the retraining counts; the link then trains with these limits. -/
def execPcieRetrain (r : Requester) (s : State) : Out :=
  s.to fun c => c.write r .host fun c => (c.inc .host Reg.HOST.LINK_STAT_RETRAINS).event .host 0

end Sys2Proof.Machine
end

