-- ==== Sys2Proof/Machine/Quench.lean ====
section
/-!
DEFINITION. What the units do when their quench lines become active (R797 and the chapters of the units).
-/
namespace Sys2Proof.Machine

/-- The quench line of a port (R259, R331, R391, R499): lasers off, writes and sectors end, the servo stops. -/
def Chip.portQuench (c : Chip) (h : Port) : Chip :=
  let c := (c.modHd h fun x => { x with groupReady := false, held := true }).updKill h
  let c := allBeams.foldl (fun (c : Chip) b => (c.immediateEnd h b 8 1).cutSector h b 12) c
  (c.srvAbort h).inhibitAll h

/-- The lines of `u` have become active: every unit acts (R797), and trace units that wait for a quench trigger (R450). -/
def Chip.quenchAct (c : Chip) (u : Units) : Chip :=
  if u = {} then c
  else
    let c := allPorts.foldl (fun (c : Chip) h => if bit u.ports h.val then c.portQuench h else c) c
    let c := allSpins.foldl (fun (c : Chip) n => if bit u.spins n.val then c.spQuench n else c) c
    let c := allAxes.foldl (fun (c : Chip) a => if bit u.axes a.val then c.axQuench a else c) c
    c.traceEvent 5 fun _ => true

/-- Activates the lines of `u` and makes their units act (R796, R797). -/
def Chip.quench (c : Chip) (u : Units) : Chip :=
  let (c, new) := c.activateLines u
  c.quenchAct new

end Sys2Proof.Machine
end

