-- ==== Sys2Proof/Machine/Library.lean ====
section
/-!
DEFINITION. The library's discs: requests and grants, mounts and unmounts, the records of a surface, burns (R219 to R240, R644 to
R651, R659).
-/
namespace Sys2Proof.Machine

/-! ## Surfaces -/

/-- A surface: side `side` of the disc of a library slot. -/
def Chip.surf (c : Chip) (disc side : Nat) : Surface := (assocGet (disc * 2 + side) c.lib.surfaces).getD {}
/-- Changes a surface. -/
def Chip.modSurf (c : Chip) (disc side : Nat) (f : Surface → Surface) : Chip :=
  c.modLib fun l => { l with surfaces := assocSet (disc * 2 + side) (f (c.surf disc side)) l.surfaces }
/-- The disc on a spindle. -/
def Chip.discOn (c : Chip) (n : Spin) : Option Nat := c.lib.mounted.get n
/-- The disc under a port. -/
def Chip.discAt (c : Chip) (h : Port) : Option Nat := c.discOn h.spin
/-- What the port knows of its surface is kept with the surface: last slots and the next RSN (R220, R222). -/
def Chip.syncSurf (c : Chip) (h : Port) : Chip :=
  match c.discAt h with
  | some d => c.modSurf d (h.val % 2) fun s => { s with top := (c.hd h).topSlot, nextRsn := max s.nextRsn (c.hd h).nextRsn }
  | none => c
/-- The side field that the port's surface has: side A faces H(2s) (R180, R183). -/
def Chip.discId (c : Chip) (disc : Nat) : Nat := (c.inv disc).discId

/-- The ports under which a surface lies take up its next RSN (R222). -/
def Chip.surfRsn (c : Chip) (disc side : Nat) : Chip :=
  let n := (c.surf disc side).nextRsn
  allPorts.foldl (fun (c : Chip) h =>
    if c.discAt h = some disc ∧ h.val % 2 = side then c.modHd h fun x => { x with nextRsn := max x.nextRsn n } else c) c

/-- Appends a control record in both zones of its layer (R227 to R229). In L0 the last 16 slots are reserved for Burn Intent, Burn
Completion and Surface Finalisation (R233). -/
def Chip.appendRec (c : Chip) (disc side typ layer : Nat) (body : List Byte) : Chip :=
  if layer = 0 ∧ typ < 5 ∧ (c.surf disc side).blankCtrl 0 ≤ 16 then c
  else if layer = 0 ∧ typ = 8 ∧ (c.surf disc side).blankCtrl 0 ≤ 16 then c
  else (c.modSurf disc side fun s => s.append typ layer (c.discId disc) side body).surfRsn disc side

/-- A control record of a type can be appended now (R233). -/
def Surface.roomFor (s : Surface) (typ layer : Nat) : Bool :=
  if layer = 0 ∧ (typ < 5 ∨ typ = 8) then decide (16 < s.blankCtrl 0) else decide (0 < s.blankCtrl layer)

/-- Slots consumed on a surface that no Slot Map holds (R232): those left by a power loss, and those of the port it lies under. -/
def Chip.outstanding (c : Chip) (disc side : Nat) : List MapEntry :=
  let port := fun (k : Consumed) => k.port % 2 == side && c.lib.mounted.toList.getD (k.port / 2) none == some disc
  (c.surf disc side).pending ++ (c.consumed.filter port).map fun k => ⟨k.layer, k.spiral, k.slot, k.reason⟩

/-- The Power Test Log of a layer goes with its next Slot Map, or where none follows with its closure (R383; DESIGN CHOICE for
the latter, log 195). -/
def Chip.appendTests (c : Chip) (disc side layer : Nat) : Chip :=
  let l := (c.surf disc side).testLog.filter (·.1 == layer)
  if l.isEmpty || !(c.surf disc side).roomFor 8 layer then c
  else (c.appendRec disc side 8 layer (testLogBody (l.map (·.2)))).modSurf disc side fun s =>
    { s with testLog := s.testLog.filter (·.1 != layer) }

/-- Appends a Slot Map with what is outstanding on a layer (R232). -/
def Chip.slotMap (c : Chip) (disc side layer : Nat) : Chip :=
  let l := (c.outstanding disc side).filter (·.layer == layer)
  if l.isEmpty || !(c.surf disc side).roomFor 3 layer then c
  else
    let port := fun (k : Consumed) => k.port % 2 == side && c.lib.mounted.toList.getD (k.port / 2) none == some disc
    let c := (c.appendRec disc side 3 layer (mapBody l)).modSurf disc side fun s =>
      { s with consumed := s.consumed ++ l, pending := s.pending.filter (·.layer != layer) }
    ({ c with consumed := c.consumed.filter fun k => !(port k && k.layer == layer) }).appendTests disc side layer

/-- A beam has begun a slot on a spiral of a surface and not completed it. -/
def Chip.begunOn (c : Chip) (disc side layer spiral : Nat) : Bool :=
  allPorts.any fun h => c.discAt h == some disc && h.val % 2 == side && allBeams.any fun b =>
    (c.wrState h b == 3 || c.wrState h b == 4) && ((c.bm h b).run.map fun r => !r.item.burn && r.item.layer == layer && r.item.spiral == spiral).getD false

/-- Ingots recorded on a spiral of a layer: its slots from 384 to the last one, less those consumed, listed or not, and a slot that
is being recorded (R221, R639). -/
def Chip.countOn (c : Chip) (disc side layer spiral : Nat) : Nat :=
  let s := c.surf disc side
  match assocGet (layer * 4 + spiral) s.top with
  | some t =>
    let gone := ((s.consumed ++ c.outstanding disc side).filter fun x => x.layer == layer && x.spiral == spiral && 384 ≤ x.slot).length
    t + 1 - 384 - gone - b2n (c.begunOn disc side layer spiral)
  | none => 0

/-- Consumed slots of a spiral, listed or not. -/
def Chip.goneOn (c : Chip) (disc side layer spiral : Nat) : Nat :=
  (((c.surf disc side).consumed ++ c.outstanding disc side).filter fun x => x.layer == layer && x.spiral == spiral).length

/-- A layer is full (R221): it holds all its user ingots. -/
def Chip.layerFull (c : Chip) (disc side layer : Nat) : Bool :=
  decide (1907456 ≤ ((List.range 4).map fun j => c.countOn disc side layer j).sum)

/-- Closes a layer (R230): the Layer Closure holds its counts, after its Slot Map (R232). -/
def Chip.closeLayer (c : Chip) (disc side layer : Nat) : Chip :=
  if (c.surf disc side).closed.contains layer then c
  else
    let n := fun (f : Nat → Nat) => (List.range 4).map f
    let c := (c.slotMap disc side layer).appendTests disc side layer
    let ingots := n fun j => c.countOn disc side layer j
    let s := c.surf disc side
    let c := c.appendRec disc side 4 layer (closureBody (n fun j => s.lastSlot layer j) ingots (n fun j => c.goneOn disc side layer j))
    let c := c.modSurf disc side fun s =>
      { s with
        closed := s.closed ++ [layer]
        ingots := (List.range 4).foldl (fun m j => assocSet (layer * 4 + j) (ingots.getD j 0) m) s.ingots }
    allPorts.foldl (fun (c : Chip) h =>
      if c.discAt h = some disc ∧ h.val % 2 = side ∧ (c.hd h).layerOpen = some layer then
        ((c.modHd h fun x => { x with layerOpen := none }).put (.head h) Reg.HEAD.WR_HSTAT_DEGRADED 0).updRoles h
      else c) c

/-- The layer being recorded of a surface: the highest with a slot recorded that is not closed. -/
def Surface.openLayer (s : Surface) : Option Nat :=
  ((List.range 8).filter fun l => !s.closed.contains l && (List.range 4).any fun j => (assocGet (l * 4 + j) s.top).isSome).getLast?

/-- Records the finalisation of a surface with its reason (R238, R239). -/
def Chip.finalise (c : Chip) (disc side reason : Nat) : Chip :=
  if (c.surf disc side).finalised.isSome then c
  else
    let c := (List.range 8).foldl (fun (c : Chip) l => c.slotMap disc side l) c
    let c := match (c.surf disc side).openLayer with
      | some l => c.closeLayer disc side l
      | none => c
    let s := c.surf disc side
    let tops := (List.range 32).map fun i => s.lastSlot (i / 4) (i % 4)
    let count := s.consumed.length + (c.outstanding disc side).length
    let c := c.appendRec disc side 7 0 (finalBody reason (s.nextRsn - 1) tops count)
    c.modSurf disc side fun s => { s with finalised := some reason }

/-! ## Interrupted finalisation (R228, R240) -/

/-- The record that a control slot belongs to, with its bytes as far as this zone holds it. -/
def Surface.recOf (s : Surface) (csn : Nat) : CtrlRec :=
  let l := s.ctrl.filter fun k => k.csn == csn && k.leading
  { typ := ((l.head?).map (·.typ)).getD 0, csn := csn, layer := ((l.head?).map (·.layer)).getD 0
    body := l.flatMap fun k => (k.user.getD []).drop 64 }

/-- A copy of a record is complete in a zone. -/
def Surface.hasCopy (s : Surface) (csn : Nat) : Bool :=
  [true, false].any fun z =>
    let l := s.ctrl.filter fun k => k.csn == csn && k.leading == z && k.user.isSome
    !l.isEmpty && l.all fun k => k.parts == l.length

/-- A slot whose recording was interrupted (R228). -/
def CtrlSlot.spoil (k : CtrlSlot) : CtrlSlot := { k with user := none }

/-- Power has failed after `n` control slots of the records that the surface has gained since it stood as `old`: the slot being
recorded is left incomplete, and the records without a complete copy stay to be appended (R228, R240). -/
def Surface.cutAfter (s old : Surface) (n : Nat) : Surface :=
  let new := s.ctrl.drop old.ctrl.length
  let t := { s with ctrl := old.ctrl ++ new.take n ++ ((new.drop n).take 1).map CtrlSlot.spoil }
  let left := ((new.map (·.csn)).eraseDups.filter fun k => !t.hasCopy k).map fun k => s.recOf k
  { t with plan := left, finalised := if left.any fun r => r.typ == 7 then none else s.finalised }

/-- The records of an interrupted finalisation that the disc lacks are appended under their CSN (R240). -/
def Chip.finishPlan (c : Chip) (disc side : Nat) (present : List Nat) : Chip :=
  let s := c.surf disc side
  match s.plan with
  | [] => c
  | l =>
    let s' := (l.filter fun r => !present.contains r.csn).foldl (fun (s : Surface) r => s.put r (c.discId disc) side) s
    let final := (l.find? fun r => r.typ == 7).map fun r => recField r.body 0 1
    (c.modSurf disc side fun _ => { s' with plan := [], finalised := s'.finalised.or final }).surfRsn disc side

/-! ## Lagging members (R652) -/

/-- The state of a polder follows its members (R629). -/
def Polder.settle (p : Polder) : Polder :=
  if p.st = .retired then p
  else { p with
    st := if p.lag.isEmpty then (if p.recording then .opened else .closed) else if p.targets.isEmpty then .degraded else .completing
    lagSince := if p.lag.isEmpty then none else p.lagSince
    compNow := !p.lag.isEmpty && p.compNow }

/-- Discs of a polder whose members lag because the disc is lost. -/
def Chip.lostDiscs (c : Chip) (p : Polder) : List Nat :=
  ((p.lag.map fun l => l.1 / 2).eraseDups).filter fun d =>
    match p.discOf d p.nextQ with
    | some k => !(c.inv k).usable
    | none => false

/-- Members `ms` of a polder begin to lag at row `first` (R652): the polder becomes DEGRADED, rows that wait for them alone are
released (R653), and a second lost disc starts completion at once (R657). -/
def Chip.lagStart (c : Chip) (id : Nat) (ms : List Nat) (first : Nat) : Chip :=
  match c.polder? id with
  | none => c
  | some p =>
    let new := ms.filter fun m => !p.lag.any fun l => l.1 == m
    if p.st = .retired ∨ new.isEmpty then c
    else
      let c := c.modPolder id fun p => { p with lag := p.lag ++ new.map fun m => (m, first), lagSince := p.lagSince.or (some c.now) }.settle
      let c := match c.polder? id with
        | some p => if 2 ≤ (c.lostDiscs p).length then c.modPolder id fun p => { p with compNow := true } else c
        | none => c
      let c := ((c.fault0 .polder 1 1 1).logEv0 0x000D).event .polder 0
      (c.settleRows id).wakeReads

/-- The first row of the segment that a disc holds of its polder. -/
def Polder.firstRow (p : Polder) (disc : Nat) : Nat :=
  ((p.segs.flatten.find? fun s => s.disc == disc).map (·.first)).getD 0

/-- The members of a disc that is missing, unreadable or inverted lag from the first row it holds (R647, R652). -/
def Chip.lagDisc (c : Chip) (disc : Nat) : Chip :=
  match c.lib.polders.find? fun p => p.segs.flatten.any fun s => s.disc == disc with
  | none => c
  | some p =>
    match p.segs.findIdx? fun l => l.any fun s => s.disc == disc with
    | some d => c.lagStart p.id [2 * d, 2 * d + 1] (p.firstRow disc)
    | none => c

/-- A member that has missed no row stops lagging. -/
def Chip.lagClear (c : Chip) (id m : Nat) : Chip :=
  match c.polder? id with
  | none => c
  | some p =>
    if p.lag.any fun l => l.1 == m && l.2 == p.nextQ then
      ((c.modPolder id fun p => { p with lag := p.lag.filter fun l => l.1 != m }.settle).event .polder 0).assemble id
    else c

/-- A position continues on a fresh disc from the next row (R636, R660); its members lag until that disc is mounted. Without a
blank disc the position stays without one. Which disc is policy. -/
def Chip.continueOn (c : Chip) (id d : Nat) : Chip :=
  match c.polder? id with
  | none => c
  | some p =>
    let bs := c.blanks
    let c := c.lagStart id [2 * d, 2 * d + 1] p.nextQ
    if bs.isEmpty then c
    else
      let (k, c) := c.policy bs.length
      let disc := bs.getD k 0
      let c := c.modInv disc fun r => { r with reserved := true, polder := id, position := d, firstRow := p.nextQ }
      let c := c.modPolder id fun p => { p with segs := p.segs.set d (p.segs.getD d [] ++ [⟨disc, p.nextQ⟩]) }
      (c.blanksLow bs.length).askMount disc 2

/-- A surface of a recording position is finalised early: the partner surface is finalised with reason CLOSED and the position
continues on a fresh disc (R221, R636). -/
def Chip.finaliseEarly (c : Chip) (disc side reason : Nat) : Chip :=
  let c := c.finalise disc side reason
  let c := if reason = 2 then c.logEv0 0x0005 else c
  match c.lib.polders.find? fun p => p.recording && p.segs.any fun l => (l.getLast?.map (·.disc)) == some disc with
  | none => c
  | some p =>
    match p.segs.findIdx? fun l => (l.getLast?.map (·.disc)) == some disc with
    | some d => (c.finalise disc (1 - side) 5).continueOn p.id d
    | none => c

/-- After control records: L0 with 16 or fewer blank control slots finalises the surface, another layer with 8 or fewer is
closed (R233). -/
def Chip.ctrlCheck (c : Chip) (disc side layer : Nat) : Chip :=
  let s := c.surf disc side
  if s.finalised.isSome then c
  else if s.blankCtrl 0 ≤ 16 then c.finaliseEarly disc side 3
  else if layer ≠ 0 ∧ s.blankCtrl layer ≤ 8 then c.closeLayer disc side layer
  else c

/-- The control zones of a surface's layers are judged after new records (R233). -/
def Chip.ctrlChecks (c : Chip) (disc side : Nat) : Chip := (List.range 8).foldl (fun (c : Chip) l => c.ctrlCheck disc side l) c

/-- R232: a Slot Map is appended on the surface under a port. -/
def execSlotMapAppend (h : Port) (layer : Fin 8) (s : State) : Out :=
  s.to fun c =>
    match c.discAt h with
    | some d =>
      if (c.surf d (h.val % 2)).finalised.isSome then c
      else ((c.syncSurf h).slotMap d (h.val % 2) layer.val).ctrlCheck d (h.val % 2) layer.val
    | none => c

/-- A spiral of a layer has reached the end of its spare area (R221). -/
def Surface.spent (s : Surface) (layer : Nat) : Bool :=
  (List.range 4).any fun j => 481855 ≤ (assocGet (layer * 4 + j) s.top).getD 0

/-- R233: a layer that is full, or whose control zones are nearly so, is closed; the next one is opened by LAYER_OPEN. -/
def execLayerClose (h : Port) (layer : Fin 8) (s : State) : Out :=
  s.to fun c =>
    match c.discAt h with
    | none => c
    | some d =>
      let c := c.syncSurf h
      let x := c.surf d (h.val % 2)
      if x.finalised.isNone ∧ (c.layerFull d (h.val % 2) layer.val ∨ (layer.val ≠ 0 ∧ x.blankCtrl layer.val ≤ 8)) then
        (c.closeLayer d (h.val % 2) layer.val).ctrlCheck d (h.val % 2) 0
      else c

/-- A closed layer was full when it was closed (R221, R239). -/
def Surface.closedFull (s : Surface) (layer : Nat) : Bool :=
  s.closed.contains layer && decide (1907456 ≤ ((List.range 4).map fun j => (assocGet (layer * 4 + j) s.ingots).getD 0).sum)

/-- The cause that a finalisation names holds (R239). -/
def Chip.finaliseCause (c : Chip) (disc side : Nat) (reason : Nat) : Bool :=
  let s := c.surf disc side
  match reason with
  | 1 => (List.range 8).all fun l => s.closedFull l || (!s.closed.contains l && c.layerFull disc side l)
  | 2 => match s.openLayer with
    | some l => s.spent l && !c.layerFull disc side l
    | none => false
  | 3 => s.blankCtrl 0 ≤ 16
  | 4 => !s.burns.isEmpty
  | 5 => c.lib.polders.any fun p => !p.recording && p.segs.flatten.any fun g => g.disc == disc
  | _ => false

/-- R238: the surface under a port is finalised with a reason of R239. `cut` is the number of control slots recorded when power fails
in its course (R240). -/
def execSurfaceFinalise (h : Port) (reason : Fin 8) (cut : Option Nat) (s : State) : Out :=
  s.to fun c =>
    match c.discAt h with
    | none => c
    | some d =>
      let c := c.syncSurf h
      let side := h.val % 2
      let old := c.surf d side
      if c.finaliseCause d side reason.val ∧ old.plan.isEmpty then
        let c := if reason.val = 2 ∨ reason.val = 3 then c.finaliseEarly d side reason.val else c.finalise d side reason.val
        match cut with
        | some n => c.modSurf d side fun s => s.cutAfter old n
        | none => c
      else c

/-! ## Burns (R234 to R237, R400, R711) -/

/-- Changes the sanitize state. -/
def Chip.modSan (c : Chip) (f : SanState → SanState) : Chip := { c with rs := { c.rs with san := f c.rs.san } }

/-- A burn is complete with its result (R235): its records, the sanitize's progress, and the disc's MEDIA (R711, R712). -/
def Chip.burnDone (c : Chip) (b : BurnSt) (bad : List (Nat × Nat)) : Chip :=
  let result := if bad.isEmpty then 0 else 1
  let c := c.appendRec b.disc b.side 6 0 (burnedBody b.id result b.layer bad)
  let c := (c.modSurf b.disc b.side fun s => { s with burns := s.burns ++ [(b.layer, b.first, b.last, result)] }).ctrlCheck b.disc b.side 0
  let c := c.modLib fun l => { l with burns := l.burns.erase b }
  if !b.sanitize then c
  else
    let c := c.modSan fun x => { x with done := x.done + 1 }
    let c := if c.lib.burns.any fun x => x.disc == b.disc then c else c.modInv b.disc fun r => { r with media := 5 }
    if result = 1 then c.modSan fun x => { x with status := 3, failMode := true }
    else if c.rs.san.status = 2 ∧ c.rs.san.total ≤ c.rs.san.done then c.modSan fun x => { x with status := 1 }
    else c

/-- Step 2 of R235, while reserved slots remain (R236). -/
def Chip.burnIntent (c : Chip) (b : BurnSt) : Chip :=
  if b.step = 0 then c.appendRec b.disc b.side 5 0 (intentBody b.id b.op b.layer b.first b.last) else c

/-- R235: one pass over the region of a burn on the disc of a spindle: intents where they are missing, the burn, and its readback;
`bad` are the slots, spiral and slot, that are not delivered as BURNED. They are burned once more; if slots fail again, they are
listed in the completion (R400). -/
def execBurn (n : Spin) (side : Fin 2) (layer : Fin 8) (bad : List (Nat × Nat)) (s : State) : Out :=
  s.to fun c =>
    match c.discOn n with
    | none => c
    | some d =>
      match c.lib.burns.find? fun b => b.disc == d && b.side == side.val && b.layer == layer.val with
      | none => c
      | some b =>
        if !bit c.lib.ready n.val then c
        else
          let c := c.burnIntent b
          let left := bad.filter fun x => x.1 < 4 && b.first ≤ x.2 && x.2 ≤ b.last && (b.step < 2 || b.bad.contains x)
          if left.isEmpty ∨ 2 ≤ b.step then c.burnDone b left
          else c.modLib fun l => { l with burns := l.burns.map fun x => if x = b then { x with step := 2, bad := left } else x }

/-! ## Recording on a surface (R219 to R222, R232, R237, R238, R355, R380, R398) -/

/-- Recording of ingots may go on with a surface: nothing that must come first is open (R232, R237, R238, R240). -/
def Chip.maySurface (c : Chip) (disc side : Nat) : Bool :=
  let s := c.surf disc side
  s.finalised.isNone && s.plan.isEmpty && s.burns.isEmpty && s.pending.isEmpty
    && !c.lib.burns.any fun b => b.disc == disc && b.side == side

/-- Entries that wait for the Slot Map of a layer (R232). -/
def Chip.mapWaits (c : Chip) (disc side layer : Nat) : Nat := ((c.outstanding disc side).filter (·.layer == layer)).length

/-- A run may be handed to a beam: the slot above the highest one begun on the spiral of the layer that is open; a burn lies in the
region of an open burn (R219, R220, R232, R235, R355). -/
def Chip.runMay (c : Chip) (h : Port) (w : WorkItem) : Bool :=
  match c.discAt h with
  | none => false
  | some d =>
    let side := h.val % 2
    w.side == side &&
      if w.burn then
        c.lib.burns.any fun b => b.disc == d && b.side == side && b.layer == w.layer && b.first ≤ w.slot && w.slot + w.ingots.length ≤ b.last + 1
      else
        let next := match assocGet (w.layer * 4 + w.spiral) (c.hd h).topSlot with
          | some t => t + 1
          | none => 384
        c.maySurface d side && (c.hd h).layerOpen == some w.layer && decide (c.mapWaits d side w.layer < 1024) && w.slot == next

/-- R356: the polder island hands a run to a beam. -/
def execWriteWorkItem (h : Port) (b : BeamNo) (w : WorkItem) (s : State) : Out :=
  s.to fun c => if !c.islandUp (.beam h b) then c.absentItem 9 else if c.runMay h w then c.workItem h b w else c

/-- Every spiral of a layer has reached the end of its user capacity (R220). -/
def Chip.spiralsFull (c : Chip) (disc side layer : Nat) : Bool := (List.range 4).all fun j => decide (476864 ≤ c.countOn disc side layer j)

/-- A layer may be opened (R220): the one before it is closed, or its spirals hold their user capacity. -/
def Chip.layerMay (c : Chip) (disc side layer : Nat) : Bool :=
  let s := c.surf disc side
  c.maySurface disc side && !s.closed.contains layer
    && (layer == 0 || s.closed.contains (layer - 1) || c.spiralsFull disc side (layer - 1))

/-- The records of a layer that is opened (R230, R398): Surface Information before the first of them, and the Layer Opening. -/
def Chip.openRecords (c : Chip) (disc side layer : Nat) : Chip :=
  let rsn := (c.surf disc side).nextRsn
  let r := c.inv disc
  let c := if (c.surf disc side).info.isSome then c
    else (c.appendRec disc side 1 0 (infoBody r.polder (2 * r.position + side) rsn c.wall)).modSurf disc side fun s =>
      { s with info := some (r.polder, 2 * r.position + side) }
  (c.appendRec disc side 2 layer (bytesLE 8 rsn)).ctrlCheck disc side layer

/-- R398: a layer is opened with the start powers and strategy of its pressed information record, which is that of the first sector
of the area that succeeds; without one the layer is not recorded (R226). -/
def execLayerOpen (h : Port) (layer : Fin 8) (sectors : List MediaSector) (bank : Fin 2) (s : State) : Out :=
  s.to fun c =>
    match (if c.pageUp (.head h) then c.discAt h else none), pressedOf sectors with
    | some d, some r =>
      let c := c.syncSurf h
      if c.layerMay d (h.val % 2) layer.val && r.layer == layer.val then
        (c.openLayer h layer r.power r.strategy bank).openRecords d (h.val % 2) layer.val
      else c
    | _, _ => c

/-- Entries of the Power Test Log for the test in slot `slot` of area `area`, 0 leading (R383). -/
def Chip.testEntries (c : Chip) (h : Port) (layer slot area zone : Nat) (e : List (BeamNo × List Nat)) : List (Nat × List Byte) :=
  e.map fun v =>
    let i := 24 * v.1.val + zone
    (layer, testEntry slot area v.1.val (c.spiralOf h v.1 layer) (powerStep v.2) (c.rdI (.head h) Reg.HEAD.WPOW_PEAK i)
      (c.rdI (.head h) Reg.HEAD.WPOW_BIAS i) (c.rdS .assay Reg.ASSAY.TJ_T / 64) zone)

/-- R380 to R383: a power test of area `area` (0 inner, 1 outer) of the layer that is open, in the lowest slot of the area that is
blank on all four spirals; `e` gives each beam's e_s. The inner area is the leading one on even layers (R377). -/
def execPowerTest (h : Port) (area : Fin 2) (e : List (BeamNo × List Nat)) (s : State) : Out :=
  s.to fun c =>
    match (if c.pageUp (.head h) then c.discAt h else none), (c.hd h).layerOpen with
    | some d, some layer =>
      let side := h.val % 2
      let place := if layer % 2 = 0 then area.val else 1 - area.val
      let used := (assocGet (layer * 2 + place) (c.surf d side).tests).getD 0
      if 256 ≤ used then c.fault0 (.head h) 8 2 1
      else
        let c := c.powerTest h area.val e
        let log := c.testEntries h layer (testArea place + used) place (23 * area.val) e
        c.modSurf d side fun s => { s with tests := assocSet (layer * 2 + place) (used + 1) s.tests, testLog := s.testLog ++ log }
    | _, _ => c

/-! ## Requests and grants (R651, R659) -/

/-- The picker gate is open (R812). -/
def Chip.pickerGate (c : Chip) : Bool :=
  if c.peerGated ∨ c.pairState = 0 then c.flag .clk Reg.CLK.PEER_GATE_SOLO_PICKER else c.flag .peer Reg.PEER.PAIR_STAT_PICKER_OWN

/-- Days of WALK_CFG.PERIOD_DAYS (R668). -/
def Chip.walkPeriod (c : Chip) : Nat := max 1 (c.rd .polder Reg.POLDER.WALK_CFG_PERIOD_DAYS) * 86400
/-- Discs that a polder's segments name and that can be mounted. -/
def Chip.discsOf (c : Chip) (p : Polder) : List Nat := ((p.segs.flatten.map (·.disc)).eraseDups).filter fun d => (c.inv d).usable
/-- The oldest T_WALKED among a polder's discs. -/
def Chip.walkedAt (c : Chip) (p : Polder) : Nat :=
  match (c.discsOf p).map fun d => (c.inv d).tWalked with
  | a :: l => l.foldl min a
  | [] => 0
/-- The polder that the dike walk takes (R661, R665): the due one with the oldest T_WALKED, none retired or completing. -/
def Chip.walkPolder (c : Chip) : Option Polder :=
  (c.lib.polders.filter fun p => p.st != .retired && p.st != .completing && p.nextQ != 0 && c.walkedAt p + c.walkPeriod < c.wall).foldl
    (fun (best : Option Polder) p =>
      match best with
      | none => some p
      | some b => if c.walkedAt p < c.walkedAt b then some p else some b) none

/-- The classes 1 to 4 in which a disc is needed now, with the sides (R651): host reads, recording, completion, dike walk. -/
def Chip.needsOf (c : Chip) : List (Nat × Nat × Nat) :=
  let reads := c.waitingReads.flatMap fun n => ((c.cmdAt n).map fun k => c.readWants k).getD []
  let record := (c.lib.polders.filter fun p => p.recording && (!p.rows.isEmpty || (c.nextZone p).isSome)).flatMap fun p =>
    (List.range 16).filterMap fun m => (p.discOf (m / 2) p.nextQ).map fun d => (d, m % 2)
  let done := (c.lib.polders.filter fun p => p.st == .completing).flatMap fun p =>
    (p.targets.map fun t => (t.disc, t.member % 2)) ++
      (match p.targets.map (·.next) with
        | a :: l =>
          let q := l.foldl min a
          (List.range 16).filterMap fun m => if c.memberLost p q m then none else (c.sourceDisc p q m).map fun d => (d, m % 2)
        | [] => [])
  let burn := c.lib.burns.map fun b => (b.disc, b.side)
  let walk := match c.walkPolder with
    | some p => (c.discsOf p).flatMap fun d => [(d, 0), (d, 1)]
    | none => []
  (reads.map fun x => (1, x)) ++ ((record ++ burn).map fun x => (2, x)) ++ (done.map fun x => (3, x)) ++ (walk.map fun x => (4, x))

/-- The class in which a spindle is held: by the mount granted to it, or by the need of its disc (R651). -/
def Chip.heldBy (c : Chip) (n : Spin) : Option Nat :=
  let g := (c.lib.reqs.filter fun r => r.kind == 0 && r.spin == n.val && r.peer.isNone).map (·.cls)
  let d := match c.discOn n with
    | some d => (c.needsOf.filter fun x => x.2.1 == d).map (·.1)
    | none => []
  match g ++ d with
  | a :: l => some (l.foldl min a)
  | [] => none

/-- A spindle can serve the sides of a disc that are needed: a half-served one only where its other side alone is, and neither for
recording nor for the walk (R659). -/
def Chip.serves (c : Chip) (n : Spin) (cls disc : Nat) : Bool :=
  let dead := (List.range 2).filter fun s => bit c.lib.retiredPorts (2 * n.val + s)
  dead.isEmpty || (cls != 2 && cls != 4 && !c.needsOf.any fun x => x.1 == cls && x.2.1 == disc && dead.contains x.2.2)

/-- The request that a spindle is granted next: the best class, the oldest first (R651). -/
def Chip.bestReq (c : Chip) (n : Spin) : Option SpinReq :=
  (c.lib.reqs.filter fun r => r.kind == 0 && r.spin == 8 && r.peer.isNone && (c.inv r.disc).state == 1
    && ((c.inv r.disc).media ≤ 2 || c.lib.burns.any fun b => b.disc == r.disc) && c.serves n r.cls r.disc).foldl
    (fun (best : Option SpinReq) r =>
      match best with
      | none => some r
      | some b => if r.cls < b.cls then some r else some b) none

/-- Taking the disc of a spindle away would leave an OPEN polder with more than 2 lagging members while its rows are in staging. -/
def Chip.mustStay (c : Chip) (n : Spin) : Bool :=
  match c.discOn n with
  | none => false
  | some d =>
    c.lib.polders.any fun p => p.recording && (!p.rows.isEmpty || (c.nextZone p).isSome) &&
      ((List.range 8).any fun k => p.discOf k p.nextQ == some d &&
        2 < p.lag.length + ((List.range 2).filter fun s => !p.lag.any fun l => l.1 == 2 * k + s).length)

/-- A beam over the disc of a spindle records: its unit is in progress (R651). -/
def Chip.inUnit (c : Chip) (n : Spin) : Bool :=
  [n.upper, n.lower].any fun h => allBeams.any fun b => c.wrActive h b

/-- Grants a spindle (R651). -/
def Chip.grantSpin (c : Chip) (n : Spin) : Chip :=
  let c := (c.needsOf.map fun x => (x.1, x.2.1)).eraseDups.foldl (fun (c : Chip) x => c.askMount x.2 x.1) c
  match c.bestReq n with
  | none => c
  | some r =>
    let free := match c.heldBy n with
      | some k => decide (r.cls < k)
      | none => true
    if !c.mgmt.resumed ∨ !free ∨ c.inUnit n ∨ c.mustStay n then c
    else
      let un := match c.discOn n with
        | some d => [SpinReq.mk r.cls 1 n.val d c.now none]
        | none => []
      (c.modLib fun l => { l with
        reqs := (l.reqs.map fun x => if x = r then { x with spin := n.val }
          else if x.kind = 0 ∧ x.spin = n.val ∧ x.peer.isNone then { x with spin := 8 } else x) ++ un }).updInv

/-- R651. -/
def execSpindleRequest (n : Spin) (s : State) : Out := s.to fun c => if c.islandUp .polder then c.grantSpin n else c

/-! ## The picker (R645 to R651) -/

/-- The slot exists (R645): its rack has a Y pitch. -/
def Chip.slotExists (c : Chip) (disc : Nat) : Bool := (((assocGet (disc / 1024) c.rs.geometry).getD []).getD 4 0) != 0

/-- The grip's stall `off` microsteps from the closed position is on a disc (R647). -/
def Chip.gripHeld (c : Chip) (off : Int) : Bool := off.natAbs ≤ c.rd .polder Reg.POLDER.GRIP_CFG_GRIP_WIN

/-- The geometry entry of a place of the picker (R645): of a slot's rack, of a station, or of a station of the partner (R828). -/
def Chip.geometryAt (c : Chip) (place : Nat) : List Int :=
  if place < 2 ^ 20 then (assocGet (place / 1024) c.rs.geometry).getD []
  else if place % 2 ^ 20 < 8 then (assocGet (1024 + place % 2 ^ 20) c.rs.geometry).getD []
  else c.peer.pGeometry.getD (place % 2 ^ 20 - 8) []

/-- The picker's targets at a place (R645): X, Y, rotate, Z0, and the approach height. -/
def pickTargets (e : List Int) (place : Nat) : Int × Int × Int × Int × Int :=
  let k : Nat := if place < 2 ^ 20 then place % 1024 else 0
  (e.getD 0 0, e.getD 1 0 + (k % 32 : Nat) * e.getD 4 0, e.getD 3 0, e.getD 2 0, e.getD 2 0 + (k / 32 : Nat) * e.getD 5 0)

/-- The loop engine that owns the picker axes writes a move's targets to axes 16 to 19 in FOLLOW (R646, R569): X, Y, rotate, and Z at
the approach height. -/
def Chip.pickGoto (c : Chip) (place : Nat) : Chip :=
  let t := pickTargets (c.geometryAt place) place
  (((c.axTargetWord 16 (toBits 32 t.1)).axTargetWord 17 (toBits 32 t.2.1)).axTargetWord 19 (toBits 32 t.2.2.1)).axTargetWord 18 (toBits 32 t.2.2.2.2)
/-- Z extends to the place (R648, step 2). DESIGN CHOICE (log 187): its target is written when the grip closes or opens there. -/
def Chip.pickReach (c : Chip) (place : Nat) : Chip :=
  c.axTargetWord 18 (toBits 32 (pickTargets (c.geometryAt place) place).2.2.2.1)

/-- The engine may begin a move (R646, R812): gate open, picker axes homed, nothing in the grip. -/
def Chip.pickerReady (c : Chip) : Bool :=
  c.islandUp .polder && c.pickerGate && c.lib.move.isNone && pickerAxes.all fun a => c.flag (.axis a) Reg.AXIS.AX_STAT_HOMED

/-- INV_STAT.PICKER (R670). -/
def Chip.pickerState (c : Chip) (v : Nat) : Chip :=
  if c.rd .inv Reg.INV.INV_STAT_PICKER = v then c else (c.put .inv Reg.INV.INV_STAT_PICKER v).event .inv 0

/-- The number of a place in PICK_LAST: a slot, or a station, of which S0 is 1,024 × 1,024 less 16 (log 108). -/
def placeNum (n : Nat) : Nat := if n < 2 ^ 20 then n else 2 ^ 20 - 16 + n % 2 ^ 20

/-- The end of a move with its result (R671). -/
def Chip.pickEnd (c : Chip) (m : PickMove) (result : Nat) : Chip :=
  let p : Page := .inv
  let c := c.tableUpdate [1, m.disc]
  let c := if result = 1 then
      ((c.put p Reg.INV.PICK_LAST_SLOT (placeNum m.dest)).put p Reg.INV.PICK_LAST_KIND m.kind).inc p Reg.INV.PICK_COUNT_MOVES
    else c
  let c := (c.put p Reg.INV.PICK_LAST_RESULT result).event p 0
  (c.modLib fun l => { l with move := none }).pickerState (if result = 3 then 4 else 1)

/-- Both OPUs of a spindle are PARKED, or OFF where one is absent or was never acquired (R648). -/
def Chip.opusParked (c : Chip) (n : Spin) : Bool :=
  [n.upper, n.lower].all fun h => c.srvState h == 10 || (c.srvState h == 0 && (c.linkState h != 3 || !c.laserArmed h))
/-- The spindle is in IDLE or OFF at standstill (R648). -/
def Chip.spinIdle (c : Chip) (n : Spin) : Bool := (c.spState n == 0 || c.spState n == 1) && c.spStill n

/-- The partner's request at the head of its class, for a station, of a kind (R829). -/
def Chip.peerReq (c : Chip) (n : Spin) (kind : Nat) : Option SpinReq :=
  c.lib.reqs.find? fun r => r.peer.isSome && r.spin == n.val && r.kind == kind
/-- The request of this controller that a spindle has been granted. -/
def Chip.ownReq (c : Chip) (n : Spin) (kind : Nat) : Option SpinReq :=
  c.lib.reqs.find? fun r => r.peer.isNone && r.spin == n.val && r.kind == kind
/-- The request that a move to or from a station serves. -/
def Chip.moveReq (c : Chip) (n : Spin) (peer : Bool) (kind : Nat) : Option SpinReq :=
  if peer then c.peerReq n kind else c.ownReq n kind

/-- Removes a request. -/
def Chip.dropReq (c : Chip) (r : SpinReq) : Chip := (c.modLib fun l => { l with reqs := l.reqs.erase r }).updInv

/-- A served request of the partner is answered with its result (R829). -/
def Chip.pickDone (c : Chip) (r : SpinReq) (result : Nat) : Chip :=
  match r.peer with
  | some k => c.daxSend false 0x22 [k, r.kind, r.disc, r.spin, result]
  | none => c

/-- A move of this controller's is asked of the partner, which owns the picker (R829): once, with the disc as its number. -/
def Chip.pickAsk (c : Chip) (n : Spin) (r : SpinReq) : Chip :=
  if c.peer.pickOut.contains r.disc then c
  else ({ c with peer := { c.peer with pickOut := c.peer.pickOut ++ [r.disc] } }).daxSend false 0x21 [r.disc, r.cls, r.kind, r.disc, n.val]

/-- The partner makes this controller's picker moves (R828, R829). -/
def Chip.pickerAway (c : Chip) : Bool := c.linkUp && !c.pickerGate

/-- Step 1 of R648. -/
def Chip.mountTake (c : Chip) (n : Spin) (peer : Bool) : Chip :=
  match c.moveReq n peer 0 with
  | none => c
  | some r =>
    if !peer ∧ c.pickerAway then
      (if (c.inv r.disc).state ≠ 1 ∨ (c.discOn n).isSome ∨ !c.opusParked n ∨ !c.spinIdle n then c else c.pickAsk n r)
    else if !c.pickerReady ∨ (c.inv r.disc).state ≠ 1 ∨ !c.slotExists r.disc
        ∨ (!peer ∧ ((c.discOn n).isSome ∨ !c.opusParked n ∨ !c.spinIdle n)) then c
    else
      let st := n.val + if peer then 8 else 0
      let c := (c.modInv r.disc fun e => { e with state := 2 }).tableUpdate [1, r.disc]
      ((c.modLib fun l => { l with move := some ⟨r.disc, 2 ^ 20 + st, 1, st, false⟩ }).pickerState 2).pickGoto r.disc

/-- Step 3 of R648: a grip that has found no disc (R647). -/
def Chip.mountGrip (c : Chip) (n : Spin) (peer : Bool) (off : Int) : Chip :=
  let st := n.val + if peer then 8 else 0
  match c.lib.move with
  | none => c
  | some m =>
    if m.kind ≠ 1 ∨ m.station ≠ st ∨ m.holding then c
    else
    let c := c.pickReach m.disc
    if c.gripHeld off then
      ((c.modLib fun l => { l with move := some { m with holding := true } }).pickerState 3).pickGoto m.dest
    else
      let c := (c.modInv m.disc fun e => { e with state := 0 }).fault0 .inv 2 1 0
      let c := (c.pickEnd m 2).lagDisc m.disc
      match c.moveReq n peer 0 with
      | some r => (c.pickDone r 2).dropReq r
      | none => c

/-- Step 5 of R648: the disc stands on the station. -/
def Chip.mountPlace (c : Chip) (n : Spin) (peer : Bool) : Chip :=
  let st := n.val + if peer then 8 else 0
  match c.lib.move with
  | none => c
  | some m =>
    if m.kind ≠ 1 ∨ m.station ≠ st ∨ !m.holding then c
    else
      let c := (c.pickReach m.dest).modInv m.disc fun e => { e with state := 3, spindle := n.val, mounts := min (2 ^ 32 - 1) (e.mounts + 1), tMounted := c.wall }
      let c := c.pickEnd m 1
      let c := if peer then c
        else c.modAct fun l => { l with mounted := l.mounted.set n.val (some m.disc) n.isLt, ready := setBit l.ready n.val false }
      let c := match c.moveReq n peer 0 with
        | some r => (c.pickDone r 1).dropReq r
        | none => c
      match (c.inv m.disc).polder with
      | 0 => c
      | id => c.activate id

/-- A disc that cannot be used: its record, the quench and braking of its spindle, and its return at class 0 (R649). -/
def Chip.mountReject (c : Chip) (n : Spin) (d media kind : Nat) : Chip :=
  let c := (c.modInv d fun e => { e with media := media }).fault0 .inv 1 kind 1
  let c := c.quench ⟨0, 2 ^ n.val, 0⟩
  let c := c.modLib fun l => { l with reqs := l.reqs ++ [SpinReq.mk 0 1 n.val d c.now none] }
  c.updInv.lagDisc d

/-- POLDER_ID and MEMBER of the Surface Information record among the records of a surface (R230). -/
def infoOf (l : List CtrlRec) : Option (Nat × Nat) :=
  (l.find? fun r => r.typ == 1).map fun r => (recField r.body 0 8, recField r.body 8 1)

/-- A disc other than the one its record names (R649): the record is rewritten from its Surface Information, the disc expected is
missing, and what was kept of that disc's surfaces no longer stands for this slot. -/
def Chip.mountOther (c : Chip) (d : Nat) (r : Pressed) (info : Option (Nat × Nat)) : Chip :=
  let c := c.lagDisc d
  let old := c.inv d
  let c := c.modInv d fun _ =>
    { state := old.state, spindle := old.spindle, mounts := 1, tMounted := old.tMounted
      discId := r.discId, maker := r.maker, batch := r.batch
      media := if info.isSome then 1 else 0
      polder := (info.map (·.1)).getD 0, position := (info.map fun i => i.2 / 2).getD 0xFF }
  let c := c.modLib fun l => { l with surfaces := assocDel (2 * d) (assocDel (2 * d + 1) l.surfaces) }
  c.fault0 .inv 1 1 0

/-- The next RSN of a surface that the record store does not hold (R222): above the first RSN of its Surface Information record and
the highest found in the last recorded slots. -/
def rsnFound (l : List CtrlRec) (rsns : List Nat) : Nat :=
  let first := ((l.find? fun r => r.typ == 1).map fun r => recField r.body 17 8).getD 0
  rsns.foldl (fun a r => max a (r + 1)) (max 1 first)

/-- A surface takes up what its control zones hold (R231, R236): its records, and the burns whose intents are open. -/
def Chip.surfaceFound (c : Chip) (d side : Nat) (f : SideFound) : Chip :=
  let l := surfaceRecords f.ctrl
  let known := (assocGet (d * 2 + side) c.lib.surfaces).isSome
  let c := c.modSurf d side fun s =>
    let s := l.foldl Surface.learn (s.see f.ctrl)
    if known then s else { s with nextRsn := rsnFound l (f.rsns.map (·.toNat)) }
  (openIntents l).foldl (fun (c : Chip) i =>
    if c.lib.burns.any fun b => b.id == i.1 && b.disc == d then c
    else c.modLib fun l => { l with
      burns := l.burns ++ [{ id := i.1, op := i.2.1, disc := d, side := side, layer := i.2.2.1, first := i.2.2.2.1, last := i.2.2.2.2, step := 1 }] }) c

/-- What comes before any other recording on a surface after a mount (R232, R240, R649): the rest of an open finalisation, and Slot
Maps for the entries that a power loss has left. -/
def Chip.surfaceSettle (c : Chip) (d side : Nat) (f : SideFound) : Chip :=
  let c := c.finishPlan d side ((surfaceRecords f.ctrl).map (·.csn))
  if (c.surf d side).finalised.isSome then c
  else ((List.range 8).foldl (fun (c : Chip) k => c.slotMap d side k) c).ctrlChecks d side

/-- The members of a ready disc whose lag was only that it was away stop lagging; one whose OPU is retired is deferred (R636,
R653, R659). -/
def Chip.mountJoin (c : Chip) (n : Spin) (d : Nat) : Chip :=
  match c.polder? (c.inv d).polder with
  | none => c
  | some p =>
    let k := (c.inv d).position
    if !p.recording ∨ p.discOf k p.nextQ ≠ some d then c
    else (List.range 2).foldl (fun (c : Chip) s =>
      if bit c.lib.retiredPorts (2 * n.val + s) then
        (match c.polder? p.id with
          | some p => c.lagStart p.id [2 * k + s] p.nextQ
          | none => c)
      else c.lagClear p.id (2 * k + s)) c

/-- Step 9 of R648: what is found is checked against the record (R649), and the ports take up the surfaces. A disc is inverted when the
pressed record under H(2s) is not that of side A (R183), and unreadable when L0 of a side yields none (R226). -/
def Chip.mountCheck (c : Chip) (n : Spin) (f : DiscFound) : Chip :=
  match c.discOn n with
  | none => c
  | some d =>
    if bit c.lib.ready n.val ∨ c.spState n ≠ 5 ∨ (c.inv d).media = 3 ∨ (c.inv d).media = 4 then c
    else
    match pressedOf f.upper.pressed, pressedOf f.lower.pressed with
    | some r, some r' =>
      if r.side ≠ 0 ∨ r'.side ≠ 1 then c.mountReject n d 4 2
      else
      let c := if (c.inv d).discId = 0 then
          c.modInv d fun e => { e with discId := r.discId, maker := r.maker, batch := r.batch }
        else if (c.inv d).discId ≠ r.discId then c.mountOther d r (infoOf (surfaceRecords f.upper.ctrl)) else c
      let c := (c.surfaceFound d 0 f.upper).surfaceFound d 1 f.lower
      let c := (c.surfaceSettle d 0 f.upper).surfaceSettle d 1 f.lower
      let c := c.modLib fun l => { l with ready := setBit l.ready n.val true }
      let c := [n.upper, n.lower].foldl (fun (c : Chip) h =>
        let x := c.surf d (h.val % 2)
        c.modHd h fun y => { y with side := h.val % 2, nextRsn := x.nextRsn, topSlot := x.top, layerOpen := none, recorded := [], passLen := [], verifying := false, trailOut := false }) c
      (c.mountJoin n d).wakeReads
    | _, _ => c.mountReject n d 3 3

/-- R648: `peer` says that the station is the partner's (R829), where only the picker's steps run here. -/
def execDiscMount (n : Spin) (peer : Bool) (st : MountStep) (s : State) : Out :=
  s.to fun c =>
    match st with
    | .take => c.mountTake n peer
    | .grip off => c.mountGrip n peer off
    | .place => c.mountPlace n peer
    | .check d => if peer then c else c.mountCheck n d

/-- Rows recorded on a disc await their verify (R650). -/
def Chip.awaits (c : Chip) (d : Nat) : Bool :=
  c.lib.polders.any fun p => p.rows.any fun x => (List.range 16).any fun m =>
    p.discOf (m / 2) x.q == some d && !bit (x.got ||| x.skipped ||| p.lagMask) m

/-- An unmount may begin (R650): Slot Maps complete, trail-out done, rows verified, OPUs parked, spindle at standstill. A disc
found inverted or unreadable has none of these but the spindle's. -/
def Chip.mayUnmount (c : Chip) (n : Spin) (d : Nat) : Bool :=
  let bad := 3 ≤ (c.inv d).media && (c.inv d).media ≤ 4
  c.spinIdle n && c.opusParked n && (bad || ((List.range 2).all (fun s => (c.outstanding d s).isEmpty || (c.surf d s).finalised.isSome)
    && [n.upper, n.lower].all (fun h => (c.hd h).recorded.isEmpty && !(c.hd h).trailOut) && !c.awaits d))

/-- The ports of a spindle give up its disc; what they know stays with the surfaces. -/
def Chip.discLeaves (c : Chip) (n : Spin) : Chip :=
  ([n.upper, n.lower].foldl (fun (c : Chip) h => (c.syncSurf h).modHd h fun x => { x with layerOpen := none }) c).modLib fun l => { l with
    ready := setBit l.ready n.val false }

/-- A disc of a shared polder (R835). -/
def Chip.sharedOf (c : Chip) (d : Nat) : Bool := ((c.polder? (c.inv d).polder).map (·.shared)).getD false

/-- What STATIONS says of the spindles (R835). -/
def Chip.freeStations (c : Chip) : Nat :=
  ((List.finRange 8).map fun n =>
    2 ^ n.val * b2n (!(((c.discOn n).map c.sharedOf).getD false) || (c.spStill n && [n.upper, n.lower].all fun h => c.srvState h == 10))).sum

/-- The holder may take a shared disc from the partner's station `n` (R835). -/
def Chip.stationFree (c : Chip) (n : Spin) : Bool :=
  bit c.peer.pStations n.val || decide (c.peer.pStatusAt + secs (max 1 (c.rd .peer Reg.PEER.WIT_CFG_STATION_COAST_S)) ≤ c.now)

/-- After a split the holder unloads a shared disc that it wants from the partner's station (R833, R835). -/
def Chip.seizeReq (c : Chip) (n : Spin) : Option SpinReq :=
  if c.linkUp || !c.isHolder then none
  else
    (c.lib.reqs.find? fun r => r.peer.isNone && r.kind == 0 && c.sharedOf r.disc && !c.isMounted r.disc
      && (c.inv r.disc).state == 3 && (c.inv r.disc).spindle == n.val).map fun r => { r with kind := 1, spin := n.val }

/-- The unmount begins. -/
def Chip.unmountTake (c : Chip) (n : Spin) (peer : Bool) : Chip :=
  match (c.moveReq n peer 1).or (if peer then c.seizeReq n else none) with
  | none => c
  | some r =>
    if !peer ∧ (c.discOn n ≠ some r.disc ∨ !c.mayUnmount n r.disc) then c
    else if peer ∧ c.isHolder ∧ c.sharedOf r.disc ∧ !c.stationFree n then c
    else if !peer ∧ c.pickerAway then (c.discLeaves n).pickAsk n r
    else if !c.pickerReady then c
    else
      let st := n.val + if peer then 8 else 0
      let c := if peer then c else c.discLeaves n
      let c := (c.modInv r.disc fun e => { e with state := 2 }).tableUpdate [1, r.disc]
      ((c.modLib fun l => { l with move := some ⟨r.disc, r.disc, 2, st, false⟩ }).pickerState 2).pickGoto (2 ^ 20 + st)

/-- The grip has closed at the station. -/
def Chip.unmountGrip (c : Chip) (n : Spin) (peer : Bool) (off : Int) : Chip :=
  let st := n.val + if peer then 8 else 0
  match c.lib.move with
  | none => c
  | some m =>
    if m.kind ≠ 2 ∨ m.station ≠ st ∨ m.holding then c
    else
      let c := (if peer then c else c.modAct fun l => { l with mounted := l.mounted.set n.val none n.isLt }).pickReach (2 ^ 20 + st)
      if c.gripHeld off then
        ((c.modLib fun l => { l with move := some { m with holding := true } }).pickerState 3).pickGoto m.dest
      else
        let c := (c.modInv m.disc fun e => { e with state := 0, spindle := 0xFF }).fault0 .inv 2 1 0
        let c := (c.pickEnd m 2).lagDisc m.disc
        match c.moveReq n peer 1 with
        | some r => (c.pickDone r 2).dropReq r
        | none => c

/-- The disc is back in its slot; an inverted or unreadable one is quarantined there (R649). -/
def Chip.unmountPlace (c : Chip) (n : Spin) (peer : Bool) : Chip :=
  let st := n.val + if peer then 8 else 0
  match c.lib.move with
  | none => c
  | some m =>
    if m.kind ≠ 2 ∨ m.station ≠ st ∨ !m.holding then c
    else
      let c := (c.pickReach m.dest).modInv m.disc fun e => { e with state := if e.media = 3 ∨ e.media = 4 then 4 else 1, spindle := 0xFF }
      let c := c.pickEnd m 1
      let c := match c.moveReq n peer 1 with
        | some r => (c.pickDone r 1).dropReq r
        | none => c
      c.wakeReads

/-- R650. -/
def execDiscUnmount (n : Spin) (peer : Bool) (st : UnmountStep) (s : State) : Out :=
  s.to fun c =>
    match st with
    | .take => c.unmountTake n peer
    | .grip off => c.unmountGrip n peer off
    | .place => c.unmountPlace n peer

/-- A picker axis is in STOPPING or FAULT, or has lost HOMED. -/
def Chip.axisGone (c : Chip) (a : Axis) : Bool :=
  !c.flag (.axis a) Reg.AXIS.AX_STAT_HOMED || c.axState a == 6 || c.axState a == 7

/-- R646: an axis of the picker ends the move in progress; the record stays as it stood. -/
def execPickFail (s : State) : Out :=
  s.to fun c =>
    match c.lib.move with
    | some m => if pickerAxes.any c.axisGone then ((c.pickEnd m 3).statAdd .inv Reg.INV.PICK_COUNT_FAILS 1).fault0 .inv 0 1 2 else c
    | none => c

/-- R651: with the picker homed and no move in progress, a record in state 2 is reconciled: the grip closes and stalls `off` microsteps from the closed
position (R647). A disc is placed back in its slot; its slot is always still its own, since no other disc is placed there (log 109). -/
def execPickerRecovery (off : Int) (s : State) : Out :=
  s.to fun c =>
    match c.lib.inv.find? fun e => e.2.state == 2 with
    | none => c
    | some (d, r) =>
      if !c.pickerReady then c
      else if c.gripHeld off then
        let quar := r.media = 3 ∨ r.media = 4
        let c := c.modInv d fun e => { e with state := if quar then 4 else 1, spindle := 0xFF }
        let c := c.modAct fun l => { l with
          mounted := Vector.ofFn fun i => if l.mounted.get i = some d then none else l.mounted.get i }
        ((c.pickEnd ⟨d, d, 4, 0, false⟩ 1).fault0 .inv 2 2 0).wakeReads
      else
        let c := c.modInv d fun e => { e with state := if e.spindle = 0xFF then 1 else 3 }
        c.pickerState 1

end Sys2Proof.Machine
end

