-- ==== Sys2Proof/Machine/Polders.lean ====
section
/-!
DEFINITION. Polders over time: members that lag, completion, the dike walk, repairs, retired parts, directories, and verify
results (R384 to R390, R637, R638, R652 to R664, R847, R848).
-/
namespace Sys2Proof.Machine

/-! ## Completion (R652 to R657) -/

/-- R652: member `member` of a polder begins to lag; `disc` says that its disc is lost, so that it lags from the first row that
the disc holds, else it lags from the next row. -/
def execMemberLost (polder : BitVec 64) (member : Fin 16) (disc : Bool) (s : State) : Out :=
  s.to fun c =>
    match c.polder? polder.toNat with
    | none => c
    | some p =>
      let first := match disc, p.discOf (member.val / 2) p.nextQ with
        | true, some d => p.firstRow d
        | _, _ => p.nextQ
      if c.islandUp .polder then c.lagStart p.id [member.val] first else c

/-- The targets of a position with lagging members: its own disc where that is sound, else a fresh blank for both members (R654,
R655). Which blank is policy. -/
def Chip.addTargets (c : Chip) (p : Polder) (d : Nat) : Chip :=
  match p.discOf d p.nextQ with
  | none => c
  | some disc =>
    if (c.inv disc).usable then
      c.modPolder p.id fun p => { p with
        targets := p.targets ++ (p.lag.filter fun l => l.1 / 2 == d).map fun l => Target.mk l.1 l.2 disc }
    else
      let bs := c.blanks
      if bs.isEmpty then c
      else
        let (k, c) := c.policy bs.length
        let new := bs.getD k 0
        let first := p.firstRow disc
        let c := c.modInv new fun r => { r with reserved := true, media := 2, polder := p.id, position := d, firstRow := first }
        let c := c.modPolder p.id fun p => { p with targets := p.targets ++ [Target.mk (2 * d) first new, Target.mk (2 * d + 1) first new] }
        c.blanksLow bs.length

/-- A position's completion has ended (R654 to R657): its members stop lagging, a fresh disc becomes the position's segment, and
the lost disc's record says so. With the last target the polder is whole again. -/
def Chip.positionDone (c : Chip) (id d : Nat) : Chip :=
  match c.polder? id with
  | none => c
  | some p =>
    let ts := p.targets.filter fun t => t.member / 2 == d
    if ts.isEmpty ∨ ts.any fun t => t.next < p.nextQ then c
    else
      let disc := (ts.map (·.disc)).headD 0
      let old := p.discOf d p.nextQ
      let c := c.modPolder id fun p =>
        { p with
          targets := p.targets.filter fun t => t.member / 2 != d
          lag := p.lag.filter fun l => l.1 / 2 != d
          segs := if old = some disc then p.segs
            else p.segs.set d (p.segs.getD d [] ++ [Seg.mk disc ((old.map p.firstRow).getD 0)]) }.settle
      let c := if old = some disc then c
        else
          let c := c.modInv disc fun r => { r with media := 1 }
          match old with
          | some o => c.modInv o fun r => { r with media := if r.media = 6 then 6 else 3 }
          | none => c
      let c := match c.polder? id with
        | some p => if p.targets.isEmpty ∧ p.lag.isEmpty then (c.fault0 .polder 2 1 0).logEv0 0x000E else c
        | none => c
      ((c.event .polder 0).settleRows id).assemble id

/-- Positions whose targets have nothing left. -/
def Chip.positionsDone (c : Chip) (id : Nat) : Chip := (List.range 8).foldl (fun (c : Chip) d => c.positionDone id d) c

/-- R657: completion starts START_H hours after the lag began, or at once. -/
def execCompletionStart (polder : BitVec 64) (s : State) : Out :=
  s.to fun c =>
    match c.polder? polder.toNat with
    | none => c
    | some p =>
      match p.lagSince with
      | none => c
      | some t =>
        if p.st ≠ .degraded ∨ !c.mgmt.resumed ∨ !c.flag .polder Reg.POLDER.POLDER_CTL_COMP_EN then c
        else
          let c := if p.compNow then c else c.until' (t + hours (c.rd .polder Reg.POLDER.COMP_CFG_START_H))
          let c := ((p.lag.map fun l => l.1 / 2).eraseDups).foldl (fun (c : Chip) d => c.addTargets p d) c
          match c.polder? p.id with
          | none => c
          | some q =>
            if q.targets.isEmpty then c
            else
              let c := (c.modPolder p.id Polder.settle).event .polder 0
              let c := (q.targets.map (·.disc)).eraseDups.foldl (fun (c : Chip) d => c.askMount d 3) c
              c.positionsDone p.id

/-- A sector position of a completed row has too many erasures (R656): it is recorded failed on the target, and its host blocks
are entered as lost. -/
def Chip.completeBad (c : Chip) (p : Polder) (q m s : Nat) : Chip :=
  let es := ((List.range 16).filter fun k => k == m || c.memberLost p q k).filter (· < 12)
  let c := c.modPolder p.id fun p => { p with dead := p.dead ++ ((es.map fun k => (q, k * 16 + s)).filter fun x => !p.dead.contains x) }
  let c := (c.statAdd .polder Reg.POLDER.READ_STAT_UNRECOVERED 1).fault .polder 0 1 2 0 q
  es.foldl (fun (c : Chip) k =>
    match c.blockAt p q k s with
    | some (nsid, lba) => c.lostRange nsid 2 lba 1
    | none => c) c

/-- The row of a polder belongs to a zone that has been released (R665). -/
def Polder.released? (p : Polder) (q : Nat) : Bool :=
  match p.rowOf q with
  | some (z, _) => !p.zones.any fun x => x.1 == z
  | none => false

/-- A missed row is recorded on a member's target, or skipped where its zone has been released (R654, R656, R665). `bad` are the
sector positions that the reads of the survivors leave with 5 or more erasures; with 5 members missing all are. An embankment member's
positions are reconstructed here, a data member's by their own command. -/
def Chip.completeRow (c : Chip) (p : Polder) (t : Target) (bad : List Nat) : Chip :=
  let q := t.next
  let few := 4 < ((List.range 16).filter fun k => k == t.member || c.memberLost p q k).length
  let c :=
    if p.released? q then c
    else
      let c := if few then (List.range 16).foldl (fun (c : Chip) s => c.completeBad p q t.member s) c
        else bad.foldl (fun (c : Chip) s => c.completeBad p q t.member s) c
      let made := if t.member < 12 ∨ few then 0 else 16 - bad.length
      let c := c.statAdd .polder Reg.POLDER.READ_STAT_RECON made
      c.modInv t.disc fun r => { r with lastRow := q, tRecorded := if r.tRecorded = 0 then c.wall else r.tRecorded }
  let c := c.modPolder p.id fun p => { p with
    targets := p.targets.map fun x => if x.member = t.member then { x with next := q + 1 } else x }
  (c.positionsDone p.id).wakeReads

/-- R654: the target's copy of the row has been verified. -/
def execCompletionRow (polder : BitVec 64) (member : Fin 16) (bad : List (Fin 16)) (s : State) : Out :=
  s.to fun c =>
    match c.polder? polder.toNat with
    | none => c
    | some p =>
      match p.targets.find? fun t => t.member == member.val with
      | none => c
      | some t =>
        if c.flag .polder Reg.POLDER.POLDER_CTL_COMP_EN ∧ c.isMounted t.disc ∧ t.next < p.nextQ then
          c.completeRow p t (bad.map (·.val)).eraseDups
        else c

/-! ## Retired parts (R658, R659) -/

/-- R658: beam `b` of a port is retired once its QUALITY_LOW or the port's LASER_WEAR_LIMIT has reached DEGRADE class; the map
gives its place to the spare (R293). The page of a gated head keeps its values (R175). -/
def execBeamRetire (h : Port) (b : BeamNo) (s : State) : Out :=
  s.to fun c =>
    let p : Page := .head h
    let low := 1 ≤ (c.col.cntOf (srcBase (.beam h b) + 1)).last ∨ 1 ≤ (c.col.cntOf (srcBase p + 7)).last
    let m := c.rd p Reg.HEAD.BEAM_MAP_RETIRED
    if !c.mgmt.resumed ∨ !low ∨ bit m b.val ∨ !c.pageUp p then c
    else
      let v := setBit m b.val true
      (((c.put p Reg.HEAD.BEAM_MAP_RETIRED v).putSh p Reg.HEAD.BEAM_MAP_RETIRED v).updRoles h).logEv 0x0001 h.val

/-- R659: a port below two live beams, or in FAILED, is retired: its side is no longer served, the disc is remounted elsewhere, and
in an OPEN polder its member is deferred. -/
def execOpuRetired (h : Port) (s : State) : Out :=
  s.to fun c =>
    let live := (allBeams.filter fun b => c.liveBeam h b.val).length
    if bit c.lib.retiredPorts h.val ∨ !(live < 2 ∨ c.srvState h = 11) then c
    else
      let c := c.modLib fun l => { l with retiredPorts := setBit l.retiredPorts h.val true }
      let c := (c.fault0 .polder 1 2 1).logEv 0x0002 h.val
      match c.discAt h with
      | none => c
      | some d =>
        let r := c.inv d
        let c := match c.polder? r.polder with
          | some p => if p.recording ∧ p.discOf r.position p.nextQ = some d then c.lagStart p.id [2 * r.position + h.val % 2] p.nextQ else c
          | none => c
        (c.modLib fun l => { l with
          reqs := l.reqs ++ [SpinReq.mk 2 1 h.spin.val d c.now none, SpinReq.mk 2 0 8 d c.now none] }).updInv

/-! ## The dike walk (R661 to R664, R847, R848) -/

/-- Weak sector of a walk (R662). -/
def Chip.weakSector (c : Chip) (k : SectorCheck) : Bool :=
  k.status != 0 || c.rd .polder Reg.POLDER.WALK_CFG_WEAK_ITER < k.iters || c.rd .polder Reg.POLDER.WALK_CFG2_WEAK_ERRS < k.changed

/-- Tj in °C × 64 is at or above WCTEMP, 140 °C (R683). -/
def Chip.hot (c : Chip) : Bool := decide (140 * 64 ≤ c.rdS .assay Reg.ASSAY.TJ_T)

/-- Background work is suspended (R848). -/
def Chip.bgSuspended (c : Chip) : Bool := c.host.ps == 1 || c.hot || c.flag .polder Reg.POLDER.BG_CFG_PAUSE

/-- Spindle-time in ticks that the walk has used over the last hour, of units that take `len` from `at'` (R847). -/
def walkSpent (l : List (Nat × Nat × Nat)) (now : Nat) : Nat :=
  (l.map fun u => min now (u.1 + u.2.1) - max u.1 (now - secs 3600)).sum

/-- The walk may start a unit on a spindle (R847, R848). -/
def Chip.walkMay (c : Chip) (n : Spin) : Bool :=
  let busy := ((c.lib.walkUse.filter fun u => c.now < u.1 + u.2.1).map (·.2.2)).eraseDups
  c.mgmt.resumed && c.flag .polder Reg.POLDER.POLDER_CTL_WALK_EN && !c.bgSuspended && bit c.lib.ready n.val
    && ((c.heldBy n).getD 4 == 4) && !(c.lib.reqs.any fun r => r.kind == 0 && r.cls ≤ 3 && r.spin == 8 && c.serves n r.cls r.disc)
    && !busy.contains n.val && busy.length < min 8 (c.rd .polder Reg.POLDER.BG_CFG_WALK_SPINDLES)
    && walkSpent c.lib.walkUse c.now * 100 < min 100 (c.rd .polder Reg.POLDER.BG_CFG_WALK_PCT) * 8 * secs 3600

/-- The layer that holds ordinal `n` of a surface (R639). -/
def Surface.layerOf (s : Surface) (n : Nat) : Nat :=
  ((List.range 8).foldl (fun (a : Nat × Option Nat) l =>
    let k := if s.closed.contains l then ((List.range 4).map fun j => (assocGet (l * 4 + j) s.ingots).getD 0).sum else 1907456
    (a.1 + k, if a.2.isNone && n < a.1 + k then some l else a.2)) (0, none)).2.getD 7

/-- What a walk of row `q` on a disc found enters the record, WALK_STAT and the list of ingots to repair (R662). -/
def Chip.walkRow (c : Chip) (p : Polder) (d q : Nat) (ws : List WalkSector) : Chip :=
  let k := (c.inv d).position
  (List.range 2).foldl (fun (c : Chip) side =>
    let m := 2 * k + side
    let weak := ((ws.filter fun w => w.side.val == side && c.weakSector w.check).map (·.sec.val)).eraseDups
    if weak.isEmpty then c
    else
      let mask := weak.foldl (fun a s => a + 2 ^ s) 0
      let gone := ws.any fun w => w.side.val == side && 2 < w.check.status
      let c := c.statAdd .polder Reg.POLDER.WALK_STAT_WEAK 1
      let l := (c.surf d side).layerOf (q - p.firstRow d)
      let c := c.modInv d fun r => { r with
        nowWeak := r.nowWeak + 1, nowLayer := r.nowLayer.set (8 * side + l) (r.nowLayer.getD (8 * side + l) 0 + 1) }
      let found := c.lib.weakFound.filter fun x => !(x.1 == p.id && x.2.1 == q && x.2.2.1 == m)
      let c := c.modLib fun l => { l with weakFound := found ++ [(p.id, q, m, mask)] }
      let row := (c.lib.weakFound.filter fun x => x.1 == p.id && x.2.1 == q).map (·.2.2)
      let need := max 1 (c.rd .polder Reg.POLDER.WALK_CFG_REPAIR_WEAK)
      let bad := (List.range 16).any fun s => need ≤ (row.filter fun x => bit x.2 s).length
      let add := ((if bad then row.map (·.1) else []) ++ (if gone then [m] else [])).eraseDups
      c.modLib fun l => { l with
        toRepair := l.toRepair ++ (add.map fun m => (p.id, q, m)).filter fun x =>
          !l.toRepair.contains x && !(l.repairing.any fun r => r.2.2.contains x)
            && !(p.repairs.any fun r => r.1 == q && r.2.1 == x.2.2) }) c

/-- The end of a complete walk of a disc (R644, R664). -/
def Chip.walkEnd (c : Chip) (p : Polder) (d : Nat) : Chip :=
  let r := c.inv d
  let t := c.wall
  let c := c.modInv d fun r => { r with
    tWalked := t, walkNext := 0xFFFFFFFF, weak := r.nowWeak, nowRows := 0, nowWeak := 0
    weakLayer := r.nowLayer, nowLayer := List.replicate 16 0
    marginA := r.nowMarginA, marginB := r.nowMarginB, pderMax := r.nowPder, nowMarginA := 65535, nowMarginB := 65535, nowPder := 0
    history := ((t, r.nowRows, r.nowWeak, r.repaired) :: r.history).take 8 }
  if r.nowRows * 2 < r.nowWeak * 100 ∧ !c.lib.proposed.contains p.id then c.modLib fun l => { l with proposed := l.proposed ++ [p.id] } else c

/-- One row of the polder under walk is read on the disc of a spindle, from where its walk stands. -/
def Chip.walkUnit (c : Chip) (p : Polder) (d marginA marginB pder : Nat) (ws : List WalkSector) : Chip :=
  let r := c.inv d
  let q := if r.walkNext = 0xFFFFFFFF then p.firstRow d else r.walkNext
  let last := match (p.segs.getD r.position []).find? fun s => p.firstRow d < s.first with
    | some s => min s.first p.nextQ
    | none => p.nextQ
  let c := if p.released? q ∨ last ≤ q then c else (c.walkRow p d q ws).modInv d fun r => { r with
      nowRows := r.nowRows + 1, nowMarginA := min r.nowMarginA marginA, nowMarginB := min r.nowMarginB marginB
      nowPder := max r.nowPder pder }
  if last ≤ q + 1 then c.walkEnd p d else c.modInv d fun r => { r with walkNext := q + 1 }

/-- R661: a unit of walk work of `len` ticks on a spindle: the row at which the walk of its disc stands, or the row `now` that is to
be walked at once (R643). `ws` gives every sector that is not plainly good, `marginA`, `marginB` and `pder` the detector margins of the sides and the
pre-decode error rate of the unit. -/
def execDikeWalkUnit (n : Spin) (len : BitVec 32) (now : Option (BitVec 24)) (marginA marginB : BitVec 16) (pder : BitVec 32)
    (ws : List WalkSector) (s : State) : Out :=
  s.to fun c =>
    match c.discOn n with
    | none => c
    | some d =>
      match c.polder? (c.inv d).polder, now with
      | none, _ => c
      | some p, some q =>
        let k := 2 ^ (c.inv d).position
        if c.lib.walkNow.any fun x => x.1 == p.id && x.2.1 == q.toNat && bit x.2.2 (c.inv d).position then
          (c.modLib fun l => { l with
            walkNow := (l.walkNow.map fun x => if x.1 = p.id ∧ x.2.1 = q.toNat then (x.1, x.2.1, x.2.2 - k) else x).filter fun x =>
              x.2.2 != 0 }).walkRow p d q.toNat ws
        else c
      | some p, none =>
        if !c.walkMay n ∨ (c.walkPolder.map (·.id)) ≠ some p.id ∨ c.wall ≤ (c.inv d).tWalked + c.walkPeriod then c
        else
          let c := c.modLib fun l => { l with
            walkUse := (l.walkUse.filter fun u => c.now < u.1 + u.2.1 + secs 3600) ++ [(c.now, len.toNat, n.val)] }
          (c.activate p.id).walkUnit p d marginA.toNat marginB.toNat pder.toNat ws

/-- R663: up to 12 ingots that wait are recorded as the data members of a repair row of an OPEN polder, which policy chooses.
Repairs wait while SHORT is 1 (R848). -/
def execIngotRepair (s : State) : Out :=
  s.to fun c =>
    let hosts := c.lib.polders.filter fun p => p.st == .opened && c.takesRows p && p.repairRows < 2048
    if c.lib.toRepair.isEmpty ∨ hosts.isEmpty ∨ !c.flag .polder Reg.POLDER.POLDER_CTL_REPAIR_EN
        ∨ c.flag .sluice Reg.SLUICE.SLUICE_STAT_SHORT ∨ !c.mgmt.resumed then c
    else
      let (k, c) := c.policy hosts.length
      match hosts[k]? with
      | none => c
      | some p =>
        let take := c.lib.toRepair.take 12
        let c := c.modLib fun l => { l with
          toRepair := l.toRepair.drop 12, repairing := l.repairing ++ [(p.id, p.nextQ, take)] }
        (c.putRow p.id 0xFFFE (p.repairRows % 65536) rowBlocks).modPolder p.id fun p => { p with repairRows := p.repairRows + 1 }

/-- A verified repair row enters the repair maps of the polders whose ingots it holds (R663, R664). -/
def Chip.repairDone (c : Chip) (x : Nat × Nat × List (Nat × Nat × Nat)) : Chip :=
  let c := c.modLib fun l => { l with repairing := l.repairing.erase x }
  x.2.2.zipIdx.foldl (fun (c : Chip) e =>
    let id := e.1.1
    let q := e.1.2.1
    let m := e.1.2.2
    let c := c.modPolder id fun p => { p with
      repairs := (p.repairs.filter fun r => !(r.1 == q && r.2.1 == m)) ++ [(q, m, x.1, x.2.1, e.2)] }
    let c := c.statAdd .polder Reg.POLDER.WALK_STAT_REPAIRED 1
    match c.polder? id with
    | none => c
    | some p =>
      let c := match p.discOf (m / 2) q with
        | some d => c.modInv d fun r => { r with repaired := r.repaired + 1 }
        | none => c
      if c.rd .polder Reg.POLDER.WALK_CFG2_REPAIR_MAX ≤ p.repairs.length ∧ !c.lib.proposed.contains id then
        c.modLib fun l => { l with proposed := l.proposed ++ [id] }
      else c) c

/-- Repair rows that have been verified. -/
def Chip.repairsDone (c : Chip) : Chip :=
  (c.lib.repairing.filter fun x => match c.polder? x.1 with
    | some p => !p.rows.any fun r => r.q == x.2.1
    | none => false).foldl Chip.repairDone c

/-! ## Directories (R637, R638) -/

/-- Directory rows of a polder with `n` runs (R637). -/
def dirRows (n : Nat) : Nat := divUp (n * 12) (786432 - 192 * 4)

/-- R637: a polder whose rows are all verified, with no lagging member and no zone still written, becomes CLOSED; its directory
follows its last row. -/
def execDirectoryWrite (polder : BitVec 64) (s : State) : Out :=
  s.to fun c =>
    match c.polder? polder.toNat with
    | none => c
    | some p =>
      if p.st ≠ .opened ∨ !p.rows.isEmpty ∨ !c.mgmt.resumed ∨ p.zones.any (fun z => (c.zone p.nsid z.2).st.isActive) then c
      else
        let n := dirRows ((p.runs.map fun z => z.2.length).sum)
        let c := (List.range n).foldl (fun (c : Chip) i => c.putRow p.id 0xFFFF i rowBlocks) c
        (c.modPolder p.id fun q =>
          { q with dir := some (p.nextQ, n), recording := false, dirLoaded := false }.settle).event .polder 0

/-- R638: the directory of a closed polder is read, `ok` saying that it decoded; otherwise the run tables are rebuilt from the
metadata of every row. -/
def execDirectoryLoad (polder : BitVec 64) (ok : Bool) (s : State) : Out :=
  s.to fun c =>
    match c.polder? polder.toNat with
    | none => c
    | some p =>
      if p.dirLoaded ∨ !(c.discsOf p).any c.isMounted then c
      else
        let c := c.modPolder p.id fun p => { p with dirLoaded := true }
        (if ok then c else c.fault0 .polder 2 2 0).wakeReads

/-! ## Verify results (R385 to R390) -/

/-- Ingots reported verified reach the polder island (R390): rows are released, repairs end. -/
def Chip.drainVerified (c : Chip) : Chip :=
  let l := c.verified
  ((l.foldl Chip.ingotVerified { c with verified := [] }).repairsDone)

/-- R390: a result of the verify of an ingot, by disc address and RSN. A port whose verify becomes degraded logs it (R387,
R860). -/
def execVerifyResult (h : Port) (b : BeamNo) (layer : Fin 8) (spiral : Fin 4) (slot : BitVec 19) (rsn : BitVec 64)
    (checks : List SectorCheck) (s : State) : Out :=
  s.to fun c =>
    let was := c.flag (.head h) Reg.HEAD.WR_HSTAT_DEGRADED
    let c := c.verifyResult h b layer.val spiral.val slot.toNat rsn.toNat checks
    let c := if !was && c.flag (.head h) Reg.HEAD.WR_HSTAT_DEGRADED then c.logEv 0x0003 h.val else c
    (c.syncSurf h).drainVerified

/-- R389. -/
def execVerifyTrailOut (h : Port) (s : State) : Out :=
  s.to fun c =>
    if c.trailing h && !(allBeams.any (fun b => c.wrActive h b)) then ((c.trailOutDone h).syncSurf h).drainVerified else c

end Sys2Proof.Machine
end

