-- ==== Sys2Proof/Machine/Payloads.lean ====
section
/-!
DEFINITION. The payloads of the ingots that are recorded: rows of host blocks, directory rows, repair rows, completed rows, and the
parity of the cross-surface code (R206, R208, R209, R361, R630, R637, R631, R632, R654, R656, R663, R691, R770).
-/
namespace Sys2Proof.Machine

/-- A sector to be recorded: its 4,112 bytes under the cross-surface code and its metadata; `spoil` marks one recorded so that every
read finds it failed (R656). -/
structure ToRecord where
  data : List Byte
  md : SectorMeta
  spoil : Bool := false
  deriving DecidableEq, Repr

/-- The bytes of a block under the cross-surface code (R209). -/
def codedBytes (b : Block) : List Byte := (b.data ++ List.replicate 4096 0).take 4096 ++ (b.md ++ List.replicate 16 0).take 16

/-- FLAGS of a sector (R206). -/
def flagBits (embankment rebuilt repaired pad : Bool) : Nat := b2n embankment + 8 * b2n rebuilt + 16 * b2n repaired + 32 * b2n pad

/-- A PAD sector of a polder's namespace: zeros encrypted (R206), with the recorded LBA, all ones, as the tweak (DESIGN CHOICE: the spec
names none, log 176). -/
def Chip.padBytes (c : Chip) (p : Polder) : List Byte :=
  match c.ns? p.nsid with
  | some n => ((n.encrypt (2 ^ 64 - 1) [zeroBlock 0]).map codedBytes).headD (List.replicate 4112 0)
  | none => List.replicate 4112 0

/-- The key tag of a polder's namespace. -/
def Chip.polderTag (c : Chip) (p : Polder) : Nat := ((c.ns? p.nsid).map (·.keyTag)).getD 0

/-! ## Directory rows (R637) -/

/-- Entries of a polder's directory in ascending q, 12 bytes each. -/
def Polder.dirEntries (p : Polder) : List Byte :=
  ((p.runs.flatMap fun z => z.2.map fun x => (z.1, x)).mergeSort fun a b => decide (a.2.q ≤ b.2.q)).flatMap fun e =>
    bytesLE 4 e.2.q ++ bytesLE 2 e.1 ++ bytesLE 2 e.2.r ++ bytesLE 2 e.2.n ++ bytesLE 2 0

/-- Sector `s` of data member `m` of directory row `i`: 4,092 bytes of entries and their CRC-32C; not encrypted. -/
def Polder.dirBytes (p : Polder) (i m s : Nat) : List Byte :=
  let user := ((p.dirEntries.drop ((i * 192 + m * 16 + s) * 4092)).take 4092 ++ List.replicate 4092 0).take 4092
  user ++ bytesLE 4 (crcBytes user) ++ List.replicate 16 0

/-! ## Rows of host blocks (R634, R691) -/

/-- First offset of a row that holds PAD. -/
def Chip.padFrom (c : Chip) (p : Polder) (pz z r : Nat) : Nat :=
  match p.rows.find? fun x => x.zone == pz && x.r == r with
  | some x => x.pad
  | none => (c.zone p.nsid z).dataEnd - r * rowBlocks

/-- What stands in the stripe buffer of a sector. -/
def Chip.inStripe (c : Chip) (id q m s : Nat) : Option (List Byte) :=
  (c.lib.sectors.find? fun x => x.polder == id && x.q == q && x.member == m && x.sec == s).bind (·.data)

/-- Sector `s` of data member `m` of a row as the memory island holds it: a staged or cached block, PAD, or the stripe buffer. -/
def Chip.dataSector (c : Chip) (p : Polder) (pz r m s : Nat) : Option ToRecord :=
  let base : SectorMeta := { polder := p.id, zone := pz, row := r, member := m, keyTag := c.polderTag p }
  if pz = 0xFFFF then some { data := p.dirBytes r m s, md := base }
  else
    match p.zones.find? fun z => z.1 == pz with
    | none => none
    | some z =>
      let o := m * 16 + s
      let at' := r * rowBlocks + o
      let lba := z.2 * zoneSize + at'
      if c.padFrom p pz z.2 r ≤ o then some { data := c.padBytes p, md := { base with flags := flagBits false false false true } }
      else
        let found := match c.stagedBlock p.nsid z.2 at', c.cached p.nsid lba with
          | some b, _ => some (codedBytes b)
          | none, some b => some (codedBytes b)
          | none, none => (p.rowQ pz r).bind fun q => c.inStripe p.id q m s
        found.map fun d => { data := d, md := { base with lba := lba, nsid := p.nsid, hostMd := d.drop 4096 } }

/-- The row sequence number of a row. -/
def Polder.rowSeq (p : Polder) (pz r : Nat) : Option Nat :=
  match p.rows.find? fun x => x.zone == pz && x.r == r with
  | some x => some x.q
  | none => p.seqOf pz r

/-- Metadata of a sector that is recorded from reconstructed bytes: those of its host block, of PAD, or of an embankment ingot (R206,
R209). -/
def Chip.lostMeta (c : Chip) (p : Polder) (pz r m s : Nat) : SectorMeta :=
  let blk : Option (Nat × Nat) := if m < 12 then (p.rowSeq pz r).bind fun q => c.blockAt p q m s else none
  { polder := p.id, zone := pz, row := r, member := m, keyTag := c.polderTag p
    lba := (blk.map (·.2)).getD (2 ^ 64 - 1), nsid := (blk.map (·.1)).getD 0
    flags := flagBits false false false (decide (m < 12) && blk.isNone && pz != 0xFFFF) }

/-! ## Reconstruction (R631, R632, R770) -/

/-- Beam `b` of port `h` works on a mounted surface of the polder and reads (R770). -/
def Chip.mayCheck (c : Chip) (p : Polder) (h : Port) (b : BeamNo) : Bool :=
  c.islandUp (.beam h b) && c.reads h b && decide (c.beamRole h b = 1) &&
    ((c.discAt h).map fun d => (c.inv d).polder) == some p.id

/-- The regenerated sector of member `m` is checked as one message of the beam's read stream: `differs` says that the value differs
from that of the reconstructed bytes. The zone mapping names no RSN for an ingot that was not read: a free value (log 180). -/
def Chip.checkRebuilt (c : Chip) (h : Port) (b : BeamNo) (p : Polder) (pz r m sec : Nat) (d : List Byte) (differs : Bool) :
    Bool × Chip :=
  let (rsn, c) := c.free 64
  let n := beamHall h b
  let md := ({ c.lostMeta p pz r m sec with hostMd := d.drop 4096 } : SectorMeta).bytes sec rsn
  let v := c.hallValue n ((d.take 4096 ++ md).map (·.toNat))
  (differs || (c.hallU n).parity, c.hallMessage n v (some !differs))

/-- A sector position is decoded: with at most 4 erasures its erased data sectors are checked at a reading beam, and the result returns
with that beam's next item; else it waits for its retry or is unrecoverable. 3 erasures in a polder with lagging members start its
completion at once (R631, R632, R642, R657, R770). -/
def Chip.reconstruct (c : Chip) (id q sec : Nat) (h : Port) (b : BeamNo) (differs : Bool) : Chip :=
  match c.polder? id with
  | none => c
  | some p =>
    let known := c.position id q sec
    let es := c.erasedOf id q sec
    let read := fun (m : Nat) => c.memberLost p q m || c.lib.sectors.any fun x => x.polder == id && x.q == q && x.member == m && x.sec == sec
    let c := if 3 ≤ (es.filter read).length ∧ !p.lag.isEmpty then c.modPolder id fun p => { p with compNow := true } else c
    if 4 < es.length then c.decodeNow p q sec false
    else
      match p.rowOf q with
      | none => c
      | some (pz, r) =>
        if !c.mayCheck p h b then c
        else
          let out := (es.filter (· < 12)).foldl (fun (a : Bool × Chip) m =>
            let x := a.2.checkRebuilt h b p pz r m sec (rsDecode es m known) differs
            (a.1 || x.1, x.2)) (false, c)
          out.2.modBm h b fun x => { x with checks := x.checks ++ [⟨p.id, q, sec, out.1⟩] }

/-- R631: beam `b` of port `h` is the one that the polder island chooses; `differs` says that the regenerated check value differs from
that of the reconstructed bytes. -/
def execStripeRowReconstruct (polder : BitVec 64) (q : BitVec 24) (sec : Fin 16) (h : Port) (b : BeamNo) (differs : Bool) (s : State) : Out :=
  s.to fun c => if c.islandUp .polder then c.reconstruct polder.toNat q.toNat sec.val h b differs else c

/-! ## The payload of a sector -/

/-- Sector `s` of member `m` of a row of a polder from what the memory island holds: directly, for an embankment member by the
cross-surface code, or recorded failed where more than 4 members are missing at its position in a completed row (R654, R656); a data
member that was not read waits for its reconstruction (R632); `get` gives the data members. -/
def Chip.memberSector (c : Chip) (p : Polder) (pz r m s : Nat) (rebuilt : Bool) (get : Nat → Option ToRecord) : Option ToRecord :=
  let seq := p.rowSeq pz r
  let held := fun (k : Nat) => if k < 12 then (get k).map (·.data) else seq.bind fun q => c.inStripe p.id q k s
  let md : SectorMeta := ((if m < 12 then get m else none).map (·.md)).getD (c.lostMeta p pz r m s)
  let md := { md with flags := md.flags ||| flagBits (decide (12 ≤ m)) rebuilt false false }
  match held m with
  | some d => some { data := d, md := { md with hostMd := d.drop 4096 } }
  | none =>
    let known := (List.range 16).filterMap fun k => (held k).map fun d => (k, d)
    let es := (List.range 16).filter fun k => !known.any fun x => x.1 == k
    if 12 ≤ m ∧ es.length ≤ 4 then
      let d := rsDecode es m known
      some { data := d, md := { md with hostMd := d.drop 4096 } }
    else if rebuilt ∧ m < 12 ∧ (seq.map fun q => p.dead.contains (q, m * 16 + s)) = some true then
      some { data := List.replicate 4112 0, md := md, spoil := true }
    else none

/-! ## Repair rows (R663) -/

/-- Sector `s` of the ingot that a repair row copies: the reconstructed sector with its original coordinates and REPAIRED. -/
def Chip.copiedSector (c : Chip) (i : Nat × Nat × Nat) (s : Nat) : Option ToRecord :=
  match c.polder? i.1 with
  | none => none
  | some p =>
    match p.rowOf i.2.1 with
    | none => none
    | some (pz, r) =>
      (c.memberSector p pz r i.2.2 s false fun m => c.dataSector p pz r m s).map fun x =>
        { x with md := { x.md with flags := x.md.flags ||| flagBits false false true false } }

/-- Sector `s` of data member `m` of a repair row: a copied ingot, or PAD. -/
def Chip.repairSector (c : Chip) (p : Polder) (r m s : Nat) : Option ToRecord :=
  match c.lib.repairing.find? fun x => x.1 == p.id && (p.rowSeq 0xFFFE r) == some x.2.1 with
  | none => none
  | some x =>
    match x.2.2[m]? with
    | some i => c.copiedSector i s
    | none => some { data := c.padBytes p, md := { polder := p.id, zone := 0xFFFE, row := r, member := m, keyTag := c.polderTag p
                                                   flags := flagBits false false false true } }

/-- Sector `s` of an ingot that a beam records. -/
def Chip.toRecord (c : Chip) (i : IngotRef) (s : Nat) : Option ToRecord :=
  match c.polder? i.polder with
  | none => none
  | some p =>
    let get := fun (m : Nat) => if i.zone = 0xFFFE then c.repairSector p i.row m s else c.dataSector p i.zone i.row m s
    c.memberSector p i.zone i.row i.member s (i.flags.testBit 3) get

/-! ## X9 (R361) -/

/-- R361: the payload of the sector that the beam asks for, of its current ingot or of the next, arrives over X9. Where the memory
island does not hold it yet nothing arrives. -/
def execSectorPayload (h : Port) (b : BeamNo) (s : State) : Out :=
  s.to fun c =>
    if !c.islandUp (.beam h b) then c.absentItem 9
    else
      let x := c.bm h b
      if !c.loads h b then c
      else
        match (x.run.map fun r => (r.queue.drop (b2n x.loadsNext)).head?).join with
        | none => c
        | some i =>
          match c.toRecord i x.nextSec with
          | none => c
          | some w =>
            let (rsn, c) := c.loadRsn h b
            c.sectorPayload h b (w.data.take 4096) (w.md.bytes x.nextSec rsn) w.spoil

end Sys2Proof.Machine
end

