-- ==== Sys2Proof/Machine/Peer.lean ====
section
/-!
DEFINITION. The peer island: Daxlink, mirroring, witness and lease engine, pair states, fencing, joining and handing back
(chapter 19).
-/
namespace Sys2Proof.Machine

/-! ## The pair's own state -/

/-- Changes the peer island. -/
def Chip.modPeer (c : Chip) (f : PeerSt → PeerSt) : Chip := { c with peer := f c.peer }

/-- Pairing runs (R812): the island is up and PEER.PAGE_CTL.EN is 1. -/
def Chip.pairing (c : Chip) : Bool := c.islandUp .peer && c.enabled .peer

/-- The role fixed by the board, 0 or 1 (R810). -/
def Chip.role (c : Chip) : Nat := c.rd .peer Reg.PEER.PAIR_STAT_ROLE

/-- Home group of this controller and of the partner (R828). -/
def Chip.homeGroup (c : Chip) : Nat := 3 + c.role
def Chip.awayGroup (c : Chip) : Nat := 4 - c.role

/-- PAIR_STAT.STATE becomes `st` (R831, R845); outside PAIRED and SPLIT_HOLDER the picker gate is closed (R812). -/
def Chip.setState (c : Chip) (st : Nat) : Chip :=
  let c := if st = 2 ∨ st = 3 then c else c.put .peer Reg.PEER.PAIR_STAT_PICKER_OWN 0
  if c.pairState = st then c else (c.put .peer Reg.PEER.PAIR_STAT_STATE st).event .peer 0

/-- The ANA state of group 3 or 4 becomes `v` (R718, R831). -/
def Chip.setAna (c : Chip) (g v : Nat) : Chip :=
  if c.ana g = v then c
  else
    let c := c.put .peer (if g = 3 then Reg.PEER.PAIR_STAT_ANA_3 else Reg.PEER.PAIR_STAT_ANA_4) v
    (c.modLog fun l => { l with anaChanges := l.anaChanges + 1 }).postAll 3 0 2 3 0x0C

/-- Ownership of group 3 or 4. -/
def Chip.setOwn (c : Chip) (g : Nat) (b : Bool) : Chip :=
  c.putB .peer (if g = 3 then Reg.PEER.PAIR_STAT_OWN_3 else Reg.PEER.PAIR_STAT_OWN_4) b

/-- Groups 3 and 4 that satisfy `f`, as two bits. -/
def groupBits (f : Nat → Bool) : Nat := b2n (f 3) + 2 * b2n (f 4)

/-! ## Lease words (R825) -/

def leaseHolder (v : Nat) : Nat := v % 256
def leaseRenew (v : Nat) : Nat := v / 2 ^ 8 % 2 ^ 24
def leaseGen (v : Nat) : Nat := v / 2 ^ 32 % 2 ^ 32
/-- A lease word. -/
def leaseWord (holder renew gen : Nat) : Nat := holder + renew % 2 ^ 24 * 2 ^ 8 + gen % 2 ^ 32 * 2 ^ 32

/-- HOLDER of this controller (R825). -/
def Chip.selfHolder (c : Chip) : Nat := c.role + 1

/-- The lease word last read (R844). -/
def Chip.lease (c : Chip) : Nat := c.rd .peer Reg.PEER.LEASE_LO_VALUE + c.rd .peer Reg.PEER.LEASE_HI_VALUE * 2 ^ 32

/-- The lease has been read as `v` (R827, R832, R844). -/
def Chip.leaseSeen (c : Chip) (v : Nat) : Chip :=
  let old := c.lease
  let new := !c.peer.leaseRead || old != v
  let adv := c.peer.leaseRead && leaseHolder v != 0 && leaseHolder v != c.selfHolder && leaseHolder v == leaseHolder old
    && leaseRenew v != leaseRenew old
  let c := (c.put .peer Reg.PEER.LEASE_LO_VALUE v).put .peer Reg.PEER.LEASE_HI_VALUE (v / 2 ^ 32)
  c.modPeer fun p => { p with
    leaseRead := true, changeAt := if new then c.now else p.changeAt, advanced := p.advanced || adv }

/-- PAIR_STAT.HOLDER changes (R845). -/
def Chip.setHolder (c : Chip) (b : Bool) : Chip :=
  if c.isHolder = b then c else (c.putB .peer Reg.PEER.PAIR_STAT_HOLDER b).event .peer 2

/-! ## Reinstating batches (R119, R833) -/

/-- First row of a polder zone that the run table does not hold. -/
def Polder.missingRow (p : Polder) (pz : Nat) : Nat → Nat → Nat
  | 0, r => r
  | fuel + 1, r => if (p.rowQ pz r).isSome then p.missingRow pz fuel (r + 1) else r

/-- A batch from a flush record or a mirror joins staging as admitted, under the number `seq` (R119, R833): the write pointer covers
it, and the rows that are not on the media are assembled. It is discarded where the namespace or the binding is gone (R104). -/
def Chip.reinstate (c : Chip) (b : BatchCopy) (seq : Nat) (replay : Option Nat) : Chip :=
  match c.ns? b.nsid with
  | none => c
  | some n =>
    let x := n.zone b.zone
    match x.bind with
    | none => c
    | some (id, pz) =>
      match c.polder? id with
      | none => c
      | some p =>
        let fin := b.ofs + b.nlb
        let rows := (List.range (fin / rowBlocks + 1)).filter fun r =>
          b.ofs / rowBlocks ≤ r && decide (r * rowBlocks < fin) && (p.rowQ pz r).isNone
        if x.st = .offline ∨ rows.isEmpty then c
        else
          let k := c.sluice.nextId
          let y : Batch := { id := k, seq := some seq, kind := b.kind, slot := none, nsid := b.nsid, zone := b.zone, ofs := b.ofs
                             nlb := b.nlb, keyTag := b.keyTag, data := b.data, staged := true, since := c.now, rows := rows, replay := replay }
          let c := c.modSluice fun s => { s with
            nextId := k + 1, nextSeq := max s.nextSeq (seq + 1), batches := s.batches ++ [y] }
          let wp := max x.wp fin
          let c := c.setZone b.nsid b.zone { x with
            wp := wp, dataEnd := max x.dataEnd fin, lastAt := c.now, rowNext := p.missingRow pz 2048 0
            st := if wp = zoneCap then .full else if x.st = .empty then .closed else x.st }
          (c.assemble id).updSluice

/-! ## Ownership of the shared groups -/

/-- Mirrored batches of the namespaces of group `g` are admitted as this controller's own, in BATCH_SEQ order (R833). -/
def Chip.admitMirror (c : Chip) (g : Nat) : Chip :=
  let mine := c.peer.mirror.filter fun e => c.group e.2.nsid == g
  let c := c.modPeer fun p => { p with mirror := p.mirror.filter fun e => !mine.contains e }
  mine.foldl (fun (c : Chip) e =>
    if e.2.data.length = e.2.nlb then
      let id := c.sluice.nextId
      let c := c.reinstate e.2 c.sluice.nextSeq none
      match c.batch? id with
      | some b => if c.linkUp then c.mirrorSend b else c
      | none => c
    else c) c

/-- The group becomes this controller's, Optimized, with what it holds of it in its mirror (R831, R839; log 110). -/
def Chip.gainGroup (c : Chip) (g : Nat) : Chip := ((c.setOwn g true).admitMirror g).setAna g 0

/-- Staged shared batches that wait are acknowledged (R834). -/
def Chip.ackWaiting (c : Chip) : Chip :=
  (c.sluice.batches.filter fun b => b.staged && !b.wt && b.slot.isSome && c.shared b.nsid).foldl (fun (c : Chip) b => c.ackBatch b.id) c

/-- Staged batches of shared namespaces leave (R834): those not acknowledged end with Asymmetric Access Transition. -/
def Chip.releaseShared (c : Chip) : Chip :=
  (c.sluice.batches.filter fun b => b.staged && c.shared b.nsid).foldl (fun (c : Chip) b => c.refuseBatch b) c

/-- The spindle holds a disc of a shared polder. -/
def Chip.sharedDisc (c : Chip) (n : Spin) : Bool :=
  ((c.discOn n).map c.sharedOf).getD false

/-- Recording of shared polders stops at the next ingot boundary of each beam (R832). -/
def Chip.stopShared (c : Chip) : Chip :=
  (allSpins.filter c.sharedDisc).foldl (fun (c : Chip) n =>
    [n.upper, n.lower].foldl (fun (c : Chip) h => allBeams.foldl (fun (c : Chip) b => c.writeStop h b) c) c) c

/-- The OPUs of every spindle with a shared disc over which nothing records any more are parked, and the spindle brakes (R832). -/
def Chip.parkShared (c : Chip) : Chip :=
  (allSpins.filter fun n => c.sharedDisc n && !c.inUnit n).foldl (fun (c : Chip) n =>
    let c := [n.upper, n.lower].foldl (fun (c : Chip) h =>
      if c.srvState h = 10 ∨ c.srvState h = 0 ∨ !c.pageUp (.head h) then c
      else ((c.put (.head h) Reg.HEAD.SRV_CMD_CMD 3).putSh (.head h) Reg.HEAD.SRV_CMD_CMD 3).srvCommand h) c
    if c.spinIdle n then c else (c.spCmdIs n 2).spCommand n 2) c

/-- The controller acts without the lease (R832, R834, R836): shared groups in ANA state `ana`, released. -/
def Chip.giveUp (c : Chip) (ana : Nat) : Chip :=
  let c := [3, 4].foldl (fun (c : Chip) g => (c.setOwn g false).setAna g ana) c
  let c := c.modPeer fun p => { p with handback := none, takeover := 0, join := 0 }
  (c.stopShared.releaseShared).parkShared

/-- SPLIT_NONHOLDER (R832). -/
def Chip.splitNonholder (c : Chip) : Chip :=
  ((c.setState 4).giveUp 2).put .peer Reg.PEER.PAIR_CTL_SHARED_RELEASED 1

/-- The controller becomes FENCED (R836). -/
def Chip.fenced (c : Chip) : Chip :=
  if c.pairState = 5 then c
  else
    let c := (c.setHolder false).setState 5
    let c := { c with pins := { c.pins with fenceDrive := c.flag .peer Reg.PEER.PAIR_CTL_DRIVE_EN } }
    (c.giveUp 3).fault0 .peer 3 1 2

/-- The lease has been gained (R827, R831, R834). -/
def Chip.gainLease (c : Chip) : Chip :=
  let c := (c.setHolder true).modPeer fun p => { p with s := c.now, renewAt := c.now + ms 100, acquiredAt := some c.now, stopped := false }
  if c.linkUp then c
  else
    let c := c.setState 3
    let c := if bit c.peer.pOwn (c.homeGroup - 3) then c else c.gainGroup c.homeGroup
    let c := [3, 4].foldl (fun (c : Chip) g => if c.owns g then c.setAna g 0 else c) c
    c.ackWaiting

/-! ## Frames (R814 to R816) -/

/-- A frame is dropped (R816): counted, reported, and answered with a NAK. -/
def Chip.daxDrop (c : Chip) (mirror : Bool) : Chip :=
  let (v, c) := c.free 64
  let c := c.hallMessage (if mirror then 107 else 105) v (some false)
  ((c.inc .peer Reg.PEER.DAX_ERR_CRC_ERR).fault0 .peer 0 3 0).daxSend false 0x03 [b2n mirror, (c.chan mirror).rx]

/-- The frames up to number `ack` are acknowledged; frames that waited for space are sent (R816). -/
def Chip.daxAck (c : Chip) (mirror : Bool) (ack : Nat) : Chip :=
  let k := c.chan mirror
  match k.unacked.findIdx? fun f => f.seq == ack with
  | none => c
  | some i =>
    let rest := k.unacked.drop (i + 1)
    let c := c.modChan mirror fun k => { k with unacked := rest, sentAt := if rest.isEmpty then k.sentAt else c.now }
    Chip.daxDrain mirror k.waiting.length c

/-- The link is up when each controller has the other's HELLO (R818). What retained staging lost is asked of the partner (R105). -/
def Chip.linkCheck (c : Chip) : Chip :=
  if !c.peer.helloIn ∨ !c.peer.helloOut ∨ c.peer.ctl.unacked.any (fun f => f.typ == 1) ∨ c.linkUp then c
  else
    let c := (c.put .peer Reg.PEER.PAIR_STAT_LINK_UP 1).event .peer 1
    let c := [104, 105, 106, 107].foldl (fun (c : Chip) n => c.hallIdle (Fin.ofNat 113 n) false) c
    let c := c.modPeer fun p => { p with
      join := 1, tL := none, pFreed := false, advanced := false, refused := none, hbAt := c.now, echoAt := c.now, missAt := c.now }
    let c := if c.pairState = 5 then c else { c with pins := { c.pins with fenceDrive := false } }
    let c := c.rs.recover.foldl (fun (c : Chip) w => c.daxSend false 0x14 [w.lo, w.hi]) c
    if c.pairState = 5 ∨ c.pairState = 0 ∨ c.peer.takeover = 1 then c else c.setState 1

/-- A frame of a channel has passed its check (R816): in order it is accepted as `f`, else it is dropped. -/
def Chip.daxRecv (c : Chip) (mirror : Bool) (h : DaxHead) (f : Chip → Chip) : Chip :=
  if !c.pairing ∨ c.peer.lanes = 0 then c
  else if h.seq ≠ (c.chan mirror).rx ∨ (c.hallU (if mirror then 107 else 105)).parity then c.daxDrop mirror
  else
    let (v, c) := c.free 64
    let c := c.hallMessage (if mirror then 107 else 105) v (some true)
    let c := c.modChan mirror fun k => { k with rx := (k.rx + 1) % 2 ^ 32 }
    let c := ((c.daxAck false h.ackCtl).daxAck true h.ackMir).linkCheck
    f c

/-- As `daxRecv` for a frame that has a meaning only while the link is up. -/
def Chip.daxUp (c : Chip) (mirror : Bool) (h : DaxHead) (f : Chip → Chip) : Chip :=
  c.daxRecv mirror h fun c => if c.linkUp then f c else c

/-- The geometry entries of the stations of S0 to S7 (R645). -/
def Chip.stations (c : Chip) : List (List Int) := (List.range 8).map fun s => (assocGet (1024 + s) c.rs.geometry).getD []

/-- The lowest BATCH_SEQ charged. -/
def Chip.lowestSeq (c : Chip) : Nat :=
  match (c.sluice.batches.filter fun b => !b.wt).filterMap (·.seq) with
  | a :: l => l.foldl min a
  | [] => c.sluice.nextSeq

/-- The flags of the status word (R826). -/
def Chip.statusFlags (c : Chip) : Nat :=
  b2n (c.pairState == 5) + 2 * c.rd .peer Reg.PEER.PAIR_CTL_SHARED_RELEASED + 4 * b2n (!c.pickerGate) + 8 * b2n c.linkUp

/-- R813: training is complete at `lanes` (0, 1, 2: one, two or four lanes), and HELLO is sent (R818). -/
def execDaxLinkTrained (lanes : Fin 3) (s : State) : Out :=
  s.to fun c =>
    if !c.pairing ∨ c.peer.lanes ≠ 0 then c
    else
      let n := 2 ^ lanes.val
      let c := (c.modPeer fun p => { p with
        lanes := n, ctl := {}, mir := {}, helloIn := false, helloOut := true, hbNext := c.now, hbSent := 0, hbGot := 0, hbEcho := 0
        hbAt := c.now, echoAt := c.now, missAt := c.now }).put .peer Reg.PEER.PAIR_STAT_LANES n
      let c := if n = 4 then c else (c.fault0 .peer 0 2 0).logEv0 0x000C
      c.daxSend false 0x01 [Config.serial.toNat, c.role, 0x0100, n, c.lowestSeq]

/-- R818: 10 ms of training in which every frame failed its check. -/
def execDaxTrainingFail (s : State) : Out :=
  s.to fun c =>
    if !c.pairing ∨ c.linkUp then c
    else
      let c := c.until' (c.peer.trainAt + ms 10)
      (c.modPeer fun p => { p with trainAt := c.now }).fault .peer 0 1 1 2 Page.peer.num

/-- R816: a frame that fails its check. -/
def execDaxFrameDrop (mirror : Bool) (s : State) : Out :=
  s.to fun c => if c.pairing && c.peer.lanes != 0 then c.daxDrop mirror else c

/-- Every unacknowledged frame of a channel is sent again (R816). -/
def Chip.daxResend (c : Chip) (mirror : Bool) : Chip :=
  let k := c.chan mirror
  let c := (c.addSat .peer Reg.PEER.DAX_ERR_RETRANS k.unacked.length).modChan mirror fun k => { k with sentAt := c.now }
  k.unacked.foldl (fun (c : Chip) _ => c.hallOut mirror) c

/-- R816. -/
def execDaxNak (h : DaxHead) (mirror : Bool) (s : State) : Out := s.to fun c => c.daxRecv false h fun c => c.daxResend mirror

/-- R816: 50 µs without an acknowledgement of the oldest frame. -/
def execDaxResendTimeout (mirror : Bool) (s : State) : Out :=
  s.to fun c =>
    if !c.pairing ∨ (c.chan mirror).unacked.isEmpty then c
    else (c.until' ((c.chan mirror).sentAt + us 50)).daxResend mirror

/-! ## HELLO and HEARTBEAT (R817, R818, R828) -/

/-- R818, R822: a HELLO with another version or the same role is taken note of and leaves the link down. -/
def execDaxHello (h : DaxHead) (m : Hello) (s : State) : Out :=
  s.to fun c => c.daxRecv false h fun c =>
    let c := (c.put .peer Reg.PEER.PARTNER_SN_LO_SN m.serial.toNat).put .peer Reg.PEER.PARTNER_SN_HI_SN (m.serial.toNat / 2 ^ 32)
    let ok := m.version == 0x0100 && b2n m.role1 != c.role
    let keep := c.peer.mirror.filter fun e => decide (m.lowest ≤ e.1)
    (c.modPeer fun p => { p with
      helloIn := ok, pGeometry := m.geometry, mirror := if ok then keep else p.mirror
      stale := if ok then keep.map (·.1) else p.stale }).linkCheck

/-- The ownership that the partner's HEARTBEAT shows, in PAIRED (R828, R831, R839). -/
def Chip.agree (c : Chip) (m : Heartbeat) : Chip :=
  if c.pairState ≠ 2 then c
  else
    [3, 4].foldl (fun (c : Chip) g =>
      if c.peer.handback = some g then c
      else if bit m.change.val (g - 3) then c.setAna g 4
      else if bit m.own.val (g - 3) then (c.setOwn g false).setAna g 1
      else if c.homeGroup = g ∧ !c.owns g then c.gainGroup g
      else c) c

/-- R817, R828: the partner that holds the lease owns the picker, and the gate of the last owner closes. -/
def execDaxHeartbeat (h : DaxHead) (m : Heartbeat) (s : State) : Out :=
  s.to fun c => c.daxRecv false h fun c =>
    let adv := m.echo != c.peer.hbEcho
    let c := c.modPeer fun p => { p with
      hbGot := m.num, hbAt := c.now, missAt := c.now, hbEcho := m.echo, echoAt := if adv then c.now else p.echoAt
      pState := m.state.val, pOwn := m.own.val, pFlags := m.flags.toNat }
    if !c.linkUp then c
    else
      let away := !c.isHolder && leaseHolder m.lease.toNat == 2 - c.role
      let c := if away then c.put .peer Reg.PEER.PAIR_STAT_PICKER_OWN 0 else c
      c.agree m

/-- R817: every 100 µs exactly. -/
def execHeartbeatSend (s : State) : Out :=
  s.to fun c =>
    if !c.pairing ∨ c.peer.lanes = 0 then c
    else
      let c := c.until' c.peer.hbNext
      let c := c.modPeer fun p => { p with hbNext := p.hbNext + us 100, hbSent := p.hbSent + 1 }
      c.daxSend false 0x02 [c.peer.hbSent, c.pairState, c.lease, c.statusFlags, c.peer.hbGot, groupBits c.owns,
        groupBits fun g => c.peer.handback == some g]

/-- R817: 100 µs without a valid HEARTBEAT. -/
def execHeartbeatMiss (s : State) : Out :=
  s.to fun c =>
    if !c.pairing ∨ !c.linkUp then c
    else
      let c := c.until' (c.peer.missAt + us 100)
      ((c.modPeer fun p => { p with missAt := c.now }).inc .peer Reg.PEER.HB_STAT_MISSED).fault0 .peer 1 1 0

/-! ## Loss of the link (R817, R821, R822, R828, R831, R840) -/

/-- Batches at the loss of the link (R821, R822): those that wait for RELEASE_ACK are released, those that wait for MIRROR_ACK are
acknowledged, shared ones only by a holder. -/
def Chip.lossBatches (c : Chip) : Chip :=
  let c := (c.sluice.batches.filter fun b => b.releasing && b.slot.isNone).foldl (fun (c : Chip) b => c.dropBatch b.id) c
  (c.sluice.batches.filter fun b => b.staged && !b.wt).foldl (fun (c : Chip) b =>
    let c := if !b.mirrored then c.modBatch b.id fun b => { b with sent := false } else c
    if b.slot.isSome ∧ (!c.shared b.nsid ∨ (c.isHolder ∧ c.pairState = 3)) then
      let c := c.ackBatch b.id
      if b.releasing then c.dropBatch b.id else c
    else c) c

/-- Commands forwarded to the partner end with Asymmetric Access Transition; those of the partner are answered to nobody (log
112). -/
def Chip.lossForwards (c : Chip) : Chip :=
  let c := c.modHost fun h => { h with slots := h.slots.map fun x => if x.2.origin = 1 then (x.1, { x.2 with silent := true }) else x }
  (c.host.slots.filter fun x => x.2.phase == .forwarded).foldl (fun (c : Chip) x => c.fail x.1 3 0x03 false) c

/-- The moving axes of the picker are asked to stop, cause 0x1 (R827, R828). -/
def Chip.stopPicker (c : Chip) : Chip := pickerAxes.foldl (fun (c : Chip) a => c.axStop a 1 5) c

/-- The link retrains: channels and what they carried start anew (the numbering is log 113). -/
def Chip.retrain (c : Chip) : Chip :=
  (c.modPeer fun p => { p with
    lanes := 0, trainAt := c.now, ctl := {}, mir := {}, helloIn := false, helloOut := false, pickOut := [], fwdHeld := [], join := 0
    ownIn := []
    refused := none }).put .peer Reg.PEER.PAIR_STAT_LANES 0

/-- The link is lost now, at t_L. -/
def Chip.linkLoss (c : Chip) : Chip :=
  let st := c.pairState
  let c := (c.put .peer Reg.PEER.TL_TB_LO_TB c.now).put .peer Reg.PEER.TL_TB_HI_TB (c.now / 2 ^ 32)
  let c := ((c.put .peer Reg.PEER.PAIR_STAT_LINK_UP 0).event .peer 1).fault0 .peer 0 1 1
  let c := [104, 105, 106, 107].foldl (fun (c : Chip) n => c.hallIdle (Fin.ofNat 113 n) true) c
  let c := c.retrain.modPeer fun p => { p with tL := some c.now, pFreed := false, advanced := false, handback := none, takeover := 0 }
  let c := (c.modLib fun l => { l with reqs := l.reqs.filter fun r => r.peer.isNone }).updInv
  let c := if c.flag .peer Reg.PEER.PAIR_STAT_PICKER_OWN && !c.isHolder then c.stopPicker else c
  let c := [3, 4].foldl (fun (c : Chip) g => if c.ana g = 1 then c.setAna g 4 else c) c
  let c := if st = 5 ∨ st = 0 then c
    else if c.isHolder then c.setState 3
    else if st = 1 then c.splitNonholder
    else c
  c.lossBatches.lossForwards

/-- R817: the link is lost. A loss of lanes is reported here 1 ms after it, when the link has not retrained. -/
def execDaxLinkLoss (cause : LossCause) (s : State) : Out :=
  s.to fun c =>
    if !c.pairing ∨ c.peer.lanes = 0 then c
    else if !c.linkUp then (if cause = .lane then c.retrain else c)
    else
      match cause with
      | .heartbeat => (c.until' (c.peer.hbAt + ms 1)).linkLoss
      | .echo => (c.until' (c.peer.echoAt + ms 1)).linkLoss
      | .lane => c.linkLoss
      | .mirror =>
        match (c.peer.mir.unacked.head?.map (·.at')).or c.peer.refused with
        | some t => ((c.until' (t + ms 10)).fault0 .peer 5 1 1).linkLoss
        | none => c

/-! ## Mirroring (R819 to R823) -/

/-- The group being handed back passes to the partner when every charged batch of it is mirrored (R839): its batches, which the
partner now admits, leave, and commands that waited are forwarded (log 110). -/
def Chip.handbackCheck (c : Chip) : Chip :=
  match c.peer.handback with
  | none => c
  | some g =>
    let bs := c.sluice.batches.filter fun b => c.group b.nsid == g && b.kind != 0
    if bs.any fun b => (b.seq.isSome || b.wt) && (!b.mirrored || b.slot.isSome) then c
    else
      let c := (c.setOwn g false).modPeer fun p => { p with handback := none }
      let c := bs.foldl (fun (c : Chip) b =>
        let c := (c.modBatch b.id fun b => { b with slot := none }).dropBatch b.id
        match b.slot with
        | some s => (match c.cmdAt s with
          | some k => (c.modCmd s fun k => { k with batch := none }).forward s k
          | none => c)
        | none => c) c
      c.setAna g 1

/-- A batch of this controller has come back whole from the partner (R105, R121, R738, R823): it replaces the data of one still held,
and joins staging where it was asked for. -/
def Chip.recovered' (c : Chip) (b : BatchCopy) : Chip :=
  match c.sluice.batches.find? fun x => x.seq == some b.seq with
  | some x => c.modBatch x.id fun x => { x with data := if b.data.length = x.nlb then b.data else x.data }
  | none =>
    match c.rs.recover.find? fun w => decide (w.lo ≤ b.seq ∧ b.seq ≤ w.hi) with
    | none => c
    | some w =>
      let rest := c.rs.recover.filterMap fun v => if v = w then (if v.left ≤ 1 then none else some { v with left := v.left - 1 }) else some v
      { c with rs := { c.rs with recover := rest } }.reinstate b b.seq w.flush

/-- R819, R820, R823: one MIRROR_DATA frame, with whole blocks. `own` says that the partner answers a RECOVER_REQ with a batch of
this controller. -/
def execMirrorData (h : DaxHead) (own : Bool) (b : BatchCopy) (s : State) : Out :=
  s.to fun c => c.daxUp true h fun c =>
    let old := match assocGet b.seq c.peer.mirror with
      | some x => if x.data.length < x.nlb ∧ !c.peer.stale.contains b.seq then x.data else []
      | none => []
    let y := { b with data := old ++ b.data }
    if own then
      let z := { b with data := ((assocGet b.seq c.peer.ownIn).map (·.data)).getD [] ++ b.data }
      if z.data.length < z.nlb then c.modPeer fun p => { p with ownIn := assocSet b.seq z p.ownIn }
      else (c.modPeer fun p => { p with ownIn := assocDel b.seq p.ownIn }).recovered' z
    else
      let c := c.modPeer fun p => { p with mirror := assocSet b.seq y p.mirror, stale := p.stale.filter (· != b.seq) }
      if y.data.length = y.nlb then c.daxSend false 0x11 [b.seq, 0] else c

/-- R819, R820: a batch that is stored is acknowledged to the host, but a shared one not by a fenced controller (R836). -/
def execMirrorAck (h : DaxHead) (seq : Nat) (stored : Bool) (s : State) : Out :=
  s.to fun c => c.daxUp false h fun c =>
    match c.sluice.batches.find? fun b => b.seq == some seq with
    | none => c
    | some b =>
      if !stored then
        let t := ((c.peer.mir.unacked.find? fun f => f.typ == 0x10 && f.arg.head? == some seq).map (·.at')).getD c.now
        c.modPeer fun p => { p with refused := some (p.refused.getD t) }
      else
        let c := c.modBatch b.id fun b => { b with mirrored := true }
        let c := if c.pairState = 5 ∧ c.shared b.nsid then c else c.ackBatch b.id
        let c := if b.staged && b.rows.isEmpty && !b.sent then c.dropBatch b.id else c
        c.updSluice.handbackCheck

/-- R822: the mirror copies of the named batches are freed. -/
def execDaxRelease (h : DaxHead) (seqs : List Nat) (s : State) : Out :=
  s.to fun c => c.daxUp false h fun c =>
    (c.modPeer fun p => { p with mirror := p.mirror.filter fun e => !seqs.contains e.1 }).daxSend false 0x13 seqs

/-- R822: the charges of the named batches are released; one not acknowledged yet waits for its MIRROR_ACK. -/
def execReleaseAck (h : DaxHead) (seqs : List Nat) (s : State) : Out :=
  s.to fun c => c.daxUp false h fun c =>
    ((c.sluice.batches.filter fun b => b.releasing && (b.seq.map seqs.contains).getD false).foldl (fun (c : Chip) b =>
      if b.slot.isNone then c.dropBatch b.id else c.modBatch b.id fun b => { b with sent := false, releasing := false }) c).admission.handbackCheck

/-- R823: the mirror copies of the partner's batches `lo` to `hi` go back to it. -/
def execRecoverReq (h : DaxHead) (lo hi : Nat) (s : State) : Out :=
  s.to fun c => c.daxUp false h fun c =>
    (c.peer.mirror.filter fun e => decide (lo ≤ e.1 ∧ e.1 ≤ hi) && e.2.data.length == e.2.nlb).foldl (fun (c : Chip) e =>
      (List.range (divUp e.2.nlb 3)).foldl (fun (c : Chip) i =>
        c.daxSend true 0x10 [e.1, e.2.kind, e.2.nsid, e.2.zone, e.2.ofs, e.2.nlb, 1, min 3 (e.2.nlb - 3 * i)]) c) c

/-! ## Tables, picker requests and forwarded commands (R815, R829, R830) -/

/-- R815, R829, R831, R833: the partner's change to the inventory, a shared namespace or a shared polder. -/
def execTableUpdate (h : DaxHead) (t : Machine.TableChange) (s : State) : Out :=
  s.to fun c => c.daxUp true h fun c =>
    match t with
    | .inv slot r => c.modInv slot fun _ => r
    | .ns n =>
      if n.ana ≠ 3 ∧ n.ana ≠ 4 then c
      else (c.modHost fun x => { x with nss := x.nss.filter (fun y => y.nsid != n.nsid) ++ [n] }).updKeys
    | .nsGone nsid => if c.shared nsid then (c.modHost fun x => { x with nss := x.nss.filter fun y => y.nsid != nsid }).updKeys else c
    | .polder p =>
      c.modAct fun l => { l with polders := l.polders.filter (fun y => y.id != p.id) ++ [{ p with shared := true }] }
    | .zone nsid z x => if c.shared nsid then c.setZone nsid z x else c

/-- R829: the partner asks for a move of a disc to (kind 0) or from (kind 1) its station. -/
def execPickReq (h : DaxHead) (num : Nat) (cls : Fin 5) (unmount : Bool) (disc : Nat) (station : Spin) (s : State) : Out :=
  s.to fun c => c.daxUp false h fun c =>
    (c.modLib fun l => { l with reqs := l.reqs ++ [SpinReq.mk cls.val (b2n unmount) station.val disc c.now (some num)] }).updInv

/-- The partner's picker has moved a disc of this controller (R829): 1 done, 2 no disc found. -/
def Chip.pickServed (c : Chip) (n : Spin) (r : SpinReq) (result : Nat) : Chip :=
  let c := c.modPeer fun p => { p with pickOut := p.pickOut.filter (· != r.disc) }
  if result = 1 ∧ r.kind = 0 then
    let c := c.modInv r.disc fun e => { e with
      state := 3, spindle := n.val, mounts := min (2 ^ 32 - 1) (e.mounts + 1), tMounted := c.wall }
    let c := c.modAct fun l => { l with mounted := l.mounted.set n.val (some r.disc) n.isLt, ready := setBit l.ready n.val false }
    let c := c.dropReq r
    match (c.inv r.disc).polder with
    | 0 => c
    | id => c.activate id
  else if result = 1 ∨ result = 2 then
    let c := if r.kind = 1 then c.modAct fun l => { l with mounted := l.mounted.set n.val none n.isLt } else c
    let c := c.modInv r.disc fun e => { e with
      state := if result = 2 then 0 else if e.media = 3 ∨ e.media = 4 then 4 else 1, spindle := 0xFF }
    ((if result = 2 then c.lagDisc r.disc else c).dropReq r).wakeReads
  else c

/-- R829. -/
def execPickDone (h : DaxHead) (unmount : Bool) (disc : Nat) (station : Spin) (result : Fin 4) (s : State) : Out :=
  s.to fun c => c.daxUp false h fun c =>
    match c.ownReq station (b2n unmount) with
    | some r => if r.disc = disc ∧ c.peer.pickOut.contains disc then c.pickServed station r result.val else c
    | none => c

/-- R830, R718: a command to a group of this controller takes a slot here; its number at the partner is its identifier. Without a
free slot the frame is not accepted, and the partner sends it again. -/
def execFwdCmd (h : DaxHead) (slot : Fin 3072) (e : Sqe) (s : State) : Out :=
  s.to fun c =>
    match c.freeSlot with
    | none => c
    | some k => c.daxUp true h fun c =>
      let cmd : Cmd := { ctrl := 0, sq := 1, sqe := { e with cid := BitVec.ofNat 16 slot.val }, seq := c.host.fetchSeq, since := c.now, origin := 1 }
      let c := c.modPeer fun p => { p with fwdHeld := assocDel slot.val p.fwdHeld }
      let c := (c.modHost fun x => { x with slots := assocSet k cmd x.slots, fetchSeq := x.fetchSeq + 1 }).updInflight
      match (c.ns? e.nsid.toNat).bind fun n => anaStatus (c.ana n.ana) with
      | some sc => c.fail k 3 sc false
      | none => c

/-- R830: blocks of a forwarded write; once all are here and the batch has its turn, it is staged. -/
def execFwdData (h : DaxHead) (slot : Fin 3072) (bs : List Block) (s : State) : Out :=
  s.to fun c => c.daxUp true h fun c =>
    let c := c.modPeer fun p => { p with fwdHeld := assocSet slot.val ((assocGet slot.val p.fwdHeld).getD [] ++ bs) p.fwdHeld }
    match c.host.slots.find? fun x => x.2.origin == 1 && x.2.sqe.cid.toNat == slot.val && !x.2.silent && Sqe.isWrite x.2.sqe with
    | some x => c.dmaDone x.1 {}
    | none => c

/-- R830: the completion of a forwarded command, with the data of a read, is posted. -/
def execFwdCpl (h : DaxHead) (slot : Fin 3072) (r : FwdCpl) (s : State) : Out :=
  s.to fun c => c.daxUp true h fun c =>
    match c.cmdAt slot.val with
    | some k =>
      if k.phase = .forwarded then
        c.complete slot.val fun y => { y with sct := r.sct, sc := r.sc, crd := r.crd, dnr := r.dnr, dw0 := r.dw0, dw1 := r.dw1, data := r.data }
      else c
    | none => c

/-! ## The witness and the lease engine (R824 to R828) -/

/-- A witness transfer is asked for. -/
def Chip.witAsk (c : Chip) (w : WitOp) : Chip := c.modPeer fun p => { p with ops := p.ops ++ [(w, c.now)] }

/-- R827: every POLL_MS. -/
def execLeasePoll (s : State) : Out :=
  s.to fun c =>
    if !c.pairing then c
    else
      let c := c.until' (c.peer.polledAt + ms (clampN 10 50 (c.rd .peer Reg.PEER.WIT_CFG_POLL_MS)))
      (c.modPeer fun p => { p with polledAt := c.now }).witAsk .readLease

/-- The lease may be acquired now, after a read (R827); a fenced controller acquires none (DEDUCED, log 114). -/
def Chip.mayAcquire (c : Chip) : Bool :=
  let h := leaseHolder c.lease
  !c.isHolder && c.pairState != 0 && c.pairState != 5 && !c.peer.ops.any (fun o => match o.1 with | .cas _ _ _ => true | _ => false) &&
    (if c.linkUp then c.role == 0 && h == 0
     else h == 0 || (h != c.selfHolder && decide (c.peer.changeAt + ms 500 ≤ c.now)))

/-- LEASE has been read (R827): an acquisition where the rules allow one, and the partner's status. -/
def Chip.leaseAnswer (c : Chip) (v : Nat) : Chip :=
  let c := c.leaseSeen v
  let c := if c.mayAcquire then c.witAsk (.cas v (leaseWord c.selfHolder 0 (leaseGen v + 1)) false) else c
  c.witAsk .readStatus

/-- A renewal failed (R827). -/
def Chip.renewFail (c : Chip) : Chip := (c.inc .peer Reg.PEER.LEASE_STAT_RENEW_FAILS).fault0 .peer 2 1 1

/-- The result of a CAS (R825, R827); at the give-up time of R827 it is ignored (R840). -/
def Chip.casAnswer (c : Chip) (renew : Bool) (res v : Nat) : Chip :=
  let gen := leaseGen c.lease
  let c := c.leaseSeen v
  if renew then
    if !c.isHolder ∨ c.peer.s + ms 400 ≤ c.now then c
    else if res = 0 then (c.modPeer fun p => { p with s := c.now, renewAt := c.now + ms 100, stopped := false })
    else
      let c := c.renewFail
      if leaseGen v = gen then c else (c.fault0 .peer 2 3 2).fenced
  else if res = 0 ∧ c.pairState ≠ 0 ∧ c.pairState ≠ 5 then c.gainLease
  else c

/-- The partner's status word (R826, R833, R835, R837). -/
def Chip.statusAnswer (c : Chip) (v : Nat) : Chip :=
  let seq := v % 2 ^ 32
  let flags := v / 2 ^ 32 % 2 ^ 16
  let free := flags % 4 != 0
  let c := c.modPeer fun p => { p with
    pStatusAt := if p.pStatusSeq = seq then p.pStatusAt else c.now, pStatusSeq := seq, pFlags := flags, pStations := v / 2 ^ 48 % 256
    pFreed := if c.linkUp then p.pFreed else p.pFreed || free }
  if free && c.pairState != 5 then { c with pins := { c.pins with fenceDrive := false } } else c

/-- A malformed answer (R826). -/
def Chip.witBad (c : Chip) (renew : Bool) : Chip :=
  let c := c.fault0 .peer 4 2 1
  if renew then c.renewFail else c

/-- R824 to R827: the answer to the oldest transfer asked for. -/
def execWitnessResponse (a : WitAnswer) (s : State) : Out :=
  s.to fun c =>
    match c.peer.ops with
    | [] => c
    | (w, _) :: r =>
      let c := c.modPeer fun p => { p with ops := r }
      match w, a with
      | .readLease, .lease v => c.leaseAnswer v.toNat
      | .cas _ _ renew, .cas res v => c.casAnswer renew res.toNat v.toNat
      | .readStatus, .status v => c.statusAnswer v.toNat
      | .cas _ _ renew, _ => c.witBad renew
      | _, _ => c.witBad false

/-- R826: 2 ms without an answer. -/
def execWitnessTimeout (s : State) : Out :=
  s.to fun c =>
    match c.peer.ops with
    | [] => c
    | (w, t) :: r =>
      let c := ((c.until' (t + ms 2)).modPeer fun p => { p with ops := r }).fault0 .peer 4 1 1
      match w with
      | .cas _ _ true => c.renewFail
      | _ => c

/-- R827: every 100 ms from s. -/
def execLeaseRenew (s : State) : Out :=
  s.to fun c =>
    if !c.pairing ∨ !c.isHolder then c
    else
      let c := c.until' c.peer.renewAt
      let v := c.lease
      (c.modPeer fun p => { p with renewAt := c.now + ms 100 }).witAsk (.cas v (leaseWord c.selfHolder (leaseRenew v + 1) (leaseGen v)) true)

/-- R827: s + 300 ms with the link not up. -/
def execLeasePickerStop (s : State) : Out :=
  s.to fun c =>
    if !c.pairing ∨ !c.isHolder ∨ c.linkUp ∨ c.peer.stopped then c
    else ((c.until' (c.peer.s + ms 300)).modPeer fun p => { p with stopped := true }).stopPicker

/-- R827, R837, R840: s + 400 ms. -/
def execLeaseLost (s : State) : Out :=
  s.to fun c =>
    if !c.pairing ∨ !c.isHolder then c
    else
      let c := ((c.until' (c.peer.s + ms 400)).setHolder false).fault0 .peer 2 2 2
      let c := if c.pairState = 5 then c else { c with pins := { c.pins with fenceDrive := false } }
      if c.linkUp then c else c.splitNonholder

/-- The status word without SEQ (R826). -/
def Chip.statusWord (c : Chip) : Nat :=
  c.statusFlags + c.rd .peer Reg.PEER.PAIR_CTL_STATIONS * 2 ^ 16 + c.lease * 2 ^ 32

/-- R826: every 100 ms, and at once when it has changed. The firmware keeps STATIONS as R835 says, here at each write (DESIGN CHOICE, log
181). -/
def execWitnessStatusWrite (s : State) : Out :=
  s.to fun c =>
    if !c.pairing then c
    else
      let c := c.put .peer Reg.PEER.PAIR_CTL_STATIONS c.freeStations
      let w := c.statusWord
      let c := if w = c.peer.statusWord then c.until' (c.peer.statusAt + ms 100) else c
      c.modPeer fun p => { p with statusAt := c.now, statusSeq := (p.statusSeq + 1) % 2 ^ 32, statusWord := w }

/-- R828, R812: the holder opens its gate 200 ms after its acquisition, with the picker homed and held discs recovered. -/
def execPickerGateOpen (s : State) : Out :=
  s.to fun c =>
    match c.peer.acquiredAt with
    | some t =>
      if !c.pairing ∨ !c.isHolder ∨ (c.pairState ≠ 2 ∧ c.pairState ≠ 3)
          ∨ !(pickerAxes.all fun a => c.flag (.axis a) Reg.AXIS.AX_STAT_HOMED) ∨ c.lib.inv.any (fun e => e.2.state == 2) then c
      else (c.until' (t + ms 200)).put .peer Reg.PEER.PAIR_STAT_PICKER_OWN 1
    | none => c

/-- R828: t_L + 100 ms without the lease. -/
def execPickerGateClose (s : State) : Out :=
  s.to fun c =>
    match c.peer.tL with
    | some t => if !c.pairing ∨ c.isHolder ∨ c.linkUp then c else (c.until' (t + ms 100)).put .peer Reg.PEER.PAIR_STAT_PICKER_OWN 0
    | none => c

/-! ## Split, takeover, fencing (R832 to R838) -/

/-- R832: at the first read that shows another holder's renewal, else at t_L + 600 ms. Given again, it parks and brakes what has
stopped recording in the meantime. -/
def execSplitNonholder (s : State) : Out :=
  s.to fun c =>
    if !c.pairing ∨ c.isHolder ∨ c.linkUp then c
    else if c.pairState = 4 ∨ c.pairState = 5 then c.parkShared
    else
      match c.peer.tL with
      | some t => (if c.peer.advanced then c else c.until' (t + ms 600)).splitNonholder
      | none => c

/-- R833, R840: the partner's groups go to Change and its mirrored batches are admitted; given again, the groups are Optimized. The
link may have come up meanwhile: the join runs after it. -/
def execTakeover (s : State) : Out :=
  s.to fun c =>
    if !c.pairing ∨ !c.isHolder then c
    else if c.peer.takeover = 1 then
      if !c.mgmt.resumed then c
      else
        let c := [3, 4].foldl (fun (c : Chip) g => if c.owns g then c else (c.setOwn g true).setAna g 0) c
        let c := c.modPeer fun p => { p with takeover := 2 }
        if c.linkUp then c.setState 1 else c
    else
      match c.peer.tL with
      | some t =>
        if c.linkUp ∨ c.pairState ≠ 3 ∨ c.peer.takeover = 2 then c
        else
          let c := if c.peer.pFreed then c else c.until' (t + ms 700)
          let c := c.modPeer fun p => { p with takeover := 1 }
          [3, 4].foldl (fun (c : Chip) g => if c.owns g then c else (c.setAna g 4).admitMirror g) c
      | none => c

/-- R836: PEER_FENCE_N seen low, or, with `high`, seen high again. -/
def execPeerFenceLow (high : Bool) (s : State) : Out :=
  s.to fun c =>
    let c := { c with pins := { c.pins with fenceNetLow := !high } }
    if high ∨ !c.pairing ∨ c.pins.fenceDrive ∨ c.isHolder ∨ c.pairState = 0 then c else c.fenced

/-- R837. -/
def execFenceAssert (s : State) : Out :=
  s.to fun c =>
    match c.peer.tL with
    | some t =>
      if !c.pairing ∨ !c.isHolder ∨ c.linkUp ∨ c.peer.pFreed ∨ !c.flag .peer Reg.PEER.PAIR_CTL_ASSERT_EN then c
      else
        let c := c.until' (t + ms 700)
        { c with pins := { c.pins with fenceDrive := true } }
    | none => c

/-- R838: `high` is the net as sampled. -/
def Chip.unfence (c : Chip) (high : Bool) : Chip :=
  if c.pairState ≠ 5 then c
  else
    let c := c.until' (c.now + us 10)
    let c := { c with pins := { c.pins with fenceNetLow := !high } }
    if high then
      let c := { c with pins := { c.pins with fenceDrive := false } }
      let c := [3, 4].foldl (fun (c : Chip) g => c.setAna g 2) c
      if c.linkUp then (c.modPeer fun p => { p with join := 1 }).setState 1 else c.setState 4
    else c

/-- R838. -/
def execUnfence (r : Requester) (high : Bool) (s : State) : Out := s.to fun c => c.write r .peer fun c => c.unfence high

/-! ## Joining and handing back (R839) -/

/-- Step 2: every charged batch is mirrored again. -/
def Chip.joinMirror (c : Chip) : Chip :=
  (c.sluice.batches.filter fun b => b.staged && b.seq.isSome && b.kind != 0 && !b.wt).foldl (fun (c : Chip) b => c.mirrorSend b) c

/-- Step 3: the holder sends the inventory and the shared tables. -/
def Chip.joinTables (c : Chip) : Chip :=
  if !c.isHolder then c
  else
    let c := c.lib.inv.foldl (fun (c : Chip) e => c.tableUpdate [1, e.1]) c
    let c := (c.host.nss.filter fun n => 3 ≤ n.ana).foldl (fun (c : Chip) n => c.tableUpdate [4, n.nsid]) c
    (c.lib.polders.filter (·.shared)).foldl (fun (c : Chip) p => c.tableUpdate [3, p.id]) c

/-- Step 4: PAIRED, with ownership as the holder left it (R828, R831). The partner has freed the copies that were not mirrored again
(R822), so batches of retained staging that it has not sent are gone (DEDUCED, log 193). -/
def Chip.joinEnd (c : Chip) : Chip :=
  let c := c.modPeer fun p => { p with join := 0, takeover := 0, mirror := p.mirror.filter (fun e => !p.stale.contains e.1), stale := [] }
  let c := { c with rs := { c.rs with recover := c.rs.recover.filter fun w => w.flush.isSome } }
  let c := c.setState 2
  [3, 4].foldl (fun (c : Chip) g =>
    if c.owns g then c.setAna g 0
    else if bit c.peer.pOwn (g - 3) ∨ g ≠ c.homeGroup then c.setAna g 1
    else c.gainGroup g) c

/-- R839: the next step of the join, once the one before is complete. -/
def execPairJoin (s : State) : Out :=
  s.to fun c =>
    if !c.pairing ∨ !c.linkUp ∨ c.pairState ≠ 1 then c
    else
      let sent := c.peer.mir.unacked.isEmpty && c.peer.mir.waiting.isEmpty
      let acked := c.sluice.batches.all fun b => !b.sent || b.mirrored
      match c.peer.join with
      | 1 => c.joinMirror.modPeer fun p => { p with join := 2 }
      | 2 => if sent ∧ acked then c.joinTables.modPeer fun p => { p with join := 3 } else c
      | 3 => if sent ∧ (c.peer.pState = 1 ∨ c.peer.pState = 2) then c.joinEnd else c
      | _ => c

/-- PAIR_CTL.HANDBACK (R839, R842): ignored unless PAIRED and owning a group away from its home. -/
def Chip.handBack (c : Chip) : Chip :=
  let g := c.awayGroup
  if c.pairState ≠ 2 ∨ !c.owns g ∨ c.peer.handback.isSome then c
  else ((c.modPeer fun p => { p with handback := some g }).setAna g 4).handbackCheck

/-- R839. -/
def execHandback (r : Requester) (s : State) : Out := s.to fun c => c.write r .peer Chip.handBack

/-! ## Enabling and gating (R812, R831, R841) -/

/-- Pairing begins (R831): with the link down, without the lease. The moment stands for t_L until there is one (log 111). -/
def Chip.peerOn (c : Chip) : Chip :=
  let c := (c.putB .peer Reg.PEER.PAIR_STAT_ROLE Config.role1).modPeer fun _ =>
    { trainAt := c.now, statusAt := c.now, statusSeq := c.peer.statusSeq, tL := some c.now, mirror := c.peer.mirror }
  c.setState 4

/-- Pairing ends (R831): UNPAIRED. What the link carried ends as at its loss. -/
def Chip.peerOff (c : Chip) : Chip :=
  let c := if c.linkUp then c.linkLoss else c
  let c := ((c.setHolder false).setState 0).giveUp 2
  let c := c.retrain.modPeer fun p => { p with tL := none, acquiredAt := none, ops := [], leaseRead := false }
  { c with pins := { c.pins with fenceDrive := false } }

/-- PEER.PAGE_CTL.EN changes (R812). -/
def Chip.peerEnable (c : Chip) (en : Bool) : Chip := if en then c.peerOn else c.peerOff

/-- The pages of the peer island and of its check-value units (R138). -/
def peerPage (p : Page) : Bool := decide (p.island = .peer)

/-- A write of CLK.PEER_GATE (R18, R40, R108, R175, R841): GATE can be set only in UNPAIRED. An ungated island's memories are scrubbed
(R108); the mirror lies in buffer memory, and the status word at the witness. -/
def Chip.peerGateWrite (c : Chip) (gate solo : Bool) : Chip :=
  let c := c.putB .clk Reg.CLK.PEER_GATE_SOLO_PICKER solo
  let was := c.flag .clk Reg.CLK.PEER_GATE_GATE
  if gate = was then c
  else if gate then
    if c.pairState ≠ 0 then c
    else ((c.gateCommits peerPage).put .clk Reg.CLK.PEER_GATE_GATE 1)
  else
    let c := { c with isl := { c.isl with scrubPeer := true } }.modPeer fun p => {
      mirror := p.mirror, stale := p.stale, statusSeq := p.statusSeq, statusWord := p.statusWord }
    c.put .clk Reg.CLK.PEER_GATE_GATE 0

/-- R841. -/
def execPeerGateWrite (r : Requester) (gate solo : Bool) (s : State) : Out := s.to fun c => c.write r .clk fun c => c.peerGateWrite gate solo

end Sys2Proof.Machine
end

