-- ==== Sys2Proof/Machine/Background.lean ====
section
/-!
DEFINITION. Background work: record-store packages and wear levelling, laser wear, life, temperature (chapter 20, R600).
-/
namespace Sys2Proof.Machine

/-! ## Packages of the record store (R115, R133, R849 to R852) -/

/-- A package of the record store. -/
def Chip.pkg (c : Chip) (k : Fin 2) : PkgSt := if k = 0 then c.rs.pkg0 else c.rs.pkg1
/-- Changes a package without showing it. -/
def Chip.setPkg (c : Chip) (k : Fin 2) (f : PkgSt → PkgSt) : Chip :=
  { c with rs := if k = 0 then { c.rs with pkg0 := f c.rs.pkg0 } else { c.rs with pkg1 := f c.rs.pkg1 } }

/-- Package `k` takes no more writes: what the record store holds now is what it keeps (R115). -/
def Chip.freezePkg (c : Chip) (k : Nat) : Chip :=
  if (assocGet k c.images).isSome then c
  else { c with images := assocSet k { rs := c.rs, lib := c.lib, nss := c.host.nss, log := c.log } c.images }

/-- Package `k` holds nothing yet: it is formatted as blank (R115). -/
def Chip.blankPkg (c : Chip) (k : Nat) : Chip := { c with images := assocSet k {} c.images }

/-- Every region of package `k` matches the record store (R115). -/
def Chip.syncPkg (c : Chip) (k : Nat) : Chip := { c with images := assocDel k c.images }

/-- PKG_STAT.STATE (R867). -/
def PkgSt.code (p : PkgSt) : Nat :=
  if p.held then 3 else if !p.present then 1 else if p.retired then 2 else if p.mounted && !p.current then 4 else 0

/-- A package serves reads. -/
def PkgSt.serves (p : PkgSt) : Bool := p.mounted && p.current

/-- MOUNT_STAT.STATE once mounted (R133). -/
def RStore.mountState (r : RStore) : Nat :=
  match r.pkg0.serves, r.pkg1.serves with
  | true, true => 2
  | true, false => 3
  | false, true => 4
  | false, false => 0

/-- PKG_STAT and MOUNT_STAT follow the packages; so do the always-on island's items (R759) and the warnings (R854). -/
def Chip.updPkgs (c : Chip) : Chip :=
  let p : Page := .rstore
  let c := [(0, c.rs.pkg0), (1, c.rs.pkg1)].foldl (fun (c : Chip) (k : Nat × PkgSt) =>
    let c := (c.putI p Reg.RSTORE.PKG_STAT_SPARE k.1 (min 65535 k.2.spare)).putI p Reg.RSTORE.PKG_STAT_WEAR_PCT k.1 (min 255 k.2.used)
    c.putI p Reg.RSTORE.PKG_STAT_STATE k.1 k.2.code) c
  let c := if c.rs.mounted then c.put p Reg.RSTORE.MOUNT_STAT_STATE c.rs.mountState else c
  let c := (c.putB p Reg.RSTORE.MOUNT_STAT_PKG0_OK c.rs.pkg0.serves).putB p Reg.RSTORE.MOUNT_STAT_PKG1_OK c.rs.pkg1.serves
  let re := (c.rs.pkg0.mounted && !c.rs.pkg0.current) || (c.rs.pkg1.mounted && !c.rs.pkg1.current)
  ((c.putB p Reg.RSTORE.MOUNT_STAT_RESYNC re).setAonHalf).updWarning

/-- Changes a package. -/
def Chip.modPkg (c : Chip) (k : Fin 2) (f : PkgSt → PkgSt) : Chip := (c.setPkg k f).updPkgs

/-- Spare blocks of a package are few (R852): sent once. -/
def Chip.spareLow (c : Chip) (k : Fin 2) : Chip :=
  let p := c.pkg k
  if p.spareSent ∨ min 100 (c.rd .rstore Reg.RSTORE.WEAR_CFG_SPARE_WARN) * p.spareInit ≤ 100 * p.spare then c
  else ((c.setPkg k fun p => { p with spareSent := true }).fault0 .rstore 2 2 1).logEv 0x0006 k.val

/-- R849, R852: a program or an erase fails, and the data goes to a spare block; with none left the package is retired. -/
def execNandProgramFail (pkg : Fin 2) (erase : Bool) (s : State) : Out :=
  s.to fun c =>
    if !c.islandUp .rstore ∨ !(c.pkg pkg).mounted then c
    else
      let c := c.setPkg pkg fun p => { p with spare := p.spare - 1, programFails := if erase then p.programFails else p.programFails + 1 }
      let c := (c.fault0 .rstore 0 (if erase then 2 else 1) 0).spareLow pkg
      let c := if (c.pkg pkg).spare = 0 then
          (((c.freezePkg pkg.val).setPkg pkg fun p => { p with retired := true, mounted := false }).fault0 .rstore 2 3 2).logEv 0x0007 pkg.val
        else c
      c.updPkgs

/-- PKG_CTL.HOLD_c (R852): refused unless the other package is mounted and current. -/
def Chip.pkgHold (c : Chip) (k : Fin 2) : Chip :=
  if (c.pkg (1 - k)).serves then (c.freezePkg k.val).modPkg k fun p => { p with held := true, mounted := false } else c

/-- R852. -/
def execPackageHold (r : Requester) (pkg : Fin 2) (s : State) : Out := s.to fun c => c.write r .rstore fun c => c.pkgHold pkg

/-- PKG_CTL.REPLACE_c (R852): the held package, new, is formatted as blank and brought up to date; or it does not answer. -/
def Chip.pkgReplace (c : Chip) (k : Fin 2) (i : Option PkgInfo) : Chip :=
  if !(c.pkg k).held then c
  else
    match i with
    | some i => (c.blankPkg k.val).modPkg k fun _ => { superblock := true, current := false, mounted := true, spareInit := i.spare, spare := i.spare, rated := i.rated }
    | none => (c.modPkg k fun _ => { present := false }).fault0 .rstore 2 1 2

/-- R852: `found` is what the package answers to its ONFI reset. -/
def execPackageReplace (r : Requester) (pkg : Fin 2) (found : Option PkgInfo) (s : State) : Out :=
  s.to fun c => c.write r .rstore fun c => c.pkgReplace pkg found

/-- Requests of priority `k` that take time wait at the channel of package `pkg`: a flush, the resynchronisation of the package, fault
history. Those of the other priorities take effect at once, so nothing of lower priority delays them (DESIGN CHOICE: the
length of a page operation is timing, log 182). -/
def Chip.nandWork (c : Chip) (pkg : Fin 2) : Nat → Bool
  | 1 => c.flag .sluice Reg.SLUICE.SLUICE_STAT_FLUSHING
  | 5 => (c.pkg pkg).mounted && !(c.pkg pkg).current
  | 6 => c.mgmt.resumed && (c.pkg pkg).mounted && c.col.recs.any fun r => !r.2.copied
  | _ => false

/-- The channel of package `pkg` serves a request of priority `k` now (R850). -/
def Chip.nandTurn (c : Chip) (pkg : Fin 2) (k : Nat) : Bool := (List.range k).all fun j => !c.nandWork pkg j

/-- R117, R850, R851: a wear-levelling move begins with its intent; `after` says that it has ended, with the counts then. -/
def execWearLevelMove (pkg : Fin 2) (after : Option EraseCounts) (s : State) : Out :=
  s.to fun c =>
    let p := c.pkg pkg
    match after with
    | none =>
      if !c.mgmt.resumed ∨ c.bgSuspended ∨ !p.mounted ∨ !c.nandTurn pkg 7 ∨ (c.rs.intents.any fun i => i.pkg == pkg.val && i.what == 0)
          ∨ p.eraseMax ≤ p.eraseMin + max 1 (c.rd .rstore Reg.RSTORE.WEAR_CFG_WL_SPREAD) then c
      else { c with rs := { c.rs with intents := c.rs.intents ++ [⟨pkg.val, 0⟩] } }
    | some e =>
      if c.rs.intents.any fun i => i.pkg == pkg.val && i.what == 0 then
        let c := { c with rs := { c.rs with intents := c.rs.intents.filter fun i => !(i.pkg == pkg.val && i.what == 0) } }
        c.modPkg pkg fun p => { p with eraseMin := e.least, eraseMax := e.most, eraseMean := e.mean }
      else c

/-! ## Laser wear and life (R853, R855) -/

/-- Hours until a line through `ys` (newest first, one an hour) reaches `lim`: least squares, rounded down (DESIGN CHOICE, log 115); none
where it does not rise. -/
def hoursTo (ys : List Nat) (lim : Nat) : Option Nat :=
  let n : Int := ys.length
  let sx : Int := (ys.zipIdx.map fun p => -(p.2 : Int)).sum
  let sy : Int := (ys.sum : Nat)
  let sxy : Int := (ys.zipIdx.map fun p => -(p.2 : Int) * p.1).sum
  let sxx : Int := (ys.zipIdx.map fun p => (p.2 : Int) * p.2).sum
  let num := n * sxy - sx * sy
  let den := n * sxx - sx * sx
  if num ≤ 0 ∨ den ≤ 0 then none
  else some (((lim : Int) * n * den - sy * den + num * sx) / (n * num)).toNat

/-- The hourly reading of a port's live beams. -/
def Chip.wearPort (c : Chip) (h : Port) : Chip :=
  let live := allBeams.filter fun b => !bit (c.rd (.head h) Reg.HEAD.BEAM_MAP_RETIRED) b.val
  let c := live.foldl (fun (c : Chip) b =>
    let k := 5 * h.val + b.val
    let y := c.rdI (.head h) Reg.HEAD.LWEAR_RATIO b.val
    c.modLog fun l => { l with wear := assocSet k ((y :: (assocGet k l.wear).getD []).take 720) l.wear }) c
  let lim := c.rd (.head h) Reg.HEAD.WEAR_CFG_LIMIT
  let hs := live.filterMap fun b => hoursTo ((assocGet (5 * h.val + b.val) c.log.wear).getD []) lim
  c.modLog fun l => { l with hoursLeft := assocSet h.val (hs.foldl min 0xFFFF) l.hoursLeft }

/-- R853: once an hour. -/
def execLaserWearRead (s : State) : Out :=
  s.to fun c =>
    if !c.mgmt.resumed then c
    else
      let c := c.until' (c.log.wearAt + hours 1)
      let c := (allPorts.filter fun h => c.islandUp (.head h)).foldl (fun (c : Chip) h => c.wearPort h) c
      c.modLog fun l => { l with wearAt := c.now, gen0 := l.gen0 + 1 }

/-- exp x of a fraction `x` in 2^-40, in 2^-40: a series for x / 256, squared eight times. -/
def expQ40 (x : Int) : Int :=
  let u : Int := 2 ^ 40
  let y := x.fdiv 256
  let e := [10, 9, 8, 7, 6, 5, 4, 3, 2, 1].foldl (fun (s : Int) (k : Int) => u + (s * y).fdiv (u * k)) u
  (List.range 8).foldl (fun (s : Int) _ => (s * s).fdiv u) e

/-- The life consumption rate a(T) of R94 in 1/1,000,000, T in 1/64 °C: exp of 8,123 K × (1 / 368.15 K − 1 / (T + 273.15 K)); the
rounding is not stated (DESIGN CHOICE, log 116). -/
def lifeRate (t : Int) : Nat :=
  let x := (8123 * (t - 6080) * 2000 * 2 ^ 40).fdiv ((20 * t + 349632) * 36815)
  ((expQ40 x * 1000000 + 2 ^ 39).fdiv (2 ^ 40)).toNat

/-- R855: once a minute. -/
def execLifeSumUpdate (s : State) : Out :=
  s.to fun c =>
    if !c.mgmt.resumed then c
    else
      let c := c.until' (c.log.lifeAt + secs 60)
      c.modLog fun l => { l with lifeAt := c.now, life := l.life + lifeRate (c.rdS .assay Reg.ASSAY.TJ_T), gen3 := l.gen3 + 1 }

/-! ## Temperatures (R600, R854, R861) -/

/-- The bin of a temperature in °C × 64 (R861). -/
def tempBin (t : Int) : Nat := min 19 ((t + 2560) / 640).toNat

/-- What the logs keep of the temperatures (R854, R861); a minute counts as it ends. -/
def Chip.tempLog (c : Chip) : Chip :=
  let t := c.rdS .assay Reg.ASSAY.TJ_T
  let m := c.now / secs 60 - c.log.minutes
  let hi := fun (a : Option Int) (x : Int) => some (max (a.getD x) x)
  let opu := ((allPorts.filter fun h => c.linkState h == 3).map fun h => divRound (c.portTemp h) 64).foldl hi c.log.maxOpu
  let l := { c.log with
    minutes := c.now / secs 60, bins := if m = 0 then c.log.bins else c.log.bins.modify (tempBin t) (· + m)
    warnMin := c.log.warnMin + (if 140 * 64 ≤ t then m else 0), critMin := c.log.critMin + (if 150 * 64 ≤ t then m else 0)
    maxTj := hi c.log.maxTj (divRound t 64), maxOpu := opu }
  if l = c.log then c else { c with log := { l with gen3 := l.gen3 + 1 } }

/-- R600, R861: the twelve sensors, at every fortieth frame boundary; `dv` are their voltage differences in nV. -/
def execTempConversion (dv : Vector (BitVec 32) 12) (s : State) : Out :=
  s.to fun c =>
    if c.islandUp .assay && c.frameNum.toNat % 40 == 0 then ((c.tempConv (dv.toList.zipIdx.map fun v => sensorTemp v.2 v.1.toNat)).tempLog).updWarning else c

end Sys2Proof.Machine
end

