-- ==== Sys2Proof/Machine/Boot.lean ====
section
/-!
DEFINITION. Resets, the power-loss flush, start-up, and gating of the head islands (chapters 02, 03 and 16; R281, R715, R720).
-/
namespace Sys2Proof.Machine

/-! ## What a reset leaves (R96, R118, R119, R870) -/

/-- A batch without what the controller knew of it. -/
def Batch.copy (b : Batch) : BatchCopy := ⟨b.seq.getD 0, b.kind, b.nsid, b.zone, b.ofs, b.nlb, b.keyTag, b.data⟩

/-- A polder as the record store holds it: rows that were not verified are not in its run tables. -/
def Polder.afterReset (p : Polder) : Polder :=
  { p with
    runs := p.rows.foldl (fun l x => if x.zone < 7450 then assocSet x.zone (dropRow x.r ((assocGet x.zone l).getD [])) l else l) p.runs
    rows := [], dirLoaded := p.recording, curZone := 0, curCount := 0 }

/-- A zone as the record store holds it (R870). -/
def ZoneSt.afterReset (x : ZoneSt) : ZoneSt :=
  let fin := x.st == .full && x.wp == zoneSize
  { x with
    wp := if fin then zoneSize else x.wpRec, dataEnd := min x.dataEnd x.wpRec, moving := none, padAt := 0
    st := match x.st with
      | .offline => .offline
      | .empty => .empty
      | .full => if fin || decide (zoneCap ≤ x.wpRec) then .full else .closed
      | _ => .closed }

/-- The namespaces as the record store holds them. -/
def NsSt.afterReset (n : NsSt) : NsSt :=
  { n with zones := n.zones.map fun z => (z.1, z.2.afterReset), fpi := none, notReady := false }

/-- The library after a reset: discs and tables stay, work in progress does not. A burn runs again from its intent (R118, R236). -/
def LibSt.afterReset (l : LibSt) : LibSt :=
  { polders := l.polders.map Polder.afterReset, inv := l.inv, surfaces := l.surfaces, mounted := l.mounted
    retiredPorts := l.retiredPorts, burns := l.burns.map fun b => if b.step = 0 then b else { b with step := 1 }
    intentNext := l.intentNext
    toRepair := l.toRepair, proposed := l.proposed }

/-- The record store after a reset, not mounted. -/
def RStore.afterReset (r : RStore) : RStore :=
  { r with mounted := false, recover := [], asked := false, replayed := false
           pkg0 := { r.pkg0 with mounted := false, held := false }, pkg1 := { r.pkg1 with mounted := false, held := false } }

/-- What the ports know of their surfaces, and the consumed slots, are on the discs (R219, R222). -/
def Chip.settleSurfaces (c : Chip) : Chip :=
  let c := allPorts.foldl (fun (c : Chip) h => c.syncSurf h) c
  c.consumed.foldl (fun (c : Chip) k =>
    match c.lib.mounted.toList.getD (k.port / 2) none with
    | some d => c.modSurf d (k.port % 2) fun s => { s with pending := s.pending ++ [⟨k.layer, k.spiral, k.slot, k.reason⟩] }
    | none => c) c

/-- The next row of every bound zone is the first that its run table lacks. -/
def Chip.nextRows (c : Chip) : Chip :=
  c.host.nss.foldl (fun (c : Chip) n => c.modNs n.nsid fun n => { n with
    zones := n.zones.map fun z =>
      match z.2.bind with
      | some (id, pz) => (z.1, { z.2 with rowNext := ((c.polder? id).map fun p => p.missingRow pz 2048 0).getD z.2.rowNext })
      | none => z }) c

/-- Everything at its reset value but what outlasts power: the record store, the discs and what stands on the board. -/
def Chip.fresh (c : Chip) : Chip :=
  let c := c.settleSurfaces
  let k : Chip := {
    freeCt := c.freeCt
    pins := { vddIo := c.pins.vddIo, resetNLow := c.pins.resetNLow, perstNLow := c.pins.perstNLow, pwrGood := c.pins.pwrGood, coreLow := c.pins.coreLow
              aonLow := c.pins.aonLow, presentLow := c.pins.presentLow, drvFaultLow := c.pins.drvFaultLow
              brgFaultLow := c.pins.brgFaultLow, fenceNetLow := c.pins.fenceNetLow }
    rs := c.rs.afterReset, images := c.images, lib := c.lib.afterReset, log := c.log
    sluice := { nextId := c.sluice.nextId, nextSeq := c.sluice.nextSeq }
    host := { nss := c.host.nss.map NsSt.afterReset, touchSeq := c.host.touchSeq, selfTests := c.host.selfTests } }
  k.nextRows

/-- Fields that a full reset keeps (R96, R129). -/
def keptFields : List (Page × Fld) :=
  [(.sys, Reg.SYS.RESET_CAUSE_POR), (.sys, Reg.SYS.RESET_CAUSE_RESET_PIN), (.sys, Reg.SYS.RESET_CAUSE_SOFT_CHIP),
    (.sys, Reg.SYS.RESET_CAUSE_PERST), (.sys, Reg.SYS.RESET_CAUSE_NSSR), (.sys, Reg.SYS.RESET_CAUSE_FLUSH_RESTART),
    (.sys, Reg.SYS.RESET_CAUSE_WDOG), (.sys, Reg.SYS.RESET_CAUSE_MGMT_REQ), (.sys, Reg.SYS.RESET_CAUSE_RETAIN_LOST),
    (.sys, Reg.SYS.RESET_CAUSE_FULL_COUNT), (.sluice, Reg.SLUICE.FLUSH_LAST_MS), (.sluice, Reg.SLUICE.FLUSH_LAST_MIB),
    (.sluice, Reg.SLUICE.CAP_MEAS_UF), (.sluice, Reg.SLUICE.ESR_MEAS_MOHM), (.sluice, Reg.SLUICE.ESR_MEAS_TESTS),
    (.sluice, Reg.SLUICE.SLUICE_STAT_CAP_VALID)]

/-- Staging that a full reset retains (R103): what is admitted. -/
def Chip.retainable (c : Chip) : List Batch := c.sluice.batches.filter fun b => b.seq.isSome && !b.wt

/-- Base and length of the admitted staging region (R733). -/
def stagingRegion : Nat × Nat := (0x140000000, 2 ^ 31)

/-- A full reset with cause `cause` (R96, R97, R103, R129); staging is retained where `keep` permits it: the memory stack goes into
self-refresh and the always-on island records the region. -/
def Chip.fullReset (c : Chip) (cause : Fld) (keep : Bool) : Chip :=
  let hold := if keep && c.flag .sys Reg.SYS.RESET_CTL_RETAIN_EN then c.retainable else []
  let k := c.fresh
  let k := { k with
    tb := c.tb, isl := { tbRuns := c.isl.tbRuns }, col := { recs := c.col.recs, serial := c.col.serial }
    rs := { k.rs with retain := if hold.isEmpty then none else some stagingRegion }
    mem := { selfRefresh := !hold.isEmpty }
    sluice := { k.sluice with
      batches := hold.map fun b => { b with slot := none, rows := [], mirrored := false, sent := false, releasing := false } } }
  let k := keptFields.foldl (fun (k : Chip) f => k.put f.1 f.2 (c.rd f.1 f.2)) k
  let k := (k.put .sys cause 1).putB .sys Reg.SYS.RESET_CAUSE_RETAINED !hold.isEmpty
  (k.inc .sys Reg.SYS.RESET_CAUSE_FULL_COUNT).updSluice

/-- Start-up stands still in a phase with an error (R131). -/
def Chip.bootFail (c : Chip) (err : Nat) : Chip := (c.put .sys Reg.SYS.BOOT_STAT_PHASE 15).put .sys Reg.SYS.BOOT_STAT_ERROR err
/-- The phase of start-up (R131). -/
def Chip.phase (c : Chip) : Nat := c.rd .sys Reg.SYS.BOOT_STAT_PHASE
/-- Enters a phase. -/
def Chip.setPhaseB (c : Chip) (n : Nat) : Chip := c.put .sys Reg.SYS.BOOT_STAT_PHASE n

/-- R95, R102: power-on resets everything, the always-on island's record of the packages too (R96 keeps it over full resets alone).
Retained staging is lost with power. -/
def execPowerOn (s : State) : Out :=
  s.to fun c =>
    let k := c.fresh
    let k := { k with
      pins := { presentLow := c.pins.presentLow, drvFaultLow := c.pins.drvFaultLow, brgFaultLow := c.pins.brgFaultLow }
      rs := { k.rs with hours := k.rs.hours + c.now / hours 1, retain := none, aonPkgs := 0, aonHalf := 0 } }
    k.put .sys Reg.SYS.RESET_CAUSE_POR 1

/-- R86, R95: recognised once step 2 of R106 has been reached. -/
def execResetNPulse (s : State) : Out :=
  s.to fun c =>
    if !c.isl.aonUp then c
    else
      let c := c.fullReset Reg.SYS.RESET_CAUSE_RESET_PIN true
      { c with pins := { c.pins with resetNLow := true } }

/-- A write `w` of RESET_CTL (R130): with CHIP and another KEY it is ignored whole; otherwise its fields are stored, and CHIP resets. -/
def Chip.resetCtl (c : Chip) (w : Nat) : Chip :=
  if bit w 0 ∧ slice 8 8 w ≠ 0x5A then c
  else
    let c := (c.put .sys Reg.SYS.RESET_CTL_KEY (slice 8 8 w)).put .sys Reg.SYS.RESET_CTL_RETAIN_EN (slice 16 1 w)
    if bit w 0 then c.fullReset Reg.SYS.RESET_CAUSE_SOFT_CHIP true else c

/-- R130: RESET_CTL written with CHIP 1, KEY and RETAIN_EN. -/
def execSoftChipReset (r : Requester) (key : Byte) (retainEn : Bool) (s : State) : Out :=
  s.to fun c => c.write r .sys fun c => c.resetCtl (1 + 2 ^ 8 * key.toNat + 2 ^ 16 * b2n retainEn)

/-! ## The power-loss flush (R49, R70, R758, R759) -/

/-- The islands are held after a flush (R100). -/
def Chip.held (c : Chip) : Bool := c.phase == 12

/-- Steps 2 and 3 of R758: everything that moves or shines stops, firmware stops, the head islands are gated. -/
def Chip.flushStop (c : Chip) : Chip :=
  let c := { c with pins := { c.pins with holdTest := false } }.modSluice fun s => { s with test := none }
  let c := (c.put .fault Reg.FAULT.QUENCH_EVENTS_FLUSH 1).quench ⟨0xFFFF, 0xFF, 0x3FFFFF⟩
  let c := { c with isl := { c.isl with mgmtReleased := false } }.modMgmt fun m => { m with wdogStart := none, resumed := false, restarting := false }
  let c := c.gateCommits fun p => match p.island with
    | .head _ | .beam _ _ => true
    | _ => false
  c.put .clk Reg.CLK.HEAD_GATE_GATE 0xFFFF

/-- Steps 4 to 6 of R758: the flush record, and an admitted calibration store (R617). The half for the next flush follows (R759). -/
def Chip.flushWrite (c : Chip) (e : FlushEnd) : Chip :=
  let bs := (c.sluice.batches.filter fun b => b.staged && b.seq.isSome && !b.wt && b.kind != 0).map fun b => { b with slot := none }
  let out := match e.cut with
    | some n => bs.take n
    | none => bs
  let rec' : FlushRec := { seq := c.rs.flushSeq + 1, half := c.rs.aonHalf, tb := c.now, batches := out, complete := e.cut.isNone
                           missing := bs.length - out.length }
  let some' := c.rs.aonPkgs != 0
  let c := c.programs c.rs.aonPkgs (flushMessages rec'.seq rec'.tb bs out e.cut.isNone)
  let old := c.rs.flushes.filter fun f => !(f.half == c.rs.aonHalf)
  let c := { c with rs := { c.rs with
    flushes := if some' then old ++ [rec'] else c.rs.flushes, flushSeq := if some' then rec'.seq else c.rs.flushSeq
    retain := if some' && e.cut.isNone then none else c.rs.retain } }
  let c := { c with rs := { c.rs with aonHalf := if some' then c.rs.nextHalf else c.rs.aonHalf } }
  let c := match c.sluice.calStore with
    | some k => if e.cut.isNone && ((c.batch? k.batch).bind (·.seq)).isSome then c.calWrite k else c
    | none => c
  let mib := divUp ((out.map (·.charge)).sum) (2 ^ 20)
  (c.stat .sluice Reg.SLUICE.FLUSH_LAST_MS e.ms.toNat).stat .sluice Reg.SLUICE.FLUSH_LAST_MIB mib

/-- The flush, from its trigger to its end, after which every other island is held (R100, R758). -/
def Chip.flush (c : Chip) (e : FlushEnd) : Chip :=
  let t0 := c.now
  let c := (c.flushStop.flushWrite e).modLog fun l => { l with unsafeShutdowns := l.unsafeShutdowns + 1 }
  let c := c.until' (t0 + ms e.ms.toNat)
  let c := c.modSluice fun s => { s with batches := [], calStore := none }
  ({ c with isl := { c.isl with released := false, hostReleased := false } }.setPhaseB 12).updSluice

/-- A supply detection (R70, R100): the SYS source POWER, and the flush unless the islands are held already. Before the detectors
are armed it is only noted. -/
def Chip.powerLoss (c : Chip) (kind : Nat) (e : FlushEnd) : Chip :=
  if !c.isl.aonUp then c
  else
    let c := c.fault0 .sys 3 kind 3
    if c.held then c else c.flush e

/-- R70. -/
def execBrownoutCore (e : FlushEnd) (s : State) : Out :=
  s.to fun c => ({ c with pins := { c.pins with coreLow := true } }).powerLoss 1 e
/-- R70. -/
def execBrownoutAon (e : FlushEnd) (s : State) : Out :=
  s.to fun c => ({ c with pins := { c.pins with aonLow := true } }).powerLoss 2 e
/-- R70. -/
def execPwrGoodLoss (e : FlushEnd) (s : State) : Out :=
  s.to fun c => ({ c with pins := { c.pins with pwrGood := false } }).powerLoss 3 e

/-- R100: PWR_GOOD high and no detection for 10 ms; what was flushed is not retained. -/
def execFlushRestart (s : State) : Out :=
  s.to fun c =>
    if c.held then
      { c with pins := { c.pins with pwrGood := true, coreLow := false, aonLow := false } }.fullReset Reg.SYS.RESET_CAUSE_FLUSH_RESTART false
    else c

/-! ## The hardware steps of start-up (R106 to R112) -/

/-- Step 8 (R105, R109, R110): buffer memory is filled but for retained staging, which is discarded where a word is bad; the
partner is then to be asked for its batches. -/
def Chip.fillMemory (c : Chip) (bad : Bool) : Chip :=
  if c.rs.retain.isSome && bad then
    let lost := (c.sluice.batches.filter fun b => b.staged && b.kind != 0).filterMap (·.seq)
    let c := { c with mem := {}, rs := { c.rs with
      retain := none, recover := c.rs.recover ++ lost.map fun n => ({ lo := n, hi := n } : Wanted) } }.modSluice fun s => { s with batches := [] }
    (c.put .sys Reg.SYS.RESET_CAUSE_RETAIN_LOST 1).updSluice
  else { c with mem := {} }

/-- A check value is computed over an image read from the boot flash (R769). -/
def Chip.hallBoot (c : Chip) (ok : Bool) : Chip :=
  let (v, c) := c.free 64
  c.hallMessage 112 v (some ok)

/-- Step 9 (R111): slot B is taken first only where its number is higher; both may fail. -/
def Chip.loadImage (c : Chip) : Chip :=
  let bFirst := decide (c.rs.slotA.seq < c.rs.slotB.seq)
  let a := if bFirst then c.rs.slotB else c.rs.slotA
  let b := if bFirst then c.rs.slotA else c.rs.slotB
  let c := (c.setPhaseB 3).hallBoot a.ok
  if a.ok then c.putB .sys Reg.SYS.BOOT_STAT_IMAGE bFirst
  else
    let c := (c.put .sys Reg.SYS.BOOT_STAT_FALLBACK 1).hallBoot b.ok
    if b.ok then c.putB .sys Reg.SYS.BOOT_STAT_IMAGE !bFirst else c.bootFail 2

/-- The management island is released with its watchdog running (R43, R112). -/
def Chip.releaseMgmt (c : Chip) : Chip :=
  if c.phase = 15 then c
  else (({ c with isl := { c.isl with mgmtReleased := true, mgmtOnce := true } }).setPhaseB 4).wdogPeriod

/-- Steps 4 to 9 of R106. Frame 0 begins within 3 ms of t0, after the timebase has begun to run (R38). -/
def Chip.bootIslands (c : Chip) (i : BootIn) : Chip :=
  if !i.pllOk then c.bootFail 4
  else
    let c := c.until' (c.now + clampN 1 300000 i.frame0)
    let c := (({ c with isl := { c.isl with released := true }, framesRunning := true, frameNum := 0, frameStart := c.now }).setPhaseB 1)
    let c := { c with isl := { c.isl with hostReleased := true } }
    let c := c.stat .host Reg.HOST.XTS_STAT_SELFTEST_OK (b2n i.xtsOk)
    let c := (if i.xtsOk then c else c.fault0 .host 2 1 2).setPhaseB 2
    if !i.hbmOk then c.bootFail 3
    else ((c.fillMemory i.retainBad).loadImage).releaseMgmt

/-- The always-on PLL has locked and the detectors are armed (step 2 of R106): after power-on the timebase starts from 0 (R102). -/
def Chip.arm (c : Chip) (i : BootIn) : Chip :=
  { c with
    tb := if c.isl.tbRuns then c.tb else 0
    pins := { c.pins with resetNLow := false, vddIo := true, coreLow := i.coreLow, aonLow := i.aonLow, pwrGood := !i.pgLow }
    isl := { c.isl with aonUp := true, tbRuns := true } }

/-- R106 to R112: from t0 to the release of the management island or the halt; the times of the steps are bounds and are not modelled
(log 118). A supply whose level is low from arming on for the time of R70 starts a flush. -/
def execResetNRelease (i : BootIn) (e : FlushEnd) (s : State) : Out :=
  s.to fun c =>
    if c.isl.aonUp then c
    else
      let c := (c.arm i).setPhaseB 0
      let c := { c with isl := { c.isl with bootAt := c.now } }
      if c.pins.coreLow ∨ c.pins.aonLow ∨ !c.pins.pwrGood then
        let c := if c.pins.coreLow then c.fault0 .sys 3 1 3 else c
        let c := if c.pins.aonLow then c.fault0 .sys 3 2 3 else c
        (if c.pins.pwrGood then c else c.fault0 .sys 3 3 3).flush e
      else if i.rextMv < 450 ∨ 550 < i.rextMv then c.bootFail 1
      else c.bootIslands i

/-! ## Resets of the host side and of the test logic (R87, R95, R720) -/

/-- The registers of a page take their reset values. -/
def Chip.resetPage (c : Chip) (p : Page) : Chip :=
  { c with reg := {
      plain := Sparse.dropRange (pageLo p) (pageHi p) c.reg.plain, act := Sparse.dropRange (pageLo p) (pageHi p) c.reg.act
      sh := Sparse.dropRange (pageLo p) (pageHi p) c.reg.sh, wr := c.reg.wr.filter fun k => !inPage p k } }

/-- What the host requester has armed, submitted and locked ends (R168); shadows stay. -/
def Chip.hostArms (c : Chip) : Chip :=
  let c := if (c.rq .host).gcState = 1 then c.endGlobal .host 4 else c
  ((c.armedPages .host).foldl Chip.disarm c).freeLocks .host

/-- The host island and the controllers are reset (R95, R101, R168, R720). -/
def Chip.hostReset (c : Chip) (cause : Fld) : Chip :=
  let c := (List.range 16).foldl (fun (c : Chip) n => c.ctrlReset n) c.hostArms
  let c := { c with
    commits := c.commits.filter fun k => decide (k.page.island ≠ .host), cmdPages := c.cmdPages.filter fun p => decide (p.island ≠ .host)
    halls := c.halls.filter fun e => e.1 < 96 || 104 ≤ e.1 }
  let keys := c.rd .host Reg.HOST.XTS_STAT_KEYS
  let ok := c.rd .host Reg.HOST.XTS_STAT_SELFTEST_OK
  let c := (allPages.filter fun p => decide (p.island = .host)).foldl (fun (c : Chip) p => c.resetPage p) c
  let c := (c.put .host Reg.HOST.XTS_STAT_KEYS keys).put .host Reg.HOST.XTS_STAT_SELFTEST_OK ok
  let c := c.modHost fun h => { h with ctrls := ({} : HostSt).ctrls, linkUp := false, ps := 0, nextCtrl := 0 }
  c.updFunc.put .sys cause 1

/-- R87: PERST_N low for 1 µs. -/
def execPerstNAssert (s : State) : Out :=
  s.to fun c =>
    let k := if c.islandUp .host then c.hostReset Reg.SYS.RESET_CAUSE_PERST else c
    { k with pins := { c.pins with perstNLow := true } }

/-- R87: PERST_N high for 1 µs. -/
def execPerstNDeassert (s : State) : Out := s.to fun c => { c with pins := { c.pins with perstNLow := false } }

/-- R95: a write of NSSR that holds the NVMe value ("NVMe"). -/
def execNvmSubsystemReset (nssrc : Word) (s : State) : Out :=
  s.to fun c => if c.islandUp .host && c.host.linkUp && nssrc == 0x4E564D65 then c.hostReset Reg.SYS.RESET_CAUSE_NSSR else c

/-- R95. -/
def execTrstNLow (s : State) : Out := s.to fun c => { c with pins := { c.pins with jtagReset := true } }

/-! ## The firmware phases of start-up (R115 to R122, R125) -/

/-- Firmware runs phase `n` of start-up now: the island runs, start-up is not complete and stands in phase `n` or the one before
it (R117, R122, R131). -/
def Chip.inPhase (c : Chip) (n : Nat) : Bool :=
  c.isl.mgmtReleased && !c.mgmt.restarting && !c.flag .sys Reg.SYS.BOOT_STAT_READY && (c.phase == n || c.phase + 1 == n)

/-- A package as the mount finds it; `stale` says that its contents are not those chosen. -/
def PkgSt.found (p : PkgSt) (f : Option PkgFound) (format stale : Bool) : PkgSt :=
  match f with
  | none => { p with present := false, mounted := false }
  | some f =>
    let blank := !f.superblock || format
    { p with
      present := true, superblock := true, mounted := !p.retired, current := format || (f.superblock && !f.differs && !stale)
      rated := f.info.rated, spare := if blank then f.info.spare else p.spare, spareInit := if blank then f.info.spare else p.spareInit }

/-- Everything that the record store held is gone (R116): it is formatted as new. -/
def Chip.formatStore (c : Chip) : Chip :=
  let c := { c with
    rs := { seq := c.rs.seq + 1, pkg0 := c.rs.pkg0, pkg1 := c.rs.pkg1, slotA := c.rs.slotA, slotB := c.rs.slotB, hours := c.rs.hours, retain := c.rs.retain }
    lib := { mounted := c.lib.mounted, surfaces := c.lib.surfaces, intentNext := c.lib.intentNext }, log := {} }
  ({ c with images := [] }.modHost fun h => { h with nss := [] }).addMaint

/-- Reports of the reads of a package during the mount (R769, R849). -/
def Chip.mountReads (c : Chip) (k : Fin 2) (f : Option PkgFound) : Chip :=
  match f with
  | none => (c.fault0 .rstore 2 1 2)
  | some f =>
    let (v, c) := c.free 64
    let c := c.hallMessage (if k = 0 then 109 else 111) v (some !f.uncorr)
    let c := if f.retry then c.fault0 .rstore 1 1 0 else c
    if f.uncorr then c.fault0 .rstore 1 2 1 else c

/-- The contents of a package become the record store's; discs, boot flash and the always-on island's items are not in it. -/
def Chip.restoreStore (c : Chip) (m : StoreImage) : Chip :=
  { c with
    rs := { m.rs.afterReset with
      pkg0 := c.rs.pkg0, pkg1 := c.rs.pkg1, slotA := c.rs.slotA, slotB := c.rs.slotB, aonPkgs := c.rs.aonPkgs
      aonHalf := c.rs.aonHalf, retain := c.rs.retain, recover := c.rs.recover }
    lib := { m.lib.afterReset with mounted := c.lib.mounted, surfaces := c.lib.surfaces }
    log := m.log }.modHost fun h => { h with nss := m.nss.map NsSt.afterReset }

/-- The newest contents among the packages that hold a valid superblock `v0`, `v1` are the record store's (R115): those with the higher
checkpoint number, of package 0 where they are equal. The regions of a package are taken together (DEDUCED: a package that takes
every record is newest in all of them, log 171). A package absent now keeps what it holds, a blank one is formatted. -/
def Chip.chooseStore (c : Chip) (f0 f1 : Option PkgFound) : Chip :=
  let ok := fun (f : Option PkgFound) => (f.map (·.superblock)).getD false
  let find := fun (c : Chip) (k : Nat) (f : Option PkgFound) => if f.isNone then c.freezePkg k else if ok f then c else c.blankPkg k
  let c := find (find c 0 f0) 1 f1
  let seq := fun (k : Nat) => ((assocGet k c.images).map (·.rs.seq)).getD c.rs.seq
  let best := if ok f0 && (!ok f1 || decide (seq 1 ≤ seq 0)) then 0 else 1
  let n := seq best + 1
  let c := match assocGet best c.images with
    | some m => ((c.freezePkg (1 - best)).restoreStore m).syncPkg best
    | none => c
  { c with rs := { c.rs with seq := n } }

/-- C_meas in use after power-on (R751). -/
def Chip.capFromStore (c : Chip) : Chip :=
  if c.flag .sluice Reg.SLUICE.SLUICE_STAT_CAP_VALID then c
  else c.stat .sluice Reg.SLUICE.CAP_MEAS_UF (min (2 ^ 24 - 1) (8 * c.rs.capStored.getD 0 / 10))

/-- R115, R116, R124, R133, R134. The size of a flush record is the sum of the charges of the batches found in it, without its header
and end marker and without the batches it lacks (DESIGN CHOICE: R134 does not say what counts, log 164). -/
def execRstoreMount (f0 f1 : Option PkgFound) (s : State) : Out :=
  s.to fun c =>
    if !c.inPhase 5 then c
    else
      let p : Page := .rstore
      let c := ((c.setPhaseB 5).mountReads 0 f0).mountReads 1 f1
      let sb := fun (f : Option PkgFound) => (f.map (·.superblock)).getD false
      if f0.isNone ∧ f1.isNone then (c.setPkg 0 (·.found none false false)).setPkg 1 (·.found none false false) |>.bootFail 5
      else
        let new := !sb f0 && !sb f1
        let c := if new then c.formatStore else c.chooseStore f0 f1
        let stale := fun (k : Nat) => (assocGet k c.images).isSome
        let c := (c.setPkg 0 (·.found f0 new (stale 0))).setPkg 1 (·.found f1 new (stale 1))
        let c := { c with rs := { c.rs with mounted := true } }
        let c := { c with rs := { c.rs with asked := false, recover := c.rs.recover.filter fun w => w.flush.isNone } }
        let todo := c.rs.flushes.filter fun f => !f.retired
        let mib := divUp (((todo.flatMap (·.batches)).map (·.charge)).sum) (2 ^ 20)
        let c := (c.put p Reg.RSTORE.MOUNT_STAT_INTENT_OPEN c.rs.intents.length).put p Reg.RSTORE.MOUNT_STAT_INTENT_DONE 0
        let c := (c.putB p Reg.RSTORE.JOURNAL_STAT_PRESENT !todo.isEmpty).put p Reg.RSTORE.JOURNAL_STAT_SIZE_MIB mib
        let c := c.putB p Reg.RSTORE.JOURNAL_STAT_WARM (!new && todo.isEmpty && c.rs.intents.isEmpty)
        (c.capFromStore).updPkgs

/-- R117. -/
def execNandIntentRecovery (s : State) : Out :=
  s.to fun c =>
    if !c.inPhase 6 ∨ !c.rs.mounted then c
    else
      let c := (c.setPhaseB 6).addSat .rstore Reg.RSTORE.MOUNT_STAT_INTENT_DONE c.rs.intents.length
      { c with rs := { c.rs with intents := [] } }

/-- R122, R615: the valid copy with the higher SEQ is the set in force; with none, none exists. -/
def execCalibrationLoad (s : State) : Out :=
  s.to fun c =>
    if !c.inPhase 7 ∨ !c.rs.mounted then c
    else
      let c := ((c.setPhaseB 7).calRead c.rs.calA).calRead c.rs.calB
      let best := match c.rs.calA, c.rs.calB with
        | some a, some b => some (if a.seq < b.seq then b else a)
        | some a, none => some a
        | none, b => b
      match best with
      | some k => c.modAssay fun a => { a with cal := k.cal, opuIds := k.opuIds, seq := k.seq, setValid := true }
      | none => c

/-- R125, R708, R715: tables are loaded; an interrupted format of a standard namespace completes, an erase of a maintenance namespace
goes on after ready. -/
def execInventoryZoneLoad (s : State) : Out :=
  s.to fun c =>
    if !c.inPhase 8 ∨ !c.rs.mounted then c
    else
      let c := c.setPhaseB 8
      (c.rs.formats.foldl (fun (c : Chip) f =>
        match c.ns? f.1 with
        | some n => if n.std then c.formatNs n f.2 else c.modNs n.nsid fun n => { n with fpi := some 100, notReady := true }
        | none => c) c).updKeys.updZones.updWarning

/-- A batch of a flush record is reinstated, unless it stands in staging already (R119, R120). -/
def Chip.replayBatch (c : Chip) (f : FlushRec) (b : Batch) : Chip :=
  if c.sluice.batches.any fun x => x.seq == b.seq && x.seq.isSome then c
  else c.reinstate b.copy (b.seq.getD 0) (some f.seq)

/-- Batches that no source gives are lost (R121, R760): one with a descriptor makes its zone Offline, unless the tables no longer
hold the binding (R104); of the others only the number is known. -/
def Chip.wantedLost (c : Chip) (w : Wanted) : Chip :=
  match w.desc with
  | some (nsid, z, ofs, nlb) => if (c.zone nsid z).bind.isSome then c.loseBatch nsid z ofs nlb else c
  | none => ((c.put .rstore Reg.RSTORE.JOURNAL_STAT_LOST 1).fault0 .rstore 3 1 2).lostRange 0 4 0 w.left

/-- Batches that the flush records do not give come from the partner's mirror while the link is up, or are lost (R121, R760). -/
def Chip.want (c : Chip) (w : Wanted) : Chip :=
  if c.linkUp then ({ c with rs := { c.rs with recover := c.rs.recover ++ [w] } }).daxSend false 0x14 [w.lo, w.hi] else c.wantedLost w

/-- A batch that fails its check in both packages (R121), unless it stands in staging already (R120). -/
def Chip.replayBad (c : Chip) (f : FlushRec) (b : Batch) : Chip :=
  let n := b.seq.getD 0
  if c.sluice.batches.any fun x => x.seq == b.seq && x.seq.isSome then c
  else c.want { lo := n, hi := n, flush := some f.seq, desc := some (b.nsid, b.zone, b.ofs, b.nlb) }

/-- Batches of which no descriptor was found (R760). -/
def Chip.replayMissing (c : Chip) (f : FlushRec) : Chip :=
  if f.missing = 0 then c
  else c.want { lo := ((f.batches.getLast?).bind (·.seq)).getD 0 + 1, hi := 2 ^ 64 - 1, left := f.missing, flush := some f.seq }

/-- What the partner has not sent of the flush records is lost (R121). -/
def Chip.recoverEnd (c : Chip) : Chip :=
  let (mine, rest) := c.rs.recover.partition (·.flush.isSome)
  mine.foldl (fun (c : Chip) w => c.wantedLost w) { c with rs := { c.rs with recover := rest, asked := false } }

/-- Retained staging is reinstated; what the tables no longer hold, and batches whose data had not all come, are discarded (R104). -/
def Chip.reinstateRetained (c : Chip) : Chip :=
  if c.rs.retain.isNone then c
  else
    let bs := c.sluice.batches.filter fun b => b.slot.isNone && b.rows.isEmpty
    let c := c.modSluice fun s => { s with batches := s.batches.filter fun b => !bs.contains b }
    let c := (bs.filter fun b => b.staged && b.kind != 0).foldl (fun (c : Chip) b => c.reinstate b.copy (b.seq.getD 0) b.replay) c
    { c with rs := { c.rs with retain := none } }.updSluice

/-- Start-up is complete (R124, R132, R751): firmware executes commands and the enabled controllers are ready. -/
def Chip.declareReady (c : Chip) : Chip :=
  let c := (c.setPhaseB 10).put .sys Reg.SYS.BOOT_STAT_READY 1
  let c := c.put .sys Reg.SYS.BOOT_TIME_TICKS (min (2 ^ 32 - 1) (c.now - c.isl.bootAt))
  let c := (c.modMgmt fun m => { m with resumed := true }).modSluice fun s => { s with dueAt := some (c.now + secs 1) }
  let c := c.modHost fun h => { h with ctrls := h.ctrls.map fun x => { x with rdy := x.rdy || x.en } }
  (c.updFunc.updPkgs).updSluice

/-- The replay of every flush record that is not retired, in order (R119, R760). -/
def Chip.replayAll (c : Chip) (bad : List Nat) : Chip :=
  (c.rs.flushes.filter fun f => !f.retired).foldl (fun (c : Chip) f =>
    (f.batches.foldl (fun (c : Chip) b =>
      if (b.seq.map bad.contains).getD false then c.replayBad f b else c.replayBatch f b) c).replayMissing f) c

/-- Every batch has been reinstated or handled (R134): start-up is complete. REPLAYED is set where no flush record was found too
(DESIGN CHOICE: R134 does not say, log 162). -/
def Chip.replayDone (c : Chip) : Chip :=
  let c := { c with rs := { c.rs with replayed := true } }.put .rstore Reg.RSTORE.JOURNAL_STAT_REPLAYED 1
  (c.retireFlush.setAonHalf).declareReady

/-- R119 to R121, R760: `bad` names the batches, by BATCH_SEQ, that fail their check in both packages. Where the partner has been asked
for batches start-up waits; given again, what it has not sent is lost (DESIGN CHOICE: no rule names the end of the answer to a
RECOVER_REQ, log 163). With everything reinstated start-up is complete. -/
def execJournalReplay (bad : List Nat) (s : State) : Out :=
  s.to fun c =>
    if !c.inPhase 9 ∨ !c.rs.mounted then c
    else if c.rs.asked then c.recoverEnd.replayDone
    else
      let c := ((c.setPhaseB 9).reinstateRetained).replayAll bad
      if c.rs.recover.any (·.flush.isSome) then { c with rs := { c.rs with asked := true } } else c.replayDone

/-- R115, R850: a package has been brought up to date, after ready. -/
def execRstoreResync (pkg : Fin 2) (s : State) : Out :=
  s.to fun c =>
    if c.nandTurn pkg 5 && c.flag .sys Reg.SYS.BOOT_STAT_READY && (c.pkg pkg).mounted && !(c.pkg pkg).current then (c.syncPkg pkg.val).modPkg pkg fun p => { p with current := true }
    else c

/-- R127, R850: a record of the always-on memory is copied into the fault history and marked. -/
def execFaultRecordCopy (i : Fin 1024) (s : State) : Out :=
  s.to fun c =>
    match assocGet i.val c.col.recs with
    | some r =>
      if !c.mgmt.resumed ∨ !c.rs.mounted ∨ r.copied ∨ !([0, 1].all fun k => !(c.pkg k).mounted || c.nandTurn k 6) then c
      else { c with
        rs := { c.rs with history := c.rs.history ++ [(List.range 8).map fun w => BitVec.ofNat 32 (r.word w)] }
        col := { c.col with recs := assocSet i.val { r with copied := true } c.col.recs } }
    | none => c

/-! ## Gating (R18, R108, R281) and the island clocks -/

/-- The scrub of an ungated island is complete (R108): its pages can be reached. -/
def execIslandScrubDone (h : Option Port) (s : State) : Out :=
  s.to fun c =>
    match h with
    | some h => { c with isl := { c.isl with scrubHead := setBit c.isl.scrubHead h.val false } }
    | none => { c with isl := { c.isl with scrubPeer := false } }

/-- The pages of a head island and its beam islands. -/
def headPage (h : Port) (p : Page) : Bool :=
  match p.island with
  | .head k => k == h
  | .beam k _ => k == h
  | _ => false

/-- One bit of HEAD_GATE (R18, R40, R108, R175, R281): a head is gated only while its page is disabled; an ungated one is scrubbed. -/
def Chip.gateHead (c : Chip) (h : Port) (gate : Bool) : Chip :=
  let m := c.rd .clk Reg.CLK.HEAD_GATE_GATE
  if bit m h.val = gate ∨ (gate ∧ c.rd (.head h) Reg.HDR.PAGE_STAT_STATE ≠ 0) then c
  else
    let c := if gate then c.gateCommits (headPage h)
      else allBeams.foldl (fun (c : Chip) b => c.modBm h b fun _ => {}) { c with isl := { c.isl with scrubHead := setBit c.isl.scrubHead h.val true } }
    c.put .clk Reg.CLK.HEAD_GATE_GATE (setBit m h.val gate)

/-- R281. -/
def execHeadGateWrite (r : Requester) (gate : BitVec 16) (s : State) : Out :=
  s.to fun c => c.write r .clk fun c => allPorts.foldl (fun (c : Chip) h => c.gateHead h (gate.getLsbD h.val)) c

/-- R790: the number of an island in DETAIL is not stated, so it is a free value (log 119). -/
def execPllUnlock (i : Island) (s : State) : Out :=
  s.to fun c =>
    if !c.islandUp i then c
    else
      let (d, c) := c.free 10
      c.fault .clk 0 1 2 d Page.clk.num

end Sys2Proof.Machine
end

