-- ==== Sys2Proof/Machine/Faults.lean ====
section
/-!
DEFINITION. The commands of the fault collector: arrival, capture, windows, ALERT_N, release of quench lines, records and
source configuration (chapter 18).
-/
namespace Sys2Proof.Machine

/-- A message arrives now: the collector's own part, what the lines make the units do (R797), the trace units that wait for
it (R450), and the telemetry capture of a CRITICAL classification (R862). -/
def Chip.faultArrive (c : Chip) (m : Msg) (parity : Bool) : Chip :=
  let (c, new) := c.arrive m parity
  let c := (c.quenchAct new).traceEvent 4 fun a => a == m.src
  let id := if (srcPage m.src).isSome then m.src else 7
  if (c.col.cntOf id).last = 3 then c.captureTelemetry else c

/-- Two sources send from one island (R14, R137). -/
def sameSender (a b : Nat) : Bool :=
  match srcPage a, srcPage b with
  | some p, some q => p.1.island == q.1.island
  | _, _ => a == b

/-- The tick in which a message of source `src` enters its port (R791): every port takes one message per tick, and the messages of one
tick are processed in ascending SOURCE, so a message that would come too late in this tick arrives in the next (DEDUCED, log 121). -/
def Chip.enterPort (c : Chip) (src : Nat) : Chip :=
  let late := c.col.inTick == c.now && c.col.inSrcs.any fun x => decide (src < x) || sameSender x src
  let c := if late then c.until' (c.now + 1) else c
  let old := if c.col.inTick = c.now then c.col.inSrcs else []
  { c with col := { c.col with inTick := c.now, inSrcs := old ++ [src] } }

/-- R791: the message at place `i` of X16 enters its port. Messages of one island arrive in the order in which they were placed
(R20, R23, R25); the order among islands is that of the arrivals. -/
def execFaultMessage (i : Nat) (parity : Bool) (s : State) : Out :=
  s.to fun c =>
    match c.x16[i]? with
    | some m =>
      if (c.x16.take i).any fun x => sameSender x.src m.src then c
      else ({ c with x16 := c.x16.take i ++ c.x16.drop (i + 1) }.enterPort m.src).faultArrive m parity
    | none => c

/-- An unacknowledged record of the source has the NOTIFY mark (R796). -/
def Collector.notified (k : Collector) (id : Nat) : Bool :=
  match k.openRec id with
  | some (_, r) => r.notify
  | none => false

/-- A capture with what follows from it (R801 to R803, R856): `parity` is a parity error in the record being updated. -/
def Chip.captureOne (c : Chip) (q : Capture) (parity : Bool) : Chip :=
  let was := c.col.notified q.msg.src
  let c := if parity then c.inc .fault Reg.FAULT.MEM_EVENTS_HANDLING else c
  let c := c.capture { q with handling := q.handling || parity }
  if !was && c.col.notified q.msg.src then
    let (u, c) := c.free 16
    c.logEvent 0x0013 u q.msg.src
  else c

/-- R802. -/
def execFaultCapture (parity : Bool) (s : State) : Out :=
  s.to fun c =>
    match c.col.queue with
    | [] => c
    | q :: rest =>
      let c := { c with col := { c.col with queue := rest } }.captureOne q parity
      if c.col.overflow && c.col.queue.length < 2048 then
        ({ c with col := { c.col with overflow := false } }.fault0 .fault 0 2 2).event .fault 3
      else c

/-- The next A or B window of a source starts (R793). -/
def Chip.windowStart (c : Chip) (id : Nat) (b : Bool) : Chip :=
  let k := c.col.cntOf id
  let w := (c.col.cfgOf id).ticks
  if (srcPage id).isNone ∨ w = 0 then c
  else if b then
    let c := c.until' (k.bIx * w + w / 2)
    { c with col := { c.col with cnt := assocSet id { k with bIx := (c.now + w / 2) / w, b := 0 } c.col.cnt } }
  else
    let c := c.until' ((k.aIx + 1) * w)
    { c with col := { c.col with cnt := assocSet id { k with aIx := c.now / w, a := 0 } c.col.cnt } }

/-- R793. -/
def execFaultWindowStart (src : Fin 1024) (b : Bool) (s : State) : Out := s.to fun c => c.windowStart src.val b

/-- R799. -/
def execAlertMinExpiry (s : State) : Out := s.to Chip.alertEnd

/-- R799. -/
def execAlertRelease (r : Requester) (s : State) : Out := s.to fun c => c.write r .fault Chip.alertRelease

/-- Lines of ports released by a write (R271, R798). -/
def Chip.headLines (c : Chip) (m : Nat) : Chip :=
  let c := c.releaseHeads m
  allPorts.foldl (fun (c : Chip) h => if bit m h.val then c.updKill h else c) c

/-- Lines of spindles released by a write (R541, R798): a spindle at standstill leaves EBRAKE. -/
def Chip.spinLines (c : Chip) (m : Nat) : Chip :=
  let c := c.releaseSpins m
  allSpins.foldl (fun (c : Chip) n => if bit m n.val then c.spEbrakeEnd n else c) c

/-- R798. -/
def execQuenchHeadRelease (r : Requester) (ports : BitVec 16) (s : State) : Out :=
  s.to fun c => c.write r .fault fun c => c.headLines ports.toNat

/-- R798. -/
def execQuenchSpinRelease (r : Requester) (spins : BitVec 8) (s : State) : Out :=
  s.to fun c => c.write r .fault fun c => c.spinLines spins.toNat

/-- R798: the axis stays in HOLD (R577). -/
def execQuenchAxisRelease (r : Requester) (axes : BitVec 22) (s : State) : Out :=
  s.to fun c => c.write r .fault fun c => c.releaseAxes axes.toNat

/-- The fields that a write of REC_ACK carries. -/
def Chip.recAckFields (c : Chip) (i count : Nat) : Chip :=
  (c.put .fault Reg.FAULT.REC_ACK_INDEX i).put .fault Reg.FAULT.REC_ACK_COUNT count

/-- R804. -/
def execRecAck (r : Requester) (i : Fin 1024) (count : BitVec 14) (s : State) : Out :=
  s.to fun c => c.write r .fault fun c => (c.recAckFields i.val count.toNat).recAck

/-- R804. -/
def execRecCopied (r : Requester) (i : Fin 1024) (count : BitVec 14) (s : State) : Out :=
  s.to fun c => c.write r .fault fun c => (c.recAckFields i.val count.toNat).recCopied

/-- The word of the selected record (R800, R808); a slot that holds no record reads 0. -/
def Chip.recWord (c : Chip) : Nat :=
  match assocGet (c.rd .fault Reg.FAULT.REC_SEL_INDEX) c.col.recs with
  | some x => x.word (c.rd .fault Reg.FAULT.REC_SEL_WORD)
  | none => 0

/-- A read of REC_DATA steps WORD modulo 8 (R808). -/
def Chip.recStep (c : Chip) : Chip := c.put .fault Reg.FAULT.REC_SEL_WORD (c.rd .fault Reg.FAULT.REC_SEL_WORD + 1)

/-- R808. -/
def execRecDataRead (r : Requester) (s : State) : Out := s.to fun c => c.readPort r .fault fun c => (c.answer r c.recWord).recStep

/-- R807: SRC_SEL written with RESTORE. -/
def execSrcRestore (r : Requester) (src : Fin 1024) (s : State) : Out :=
  s.to fun c => c.write r .fault fun c => (c.put .fault Reg.FAULT.SRC_SEL_SOURCE src.val).srcRestore

/-- R795: SRC_CFG of the source that SRC_SEL names. -/
def execSrcCfgWrite (r : Requester) (w : Word) (s : State) : Out :=
  s.to fun c => c.write r .fault fun c => c.srcCfgWrite w.toNat

/-- A source's configuration is found with a parity error in the background (R803). -/
def Chip.parityFound (c : Chip) (id : Nat) : Chip :=
  if (srcPage id).isNone then c
  else { c with col := { c.col with cfg := assocDel id c.col.cfg } }.fault0 .fault 1 2 1

/-- R803: the check of every second; `bad` names the sources with an error. -/
def execConfigParityCheck (bad : List (Fin 1024)) (s : State) : Out :=
  s.to fun c =>
    let c := c.until' c.col.nextParity
    let c := { c with col := { c.col with nextParity := c.col.nextParity + secs 1 } }
    bad.foldl (fun (c : Chip) id => c.parityFound id.val) c

end Sys2Proof.Machine
end

