-- ==== Sys2Proof/Machine/Commits.lean ====
section
/-!
DEFINITION. Commits as they apply, enabling, quiescing and resetting a block, and the boundaries of frames and sectors (R37, R144,
R153 to R170, R304).
-/
namespace Sys2Proof.Machine

/-! ## A commit applies (R156) -/

/-- L_DL − DL_RELEASE is held between 0 and 436 (R258). -/
def Chip.clampLdl (c : Chip) (h : Port) : Chip :=
  let p : Page := .head h
  let l := c.rd p Reg.HEAD.LINK_CFG_L_DL
  let v := clampN (c.rd p Reg.HEAD.LINK_CFG_DL_RELEASE) (c.rd p Reg.HEAD.LINK_CFG_DL_RELEASE + 436) l
  if v = l then c else (c.put p Reg.HEAD.LINK_CFG_L_DL v).put p Reg.HEAD.LINK_STAT_CFG_CLAMP 1

/-- What a block does when a commit of its page has applied; `cmd` says that its command register was written since the last
commit (R490, R516, R568). Held fields wait for their states (R518, R560). -/
def Chip.committed (c : Chip) (p : Page) (cmd : Bool) : Chip :=
  match p with
  | .spin n =>
    let c := if c.spState n ≤ 1 then c.spTakeCfg n else c
    if cmd then c.spCommand n (c.rd p Reg.SPIN.SPIN_CMD_CMD) else c
  | .axis a =>
    let c := c.axTakeCfg a
    if cmd then c.axCommand a (c.rd p Reg.AXIS.AX_CMD_CMD) else c
  | .head h =>
    let c := (c.clampLdl h).updRoles h
    if cmd then c.srvCommand h else c
  | .loop e => c.engCommit e
  | .beam h b => c.beamCommit h b
  | _ => c

/-- The page's commit applies at its boundary. That of a configurable hallmark unit whose stream is busy is held (R776), a
global commit's too: it then applies past its target frame although the global commit ends as applied (DESIGN CHOICE: R41 has
all pages apply in one frame, log 160). DONE stays 0 until it applies (R153). -/
def Chip.commitPage (c : Chip) (p : Page) : Chip :=
  let busy := match p with
    | .hall n => hallConfigurable n && !c.flag p Reg.HALL.HALL_STAT_IDLE
    | _ => false
  if busy then
    let c := if c.flag p Reg.HALL.HALL_STAT_HELD then c else (c.put p Reg.HALL.HALL_STAT_HELD 1).event p 0
    { c with commits := if c.frozen p then c.commits.map fun (k : PageCommit) => if k.page = p then { k with owner := none } else k
                        else c.commits ++ [PageCommit.mk p none 0 c.now] }.put p Reg.HDR.SHADOW_CTL_DONE 0
  else
    let cmd := c.cmdPages.contains p
    let c := { c with cmdPages := c.cmdPages.filter fun q => !(q == p) }
    let c := match p with
      | .hall _ => if c.flag p Reg.HALL.HALL_STAT_HELD then (c.put p Reg.HALL.HALL_STAT_HELD 0).event p 0 else c
      | _ => c
    (c.applyPage p).committed p cmd

/-! ## Local commits (R157 to R159, R446) -/

/-- A local COMMIT with boundary kind `b`: ignored on a frozen shadow, and with an invalid BANK. -/
def Chip.localCommit (c : Chip) (p : Page) (b : Nat) : Chip :=
  if c.frozen p then c
  else if c.bankBad p then c.bankInvalid p
  else if b = 0 then c.commitPage p
  else { c with commits := c.commits ++ [PageCommit.mk p none b c.now] }.put p Reg.HDR.SHADOW_CTL_DONE 0

/-- A write `w` of SHADOW_CTL by requester `r` (R153, R164, R868): the fields take their values, then the actions are taken; a COMMIT that R164
turns away is discarded alone. -/
def Chip.shadowWrite (c : Chip) (r : Requester) (p : Page) (w : Nat) : Chip :=
  let b := slice 2 3 w
  let commit := bit w 0
  let armed := c.flag p Reg.HDR.SHADOW_CTL_ARMED && !c.frozen p
  let c := c.put p Reg.HDR.SHADOW_CTL_BOUNDARY b
  let c := if bit w 8 then c.put p Reg.HDR.SHADOW_CTL_WRITE_LOST 0 else c
  let c := if bit w 9 then c.put p Reg.HDR.SHADOW_CTL_CANCELLED 0 else c
  let c := if !commit then c else if b = 4 then c.armPage r p else if armed then c.regFault 5 else c.localCommit p b
  if bit w 10 then c.discard p else c

/-- R157: SHADOW_CTL written with BOUNDARY `b` and COMMIT. -/
def execLocalCommit (r : Requester) (p : Page) (b : Fin 8) (s : State) : Out :=
  s.to fun c => c.write r p fun c => c.shadowWrite r p (1 + 4 * b.val)

/-! ## Enabling and quiescing (R144, R170) -/

/-- What the block does when EN changes (R271, R293, R418, R515, R567, R812). -/
def Chip.enableAct (c : Chip) (p : Page) (en : Bool) : Chip :=
  match p with
  | .spin n => c.spEnable n en
  | .axis a => c.axEnable a en
  | .loop e => if en then c.engStarted e else c.engStopped e
  | .head h =>
    let c := c.updKill h
    if en || c.killHigh h then c
    else allBeams.foldl (fun (c : Chip) b => if bit (c.sv h).winh b.val then c.writeInhibit h b else c) c
  | .beam h b => if en then c.put p Reg.BEAM.RD_STAT_ROLE (c.mapRole h b) else c
  | .peer => c.peerEnable en
  | _ => c

/-- Work that waited while the page was quiesced goes on (R278). -/
def Chip.resume (c : Chip) (p : Page) : Chip :=
  match p with
  | .head h => allBeams.foldl (fun (c : Chip) b => c.nextItem h b) c
  | .beam h b => c.nextItem h b
  | .loop e => c.engStarted e
  | _ => c

/-- EN is written. Enabled with QUIESCE 1 the block stands quiesced at once (DESIGN CHOICE: R144 does not say, log 168). -/
def Chip.setEnable (c : Chip) (p : Page) (en : Bool) : Chip :=
  if c.enabled p = en then c
  else
    let st := if !en then 0 else if c.flag p Reg.HDR.PAGE_CTL_QUIESCE then 3 else 1
    ((c.putB p Reg.HDR.PAGE_CTL_EN en).put p Reg.HDR.PAGE_STAT_STATE st).enableAct p en

/-- A run whose recording has not begun goes back to the items that wait (R278, R401). -/
def Chip.putBack (c : Chip) (h : Port) (b : BeamNo) : Chip :=
  match (c.bm h b).run with
  | some r =>
    if c.wrActive h b then c.writeStop h b
    else
      (((c.modBm h b fun x => { x with run := none, bufs := [], loadSec := 0, items := { r.item with slot := r.slot, ingots := r.queue } :: x.items }).wrPut
        h b 0).put (.beam h b) Reg.BEAM.WR_STAT_SECTOR 0x1F).put (.beam h b) Reg.BEAM.RD_STAT_ROLE (c.mapRole h b)
  | none => c

/-- QUIESCE is written (R144). The block takes no new work; one that has no work to finish is found quiesced by QUIESCE_DONE. -/
def Chip.setQuiesce (c : Chip) (p : Page) (on : Bool) : Chip :=
  let c := c.putB p Reg.HDR.PAGE_CTL_QUIESCE on
  let st := c.rd p Reg.HDR.PAGE_STAT_STATE
  if on then
    if st ≠ 1 then c
    else
      let c := c.put p Reg.HDR.PAGE_STAT_STATE 2
      match p with
      | .head h => allBeams.foldl (fun (c : Chip) b => c.putBack h b) c
      | .beam h b => c.putBack h b
      | _ => c
  else if st = 2 ∨ st = 3 then (c.put p Reg.HDR.PAGE_STAT_STATE 1).resume p
  else c

/-- R144. -/
def execPageEnable (r : Requester) (p : Page) (en : Bool) (s : State) : Out :=
  s.to fun c => c.write r p fun c => c.setEnable p en

/-- R144. -/
def execQuiesceRequest (r : Requester) (p : Page) (on : Bool) (s : State) : Out :=
  s.to fun c => c.write r p fun c => c.setQuiesce p on

/-- A beam has no sector under the spot, none to decode, and no write (R278, R336). -/
def Chip.beamIdle (c : Chip) (h : Port) (b : BeamNo) : Bool :=
  !c.wrActive h b && ((c.bm h b).slotKind != 1 || !c.reads h b) && (c.bm h b).passed.isEmpty

/-- The unit of work of the page is finished (R278, R336, R419, R518, R579); the chapters name none for the other blocks
(DEDUCED, log 124). -/
def Chip.workDone (c : Chip) (p : Page) : Bool :=
  match p with
  | .head h => allBeams.all (fun b => c.beamIdle h b) && (!c.trailing h || (c.hd h).recorded.all (·.second))
  | .beam h b => c.beamIdle h b
  | .axis a => !axMoving (c.axState a)
  | .spin n => !(c.sp n).starting && !(c.sp n).braking && (c.sp n).wakeAt.isNone
  | .loop _ => false
  | _ => true

/-- R170: a quiescing block reports quiesced. A loop engine does so at the end of its frame (R419). -/
def execQuiesceDone (p : Page) (s : State) : Out :=
  s.to fun c =>
    if c.rd p Reg.HDR.PAGE_STAT_STATE = 2 && c.workDone p then
      let c := c.put p Reg.HDR.PAGE_STAT_STATE 3
      match p with
      | .beam h b => c.modBm h b fun x => { x with goods := [], stats := [] }
      | _ => c
    else c

/-! ## Block soft reset (R169) -/

/-- Fields that a soft reset leaves besides LOCK: RESET_CAUSE, which no other reset than power-on clears (R129), and read-only fields
that show at every moment what the reset does not change (log 122). -/
def keptBySoftReset : Page → List Fld
  | .sys => [Reg.SYS.RESET_CAUSE_POR, Reg.SYS.RESET_CAUSE_RESET_PIN, Reg.SYS.RESET_CAUSE_SOFT_CHIP, Reg.SYS.RESET_CAUSE_PERST,
      Reg.SYS.RESET_CAUSE_NSSR, Reg.SYS.RESET_CAUSE_FLUSH_RESTART, Reg.SYS.RESET_CAUSE_WDOG, Reg.SYS.RESET_CAUSE_MGMT_REQ,
      Reg.SYS.RESET_CAUSE_RETAINED, Reg.SYS.RESET_CAUSE_RETAIN_LOST, Reg.SYS.RESET_CAUSE_FULL_COUNT,
      Reg.SYS.BOOT_STAT_PHASE, Reg.SYS.BOOT_STAT_IMAGE, Reg.SYS.BOOT_STAT_FALLBACK, Reg.SYS.BOOT_STAT_READY, Reg.SYS.BOOT_STAT_ERROR]
  | .clk => [Reg.CLK.OPU_PRESENT_PRESENT]
  | .host => [Reg.HOST.LINK_STAT_SPEED, Reg.HOST.LINK_STAT_WIDTH, Reg.HOST.LINK_STAT_UP, Reg.HOST.LINK_STAT_DEGRADED,
      Reg.HOST.FUNC_STAT_EN, Reg.HOST.FUNC_STAT_RDY, Reg.HOST.XTS_STAT_KEYS, Reg.HOST.XTS_STAT_SELFTEST_OK]
  | .cmd => [Reg.CMD.INFLIGHT_NOW, Reg.CMD.ZONE_STAT_ACTIVE, Reg.CMD.ZONE_STAT_OPEN]
  | .sluice => [Reg.SLUICE.CAP_MEAS_UF, Reg.SLUICE.ADMITTED_KIB, Reg.SLUICE.BUDGET_KIB,
      Reg.SLUICE.SLUICE_STAT_WAITING, Reg.SLUICE.SLUICE_STAT_WT_ACTIVE, Reg.SLUICE.SLUICE_STAT_SHORT, Reg.SLUICE.SLUICE_STAT_TESTING,
      Reg.SLUICE.SLUICE_STAT_CAP_VALID, Reg.SLUICE.SLUICE_STAT_FLUSHING, Reg.SLUICE.SLUICE_STAT_WT_COUNT]
  | .inv => [Reg.INV.INV_STAT_PICKER, Reg.INV.INV_STAT_QUEUE, Reg.INV.INV_STAT_CLASS]
  | .rstore => [Reg.RSTORE.MOUNT_STAT_STATE, Reg.RSTORE.MOUNT_STAT_PKG0_OK, Reg.RSTORE.MOUNT_STAT_PKG1_OK,
      Reg.RSTORE.MOUNT_STAT_RESYNC, Reg.RSTORE.PKG_STAT_SPARE, Reg.RSTORE.PKG_STAT_WEAR_PCT, Reg.RSTORE.PKG_STAT_STATE]
  | .peer => [Reg.PEER.PAIR_STAT_STATE, Reg.PEER.PAIR_STAT_ROLE, Reg.PEER.PAIR_STAT_HOLDER, Reg.PEER.PAIR_STAT_ANA_3,
      Reg.PEER.PAIR_STAT_ANA_4, Reg.PEER.PAIR_STAT_OWN_3, Reg.PEER.PAIR_STAT_OWN_4]
  | .axis _ => [Reg.AXIS.AX_STAT_LIM_LO, Reg.AXIS.AX_STAT_LIM_HI, Reg.AXIS.AX_STAT_BRG_FAULT]
  | .spin _ => [Reg.SPIN.SPIN_STAT_DRV_FAULT]
  | .head _ => [Reg.HEAD.LINK_STAT_PRESENT, Reg.HEAD.WR_HSTAT_PENDING]
  | _ => []

/-- Fields of LOCK (R154). -/
def lockFields : List Fld := [Reg.HDR.LOCK_HELD, Reg.HDR.LOCK_OWNER, Reg.HDR.LOCK_KEY, Reg.HDR.LOCK_DENIED]

/-- A requester's own registers return to reset; its pending global commit ends without applying (log 122). An MCTP request that waits for
the fence is answered as after a timeout, for the fence did not complete (DESIGN CHOICE: R179 has one request at a time answered,
log 169). -/
def Chip.resetRequester (c : Chip) (r : Requester) : Chip :=
  let c := if (c.rq r).gcState = 1 then c.endGlobal r 4 else c
  let c := if r = .i3c ∧ c.mgmt.mctpBusy then { c with mgmt := { c.mgmt with mctpBusy := false, mctpResp := { status := 5 } } } else c
  c.modRq r fun q => { readData := q.readData, readHi := q.readHi }

/-- What of a block that no register of its own holds returns to its reset value. -/
def Chip.resetHidden (c : Chip) (p : Page) : Chip :=
  match p with
  | .sys => [Requester.host, .mgmt, .i3c].foldl Chip.resetRequester (c.wdogConfig true 100)
  | .clk =>
    let c := allPorts.foldl (fun (c : Chip) h => (if c.headGated h then c else c.gateCommits (headPage h)).modHd h fun x => { x with clkSince := none }) c
    if c.peerGated then c else c.gateCommits peerPage
  | .fault => { c with col := { c.col with cfg := [], cnt := [] }, pins := { c.pins with alertLow := false } }
  | .assay => c.modAssay fun a => { a with
      convs := [], nextSpin := 0, nextAxis := 0, nextAssay := 0, cycSpin := false, cycAxis := false, cycAssay := false
      lastSlot := none, refOut := false, stamps := [] }
  | .mem => c.modMem fun m => { m with scrubAt := 0 }
  | .cache => c.modMem fun m => { m with cacheFlip := false }
  | .sluice => c.wtForce false
  | .trace t => c.modTr t fun _ => {}
  | .spin n => c.modSp n fun _ => {}
  | .axis a => c.modAx a fun x => { encA := x.encA, encB := x.encB, loChange := x.loChange, hiChange := x.hiChange }
  | .head h =>
    let c := (c.linkDown h (if c.linkState h = 5 then 5 else 0)).modHd h fun x => {
      clkSince := x.clkSince, recorded := x.recorded, passLen := x.passLen, verifying := x.verifying, side := x.side, nextRsn := x.nextRsn, corr := x.corr
      startPow := x.startPow, layerOpen := x.layerOpen, topSlot := x.topSlot, riseAt := x.riseAt, fallAt := x.fallAt
      insertMs := x.insertMs, removeMs := x.removeMs }
    c.modSv h fun _ => {}
  | .beam h b => (c.immediateEnd h b 5 1).modBm h b fun x => { items := x.items, returned := x.returned, bank := x.bank }
  | .hall n => c.modHall n fun _ => {}
  | _ => c

/-- What follows the registers' return to reset. -/
def Chip.afterReset (c : Chip) (p : Page) : Chip :=
  match p with
  | .fault => allSpins.foldl (fun (c : Chip) n => c.spEbrakeEnd n) (allPorts.foldl Chip.updKill c)
  | .loop e => ((c.engSoftReset e).engStopped e).ownConflicts
  | .head h => (c.updRoles h).updKill h
  | .beam h b => c.put p Reg.BEAM.RD_STAT_ROLE (c.mapRole h b)
  | _ => c

/-- A soft reset of a page (R169): all its registers but LOCK; waiting commits of the page end and it is disarmed; PAGE_STAT
shows the reset in progress. -/
def Chip.softReset (c : Chip) (p : Page) : Chip :=
  let c := if enReset p = 0 then c.setEnable p false else c
  let absent := match p with
    | .head h => decide (c.linkState h = 5)
    | _ => false
  let c := (c.resetHidden p).unfreeze p
  let c := { c with cmdPages := c.cmdPages.filter fun q => !(q == p) }
  let kept := (lockFields ++ keptBySoftReset p).flatMap fun f => (List.range f.cnt).map fun i => (f, i, c.rdI p f i)
  let c := kept.foldl (fun (c : Chip) k => c.putI p k.1 k.2.1 k.2.2) (c.resetPage p)
  let c := if absent then c.put p Reg.HEAD.LINK_STAT_STATE 5 else c
  (c.afterReset p).put p Reg.HDR.PAGE_STAT_STATE 4

/-- SOFT_RESET is acted on: the page is disabled or quiesced, and its block stands still where its chapter asks for it (R169,
R518, R579, R780). -/
def Chip.mayReset (c : Chip) (p : Page) : Bool :=
  let st := c.rd p Reg.HDR.PAGE_STAT_STATE
  (st = 0 || st = 3) &&
    match p with
    | .spin n => [0, 1, 10].contains (c.spState n)
    | .axis a => [0, 1, 7].contains (c.axState a)
    | .hall _ => c.flag p Reg.HALL.HALL_STAT_IDLE
    | _ => true

/-- PAGE_CTL.SOFT_RESET. -/
def Chip.pageReset (c : Chip) (p : Page) : Chip := if c.mayReset p then c.softReset p else c

/-- R169. -/
def execPageSoftReset (r : Requester) (p : Page) (s : State) : Out := s.to fun c => c.write r p fun c => c.pageReset p

/-- R169: the reset completes. -/
def execSoftResetDone (p : Page) (s : State) : Out := s.to fun c => c.settle p

/-! ## The frame boundary (R37, R41, R157, R158) -/

/-- A sector or ingot commit of the page waits for a boundary of its beam: the beam reads or writes (R158). -/
def Chip.sectorBound (c : Chip) (p : Page) : Bool :=
  match p with
  | .beam h b => c.reads h b || c.wrActive h b
  | .hall n => match hallBeam n.val with
    | some (h, b) => decide (n.val < 80) && (c.reads h b || c.wrActive h b)
    | none => false
  | _ => false

/-- Local commits that apply at a servo frame boundary now. -/
def Chip.frameDue (c : Chip) : List Page :=
  (c.commits.filter fun k => k.owner.isNone && k.since + 5 ≤ c.now
    && !((k.boundary = 2 || k.boundary = 3) && c.sectorBound k.page)).map (·.page)

/-- A global commit whose target frame begins applies in all its pages (R41, R165). -/
def Chip.globalDue (c : Chip) (r : Requester) : Chip :=
  let q := c.rq r
  if q.gcState = 1 ∧ BitVec.ofNat 32 q.gcFrame = c.frameNum then
    ((c.submitted r).foldl Chip.commitPage c).modRq r fun q => { q with gcState := 2, gcResult := 1 }
  else c

/-- An engine that quiesces has come to the end of its frame (R419). -/
def Chip.engQuiesced (c : Chip) (e : Eng) : Chip :=
  if c.rd (.loop e) Reg.HDR.PAGE_STAT_STATE = 2 then (c.put (.loop e) Reg.HDR.PAGE_STAT_STATE 3).engStopped e else c

/-- The beam of a port whose wear warning has just been set enters the Event log (R860). -/
def Chip.wearEvents (old c : Chip) (h : Port) : Chip :=
  (List.range 5).foldl (fun (c : Chip) b =>
    if c.rdI (.head h) Reg.HEAD.LWEAR_WARNED b ≠ 0 ∧ old.rdI (.head h) Reg.HEAD.LWEAR_WARNED b = 0 then c.logEv 0x0004 (5 * h.val + b) else c) c

/-- The frame counter takes number `n` and the frame's start `t` (R37). -/
def Chip.beginFrame (c : Chip) (n : Word) (t : Nat) : Chip := { c with frameNum := n, frameStart := t }

/-- The work of the frame that has just begun: commits that are due, engines, and the servos of the ports. -/
def Chip.frameWork (c : Chip) : Chip :=
  let c := c.frameDue.foldl Chip.commitPage c
  let c := [Requester.host, .mgmt, .i3c].foldl Chip.globalDue c
  let c := (allEngs.foldl Chip.engQuiesced c).outFrame.latchMeas
  let c := allEngs.foldl Chip.engFrame c
  allPorts.foldl (fun (c : Chip) h => Chip.wearEvents c (c.servoFrame h) h) c

/-- Normal groups resume where the quench line of the port is no longer active (R259). -/
def Chip.resumeGroups (c : Chip) : Chip :=
  allPorts.foldl (fun (c : Chip) h =>
    if (c.hd h).held && !c.headQuenched h then c.modHd h fun x => { x with held := false } else c) c

/-- The start of the next servo frame; none of the frame's work moves the counter. -/
def Chip.nextFrame (c : Chip) : Chip :=
  let n := c.frameNum + 1
  let t := c.frameStart + 250
  ((c.until' t).beginFrame n t).resumeGroups.frameWork.beginFrame n t

/-- R37. -/
def execFrameBoundary (s : State) : Out := s.to fun c => if c.framesRunning then c.nextFrame else c

/-! ## The sector boundary (R157, R304, R336) -/

/-- A sector boundary under a beam: commits first, then zone and layer, then the next sector (R304, R336, R401). -/
def Chip.sectorBoundary (c : Chip) (h : Port) (b : BeamNo) : Chip :=
  let x := c.bm h b
  let ingot := if c.wrActive h b then c.rd (.beam h b) Reg.BEAM.WR_STAT_SECTOR = 17 else x.slotKind != 1 || x.sector = 17
  let c := (c.boundaryPages h b ingot).foldl Chip.commitPage c
  if c.wrActive h b then c.writeBoundary h b
  else if c.reads h b then c.readBoundary h b
  else c

/-- R304. -/
def execSectorBoundary (h : Port) (b : BeamNo) (s : State) : Out := s.to fun c => c.sectorBoundary h b

end Sys2Proof.Machine
end

