-- ==== Sys2Proof/Machine/RegRead.lean ====
section
/-!
DEFINITION. Register reads (R8, R9, R136, R139, R140, R174): what each word of a page returns, and what the read changes.
-/
namespace Sys2Proof.Machine

/-! ## The words of a page -/

/-- The block fields of a page's kind. -/
def blockFields : Page → List Fld
  | .sys => Reg.SYS.fields | .clk => Reg.CLK.fields | .fault => Reg.FAULT.fields | .assay => Reg.ASSAY.fields
  | .host => Reg.HOST.fields | .cmd => Reg.CMD.fields | .mem => Reg.MEM.fields | .cache => Reg.CACHE.fields
  | .sluice => Reg.SLUICE.fields | .polder => Reg.POLDER.fields | .inv => Reg.INV.fields | .rstore => Reg.RSTORE.fields
  | .peer => Reg.PEER.fields | .loop _ => Reg.LOOP.fields | .trace _ => Reg.TRACE.fields | .spin _ => Reg.SPIN.fields
  | .axis _ => Reg.AXIS.fields | .head _ => Reg.HEAD.fields | .beam _ _ => Reg.BEAM.fields | .hall _ => Reg.HALL.fields

/-- The last place of a table of odd length is reserved: c_15 of the equaliser and h_4 of the cancellers (R341, R343). -/
def noField (f : Fld) (i : Nat) : Bool :=
  (f = Reg.BEAM.EQ_TAP_C_HI && i = 7) || (f = Reg.BEAM.EQ_INIT_C_HI && i % 8 = 7)
    || ((f = Reg.BEAM.XT_TAP_L_H_HI || f = Reg.BEAM.XT_TAP_R_H_HI) && i = 3)

/-- The place of byte offset `off` in the words of a field. -/
def Fld.place (f : Fld) (off : Nat) : Option Nat :=
  if off < f.off then none
  else
    let i := (off - f.off) / f.stride
    if (off - f.off) % f.stride = 0 ∧ i < f.cnt ∧ !noField f i then some i else none

/-- The fields of the word at offset `off` of a page, with their places. -/
def wordFields (p : Page) (off : Nat) : List (Fld × Nat) :=
  (if off < 0x040 then Reg.HDR.fields else match p with
    | .beam _ _ => Reg.BEAM.fields
    | _ => blockFields p).filterMap fun f => (f.place off).map fun i => (f, i)

/-- A field as a read shows it (R9): the shadow of an RWS field, 0 for a W1P field. -/
def Chip.fieldRead (c : Chip) (p : Page) (f : Fld) (i : Nat) : Nat :=
  match f.acc with
  | .rws => c.shI p f i
  | .w1p => 0
  | _ => c.rdI p f i

/-- `x` with `v` in the `w` bits from `lo`. -/
def putBits (x lo w v : Nat) : Nat := x - slice lo w x * 2 ^ lo + v % 2 ^ w * 2 ^ lo

/-! ## What is read from elsewhere than the register store -/

/-- The selected entry of the active table (R667). -/
def Chip.activeEntry (c : Chip) : Option Polder :=
  ((c.lib.active.getD (c.rd .polder Reg.POLDER.ACT_SEL_ENTRY) none).map c.polder?).join

/-- CONSUMED of a side (R644). -/
def Chip.consumedCount (c : Chip) (disc side : Nat) : Nat :=
  ((List.range 8).map fun l => ((List.range 4).map fun j => (c.consumedOn disc side l j).length).sum).sum

/-- SPARE_MIN of a side (R644): 4,608 spare slots a spiral, less those that consumed slots have used. -/
def Chip.spareMin (c : Chip) (disc side : Nat) : Nat :=
  match (c.surf disc side).openLayer with
  | none => 0
  | some l => (List.range 4).foldl (fun a j => min a (4608 - ((c.consumedOn disc side l j).filter (384 ≤ ·)).length)) 4608

/-- LAYERS entry of a side and layer (R644): ingots, consumed slots, weak ingots. -/
def Chip.layerEntry (c : Chip) (disc : Nat) (r : InvRec) (k : Nat) : List (Nat × Nat × Nat) :=
  let side := k / 8
  let l := k % 8
  let s := c.surf disc side
  let ingots := ((List.range 4).map fun j =>
    if s.closed.contains l then (assocGet (l * 4 + j) s.ingots).getD 0 else c.countOn disc side l j).sum
  let used := ((List.range 4).map fun j => (c.consumedOn disc side l j).length).sum
  [(224 + 8 * k, 4, ingots), (228 + 8 * k, 2, min 65535 used), (230 + 8 * k, 2, min 65535 (r.weakLayer.getD k 0))]

/-- The 512 bytes of an inventory record (R644). -/
def Chip.invBytes (c0 : Chip) (slot : Nat) : List Byte :=
  let c := allPorts.foldl Chip.syncSurf c0
  let r := c.inv slot
  let hist := (List.range 8).flatMap fun i => match r.history[i]? with
    | some (t, rows, weak, rep) =>
      [(96 + 16 * i, 8, t), (104 + 16 * i, 4, rows), (108 + 16 * i, 2, min 65535 weak), (110 + 16 * i, 2, min 65535 rep)]
    | none => []
  let body := layout 508 (fun _ => 0)
    ([(0, 4, slot), (4, 1, r.state), (5, 1, r.spindle), (6, 1, r.media), (7, 1, r.position), (8, 8, r.discId), (16, 8, r.polder),
      (24, 4, r.firstRow), (28, 4, r.lastRow), (32, 2, r.maker), (34, 2, r.batch), (36, 4, r.mounts), (40, 8, r.tRecorded),
      (48, 8, r.tMounted), (56, 8, r.tWalked), (64, 4, r.walkNext)] ++
     [(68, 4, c.consumedCount slot 0), (72, 4, c.consumedCount slot 1), (76, 2, c.spareMin slot 0), (78, 2, c.spareMin slot 1),
      (80, 4, r.weak), (84, 4, r.repaired), (88, 2, r.marginA), (90, 2, r.marginB), (92, 4, r.pderMax)] ++
     hist ++ (List.range 16).flatMap (c.layerEntry slot r))
  body ++ bytesLE 4 (crc crc32c (body.map (·.toNat)))

/-- Word WORD of the record that REC_SLOT selects (R671). -/
def Chip.invWord (c : Chip) : Nat :=
  let w := c.rd .inv Reg.INV.REC_SLOT_WORD
  leNat (((c.invBytes (c.rd .inv Reg.INV.REC_SLOT_SLOT)).drop (4 * w)).take 4)

/-- The selected converter (R622). -/
def Chip.selConv (c : Chip) : Nat := 128 + min 13 (c.rd .assay Reg.ASSAY.CONV_SEL_INDEX)

/-- Whole milliseconds between two moments, saturating at 16 bits. -/
def sinceMs (t now : Nat) : Nat := min 65535 ((now - t) / ms 1)

/-- Bytes of the partner's batches in the mirror region: their charges (R753, R819). -/
def Chip.mirrorHeld (c : Chip) : Nat := (c.peer.mirror.map fun e => 4160 * e.2.nlb + 64).sum

/-- The level of PEER_FENCE_N is low: one net, which either controller pulls down (R85). -/
def Chip.fenceNet (c : Chip) : Bool := c.pins.fenceNetLow || c.pins.fenceDrive

/-- The head island of port `h` runs on its local clock: lane 0 of the uplink is not locked (R16). -/
def Chip.clkLocal (c : Chip) (h : Port) : Bool := c.rd (.head h) Reg.HDR.PAGE_STAT_CLK_LOCAL != 0

/-- The peer island runs on its local clock: pairing runs and its lanes are not trained (R14). With pairing off the bit keeps its reset value
0 (DESIGN CHOICE: R146 gives 0 and R14 a fallback clock, log 167). -/
def Chip.peerLocal (c : Chip) : Bool := c.enabled .peer && c.peer.lanes == 0

/-- The bits of PAGE_STAT that follow the state (R146), with CLK_LOCAL as given. -/
def Chip.statLive (c : Chip) (p : Page) (clk : Nat) : List (Nat × Nat × Nat) :=
  let st := c.rd p Reg.HDR.PAGE_STAT_STATE
  [(3, 1, b2n (st == 0 || st == 3)), (5, 1, clk), (6, 1, b2n (c.frozen p))]

/-- Bits of a word that come from elsewhere: first bit, width, value. -/
def Chip.live (c : Chip) (r : Requester) (p : Page) (off : Nat) : List (Nat × Nat × Nat) :=
  let q := c.rq r
  match p, off with
  | .sys, 0x040 => [(1, 1, b2n q.fence.done), (2, 1, b2n q.fence.timeout), (8, 2, q.fence.scope), (16, 8, q.fence.skipped)]
  | .sys, 0x044 => [(0, 32, c.frameNum.toNat)]
  | .sys, 0x048 => [(0, 32, q.frameTb)]
  | .sys, 0x04C => [(0, 32, q.frameTb / 2 ^ 32)]
  | .sys, 0x070 => [(0, 32, q.target)]
  | .sys, 0x074 => [(2, 2, q.gcState), (4, 4, q.gcResult), (16, 9, (c.armedPages r).length)]
  | .clk, 0x044 => [(0, 16, bitSet 16 fun n => match unitOf 16 0 n with | some h => c.headGated h | none => false)]
  | .clk, 0x048 => [(0, 1, b2n c.peerGated)]
  | .clk, 0x04C => [(16, 16, c.pins.presentLow)]
  | .fault, 0x040 => [(17, 1, b2n (srcPage (c.rd .fault Reg.FAULT.SRC_SEL_SOURCE)).isSome)]
  | .fault, 0x044 => [(0, 32, c.srcCfgWord)]
  | .fault, 0x048 =>
    let id := c.rd .fault Reg.FAULT.SRC_SEL_SOURCE
    [(0, 32, if (srcPage id).isSome then (c.col.cfgOf id).react else 0)]
  | .fault, 0x04C => [(0, 32, c.srcStatWord)]
  | .fault, 0x054 => [(0, 32, c.recWord)]
  | .fault, 0x05C => [(0, 11, (c.col.recs.filter fun e => !(e.2.acked && e.2.copied)).length), (11, 11, (c.col.recs.filter fun e => !e.2.acked).length)]
  | .fault, 0x060 => match c.col.oldest fun x => !x.copied with
    | some i => [(0, 10, i), (10, 1, 0)]
    | none => [(0, 10, 0), (10, 1, 1)]
  | .assay, 0x08C => [(0, 16, toBits 16 (c.conv c.selConv).ofs)]
  | .assay, 0x090 => [(0, 32, (c.conv c.selConv).gain)]
  | .assay, 0x094 => [(0, 16, min 65535 (c.conv c.selConv).cals), (16, 8, min 255 (c.conv c.selConv).rejects)]
  | .host, 0x048 => [(0, 16, 0x1F48), (16, 16, 0x0816)]
  | .polder, 0x048 => [(0, 32, (c.activeEntry.map (·.id)).getD 0)]
  | .polder, 0x04C => [(0, 32, (c.activeEntry.map (·.id)).getD 0 / 2 ^ 32)]
  | .polder, 0x050 => match c.activeEntry with
    | some x => [(0, 3, x.st.code), (3, 8, c.mountedBits x), (16, 16, x.lagMask)]
    | none => []
  | .polder, 0x054 => [(0, 24, (c.activeEntry.map (·.nextQ)).getD 0)]
  | .polder, 0x058 => match c.activeEntry with
    | some x => [(0, 24, x.compQ), (24, 4, min 15 x.targets.length)]
    | none => []
  | .inv, 0x048 => [(0, 32, c.invWord)]
  | .peer, 0x044 => [(10, 1, b2n c.fenceNet), (11, 1, b2n c.pins.fenceDrive)]
  | .peer, 0x050 => [(0, 16, sinceMs (if c.isHolder then c.peer.s else c.peer.changeAt) c.now)]
  | .peer, 0x058 => [(0, 16, divUp c.mirrorHeld 1048576)]
  | .axis a, 0x0B0 => [(0, 32, toBits 32 (c.ax a).pos)]
  | .axis a, 0x0B4 => [(0, 32, toBits 32 (c.ax a).enc)]
  | .axis a, 0x0B8 => [(0, 32, toBits 32 (c.axE a))]
  | .axis a, 0x0C0 => [(0, 25, toBits 25 (c.ax a).vel)]
  | .head h, 0x044 => [(7, 1, b2n (bit c.pins.presentLow h.val))]
  | .head h, 0x008 => c.statLive p (b2n (c.clkLocal h))
  | .hall _, 0x008 => c.statLive p (match p.island with | .head h => b2n (c.clkLocal h) | .peer => b2n c.peerLocal | _ => 0)
  | .peer, 0x008 => c.statLive p (b2n c.peerLocal)
  | _, 0x008 => c.statLive p 0
  | _, 0x018 => [(0, 32, bitSet (srcCount p) fun n => (c.col.openRec (srcBase p + n)).isSome)]
  | _, 0x028 => [(6, 1, b2n (c.flag p Reg.HDR.LOCK_HELD && c.rd p Reg.HDR.LOCK_OWNER == r.code))]
  | _, _ => []

/-- The word at offset `off` of a page as requester `r` reads it; 0 where there is no register (R139). -/
def Chip.wordAt (c : Chip) (r : Requester) (p : Page) (off : Nat) : Nat :=
  let w := (wordFields p off).foldl (fun w e => putBits w e.1.lo e.1.w (c.fieldRead p e.1 e.2)) 0
  (c.live r p off).foldl (fun w e => putBits w e.1 e.2.1 e.2.2) w

/-! ## What a read changes -/

/-- RC fields clear after the read (R9); pointers advance (R671, R808); FRAME_NUM latches (R38). -/
def Chip.afterRead (c : Chip) (r : Requester) (p : Page) (off : Nat) : Chip :=
  let c := (wordFields p off).foldl (fun (c : Chip) e => if e.1.acc = .rc then c.putI p e.1 e.2 0 else c) c
  match p, off with
  | .sys, 0x044 => c.latchFrame r
  | .fault, 0x054 => c.recStep
  | .assay, 0x094 => c.setConv c.selConv { c.conv c.selConv with rejects := 0 }
  | .inv, 0x048 => c.put .inv Reg.INV.REC_SLOT_WORD (c.rd .inv Reg.INV.REC_SLOT_WORD + 1)
  | _, _ => c

/-- One 32-bit read of a register page by requester `r` (R139, R169, R174). -/
def Chip.pageRead (c : Chip) (r : Requester) (p : Page) (off : Nat) : Chip :=
  c.readPort r p fun c =>
    match p, off with
    | .loop e, 0x058 => c.engMemRead r e
    | .trace t, 0x084 => c.traceRead r t
    | _, _ => (c.answer r (c.wordAt r p off)).afterRead r p off

/-! ## The NVMe register window (R136) -/

/-- A property of controller `n`: CAP, VS, CC, CSTS, AQA, ASQ and ACQ as the spec gives them (R678, R683) or as written, the rest
open (log 120). Doorbells are written only. -/
def Chip.property (c : Chip) (n off : Nat) : Nat :=
  let x := c.ctl n
  let base := (Config.nvmeProperty off).toNat
  if off = 0x00 then 4095 + 2 ^ 16 + 2 ^ 17 + 12 * 2 ^ 24
  else if off = 0x04 then putBits (putBits base 0 4 0) 16 4 0
  else if off = 0x08 then 0x00020000
  else if off = 0x14 then putBits (putBits (c.prop n off) 0 1 (b2n x.en)) 11 3 x.ams
  else if off = 0x1C then putBits (putBits (putBits (putBits base 0 1 (b2n x.rdy)) 1 1 (b2n x.cfs)) 2 2 x.shst) 5 1 (b2n x.pp)
  else if 0x24 ≤ off ∧ off < 0x38 then c.prop n off
  else base

/-- One 32-bit read at a byte address of the register space. -/
def Chip.read32 (c : Chip) (r : Requester) (addr : Nat) : Chip :=
  match Page.ofNum (addr / 4096) with
  | some p => c.pageRead r p (addr % 4096)
  | none =>
    if addr < 0x4000 ∧ r = .host then c.answer r (c.property 0 addr)
    else (c.answer r 0).regFault 2

/-- One 32-bit read in the 16 KiB window of virtual function `n` (R136): nothing lies past it. -/
def Chip.vfRead (c : Chip) (n addr : Nat) : Chip := c.answer .host (if addr < 0x4000 then c.property n addr else 0)

/-- What the requester has read, as two words. -/
def Chip.answer2 (c : Chip) (r : Requester) (lo hi : Word) : Chip := c.modRq r fun q => { q with readData := lo, readHi := hi }

/-- The bytes addressed by a narrower read. -/
def Chip.narrow (c : Chip) (r : Requester) (lane bytes : Nat) : Chip :=
  c.answer r ((c.rq r).readData.toNat / 256 ^ lane % 256 ^ bytes)

/-- A register read (R140): a 64-bit one is two 32-bit reads, lower address first; a narrower one returns the addressed bytes; a
misaligned one returns zeros. `rd` reads one word. -/
def Chip.readWith (c : Chip) (r : Requester) (rd : Chip → Nat → Chip) (size : AccSize) (addr : Nat) : Chip :=
  match size with
  | .b1 => (rd c (addr / 4 * 4)).narrow r (addr % 4) 1
  | .b2 => if addr % 2 = 0 then (rd c (addr / 4 * 4)).narrow r (addr % 4) 2 else (c.answer r 0).regFault 3
  | .b4 => if addr % 4 = 0 then rd c addr else (c.answer r 0).regFault 3
  | .b8 =>
    if addr % 8 = 0 then
      let c := rd c addr
      let lo := (c.rq r).readData
      let c := rd c (addr + 4)
      c.answer2 r lo (c.rq r).readData
    else (c.answer2 r 0 0).regFault 3

/-- A read of the register space (R140). -/
def Chip.readReg (c : Chip) (r : Requester) (size : AccSize) (addr : Nat) : Chip :=
  c.readWith r (fun c a => c.read32 r a) size addr

/-- R8, R136, R140, R174: `n` is the function through whose BAR0 the host reads; a virtual one has its own window alone. -/
def execRegisterRead (r : Requester) (n : Ctrl) (size : AccSize) (addr : BitVec 24) (s : State) : Out :=
  s.to fun c =>
    if !c.hears r then c
    else if r = .host ∧ n ≠ 0 then c.readWith r (fun c a => c.vfRead n.val a) size addr.toNat
    else c.readReg r size addr.toNat

end Sys2Proof.Machine
end

