-- ==== Sys2Proof/Machine/RegWrite.lean ====
section
/-!
DEFINITION. Register writes (R139, R140, R159, R171, R174, R868) and the register access handler of the I3C path (R176 to R179).
-/
namespace Sys2Proof.Machine

/-! ## Stage 1 (R868): fields take their values -/

/-- The configuration fields of a hallmark unit with a fixed setting are RO (R775, R777). -/
def fixedField (p : Page) (f : Fld) : Bool :=
  match p with
  | .hall n => f.acc = .rws && !hallConfigurable n
  | _ => false

/-- One field of a written word. -/
def Chip.fieldWrite (c : Chip) (p : Page) (w : Nat) (e : Fld × Nat) : Chip :=
  let v := slice e.1.lo e.1.w w
  match e.1.acc with
  | .rw => c.putI p e.1 e.2 v
  | .rws => if c.frozen p || fixedField p e.1 then c else c.putShI p e.1 e.2 v
  | .w1c => c.putI p e.1 e.2 (c.rdI p e.1 e.2 &&& (2 ^ e.1.w - 1 - v))
  | _ => c

/-- A command register of R490, R516 or R568 at this offset. -/
def isCommand (p : Page) (off : Nat) : Bool :=
  match p with
  | .spin _ => off = 0x040
  | .axis _ => off = 0x040
  | .head _ => off = 0x100
  | _ => false

/-- Stage 1 of a write: RW, RWS and W1C fields. A write to a frozen shadow is lost, once per write (R159). -/
def Chip.wordWrite (c : Chip) (p : Page) (off w : Nat) : Chip :=
  let fs := wordFields p off
  let lost := c.frozen p && fs.any fun e => e.1.acc = .rws && !fixedField p e.1
  let c := if lost then c.writeLost p else c
  let c := if isCommand p off && !lost then { c with cmdPages := c.cmdPages.filter (fun q => !(q == p)) ++ [p] } else c
  fs.foldl (fun (c : Chip) e => c.fieldWrite p w e) c

/-- `f` where bit `n` of `w` is 1. -/
def Chip.onBit (c : Chip) (w n : Nat) (f : Chip → Chip) : Chip := if bit w n then f c else c

/-! ## Words with an effect of their own -/

/-- PAGE_CTL (R144). -/
def Chip.pageCtlWrite (c : Chip) (p : Page) (w : Nat) : Chip :=
  (((c.setEnable p (bit w 0)).setQuiesce p (bit w 1))).onBit w 2 fun c => c.pageReset p

/-- LOCK (R154). -/
def Chip.lockWrite (c : Chip) (r : Requester) (p : Page) (w : Nat) : Chip :=
  let c := c.put p Reg.HDR.LOCK_KEY (slice 8 8 w)
  ((c.onBit w 0 fun c => c.lockAcquire r p).onBit w 1 fun c => c.lockRelease r p).onBit w 2 fun c => c.lockBreak r p

/-- SYS.FENCE (R33, R35). -/
def Chip.fenceWrite (c : Chip) (r : Requester) (w : Nat) : Chip :=
  let c := c.modRq r fun q => { q with fence := { q.fence with scope := slice 8 2 w } }
  c.onBit w 0 fun c => c.fenceStart r (slice 8 2 w)

/-- Words of the SYS page. -/
def Chip.sysWrite (c : Chip) (off w : Nat) : Chip :=
  match off with
  | 0x050 => ((c.wdogConfig (bit w 0) (slice 8 16 w)).onBit w 1 Chip.wdogPeriod).onBit w 2 Chip.restartRequest
  | 0x064 => c.resetCtl w
  | _ => c.wordWrite .sys off w

/-- CLK.OPU_CLK (R280): DEVCLK of a port starts or stops; one without an OPU waits for it (R277). -/
def Chip.opuClkWrite (c : Chip) (w : Nat) : Chip :=
  let old := c.rd .clk Reg.CLK.OPU_CLK_DEVCLK_EN
  let c := c.wordWrite .clk 0x040 w
  allPorts.foldl (fun (c : Chip) h =>
    if bit w h.val && !bit old h.val && c.linkState h != 5 then
      c.modHd h fun x => { x with clkSince := some c.now }
    else if !bit w h.val then c.modHd h fun x => { x with clkSince := none }
    else c) c

/-- Words of the CLK page. -/
def Chip.clkWrite (c : Chip) (off w : Nat) : Chip :=
  match off with
  | 0x040 => c.opuClkWrite w
  | 0x044 => allPorts.foldl (fun (c : Chip) h => c.gateHead h (bit w h.val)) c
  | 0x048 => c.peerGateWrite (bit w 0) (bit w 1)
  | _ => c.wordWrite .clk off w

/-- Words of the FAULT page (R795, R798, R799, R804, R807 to R809). -/
def Chip.faultWrite (c : Chip) (off w : Nat) : Chip :=
  match off with
  | 0x040 => (c.wordWrite .fault off w).onBit w 16 Chip.srcRestore
  | 0x044 => c.srcCfgWrite w
  | 0x048 => c.srcReactWrite w
  | 0x050 => (c.wordWrite .fault off w).put .fault Reg.FAULT.REC_SEL_WORD 0
  | 0x058 => (((c.recAckFields (slice 0 10 w) (slice 16 14 w)).onBit w 10 Chip.recAck)).onBit w 11 Chip.recCopied
  | 0x068 => (c.wordWrite .fault off w).onBit w 1 Chip.alertRelease
  | 0x06C => c.headLines w
  | 0x070 => c.spinLines w
  | 0x074 => c.releaseAxes w
  | _ => c.wordWrite .fault off w

/-- CACHE.OP_CTL (R746, R764). -/
def Chip.opCtlWrite (c : Chip) (w : Nat) : Chip :=
  let op := slice 0 3 w
  let c := c.put .cache Reg.CACHE.OP_CTL_OP op
  if !bit w 3 then c
  else match op with
    | 1 => c.cacheOp 1 Chip.zeroLineOp
    | 2 => c.cacheOp 2 fun c l => c.lineOp l true false
    | 3 => c.cacheOp 3 fun c l => c.lineOp l false true
    | 4 => c.cacheOp 4 fun c l => c.lineOp l true true
    | _ => c

/-- Words of the CACHE page. -/
def Chip.cacheWrite (c : Chip) (off w : Nat) : Chip :=
  match off with
  | 0x040 => (c.onBit w 0 Chip.cacheInvAll).onBit w 1 Chip.cacheCleanAll
  | 0x04C => c.opCtlWrite w
  | 0x058 => if bit w 29 then c.cacheFlipArm w else c.wordWrite .cache off w
  | _ => c.wordWrite .cache off w

/-- Words of a LOOP page (R443 to R448, R454 to R457). -/
def Chip.loopWrite (c : Chip) (e : Eng) (off w : Nat) : Chip :=
  match off with
  | 0x040 =>
    let c := c.put (.loop e) Reg.LOOP.ENG_CTL_VAL_BANK (slice 2 1 w)
    let c := c.bankWrite e (slice 3 1 w)
    (c.onBit w 0 fun c => c.bankCopy e).onBit w 1 fun c => c.bankValidate e
  | 0x044 => (c.wordWrite (.loop e) off w).ownConflicts
  | 0x04C => c.ownWrite e false w
  | 0x050 => c.ownWrite e true w
  | 0x058 => (c.engMemWrite e (c.rd (.loop e) Reg.LOOP.MEM_ADDR_ADDR) w).engAutoInc e
  | _ => c.wordWrite (.loop e) off w

/-- Words of a HEAD page. -/
def Chip.headWrite (c : Chip) (h : Port) (off w : Nat) (env : WriteEnv) : Chip :=
  let p : Page := .head h
  match off with
  | 0x040 => (c.wordWrite p off w).onBit w 0 fun c => c.trainGo h env.opu
  | 0x058 => c.armGo h (bit w 0)
  | 0x05C => (c.wordWrite p off w).modHd h fun x => { x with insertMs := slice 0 8 w, removeMs := slice 8 8 w }
  | 0x060 => (c.wordWrite p off w).onBit w 0 fun c => c.hkGo h
  | 0x0C0 => ((c.wordWrite p off w).updRoles h).onBit w 2 fun c => c.fifoMinReset h
  | 0x190 => (c.wordWrite p off w).modSv h fun x => { x with kappaWrite := some c.frameNum.toNat }
  | 0x194 => (c.wordWrite p off w).modSv h fun x => { x with kappaWrite := some c.frameNum.toNat }
  | 0x1A0 => (c.wordWrite p off w).onBit w 2 fun c => c.clearRunout h
  | _ => c.wordWrite p off w

/-- Adaptation that is turned off is no longer steady (R604). -/
def Chip.steadyCheck (c : Chip) (h : Port) (b : BeamNo) : Chip :=
  if c.adaptOn h b then c else c.modBm h b fun x => { x with steady := false }

/-- Words of a BEAM page (R302, R308, R402). -/
def Chip.beamWrite (c : Chip) (h : Port) (b : BeamNo) (off w : Nat) : Chip :=
  let p : Page := .beam h b
  match off with
  | 0x040 => (c.wordWrite p off w).steadyCheck h b
  | 0x048 => (c.wordWrite p off w).steadyCheck h b
  | 0x050 => ((c.wordWrite p off w).steadyCheck h b).onBit w 7 fun c => c.eqSnap h b
  | 0x100 => ((c.wordWrite p off w).onBit w 4 fun c => c.writeStop h b).onBit w 5 fun c => c.linkCause h b 5 true
  | _ => c.wordWrite p off w

/-- A block register of a page (R868): the fields, then the actions in ascending bit order. -/
def Chip.blockWrite (c : Chip) (p : Page) (off w : Nat) (env : WriteEnv) : Chip :=
  match p with
  | .sys => c.sysWrite off w
  | .clk => c.clkWrite off w
  | .fault => c.faultWrite off w
  | .cache => c.cacheWrite off w
  | .loop e => c.loopWrite e off w
  | .head h => c.headWrite h off w env
  | .beam h b => c.beamWrite h b off w
  | .assay =>
    let c := c.wordWrite p off w
    if off = 0x098 then c.onBit w 16 fun c => (c.event .assay 2).modAssay fun x => { x with storeReq := true } else c
  | .host =>
    let c := c.wordWrite p off w
    if off = 0x044 then c.onBit w 6 fun c => (c.inc .host Reg.HOST.LINK_STAT_RETRAINS).event .host 0 else c
  | .mem => if off = 0x05C ∧ bit w 29 then c.memFlipArm w else c.wordWrite p off w
  | .sluice =>
    if off = 0x040 then (c.wtForce (bit w 2)).onBit w 1 fun c => c.modSluice fun s => { s with due := true }
    else c.wordWrite p off w
  | .rstore =>
    if off = 0x054 then
      (((c.onBit w 0 fun c => c.pkgHold 0).onBit w 1 fun c => c.pkgHold 1).onBit w 2 fun c => c.pkgReplace 0 env.found).onBit w 3
        fun c => c.pkgReplace 1 env.found
    else c.wordWrite p off w
  | .peer =>
    let c := c.wordWrite p off w
    if off = 0x040 then (c.onBit w 2 fun c => c.unfence env.high).onBit w 3 Chip.handBack else c
  | .inv =>
    let c := c.wordWrite p off w
    if off = 0x044 then c.put .inv Reg.INV.REC_SLOT_WORD 0 else c
  | .trace t =>
    let c := c.wordWrite p off w
    if off = 0x040 then ((c.onBit w 0 fun c => c.traceArm t).onBit w 1 fun c => c.traceStop t).onBit w 3 fun c => c.traceForce t
    else c
  | .axis a =>
    let c := c.wordWrite p off w
    if off = 0x0AC then (c.onBit w 0 fun c => c.axLimitClr a false).onBit w 1 fun c => c.axLimitClr a true else c
  | .hall n =>
    let c := c.wordWrite p off w
    if off = 0x064 then (c.onBit w 0 fun c => c.hallRestart n).onBit w 1 fun c => c.hallFeed n else c
  | _ => c.wordWrite p off w

/-- A write that reaches the page. -/
def Chip.pageWrite (c : Chip) (r : Requester) (p : Page) (off w : Nat) (env : WriteEnv) : Chip :=
  match off with
  | 0x004 => c.pageCtlWrite p w
  | 0x014 => c.intForce p w
  | 0x01C => c.faultForce p w
  | 0x024 => c.shadowWrite r p w
  | _ => c.blockWrite p off w env

/-- CC of controller `n` (R124, R719, R721): EN enables and resets, SHN shuts down. -/
def Chip.ccWrite (c : Chip) (n w : Nat) : Chip :=
  let was := (c.ctl n).en
  let c := c.setProp n 0x14 w
  let c := if bit w 0 && !was then c.ctrlEnable n (slice 11 3 w) (slice 0 12 (c.prop n 0x24)) (slice 16 12 (c.prop n 0x24))
    else if !bit w 0 && was then c.ctrlReset n
    else c
  if slice 14 2 w = 0 then c else c.shutdown n (slice 14 2 w == 2)

/-- A word written in the NVMe register window of controller `n` (R95, R136, R678): CC, NSSR, AQA, ASQ, ACQ and the doorbells; the other
properties take no effect of it (log 120). -/
def Chip.windowWrite (c : Chip) (n off w : Nat) : Chip :=
  if off = 0x14 then c.ccWrite n w
  else if off = 0x20 then (if w = 0x4E564D65 then c.hostReset Reg.SYS.RESET_CAUSE_NSSR else c)
  else if 0x24 ≤ off ∧ off < 0x38 then c.setProp n off w
  else if off < 0x1000 ∨ !(c.ctl n).en then c
  else if off / 4 % 2 = 0 then c.sqDoorbell n ((off - 0x1000) / 8) (w % 65536)
  else c.cqDoorbell n ((off - 0x1000) / 8) (w % 65536)

/-- One 32-bit write at a byte address of the register space by requester `r` (R136, R139, R171, R172, R174). -/
def Chip.write32 (c : Chip) (r : Requester) (addr w : Nat) (env : WriteEnv) : Chip :=
  let off := addr % 4096
  match Page.ofNum (addr / 4096) with
  | none => if addr < 0x4000 ∧ r = .host then c.windowWrite 0 addr w else c.regFault 2
  | some p =>
    if off = 0x028 then c.writeFree r p fun c => c.lockWrite r p w
    else if p = .sys ∧ off = 0x040 then c.writeFree r p fun c => c.fenceWrite r w
    else if p = .sys ∧ off = 0x070 then c.writeFree r p fun c => c.modRq r fun q => { q with target := w }
    else if p = .sys ∧ off = 0x074 then
      c.writeFree r p fun c => (c.onBit w 0 fun c => c.globalGo r).onBit w 1 fun c => c.globalCancel r
    else c.write r p fun c => c.pageWrite r p off w env

/-- A register write (R140): a 64-bit one is two 32-bit writes, lower address first; a narrower or misaligned one is discarded. `wr`
writes one word. -/
def Chip.writeWith (c : Chip) (wr : Chip → Nat → Nat → Chip) (size : AccSize) (addr lo hi : Nat) : Chip :=
  match size with
  | .b4 => if addr % 4 = 0 then wr c addr lo else c.regFault 3
  | .b8 => if addr % 8 = 0 then wr (wr c addr lo) (addr + 4) hi else c.regFault 3
  | _ => c.regFault 3

/-- A write to the register space (R140). -/
def Chip.writeReg (c : Chip) (r : Requester) (size : AccSize) (addr lo hi : Nat) (env : WriteEnv) : Chip :=
  c.writeWith (fun c a w => c.write32 r a w env) size addr lo hi

/-- R136, R868: `n` is the function through whose BAR0 the host writes; a virtual one has its own window alone. -/
def execRegisterWrite (r : Requester) (n : Ctrl) (size : AccSize) (addr : BitVec 24) (lo hi : Word) (env : WriteEnv) (s : State) : Out :=
  s.to fun c =>
    if !c.hears r then c
    else if r = .host ∧ n ≠ 0 then
      c.writeWith (fun c a w => if a < 0x4000 then c.windowWrite n.val a w else c) size addr.toNat lo.toNat hi.toNat
    else c.writeReg r size addr.toNat lo.toNat hi.toNat env

/-! ## Register access over MCTP (R176 to R179) -/

/-- The handler's response. -/
def Chip.mctpAnswer (c : Chip) (a : McResp) : Chip := { c with mgmt := { c.mgmt with mctpResp := a } }

/-- The PCI vendor ID (R725). -/
def vendorId : BitVec 16 := 0x1F48

/-- Number that bytes `i` to `i + n − 1` of a body spell, little-endian; bytes past the end are 0. -/
def mcNum (m : McMsg) (i n : Nat) : Nat := leNat ((m.body.drop i).take n)

/-- The message is one for the register access handler: vendor defined (PCI), with the controller's vendor ID (R177). -/
def mcMine (m : McMsg) : Bool := m.typ == 0x7E && m.vendor == vendorId

/-- OPCODE, and COUNT or SCOPE, PAGE and OFFSET of a request's body (R177). -/
def mcOpcode (m : McMsg) : Nat := mcNum m 0 1
def mcCount (m : McMsg) : Nat := mcNum m 1 1
def mcPage (m : McMsg) : Nat := mcNum m 2 2
def mcOffset (m : McMsg) : Nat := mcNum m 4 2
/-- DATA of a write: whole words from byte 6 on. -/
def mcWords (m : McMsg) : List Word := (List.range ((m.body.length - 6) / 4)).map fun i => BitVec.ofNat 32 (mcNum m (6 + 4 * i) 4)

/-- A register request that may run (R177, R178): with its integrity check, 1 to 16 words that lie in one page, and a body of the
length that a read or a write of COUNT words has. -/
def mcOk (m : McMsg) : Bool :=
  m.check && 1 ≤ mcCount m && mcCount m ≤ 16 && mcPage m < 0x1000 && mcOffset m % 4 = 0 && mcOffset m + 4 * mcCount m ≤ 4096
    && m.body.length == (if (mcOpcode m) = 2 then 6 + 4 * (mcCount m) else 6)

/-- The bytes of a response (R177). -/
def McResp.body (a : McResp) : List Byte := BitVec.ofNat 8 a.status :: a.data.flatMap fun w => bytesLE 4 w.toNat

/-- The status of one word's access: absent or unmapped page, or a write discarded under the lock (R171, R172, R177). A write that is
discarded for another reason (a frozen shadow, R159; an arm conflict, R164) counts as done (DESIGN CHOICE: R177 has no status for
it, log 165). -/
def Chip.wordStatus (c : Chip) (wr : Bool) (page off : Nat) : Nat :=
  match Page.ofNum page with
  | none => 1
  | some p =>
    if !c.pageUp p then 2
    else if wr && off != 0x028 && !(p = .sys && (off = 0x040 || off = 0x070 || off = 0x074)) && !c.mayWrite .i3c p then 3
    else 0

/-- Runs one request while no other is served; before step 2 of start-up no one answers (R176, R179). -/
def Chip.mctpServe (c : Chip) (f : Chip → Chip) : Chip :=
  if !c.isl.aonUp then c
  else if c.mgmt.mctpBusy then c.mctpAnswer { busy := true }
  else f c

/-- Reads `n` words from an address on; what they returned so far is `acc`. -/
def Chip.mctpReads : Nat → Nat → List Word → Chip → List Word × Chip
  | 0, _, acc, c => (acc, c)
  | n + 1, addr, acc, c =>
    let c := c.read32 .i3c addr
    c.mctpReads n (addr + 4) (acc ++ [(c.rq .i3c).readData])

/-- Writes words from an address on; `st` is the status of the first that was not completed. -/
def Chip.mctpWrites (env : WriteEnv) : List Word → Nat → Nat → Chip → Nat × Chip
  | [], _, st, c => (st, c)
  | w :: r, addr, st, c =>
    let k := c.wordStatus true (addr / 4096) (addr % 4096)
    (c.write32 .i3c addr w.toNat env).mctpWrites env r (addr + 4) (if st = 0 then k else st)

/-- The read of a request's words, and its answer. -/
def Chip.mctpRead (c : Chip) (m : McMsg) : Chip :=
  let st := c.wordStatus false (mcPage m) (mcOffset m)
  let x := c.mctpReads (mcCount m) (mcPage m * 4096 + mcOffset m) []
  x.2.mctpAnswer { status := st, data := x.1 }

/-- The write of a request's words, and its answer. -/
def Chip.mctpWrite (c : Chip) (m : McMsg) (env : WriteEnv) : Chip :=
  let x := c.mctpWrites env (mcWords m) (mcPage m * 4096 + mcOffset m) 0
  x.2.mctpAnswer { status := x.1 }

/-- The fence of a request (R177): FENCE_COMPLETE or FENCE_TIMEOUT answers it. Where a fence of the I3C requester runs already, started
by a write of SYS.FENCE, none is started: SCOPE takes its value (R33) and the end of the running fence answers the request
(DESIGN CHOICE: R177 does not say, log 166). A body that is not two bytes long is malformed. -/
def Chip.mctpFence (c : Chip) (m : McMsg) : Chip :=
  if !m.check || 4 ≤ mcCount m || m.body.length != 2 then c.mctpAnswer { status := 4 }
  else (c.fenceStart .i3c (mcCount m)).modMgmt fun m => { m with mctpBusy := true }

/-- R177: a read request. A request of an OPCODE that R177 does not name is malformed; one that writes or fences comes as its own
row's command, and a message that is not for the handler leaves it alone. -/
def execMctpRead (m : McMsg) (s : State) : Out :=
  s.to fun c =>
    if !mcMine m || mcOpcode m = 2 || mcOpcode m = 3 then c
    else c.mctpServe fun c => if (mcOpcode m) = 1 && mcOk m then c.mctpRead m else c.mctpAnswer { status := 4 }

/-- R177: a write request. -/
def execMctpWrite (m : McMsg) (env : WriteEnv) (s : State) : Out :=
  s.to fun c =>
    if !mcMine m || mcOpcode m != 2 then c
    else c.mctpServe fun c => if mcOk m then c.mctpWrite m env else c.mctpAnswer { status := 4 }

/-- R177: a fence request. -/
def execMctpFence (m : McMsg) (s : State) : Out :=
  s.to fun c => if !mcMine m || mcOpcode m != 3 then c else c.mctpServe fun c => c.mctpFence m

end Sys2Proof.Machine
end

