-- ==== Sys2Proof/Machine/Dispatch.lean ====
section
/-!
DEFINITION. One arm per command: the call of its meaning.
-/
namespace Sys2Proof.Machine
/-- The effect of a command on everything but the queue. -/
def exec (i : Instr) (s : State) : Host.Outcome State Fault Refusal :=
  match i with
  | .powerOn => Sys2Proof.Machine.execPowerOn s
  | .resetNPulse => Sys2Proof.Machine.execResetNPulse s
  | .resetNRelease x e => Sys2Proof.Machine.execResetNRelease x e s
  | .softChipReset r key retainEn => Sys2Proof.Machine.execSoftChipReset r key retainEn s
  | .perstNAssert => Sys2Proof.Machine.execPerstNAssert s
  | .perstNDeassert => Sys2Proof.Machine.execPerstNDeassert s
  | .nvmSubsystemReset nssrc => Sys2Proof.Machine.execNvmSubsystemReset nssrc s
  | .trstNLow => Sys2Proof.Machine.execTrstNLow s
  | .brownoutCore e => Sys2Proof.Machine.execBrownoutCore e s
  | .brownoutAon e => Sys2Proof.Machine.execBrownoutAon e s
  | .pwrGoodLoss e => Sys2Proof.Machine.execPwrGoodLoss e s
  | .flushRestart => Sys2Proof.Machine.execFlushRestart s
  | .islandScrubDone h => Sys2Proof.Machine.execIslandScrubDone h s
  | .rstoreMount f0 f1 => Sys2Proof.Machine.execRstoreMount f0 f1 s
  | .nandIntentRecovery => Sys2Proof.Machine.execNandIntentRecovery s
  | .calibrationLoad => Sys2Proof.Machine.execCalibrationLoad s
  | .inventoryZoneLoad => Sys2Proof.Machine.execInventoryZoneLoad s
  | .journalReplay bad => Sys2Proof.Machine.execJournalReplay bad s
  | .rstoreResync pkg => Sys2Proof.Machine.execRstoreResync pkg s
  | .faultRecordCopy x => Sys2Proof.Machine.execFaultRecordCopy x s
  | .registerWrite r n size addr lo hi env => Sys2Proof.Machine.execRegisterWrite r n size addr lo hi env s
  | .fenceStart r scope => Sys2Proof.Machine.execFenceStart r scope s
  | .fenceComplete r => Sys2Proof.Machine.execFenceComplete r s
  | .fenceTimeout r => Sys2Proof.Machine.execFenceTimeout r s
  | .frameNumRead r => Sys2Proof.Machine.execFrameNumRead r s
  | .frameBoundary => Sys2Proof.Machine.execFrameBoundary s
  | .localCommit r p b => Sys2Proof.Machine.execLocalCommit r p b s
  | .pageArm r p => Sys2Proof.Machine.execPageArm r p s
  | .shadowDiscard r p => Sys2Proof.Machine.execShadowDiscard r p s
  | .globalCommitGo r => Sys2Proof.Machine.execGlobalCommitGo r s
  | .globalCommitArmDistribute r => Sys2Proof.Machine.execGlobalCommitArmDistribute r s
  | .globalCommitCancel r => Sys2Proof.Machine.execGlobalCommitCancel r s
  | .lockAcquire r p => Sys2Proof.Machine.execLockAcquire r p s
  | .lockRelease r p => Sys2Proof.Machine.execLockRelease r p s
  | .lockBreak r p key => Sys2Proof.Machine.execLockBreak r p key s
  | .pageEnable r p en => Sys2Proof.Machine.execPageEnable r p en s
  | .quiesceRequest r p on => Sys2Proof.Machine.execQuiesceRequest r p on s
  | .quiesceDone p => Sys2Proof.Machine.execQuiesceDone p s
  | .pageSoftReset r p => Sys2Proof.Machine.execPageSoftReset r p s
  | .softResetDone p => Sys2Proof.Machine.execSoftResetDone p s
  | .intForce r p m => Sys2Proof.Machine.execIntForce r p m s
  | .faultForce r p m => Sys2Proof.Machine.execFaultForce r p m s
  | .mctpRead m => Sys2Proof.Machine.execMctpRead m s
  | .mctpWrite m env => Sys2Proof.Machine.execMctpWrite m env s
  | .mctpFence m => Sys2Proof.Machine.execMctpFence m s
  | .headGateWrite r gate => Sys2Proof.Machine.execHeadGateWrite r gate s
  | .crossingDelivery x dest unit overflow => Sys2Proof.Machine.execCrossingDelivery x dest unit overflow s
  | .watchdogKick r => Sys2Proof.Machine.execWatchdogKick r s
  | .watchdogConfigWrite r en timeoutMs => Sys2Proof.Machine.execWatchdogConfigWrite r en timeoutMs s
  | .watchdogExpiry => Sys2Proof.Machine.execWatchdogExpiry s
  | .mgmtRestartRequest r => Sys2Proof.Machine.execMgmtRestartRequest r s
  | .mgmtCoresResume => Sys2Proof.Machine.execMgmtCoresResume s
  | .adminResume => Sys2Proof.Machine.execAdminResume s
  | .linkTrain r h a => Sys2Proof.Machine.execLinkTrain r h a s
  | .autoRetrain h a => Sys2Proof.Machine.execAutoRetrain h a s
  | .uplinkFrame h u => Sys2Proof.Machine.execUplinkFrame h u s
  | .downlinkFrame h => Sys2Proof.Machine.execDownlinkFrame h s
  | .frameCutoff => Sys2Proof.Machine.execFrameCutoff s
  | .hkRequest r h wr count addr => Sys2Proof.Machine.execHkRequest r h wr count addr s
  | .hkResponse h status data => Sys2Proof.Machine.execHkResponse h status data s
  | .hkTimeout h => Sys2Proof.Machine.execHkTimeout h s
  | .dlMarginPoll h m => Sys2Proof.Machine.execDlMarginPoll h m s
  | .opuTempPoll h status => Sys2Proof.Machine.execOpuTempPoll h status s
  | .laserArm r h on => Sys2Proof.Machine.execLaserArm r h on s
  | .presentNRise h => Sys2Proof.Machine.execPresentNRise h s
  | .opuRemoved h => Sys2Proof.Machine.execOpuRemoved h s
  | .presentGlitch h => Sys2Proof.Machine.execPresentGlitch h s
  | .opuInserted h => Sys2Proof.Machine.execOpuInserted h s
  | .beamSegmentField h b m => Sys2Proof.Machine.execBeamSegmentField h b m s
  | .slotStart h b => Sys2Proof.Machine.execSlotStart h b s
  | .sectorBoundary h b => Sys2Proof.Machine.execSectorBoundary h b s
  | .cancellerDeadline h b absent newRun => Sys2Proof.Machine.execCancellerDeadline h b absent newRun s
  | .sectorDecodeDone h b ks => Sys2Proof.Machine.execSectorDecodeDone h b ks s
  | .decodeDeadline h b => Sys2Proof.Machine.execDecodeDeadline h b s
  | .outerRecovery h b => Sys2Proof.Machine.execOuterRecovery h b s
  | .eqSnap r h b => Sys2Proof.Machine.execEqSnap r h b s
  | .writeWorkItem h b w => Sys2Proof.Machine.execWriteWorkItem h b w s
  | .runMissed h b => Sys2Proof.Machine.execRunMissed h b s
  | .sectorPayload h b => Sys2Proof.Machine.execSectorPayload h b s
  | .sectorEncodeDone h b => Sys2Proof.Machine.execSectorEncodeDone h b s
  | .dataLate h b => Sys2Proof.Machine.execDataLate h b s
  | .writeSectorEnd h b mon => Sys2Proof.Machine.execWriteSectorEnd h b mon s
  | .writeStop r h b => Sys2Proof.Machine.execWriteStop r h b s
  | .writeAbort r h b => Sys2Proof.Machine.execWriteAbort r h b s
  | .writeLinkingEnd h b => Sys2Proof.Machine.execWriteLinkingEnd h b s
  | .verifyResult h b layer spiral slot rsn checks => Sys2Proof.Machine.execVerifyResult h b layer spiral slot rsn checks s
  | .secondPassVerify h => Sys2Proof.Machine.execSecondPassVerify h s
  | .verifyTrailOut h => Sys2Proof.Machine.execVerifyTrailOut h s
  | .powerTest h area e => Sys2Proof.Machine.execPowerTest h area e s
  | .layerOpen h layer sectors bank => Sys2Proof.Machine.execLayerOpen h layer sectors bank s
  | .fifoMinReset r h => Sys2Proof.Machine.execFifoMinReset r h s
  | .opRead e ecc => Sys2Proof.Machine.execOpRead e ecc s
  | .opBiquad e ecc => Sys2Proof.Machine.execOpBiquad e ecc s
  | .opAdd e ecc => Sys2Proof.Machine.execOpAdd e ecc s
  | .opSub e ecc => Sys2Proof.Machine.execOpSub e ecc s
  | .opMul e ecc => Sys2Proof.Machine.execOpMul e ecc s
  | .opShift e ecc => Sys2Proof.Machine.execOpShift e ecc s
  | .opLimit e ecc => Sys2Proof.Machine.execOpLimit e ecc s
  | .opMinsel e ecc => Sys2Proof.Machine.execOpMinsel e ecc s
  | .opWrite e ecc => Sys2Proof.Machine.execOpWrite e ecc s
  | .opGclose e ecc => Sys2Proof.Machine.execOpGclose e ecc s
  | .opMark e ecc => Sys2Proof.Machine.execOpMark e ecc s
  | .opNop e ecc => Sys2Proof.Machine.execOpNop e ecc s
  | .bankCopy r e => Sys2Proof.Machine.execBankCopy r e s
  | .bankCopyDone e => Sys2Proof.Machine.execBankCopyDone e s
  | .bankValidate r e valBank => Sys2Proof.Machine.execBankValidate r e valBank s
  | .bankValidateDone e => Sys2Proof.Machine.execBankValidateDone e s
  | .engineMemAccess r e w => Sys2Proof.Machine.execEngineMemAccess r e w s
  | .ownershipWrite r e axes v => Sys2Proof.Machine.execOwnershipWrite r e axes v s
  | .bankSelectWrite r e b => Sys2Proof.Machine.execBankSelectWrite r e b s
  | .traceArm r t => Sys2Proof.Machine.execTraceArm r t s
  | .traceStop r t => Sys2Proof.Machine.execTraceStop r t s
  | .traceForce r t => Sys2Proof.Machine.execTraceForce r t s
  | .traceSample t => Sys2Proof.Machine.execTraceSample t s
  | .traceRead r t => Sys2Proof.Machine.execTraceRead r t s
  | .servoFieldDecode h b f => Sys2Proof.Machine.execServoFieldDecode h b f s
  | .srvAcquire h layer turn => Sys2Proof.Machine.execSrvAcquire h layer turn s
  | .srvSeek h layer turn => Sys2Proof.Machine.execSrvSeek h layer turn s
  | .seekFail h => Sys2Proof.Machine.execSeekFail h s
  | .srvPark h => Sys2Proof.Machine.execSrvPark h s
  | .parkDone h => Sys2Proof.Machine.execParkDone h s
  | .srvStop h => Sys2Proof.Machine.execSrvStop h s
  | .srvCommandReject h cmd layer turn => Sys2Proof.Machine.execSrvCommandReject h cmd layer turn s
  | .kappaRefine h => Sys2Proof.Machine.execKappaRefine h s
  | .servoFail h => Sys2Proof.Machine.execServoFail h s
  | .runoutClear r h => Sys2Proof.Machine.execRunoutClear r h s
  | .spinStart n => Sys2Proof.Machine.execSpinStart n s
  | .spinBrake n => Sys2Proof.Machine.execSpinBrake n s
  | .spinCoast n => Sys2Proof.Machine.execSpinCoast n s
  | .spinOff n => Sys2Proof.Machine.execSpinOff n s
  | .spinClear n => Sys2Proof.Machine.execSpinClear n s
  | .spinCommandReject n cmd => Sys2Proof.Machine.execSpinCommandReject n cmd s
  | .driverWake n => Sys2Proof.Machine.execDriverWake n s
  | .pwmPeriod n x v late => Sys2Proof.Machine.execPwmPeriod n x v late s
  | .detectAttempt n t => Sys2Proof.Machine.execDetectAttempt n t s
  | .rmeasDone n ampl mean => Sys2Proof.Machine.execRmeasDone n ampl mean s
  | .alignDone n => Sys2Proof.Machine.execAlignDone n s
  | .breakawayTimeout n => Sys2Proof.Machine.execBreakawayTimeout n s
  | .catchTimeout n => Sys2Proof.Machine.execCatchTimeout n s
  | .startFail n => Sys2Proof.Machine.execStartFail n s
  | .setpointLost n => Sys2Proof.Machine.execSetpointLost n s
  | .backEmfEdge n x mv dt => Sys2Proof.Machine.execBackEmfEdge n x mv dt s
  | .spinEdgeTimeout n => Sys2Proof.Machine.execSpinEdgeTimeout n s
  | .drvFault n high => Sys2Proof.Machine.execDrvFault n high s
  | .axisHome a => Sys2Proof.Machine.execAxisHome a s
  | .homeSettle a => Sys2Proof.Machine.execHomeSettle a s
  | .axisMove a => Sys2Proof.Machine.execAxisMove a s
  | .axisFollow a => Sys2Proof.Machine.execAxisFollow a s
  | .axisStop a => Sys2Proof.Machine.execAxisStop a s
  | .axisHold a => Sys2Proof.Machine.execAxisHold a s
  | .axisRelease a => Sys2Proof.Machine.execAxisRelease a s
  | .axisClear a => Sys2Proof.Machine.execAxisClear a s
  | .axisCommandReject a cmd => Sys2Proof.Machine.execAxisCommandReject a cmd s
  | .axisFrameUpdate a => Sys2Proof.Machine.execAxisFrameUpdate a s
  | .chopperPeriod a iA iB late => Sys2Proof.Machine.execChopperPeriod a iA iB late s
  | .holdDelayExpiry a => Sys2Proof.Machine.execHoldDelayExpiry a s
  | .encoderEdge a A B n => Sys2Proof.Machine.execEncoderEdge a A B n s
  | .indexEvent a n => Sys2Proof.Machine.execIndexEvent a n s
  | .encoderSpeedTimeout a => Sys2Proof.Machine.execEncoderSpeedTimeout a s
  | .limitAccept a hi level => Sys2Proof.Machine.execLimitAccept a hi level s
  | .limitChatter a hi n => Sys2Proof.Machine.execLimitChatter a hi n s
  | .limitClear r a hi => Sys2Proof.Machine.execLimitClear r a hi s
  | .targetLost a => Sys2Proof.Machine.execTargetLost a s
  | .brgFault a high => Sys2Proof.Machine.execBrgFault a high s
  | .calSlot x => Sys2Proof.Machine.execCalSlot x s
  | .refOffsetMeasure ppm => Sys2Proof.Machine.execRefOffsetMeasure ppm s
  | .tempConversion dv => Sys2Proof.Machine.execTempConversion dv s
  | .tempDeadline n => Sys2Proof.Machine.execTempDeadline n s
  | .vholdSample raw => Sys2Proof.Machine.execVholdSample raw s
  | .capTestDue => Sys2Proof.Machine.execCapTestDue s
  | .capTestRequest r => Sys2Proof.Machine.execCapTestRequest r s
  | .capTestEnd => Sys2Proof.Machine.execCapTestEnd s
  | .writeThroughEnter nsid => Sys2Proof.Machine.execWriteThroughEnter nsid s
  | .writeThroughLeave nsid => Sys2Proof.Machine.execWriteThroughLeave nsid s
  | .wtForceWrite r b => Sys2Proof.Machine.execWtForceWrite r b s
  | .partialRowTimeout nsid zone => Sys2Proof.Machine.execPartialRowTimeout nsid zone s
  | .captureCalibration h b => Sys2Proof.Machine.execCaptureCalibration h b s
  | .interpolationCommit h => Sys2Proof.Machine.execInterpolationCommit h s
  | .portEnableCommit ports => Sys2Proof.Machine.execPortEnableCommit ports s
  | .calibrationItemWrite slot => Sys2Proof.Machine.execCalibrationItemWrite slot s
  | .calStoreRequest r => Sys2Proof.Machine.execCalStoreRequest r s
  | .calStore => Sys2Proof.Machine.execCalStore s
  | .calStoreAbandon => Sys2Proof.Machine.execCalStoreAbandon s
  | .hallRestart r n => Sys2Proof.Machine.execHallRestart r n s
  | .hallFeed r n d => Sys2Proof.Machine.execHallFeed r n d s
  | .hallCommitRelease n => Sys2Proof.Machine.execHallCommitRelease n s
  | .hallParity n => Sys2Proof.Machine.execHallParity n s
  | .faultMessage x parity => Sys2Proof.Machine.execFaultMessage x parity s
  | .faultCapture parity => Sys2Proof.Machine.execFaultCapture parity s
  | .faultWindowStart src b => Sys2Proof.Machine.execFaultWindowStart src b s
  | .alertMinExpiry => Sys2Proof.Machine.execAlertMinExpiry s
  | .alertRelease r => Sys2Proof.Machine.execAlertRelease r s
  | .quenchHeadRelease r ports => Sys2Proof.Machine.execQuenchHeadRelease r ports s
  | .quenchSpinRelease r spins => Sys2Proof.Machine.execQuenchSpinRelease r spins s
  | .quenchAxisRelease r axes => Sys2Proof.Machine.execQuenchAxisRelease r axes s
  | .recAck r x count => Sys2Proof.Machine.execRecAck r x count s
  | .recCopied r x count => Sys2Proof.Machine.execRecCopied r x count s
  | .recDataRead r => Sys2Proof.Machine.execRecDataRead r s
  | .srcRestore r src => Sys2Proof.Machine.execSrcRestore r src s
  | .srcCfgWrite r w => Sys2Proof.Machine.execSrcCfgWrite r w s
  | .configParityCheck bad => Sys2Proof.Machine.execConfigParityCheck bad s
  | .sqDoorbell n qid tail => Sys2Proof.Machine.execSqDoorbell n qid tail s
  | .cqDoorbell n qid head => Sys2Proof.Machine.execCqDoorbell n qid head s
  | .commandFetch e => Sys2Proof.Machine.execCommandFetch e s
  | .cmdDmaDone slot r => Sys2Proof.Machine.execCmdDmaDone slot r s
  | .mountTimeout slot => Sys2Proof.Machine.execMountTimeout slot s
  | .ioWrite slot => Sys2Proof.Machine.execIoWrite slot s
  | .ioRead slot => Sys2Proof.Machine.execIoRead slot s
  | .ioFlush slot => Sys2Proof.Machine.execIoFlush slot s
  | .ioCompare slot => Sys2Proof.Machine.execIoCompare slot s
  | .ioWriteZeroes slot => Sys2Proof.Machine.execIoWriteZeroes slot s
  | .ioVerify slot => Sys2Proof.Machine.execIoVerify slot s
  | .zoneAppend slot => Sys2Proof.Machine.execZoneAppend slot s
  | .zoneOpen slot => Sys2Proof.Machine.execZoneOpen slot s
  | .zoneClose slot => Sys2Proof.Machine.execZoneClose slot s
  | .zoneFinish slot => Sys2Proof.Machine.execZoneFinish slot s
  | .zoneReset slot => Sys2Proof.Machine.execZoneReset slot s
  | .zoneOfflineAction slot => Sys2Proof.Machine.execZoneOfflineAction slot s
  | .setZoneDescriptorExtension slot => Sys2Proof.Machine.execSetZoneDescriptorExtension slot s
  | .reportZones slot => Sys2Proof.Machine.execReportZones slot s
  | .unsupportedIoCommand slot => Sys2Proof.Machine.execUnsupportedIoCommand slot s
  | .createIoSq slot => Sys2Proof.Machine.execCreateIoSq slot s
  | .deleteIoSq slot => Sys2Proof.Machine.execDeleteIoSq slot s
  | .createIoCq slot => Sys2Proof.Machine.execCreateIoCq slot s
  | .deleteIoCq slot => Sys2Proof.Machine.execDeleteIoCq slot s
  | .getLogPage slot => Sys2Proof.Machine.execGetLogPage slot s
  | .identify slot => Sys2Proof.Machine.execIdentify slot s
  | .abort slot => Sys2Proof.Machine.execAbort slot s
  | .setFeatures slot d => Sys2Proof.Machine.execSetFeatures slot d s
  | .getFeatures slot => Sys2Proof.Machine.execGetFeatures slot s
  | .asyncEventRequest slot => Sys2Proof.Machine.execAsyncEventRequest slot s
  | .namespaceManagement slot d => Sys2Proof.Machine.execNamespaceManagement slot d s
  | .namespaceAttachment slot d => Sys2Proof.Machine.execNamespaceAttachment slot d s
  | .firmwareImageDownload slot => Sys2Proof.Machine.execFirmwareImageDownload slot s
  | .firmwareCommit slot img => Sys2Proof.Machine.execFirmwareCommit slot img s
  | .firmwareRevert => Sys2Proof.Machine.execFirmwareRevert s
  | .deviceSelfTest slot => Sys2Proof.Machine.execDeviceSelfTest slot s
  | .keepAlive slot => Sys2Proof.Machine.execKeepAlive slot s
  | .keepAliveExpired n => Sys2Proof.Machine.execKeepAliveExpired n s
  | .virtualizationManagement slot => Sys2Proof.Machine.execVirtualizationManagement slot s
  | .nvmeMiSend slot d => Sys2Proof.Machine.execNvmeMiSend slot d s
  | .nvmeMiReceive slot => Sys2Proof.Machine.execNvmeMiReceive slot s
  | .formatNvm slot resumed => Sys2Proof.Machine.execFormatNvm slot resumed s
  | .sanitize slot => Sys2Proof.Machine.execSanitize slot s
  | .sanitizeResume => Sys2Proof.Machine.execSanitizeResume s
  | .libraryGeometryWrite slot d => Sys2Proof.Machine.execLibraryGeometryWrite slot d s
  | .zoneMigrate slot => Sys2Proof.Machine.execZoneMigrate slot s
  | .unsupportedAdminCommand slot => Sys2Proof.Machine.execUnsupportedAdminCommand slot s
  | .controllerEnable n ams asqs acqs => Sys2Proof.Machine.execControllerEnable n ams asqs acqs s
  | .controllerReset n => Sys2Proof.Machine.execControllerReset n s
  | .functionLevelReset n => Sys2Proof.Machine.execFunctionLevelReset n s
  | .controllerShutdown n abrupt => Sys2Proof.Machine.execControllerShutdown n abrupt s
  | .pcieLinkTraining speed width => Sys2Proof.Machine.execPcieLinkTraining speed width s
  | .pcieLinkDown byHost => Sys2Proof.Machine.execPcieLinkDown byHost s
  | .pcieRetrain r => Sys2Proof.Machine.execPcieRetrain r s
  | .stripeRowReconstruct polder q sec h b differs => Sys2Proof.Machine.execStripeRowReconstruct polder q sec h b differs s
  | .erasureRetry polder q sec => Sys2Proof.Machine.execErasureRetry polder q sec s
  | .directoryWrite polder => Sys2Proof.Machine.execDirectoryWrite polder s
  | .directoryLoad polder ok => Sys2Proof.Machine.execDirectoryLoad polder ok s
  | .spindleRequest n => Sys2Proof.Machine.execSpindleRequest n s
  | .discMount n peer st => Sys2Proof.Machine.execDiscMount n peer st s
  | .discUnmount n peer st => Sys2Proof.Machine.execDiscUnmount n peer st s
  | .pickFail => Sys2Proof.Machine.execPickFail s
  | .pickerRecovery off => Sys2Proof.Machine.execPickerRecovery off s
  | .memberLost polder member disc => Sys2Proof.Machine.execMemberLost polder member disc s
  | .completionStart polder => Sys2Proof.Machine.execCompletionStart polder s
  | .completionRow polder member bad => Sys2Proof.Machine.execCompletionRow polder member bad s
  | .dikeWalkUnit n len now marginA marginB pder ws => Sys2Proof.Machine.execDikeWalkUnit n len now marginA marginB pder ws s
  | .ingotRepair => Sys2Proof.Machine.execIngotRepair s
  | .beamRetire h b => Sys2Proof.Machine.execBeamRetire h b s
  | .opuRetired h => Sys2Proof.Machine.execOpuRetired h s
  | .surfaceFinalise h reason cut => Sys2Proof.Machine.execSurfaceFinalise h reason cut s
  | .slotMapAppend h layer => Sys2Proof.Machine.execSlotMapAppend h layer s
  | .layerClose h layer => Sys2Proof.Machine.execLayerClose h layer s
  | .burn n side layer bad => Sys2Proof.Machine.execBurn n side layer bad s
  | .memoryScrubStep upset owner => Sys2Proof.Machine.execMemoryScrubStep upset owner s
  | .memFlipArm r w => Sys2Proof.Machine.execMemFlipArm r w s
  | .cacheZeroLine r => Sys2Proof.Machine.execCacheZeroLine r s
  | .cacheCleanLine r => Sys2Proof.Machine.execCacheCleanLine r s
  | .cacheInvalidateLine r => Sys2Proof.Machine.execCacheInvalidateLine r s
  | .cacheCleanInvalidateLine r => Sys2Proof.Machine.execCacheCleanInvalidateLine r s
  | .cacheInvAll r => Sys2Proof.Machine.execCacheInvAll r s
  | .cacheCleanAll r => Sys2Proof.Machine.execCacheCleanAll r s
  | .cacheFlipArm r w => Sys2Proof.Machine.execCacheFlipArm r w s
  | .victimWritebackDone => Sys2Proof.Machine.execVictimWritebackDone s
  | .cacheTagLost set way => Sys2Proof.Machine.execCacheTagLost set way s
  | .daxHello h m => Sys2Proof.Machine.execDaxHello h m s
  | .daxHeartbeat h m => Sys2Proof.Machine.execDaxHeartbeat h m s
  | .daxNak h mirror => Sys2Proof.Machine.execDaxNak h mirror s
  | .daxFrameDrop mirror => Sys2Proof.Machine.execDaxFrameDrop mirror s
  | .daxResendTimeout mirror => Sys2Proof.Machine.execDaxResendTimeout mirror s
  | .heartbeatSend => Sys2Proof.Machine.execHeartbeatSend s
  | .heartbeatMiss => Sys2Proof.Machine.execHeartbeatMiss s
  | .daxLinkLoss cause => Sys2Proof.Machine.execDaxLinkLoss cause s
  | .mirrorData h own b => Sys2Proof.Machine.execMirrorData h own b s
  | .mirrorAck h seq stored => Sys2Proof.Machine.execMirrorAck h seq stored s
  | .daxRelease h seqs => Sys2Proof.Machine.execDaxRelease h seqs s
  | .releaseAck h seqs => Sys2Proof.Machine.execReleaseAck h seqs s
  | .recoverReq h lo hi => Sys2Proof.Machine.execRecoverReq h lo hi s
  | .tableUpdate h t => Sys2Proof.Machine.execTableUpdate h t s
  | .pickReq h num cls unmount disc station => Sys2Proof.Machine.execPickReq h num cls unmount disc station s
  | .pickDone h unmount disc station result => Sys2Proof.Machine.execPickDone h unmount disc station result s
  | .fwdCmd h slot e => Sys2Proof.Machine.execFwdCmd h slot e s
  | .fwdData h slot bs => Sys2Proof.Machine.execFwdData h slot bs s
  | .fwdCpl h slot r => Sys2Proof.Machine.execFwdCpl h slot r s
  | .leasePoll => Sys2Proof.Machine.execLeasePoll s
  | .leaseRenew => Sys2Proof.Machine.execLeaseRenew s
  | .witnessResponse a => Sys2Proof.Machine.execWitnessResponse a s
  | .witnessTimeout => Sys2Proof.Machine.execWitnessTimeout s
  | .leasePickerStop => Sys2Proof.Machine.execLeasePickerStop s
  | .leaseLost => Sys2Proof.Machine.execLeaseLost s
  | .witnessStatusWrite => Sys2Proof.Machine.execWitnessStatusWrite s
  | .pickerGateOpen => Sys2Proof.Machine.execPickerGateOpen s
  | .pickerGateClose => Sys2Proof.Machine.execPickerGateClose s
  | .splitNonholder => Sys2Proof.Machine.execSplitNonholder s
  | .takeover => Sys2Proof.Machine.execTakeover s
  | .peerFenceLow high => Sys2Proof.Machine.execPeerFenceLow high s
  | .fenceAssert => Sys2Proof.Machine.execFenceAssert s
  | .unfence r high => Sys2Proof.Machine.execUnfence r high s
  | .pairJoin => Sys2Proof.Machine.execPairJoin s
  | .handback r => Sys2Proof.Machine.execHandback r s
  | .wearLevelMove pkg after => Sys2Proof.Machine.execWearLevelMove pkg after s
  | .nandProgramFail pkg erase => Sys2Proof.Machine.execNandProgramFail pkg erase s
  | .packageHold r pkg => Sys2Proof.Machine.execPackageHold r pkg s
  | .packageReplace r pkg found => Sys2Proof.Machine.execPackageReplace r pkg found s
  | .laserWearRead => Sys2Proof.Machine.execLaserWearRead s
  | .lifeSumUpdate => Sys2Proof.Machine.execLifeSumUpdate s
  | .pllUnlock x => Sys2Proof.Machine.execPllUnlock x s
  | .daxLinkTrained lanes => Sys2Proof.Machine.execDaxLinkTrained lanes s
  | .daxTrainingFail => Sys2Proof.Machine.execDaxTrainingFail s
  | .nvmeMiMctpMessage d admin => Sys2Proof.Machine.execNvmeMiMctpMessage d admin s
  | .peerGateWrite r gate solo => Sys2Proof.Machine.execPeerGateWrite r gate solo s
  | .focusRecoveryTimeout h => Sys2Proof.Machine.execFocusRecoveryTimeout h s
  | .registerRead r n size addr => Sys2Proof.Machine.execRegisterRead r n size addr s
end Sys2Proof.Machine
end

