-- ==== Sys2Proof/Machine/Outputs.lean ====
section
/-!
DEFINITION. What the block shows outside besides registers: the levels of its output pins and the page interrupts, as functions of the
state (R64, R65, R67, R148, R149, R510, R514, R515, R554, R722), and the transfers to the witness (R824 to R826).
-/
namespace Sys2Proof.Machine

/-- Level of an output: not driven or released, low, high. -/
inductive Level where
  | z
  | low
  | high
  deriving DecidableEq, Repr

/-- An output of the pad ring: not driven while VDD_IO lies below 0.9 V (R64). -/
def Chip.pad (c : Chip) (high : Bool) : Level := if !c.pins.vddIo then .z else if high then .high else .low

/-! ## Spindle gates (R65, R510, R514, R515) -/

/-- Gates of one phase. -/
structure Gates where
  high : Bool := false
  low : Bool := false
  deriving DecidableEq, Repr

/-- The interlock of the pad ring (R65): asked for both gates of a phase it drives neither (DESIGN CHOICE: R65 does not say which, log
178). -/
def Gates.interlock (g : Gates) : Gates := ⟨g.high && !g.low, g.low && !g.high⟩

/-- Twice the distance in ticks of this moment from the middle of a period of `n` servo frames. -/
def Chip.fromMid (c : Chip) (n : Nat) : Nat :=
  let t := (c.frameNum.toNat % n) * 250 + (c.now - c.frameStart)
  ((2 * t : Int) - (250 * n : Nat)).natAbs

/-- Gates of a phase of duty `d` (16 fraction bits) at twice the distance `m` from the middle of its period of `n` frames (R510). -/
def dutyGates (d m n dead : Nat) : Gates :=
  { high := decide (m * 65536 < d * (250 * n)), low := decide (5 * d * (250 * n) + 4 * dead * 65536 ≤ 5 * m * 65536) }

/-- The gates that the commutator asks for in phases A, B and C (R510, R515, R531, R541). The pulses of DETECT are not shown: their rise
times come with DETECT_ATTEMPT (log 178). -/
def Chip.gatesAsked (c : Chip) (n : Spin) : List Gates :=
  let x := c.sp n
  let all := fun (g : Gates) => [g, g, g]
  let run := [x.dA, x.dB, x.dC].map fun d => dutyGates d (c.fromMid x.pwmDiv) x.pwmDiv x.deadtime
  match c.spState n with
  | 2 => if x.measuring ∧ x.ocLow = 0 then run else all {}
  | 3 => if x.ocLow = 0 then run else all {}
  | 4 => if x.ocLow = 0 then run else all {}
  | 5 => if x.ocLow = 0 then run else all {}
  | 6 => if x.ocLow = 0 then run else all {}
  | 7 => all { low := true }
  | 8 => if x.chopOpen then all {} else all { low := true }
  | _ => all {}

/-- The gates of a spindle as the pad ring drives them (R65). -/
def Chip.gates (c : Chip) (n : Spin) : List Gates :=
  (if c.islandUp .spindle then c.gatesAsked n else [{}, {}, {}]).map Gates.interlock

/-- SPs_GH_A to SPs_GH_C. -/
def Chip.pinGH (c : Chip) (n : Spin) : List Level := (c.gates n).map fun g => c.pad g.high
/-- SPs_GL_A to SPs_GL_C. -/
def Chip.pinGL (c : Chip) (n : Spin) : List Level := (c.gates n).map fun g => c.pad g.low
/-- SPs_DRV_EN (R514): high in every state but OFF and FAULT, and during a driver wake (R515). -/
def Chip.pinDrvEn (c : Chip) (n : Spin) : Level :=
  c.pad (c.islandUp .spindle && ((c.spState n != 0 && c.spState n != 10) || (c.sp n).wakeAt.isSome))

/-! ## Bridge inputs of the axes (R61, R554) -/

/-- The two inputs of a coil of demand `w` and duty `d` (28 fraction bits); the first is high for a positive demand (log 178). -/
def Chip.coilInputs (c : Chip) (a : Axis) (w : Int) (d : Nat) : List Bool :=
  let n := (c.ax a).chop
  if c.axCurrent a = 0 then [false, false]
  else if c.fromMid n * 2 ^ 28 < d * (250 * n) then [decide (0 ≤ w), decide (w < 0)]
  else
    let slow := !c.flag (.axis a) Reg.AXIS.AX_STAT_STRONG
    [slow, slow]

/-- AXaa_IN_A1, A2, B1 and B2. -/
def Chip.pinAxisIn (c : Chip) (a : Axis) : List Level :=
  let w := c.axDemands a
  let l := if c.islandUp .axis then c.coilInputs a w.1 (c.ax a).dutyA ++ c.coilInputs a w.2 (c.ax a).dutyB else List.replicate 4 false
  l.map c.pad

/-! ## The other outputs (R67) -/

/-- OPUnn_LASER_KILL_N (R83, R271). -/
def Chip.pinKill (c : Chip) (h : Port) : Level := c.pad (bit c.pins.killHigh h.val)
/-- HOLD_TEST. -/
def Chip.pinHoldTest (c : Chip) : Level := c.pad c.pins.holdTest
/-- ALERT_N, open drain. -/
def Chip.pinAlert (c : Chip) : Level := if c.pins.vddIo && c.pins.alertLow then .low else .z
/-- PEER_FENCE_N as this controller drives it, open drain (R85). -/
def Chip.pinFence (c : Chip) : Level := if c.pins.vddIo && c.pins.fenceDrive then .low else .z
/-- CLKREQ_N: no rule of the spec drives it low. -/
def Chip.pinClkReq (_ : Chip) : Level := .z
/-- TDO: high impedance, for nothing is shifted (R57, R67). -/
def Chip.pinTdo (_ : Chip) : Level := .z
/-- NFc_CE_N and SPI_CS_N between accesses. -/
def Chip.pinChipSelect (c : Chip) : Level := c.pad true
/-- NFc_WP_N: low until the record store runs and is enabled. -/
def Chip.pinNandWp (c : Chip) : Level := c.pad (c.islandUp .rstore && c.enabled .rstore)
/-- OPUnn_DEVCLK swings (R280). -/
def Chip.devclkSwings (c : Chip) (h : Port) : Bool := c.pins.vddIo && (c.hd h).clkSince.isSome
/-- OPUnn_DL swings: the port is enabled and its OPU not removed (R67, R276). -/
def Chip.downlinkSwings (c : Chip) (h : Port) : Bool :=
  c.pins.vddIo && c.pageUp (.head h) && c.enabled (.head h) && c.linkState h != 5
/-- PCIE_TX is in electrical idle while the host island is held. -/
def Chip.pcieIdle (c : Chip) : Bool := !c.pins.vddIo || !c.isl.hostReleased
/-- DAX_TX is in electrical idle until pairing is enabled. -/
def Chip.daxIdle (c : Chip) : Bool := !c.pins.vddIo || !(c.pageUp .peer && c.enabled .peer)

/-! ## Page interrupts (R148, R149, R722) -/

/-- INT_STAT AND INT_EN of a page. -/
def Chip.intWord (c : Chip) (p : Page) : Nat :=
  ((c.rd p Reg.HDR.INT_STAT_BLOCK) &&& (c.rd p Reg.HDR.INT_EN_EN_BLOCK))
    + 2 ^ 30 * ((c.rd p Reg.HDR.INT_STAT_DL_MISS_INC) &&& (c.rd p Reg.HDR.INT_EN_EN_DL_MISS))
    + 2 ^ 31 * ((c.rd p Reg.HDR.INT_STAT_COMMIT_DONE) &&& (c.rd p Reg.HDR.INT_EN_EN_COMMIT))

/-- The page raises its interrupt (R149). -/
def Chip.pageIrq (c : Chip) (p : Page) : Bool := c.pageUp p && c.intWord p != 0

/-- Pages whose interrupts the management processors see; the host sees none (R149, R722). -/
def Chip.mgmtIrqs (c : Chip) : List Page := if c.isl.mgmtReleased then allPages.filter c.pageIrq else []
/-- Page interrupts that the host sees (R722). -/
def Chip.hostIrqs (_ : Chip) : List Page := []

/-! ## Witness transfers (R824 to R826) -/

/-- The witness's I3C address (R824). -/
def Chip.witAddress (c : Chip) : Nat := c.rd .peer Reg.PEER.WIT_CFG_STATIC_ADDR
/-- What a transfer sends to it: the register index, and the data of a write (R824). -/
def Chip.witBytes (c : Chip) : WitOp → List Byte
  | .readLease => [0x08]
  | .cas e n _ => 0x09 :: (bytesLE 8 e ++ bytesLE 8 n)
  | .readStatus => [BitVec.ofNat 8 (0x11 - c.role)]
/-- The write of the status word (R826). -/
def Chip.witStatusBytes (c : Chip) : List Byte :=
  BitVec.ofNat 8 (0x10 + c.role) :: (bytesLE 4 c.peer.statusSeq ++ bytesLE 12 c.peer.statusWord)

/-- No phase of a spindle ever has both gates high (R65). -/
theorem Gates.interlock_never_both (g : Gates) : (g.interlock.high && g.interlock.low) = false := by
  cases g with
  | mk h l => cases h <;> cases l <;> rfl

end Sys2Proof.Machine
end

