-- ==== Sys2Proof/Safety.lean ====
section
/-!
DEFINITION. What a safe state of the controller is, and the terms in which claims say what a command does: the command
completes, which registers it may change, and the laser interlock.
-/
namespace Sys2Proof.Machine

/-- The laser interlock of R271: LASER_KILL_N of a port is high only while the port's page is enabled, its island runs, its
link is RUNNING, its OPU is present, ARM is 1 and no quench holds it. -/
def Chip.Interlocked (c : Chip) : Prop := ∀ h : Port, c.killHigh h = true → c.laserOk h = true

/-- The three stores of register fields have strictly rising keys. -/
def Chip.RegsWf (c : Chip) : Prop := c.reg.plain.wf = true ∧ c.reg.act.wf = true ∧ c.reg.sh.wf = true

/-- Command `i` completes on `s`: it answers a next state that leaves the queue as it was and whose block meets `P`. -/
def Completes (i : Instr) (s : State) (P : Chip → Prop) : Prop :=
  ∃ t, exec i s = .next t ∧ t.pending = s.pending ∧ P t.chip

/-- The parts of the block's state, one for each field of `Chip`. -/
inductive Part where
  | tb | freeCt | reg | commits | cmdPages | rqHost | rqMgmt | rqI3c | isl | pins | mgmt | framesRunning | frameNum
  | frameStart | x16 | col | halls | axes | spins | engs | traces | sets | meas | exch | groups | heads | servos
  | beams | assay | mem | sluice | rs | images | host | lib | peer | log | stripe | consumed | verified | spinDem
  deriving DecidableEq, Repr

/-- Part `q` is the same in both states of the block. -/
def Part.Agree (c d : Chip) : Part → Prop
  | .tb => d.tb = c.tb
  | .freeCt => d.freeCt = c.freeCt
  | .reg => d.reg = c.reg
  | .commits => d.commits = c.commits
  | .cmdPages => d.cmdPages = c.cmdPages
  | .rqHost => d.rqHost = c.rqHost
  | .rqMgmt => d.rqMgmt = c.rqMgmt
  | .rqI3c => d.rqI3c = c.rqI3c
  | .isl => d.isl = c.isl
  | .pins => d.pins = c.pins
  | .mgmt => d.mgmt = c.mgmt
  | .framesRunning => d.framesRunning = c.framesRunning
  | .frameNum => d.frameNum = c.frameNum
  | .frameStart => d.frameStart = c.frameStart
  | .x16 => d.x16 = c.x16
  | .col => d.col = c.col
  | .halls => d.halls = c.halls
  | .axes => d.axes = c.axes
  | .spins => d.spins = c.spins
  | .engs => d.engs = c.engs
  | .traces => d.traces = c.traces
  | .sets => d.sets = c.sets
  | .meas => d.meas = c.meas
  | .exch => d.exch = c.exch
  | .groups => d.groups = c.groups
  | .heads => d.heads = c.heads
  | .servos => d.servos = c.servos
  | .beams => d.beams = c.beams
  | .assay => d.assay = c.assay
  | .mem => d.mem = c.mem
  | .sluice => d.sluice = c.sluice
  | .rs => d.rs = c.rs
  | .images => d.images = c.images
  | .host => d.host = c.host
  | .lib => d.lib = c.lib
  | .peer => d.peer = c.peer
  | .log => d.log = c.log
  | .stripe => d.stripe = c.stripe
  | .consumed => d.consumed = c.consumed
  | .verified => d.verified = c.verified
  | .spinDem => d.spinDem = c.spinDem

/-- Every part of the block's state is the same in `d` as in `c`, but for the parts listed. -/
def Chip.SameBut (c d : Chip) (l : List Part) : Prop := ∀ q : Part, q ∉ l → q.Agree c d

/-- Every register field of `d` reads as in `c`, in force and in shadow, but for the fields listed (page, field,
repetition). -/
def Chip.SameRegs (c d : Chip) (l : List (Page × Fld × Nat)) : Prop :=
  ∀ (p : Page) (f : Fld) (i : Nat), (∀ e ∈ l, fieldKey e.1 e.2.1 e.2.2 ≠ fieldKey p f i) →
    d.rdI p f i = c.rdI p f i ∧ d.shI p f i = c.shI p f i

/-- Every register field outside the pages `W` reads in `d` as in `c`, in force and in shadow. -/
def Chip.SameElsewhere (c d : Chip) (W : Page → Prop) : Prop :=
  ∀ (p : Page) (f : Fld) (i : Nat), ¬ W p → decide (f.off + i * f.stride < 4096) = true → f.lo < 32 →
    d.rdI p f i = c.rdI p f i ∧ d.shI p f i = c.shI p f i

/-- Page `p` can be reached and no block soft reset of it runs (R169, R174). -/
def Chip.Reach (c : Chip) (p : Page) : Prop := c.pageUp p = true ∧ c.rd p Reg.HDR.PAGE_STAT_STATE ≠ 4

/-- A write of requester `r` to page `p` takes effect: it arrives, and the page is reached and not locked by another (R169, R171,
R174, R871). -/
def Chip.Writable (c : Chip) (r : Requester) (p : Page) : Prop := c.hears r = true ∧ c.Reach p ∧ c.mayWrite r p = true

/-- Every register field holds its reset value, in force and in shadow, but for the fields listed. -/
def Chip.RegsReset (c : Chip) (l : List (Page × Fld × Nat)) : Prop :=
  ∀ (p : Page) (f : Fld) (i : Nat), (∀ e ∈ l, fieldKey e.1 e.2.1 e.2.2 ≠ fieldKey p f i) →
    c.rdI p f i = fieldReset p f i % 2 ^ 32 ∧ c.shI p f i = fieldReset p f i % 2 ^ 32

/-- Fields whose value after a full reset is not the reset value of their table: those of R96 and R129, and the status that
follows the staging and the mirror at once (R767, R844). -/
def fullResetFields : List (Page × Fld × Nat) :=
  keptFields.map (fun e => (e.1, e.2, 0)) ++
    [(.sys, Reg.SYS.RESET_CAUSE_RETAINED, 0), (.sluice, Reg.SLUICE.ADMITTED_KIB, 0), (.sluice, Reg.SLUICE.BUDGET_KIB, 0),
      (.sluice, Reg.SLUICE.SLUICE_STAT_WAITING, 0), (.sluice, Reg.SLUICE.SLUICE_STAT_WT_ACTIVE, 0),
      (.sluice, Reg.SLUICE.SLUICE_STAT_SHORT, 0), (.sluice, Reg.SLUICE.SLUICE_STAT_TESTING, 0),
      (.sluice, Reg.SLUICE.SLUICE_STAT_WT_COUNT, 0), (.sluice, Reg.HDR.INT_STAT_BLOCK, 0),
      (.peer, Reg.PEER.MIRROR_STAT_UNMIRRORED, 0)]

/-- A full reset with cause `cause` took the block from `c` to `d` (R96, R97, R129): islands, engines, drives and queues are at
reset, every register but those named is at its reset value, and the timebase, the always-on fault memory and the causes of the
resets so far are kept. -/
def Chip.FullReset (c d : Chip) (cause : Fld) : Prop :=
  d.tb = c.tb ∧ d.isl = { tbRuns := c.isl.tbRuns } ∧ d.commits = [] ∧ d.framesRunning = false ∧ d.x16 = [] ∧
  d.axes = Vector.replicate 22 {} ∧ d.spins = Vector.replicate 8 {} ∧ d.engs = Vector.replicate 4 {} ∧
  d.heads = Vector.replicate 16 {} ∧ d.servos = Vector.replicate 16 {} ∧ d.beams = Vector.replicate 80 {} ∧
  d.pins.killHigh = 0 ∧ d.col.recs = c.col.recs ∧ d.rs.history = c.rs.history ∧ d.log = c.log ∧
  d.rd .sys cause = 1 ∧
  d.rd .sys Reg.SYS.RESET_CAUSE_FULL_COUNT = min (c.rd .sys Reg.SYS.RESET_CAUSE_FULL_COUNT % 65536 + 1) 65535 ∧
  (∀ e ∈ keptFields, e.2 ≠ cause → e.2 ≠ Reg.SYS.RESET_CAUSE_FULL_COUNT → d.rd e.1 e.2 = c.rd e.1 e.2 % 2 ^ e.2.w) ∧
  d.RegsReset fullResetFields

/-- The word of field `f`, repetition `i`, lies in its page and its place in the word (R9, R137). -/
def Fld.Fits (f : Fld) (i : Nat) : Bool := decide (f.off + i * f.stride < 4096) && decide (f.lo < 32)

/-- Two fields stand at different places of their pages. -/
def Fld.Apart (f g : Fld) : Bool :=
  f.Fits 0 && g.Fits 0 && (decide (f.off / 4 ≠ g.off / 4) || decide (f.lo ≠ g.lo))

/-! ## Commands of the host (chapter 15) -/

/-- Only controller `n` of the host side may differ. -/
def Chip.OnlyCtl (c d : Chip) (n : Nat) : Prop :=
  d.host = { c.host with ctrls := d.host.ctrls } ∧ ∀ m, m ≠ n → d.ctl m = c.ctl m

/-- The completion entry of a command with a status (R725). -/
def Cmd.entry (k : Cmd) (sct sc : Nat) (dnr : Bool) : Cpl :=
  { ctrl := k.ctrl, sq := k.sq, cid := k.sqe.cid.toNat, sct := sct, sc := sc, dnr := dnr }

/-- The command `k` of a slot was answered with entry `e` from `c` to `d`: its slot is free, and the entry stands in the
completion queue of its submission queue, or waits for room there (R678, R697); a command that came over NVMe-MI is answered
there (R176), and none is where its controller was reset (R719). -/
def Chip.Answers (c d : Chip) (slot : Nat) (k : Cmd) (e : Cpl) : Prop :=
  d.cmdAt slot = none ∧
  (k.silent = false → k.origin = 2 →
    d.host.miOut = c.host.miOut ++ [[BitVec.ofNat 8 e.sc, BitVec.ofNat 8 e.sct] ++ e.data]) ∧
  (k.silent = false → k.origin = 0 → ∀ q y, (c.ctl k.ctrl).sqs.find? (fun q => q.id == k.sq) = some q →
    (c.ctl k.ctrl).cqs.find? (fun y => y.id == q.cq) = some y →
    (y.entries.length + 1 < y.size →
      ∃ z, (d.ctl k.ctrl).cqs.find? (fun y => y.id == q.cq) = some z ∧ z.entries = y.entries ++ [e]) ∧
    (y.size ≤ y.entries.length + 1 → d.host.cplWait = c.host.cplWait ++ [e]))

/-- Slot `slot` holds admin command `k` of opcode `opc` that firmware may execute now (R47, R713). -/
def Chip.AdminReady (c : Chip) (slot : Nat) (k : Cmd) (opc : Byte) : Prop :=
  c.cmdAt slot = some k ∧ k.phase = .fetched ∧ k.sq = 0 ∧ k.sqe.opc = opc ∧ k.origin ≠ 1 ∧ k.ctrl < 16 ∧
  c.islandUp .cmd = true ∧ c.mgmt.resumed = true ∧ c.adminStatus k = none

/-- Slot `slot` holds I/O command `k` of opcode `opc` that ordering lets start (R698). -/
def Chip.IoReady (c : Chip) (slot : Nat) (k : Cmd) (opc : Byte) : Prop :=
  c.cmdAt slot = some k ∧ k.phase = .fetched ∧ k.sq ≠ 0 ∧ k.sqe.opc = opc ∧ k.origin ≠ 1 ∧ k.ctrl < 16 ∧
  c.islandUp .cmd = true ∧ c.mayStart k = true

/-- As `IoReady`, for a command to namespace `n` that no format, erase or sanitize stands in the way of and that is not forwarded
to the partner (R713 to R715, R830). -/
def Chip.NsReady (c : Chip) (slot : Nat) (k : Cmd) (opc : Byte) (n : NsSt) : Prop :=
  c.IoReady slot k opc ∧ c.ns? k.sqe.nsid.toNat = some n ∧ c.nsStatus k n = none ∧
  (k.origin = 0 → c.owns n.ana = true ∨ c.linkUp = false)

/-! ## The pair (chapter 19) -/

/-- A frame of the mirror or the control channel with head `h` is accepted (R813, R816): pairing runs on trained lanes, the frame is
the next in order, and its check-value unit has no parity error. -/
def Chip.Accepts (c : Chip) (mirror : Bool) (h : DaxHead) : Prop :=
  c.pairing = true ∧ c.peer.lanes ≠ 0 ∧ h.seq = (c.chan mirror).rx ∧ (c.hallU (if mirror then 107 else 105)).parity = false

/-- A frame of type `typ` with arguments `arg` is sent and not acknowledged, or waits for space (R814, R816). -/
def Chip.Sends (d : Chip) (mirror : Bool) (typ : Nat) (arg : List Nat) : Prop :=
  ∃ f ∈ (d.chan mirror).unacked ++ (d.chan mirror).waiting, f.typ = typ ∧ f.arg = arg

/-! ## Writes with a row of their own -/

/-- `i` is a command that is a write of `r` to a register of the block of page `p`; `a` and `w` give its operands. -/
def BlockWrite (r : Requester) (a : BitVec 24) (w : Word) (p : Page) (i : Instr) : Prop :=
  (p = .sys ∧ (i = .softChipReset r (w.truncate 8) (w.getLsbD 8) ∨ i = .watchdogKick r ∨
    i = .watchdogConfigWrite r (w.getLsbD 0) (w.truncate 16) ∨ i = .mgmtRestartRequest r)) ∨
  (p = .clk ∧ (i = .headGateWrite r (w.truncate 16) ∨ i = .peerGateWrite r (w.getLsbD 0) (w.getLsbD 1))) ∨
  (p = .fault ∧ (i = .alertRelease r ∨ i = .quenchHeadRelease r (w.truncate 16) ∨ i = .quenchSpinRelease r (w.truncate 8) ∨
    i = .quenchAxisRelease r (w.truncate 22) ∨ i = .recAck r (Fin.ofNat 1024 a.toNat) (w.truncate 14) ∨
    i = .recCopied r (Fin.ofNat 1024 a.toNat) (w.truncate 14) ∨ i = .srcRestore r (Fin.ofNat 1024 a.toNat) ∨
    i = .srcCfgWrite r w)) ∨
  (p = .assay ∧ i = .calStoreRequest r) ∨ (p = .host ∧ i = .pcieRetrain r) ∨ (p = .mem ∧ i = .memFlipArm r w) ∨
  (p = .cache ∧ (i = .cacheZeroLine r ∨ i = .cacheCleanLine r ∨ i = .cacheInvalidateLine r ∨
    i = .cacheCleanInvalidateLine r ∨ i = .cacheInvAll r ∨ i = .cacheCleanAll r ∨ i = .cacheFlipArm r w)) ∨
  (p = .sluice ∧ (i = .capTestRequest r ∨ i = .wtForceWrite r (w.getLsbD 0))) ∨
  (p = .peer ∧ (i = .unfence r (w.getLsbD 0) ∨ i = .handback r)) ∨
  (p = .rstore ∧ (i = .packageHold r (Fin.ofNat 2 w.toNat) ∨ i = .packageReplace r (Fin.ofNat 2 w.toNat) none)) ∨
  (∃ h : Port, p = .head h ∧ (i = .hkRequest r h (w.getLsbD 0) (Fin.ofNat 8 a.toNat) (w.truncate 16) ∨
    i = .laserArm r h (w.getLsbD 0) ∨ i = .fifoMinReset r h ∨ i = .runoutClear r h)) ∨
  (∃ (h : Port) (k : BeamNo), p = .beam h k ∧ (i = .eqSnap r h k ∨ i = .writeStop r h k ∨ i = .writeAbort r h k)) ∨
  (∃ e : Eng, p = .loop e ∧ (i = .bankCopy r e ∨ i = .bankValidate r e (Fin.ofNat 2 w.toNat) ∨
    i = .engineMemAccess r e (some w) ∨ i = .ownershipWrite r e (w.getLsbD 0) w ∨
    i = .bankSelectWrite r e (Fin.ofNat 2 w.toNat))) ∨
  (∃ t : Eng, p = .trace t ∧ (i = .traceArm r t ∨ i = .traceStop r t ∨ i = .traceForce r t)) ∨
  (∃ x : Axis, p = .axis x ∧ i = .limitClear r x (w.getLsbD 0)) ∨
  ∃ n : HallNo, p = .hall n ∧ (i = .hallRestart r n ∨ i = .hallFeed r n (w.truncate 8))

end Sys2Proof.Machine
end

