-- ==== Sys2Proof/Certificates/Slice0/Obligations.lean ====
section
/-!
DEFINITION. The statements for the provers. `Completes i s P`: command `i` answers a next state, the queue is left as it was
and the block of that state meets `P`; the premise `Interlocked` is the invariant of R271 that every step keeps.
-/
open Sys2Proof Sys2Proof.Machine

/-- A step with a command at the front of the queue is that command's effect on the state with the queue's rest, and
no command touches the queue, faults or is refused. A step on an empty queue lets one tick pass (the model's own
reading of R2, log 3): the timebase, once it runs, counts one; VDD_IO is above its lowest level; nothing else changes. -/
def Obligations.StepTakesTheFrontCommand : Prop :=
  (∀ (s : State) (i : Instr) (r : List Instr), s.pending = i :: r → step s = exec i { s with pending := r }) ∧
  (∀ s : State, s.pending = [] → ∃ t, step s = .next t ∧ t.pending = [] ∧ t.chip.tb = (if s.chip.isl.tbRuns then s.chip.tb + 1 else s.chip.tb) ∧
    t.chip.pins = { s.chip.pins with vddIo := true } ∧ s.chip.SameBut t.chip [.tb, .pins]) ∧
  ∀ (i : Instr) (s : State), ∃ t, exec i s = .next t ∧ t.pending = s.pending

/-- In the state of reset no command waits, every LASER_KILL_N is low, the interlock of R271 holds, the stores of
register fields are well formed, RESET_CAUSE.POR reads 1, and every other field reads as its reset value. -/
def Obligations.ResetHoldsTheInterlock : Prop :=
  State.reset.pending = [] ∧ State.reset.chip.Interlocked ∧ State.reset.chip.RegsWf ∧
  (∀ h : Port, State.reset.chip.killHigh h = false) ∧
  State.reset.chip.rd .sys Reg.SYS.RESET_CAUSE_POR = 1 ∧
  ∀ (p : Page) (f : Fld) (i : Nat), fieldKey p f i ≠ fieldKey .sys Reg.SYS.RESET_CAUSE_POR 0 →
    State.reset.chip.rdI p f i = fieldReset p f i % 2 ^ 32

/-- From every state in which LASER_KILL_N of a port is high only while the interlock of R271 holds, a step leads to
such a state again: where it is high, the port's page is enabled and its head island not gated, LINK_STAT.STATE is
RUNNING, the OPU has been present since ARM was last set (WHY.ABSENT is 0), ARM is 1 and no quench holds the port. -/
def Obligations.LaserInterlockKept : Prop :=
  ∀ s t : State, s.chip.Interlocked → step s = .next t →
    t.chip.Interlocked ∧ ∀ h : Port, t.chip.killHigh h = true →
      t.chip.rd (.head h) Reg.HDR.PAGE_CTL_EN ≠ 0 ∧ t.chip.headGated h = false ∧ t.chip.linkState h = 3 ∧
      t.chip.rd (.head h) Reg.HEAD.LASER_CTL_WHY_ABSENT = 0 ∧ t.chip.laserArmed h = true ∧ t.chip.headQuenched h = false

/-- Of a requester whose accesses arrive (the host's only over a link that is up, R871, and through function 0): on a
page locked by another requester a register write, and every command that is a write to the page, changes nothing but
LOCK.DENIED, which counts it, and sends SYS REGISTER "write to locked page"; a write to LOCK itself takes effect: a
break with its key frees the lock. A read of a reached page sends nothing and is answered with its word. A lock on SYS
does not cover FENCE, GLOBAL_FRAME and GLOBAL_COMMIT: a requester's write starts its own fence, sets its own target
frame and submits its own commit. On a page of a gated island, header included, a read answers all ones and every
write is discarded, each with "access to absent island". Of the host without a link nothing arrives and nothing
changes. -/
def Obligations.GatedAndLockedPagesDiscardWrites : Prop :=
  ∀ (s : State) (r : Requester) (n : Ctrl) (p : Page) (env : WriteEnv) (a : BitVec 24) (w hi : Word), s.chip.Interlocked →
    a.toNat % 4 = 0 → a.toNat / 4096 = p.num →
    let c := s.chip
    let off := a.toNat % 4096
    let writes : List Instr := [.registerWrite r n .b4 a w hi env, .pageArm r p, .shadowDiscard r p, .pageEnable r p true,
      .pageEnable r p false, .quiesceRequest r p true, .quiesceRequest r p false, .pageSoftReset r p, .intForce r p w, .faultForce r p w]
    let own := p = .sys ∧ (off = 0x040 ∨ off = 0x070 ∨ off = 0x074)
    let Denied : Chip → Prop := fun d =>
      d.rd p Reg.HDR.LOCK_DENIED = min (c.rd p Reg.HDR.LOCK_DENIED + 1) (2 ^ Reg.HDR.LOCK_DENIED.w - 1) ∧
      d.x16 = c.x16 ++ [⟨0, 6, 0, 0, 0x10⟩] ∧ c.SameRegs d [(p, Reg.HDR.LOCK_DENIED, 0)] ∧ c.SameBut d [.reg, .x16]
    let Absent : Chip → Prop := fun d => d.x16 = c.x16 ++ [⟨0, 1, 0, 0, 0x10⟩] ∧ c.SameBut d [.x16]
    (c.hears r = false → (∀ i ∈ writes, Completes i s fun d => d = c) ∧ (∀ i, BlockWrite r a w p i → Completes i s fun d => d = c) ∧
      Completes (.registerRead r n .b4 a) s fun d => d = c) ∧
    (c.hears r = true → (r = .host → n = 0) →
    (c.pageUp p = true → c.mayWrite r p = false →
      (∀ i ∈ writes, (i = writes.headD i → off ≠ 0x028 ∧ ¬ own) → Completes i s Denied) ∧
      (∀ b : Fin 8, Completes (.localCommit r p b) s Denied) ∧ (∀ i, BlockWrite r a w p i → Completes i s Denied) ∧
      (c.rd p Reg.HDR.PAGE_STAT_STATE ≠ 4 → r ≠ .host → Completes (.lockBreak r p 0xC3) s fun d =>
        d.rd p Reg.HDR.LOCK_HELD = 0 ∧ d.rd p Reg.HDR.LOCK_DENIED = c.rd p Reg.HDR.LOCK_DENIED ∧ c.SameBut d [.reg])) ∧
    (c.Reach p → (∀ e, p = .loop e → off ≠ 0x058) → (∀ t, p = .trace t → off ≠ 0x084) → Completes (.registerRead r n .b4 a) s fun d =>
      (d.rq r).readData = BitVec.ofNat 32 (c.wordAt r p off) ∧ d.x16 = c.x16) ∧
    (p = .sys → c.Reach .sys → c.mayWrite r .sys = false →
      (∀ sc : Fin 4, (c.rq r).fence.done = true → Completes (.fenceStart r sc) s fun d =>
        (d.rq r).fence.done = false ∧ (d.rq r).fence.scope = sc.val ∧ (∀ q, q ≠ r → d.rq q = c.rq q) ∧
        c.SameBut d [.rqHost, .rqMgmt, .rqI3c]) ∧
      (off = 0x070 → Completes (.registerWrite r n .b4 a w hi env) s fun d =>
        (d.rq r).target = w.toNat ∧ (∀ q, q ≠ r → d.rq q = c.rq q) ∧ c.SameBut d [.rqHost, .rqMgmt, .rqI3c]) ∧
      ((c.rq r).gcState ≠ 1 → c.armedPages r = [] → Completes (.globalCommitGo r) s fun d =>
        (d.rq r).gcState = 2 ∧ (d.rq r).gcResult = 5 ∧ (∀ q, q ≠ r → d.rq q = c.rq q) ∧
        c.SameBut d [.rqHost, .rqMgmt, .rqI3c])) ∧
    (c.pageUp p = false →
      (Completes (.registerRead r n .b4 a) s fun d =>
        (d.rq r).readData = 0xFFFFFFFF ∧ d.x16 = c.x16 ++ [⟨0, 1, 0, 0, 0x10⟩] ∧
        c.SameBut d [.x16, .rqHost, .rqMgmt, .rqI3c]) ∧
      (∀ i ∈ writes ++ [.lockAcquire r p, .lockRelease r p, .lockBreak r p 0xC3], Completes i s Absent) ∧
      (∀ b : Fin 8, Completes (.localCommit r p b) s Absent) ∧ ∀ i, BlockWrite r a w p i → Completes i s Absent))

/-- POWER_ON leaves every register at its reset value but RESET_CAUSE.POR, which is 1, with timebase 0, every island
in reset, no fault record and no message. A low pulse on RESET_N once the supply detectors are armed, a write of
RESET_CTL.CHIP with KEY 0x5A to a SYS page that the writer may write, and the restart after a flush each leave what
R96 says: islands, engines, drives, servos and beams at reset, no laser line high, every register at its reset value
but those that R96 and R129 keep, the timebase, the fault memory and the earlier causes kept, the cause's own flag 1
and the count one higher. RESET_CAUSE.RETAINED then says whether the same write's RETAIN_EN kept admitted batches. A
CHIP write with any other KEY changes nothing. -/
def Obligations.FullResetsLeaveResetState : Prop :=
  ∀ s : State, s.chip.Interlocked →
    (Completes .powerOn s fun d =>
      d.tb = 0 ∧ d.isl = {} ∧ d.commits = [] ∧ d.framesRunning = false ∧ d.x16 = [] ∧ d.col = {} ∧ d.mgmt = {} ∧
      d.pins.resetNLow = true ∧ d.pins.killHigh = 0 ∧ d.rs.history = s.chip.rs.history ∧ d.rs.flushes = s.chip.rs.flushes ∧
      d.rd .sys Reg.SYS.RESET_CAUSE_POR = 1 ∧ d.RegsReset [(.sys, Reg.SYS.RESET_CAUSE_POR, 0)]) ∧
    (s.chip.isl.aonUp = true →
      Completes .resetNPulse s fun d =>
        s.chip.FullReset d Reg.SYS.RESET_CAUSE_RESET_PIN ∧ d.pins.resetNLow = true) ∧
    (∀ r : Requester, s.chip.Writable r .sys →
      (∀ en : Bool, Completes (.softChipReset r 0x5A en) s fun d =>
        s.chip.FullReset d Reg.SYS.RESET_CAUSE_SOFT_CHIP ∧
        d.rd .sys Reg.SYS.RESET_CAUSE_RETAINED = b2n (en && !s.chip.retainable.isEmpty) ∧
        (en = false → d.sluice.batches = [])) ∧
      ∀ (key : Byte) (en : Bool), key ≠ 0x5A → Completes (.softChipReset r key en) s fun d => d = s.chip) ∧
    (s.chip.rd .sys Reg.SYS.BOOT_STAT_PHASE = 12 →
      Completes .flushRestart s fun d =>
        s.chip.FullReset d Reg.SYS.RESET_CAUSE_FLUSH_RESTART ∧ d.sluice.batches = [] ∧
        d.pins.pwrGood = true ∧ d.pins.coreLow = false ∧ d.pins.aonLow = false)

/-- PERST_N held low while the host island runs leaves every controller at its reset state with the PCIe link down and
sets RESET_CAUSE.PERST; a write of NSSR with the NVMe value, over a link that is up, does the same with
RESET_CAUSE.NSSR; PERST_N held high changes that level alone, and TRST_N low only resets the test logic. -/
def Obligations.HostSideResetsLeaveTheRest : Prop :=
  ∀ s : State, s.chip.Interlocked →
    (s.chip.isl.hostReleased = true →
      Completes .perstNAssert s fun d =>
        d.pins.perstNLow = true ∧ d.host.ctrls = ({} : HostSt).ctrls ∧ d.host.linkUp = false ∧
        d.rd .sys Reg.SYS.RESET_CAUSE_PERST = 1) ∧
    (s.chip.isl.hostReleased = true → s.chip.host.linkUp = true →
      Completes (.nvmSubsystemReset 0x4E564D65) s fun d =>
        d.host.ctrls = ({} : HostSt).ctrls ∧ d.host.linkUp = false ∧ d.rd .sys Reg.SYS.RESET_CAUSE_NSSR = 1) ∧
    (Completes .perstNDeassert s fun d => d.pins = { s.chip.pins with perstNLow := false } ∧ s.chip.SameBut d [.pins]) ∧
    Completes .trstNLow s fun d => d.pins = { s.chip.pins with jtagReset := true } ∧ s.chip.SameBut d [.pins]

/-- Once the detectors are armed and the islands are not held already, a brownout of VDD_CORE, one of VDD_AON, and the
loss of PWR_GOOD each end with start-up phase 12, the islands held, firmware's island held, every head island gated,
every LASER_KILL_N low, no batch and no calibration store left in staging. -/
def Obligations.PowerLossFlushesAndHolds : Prop :=
  ∀ (s : State) (e : FlushEnd), s.chip.Interlocked → s.chip.isl.aonUp = true → s.chip.rd .sys Reg.SYS.BOOT_STAT_PHASE ≠ 12 →
    let Flushed : Chip → Prop := fun d =>
      d.rd .sys Reg.SYS.BOOT_STAT_PHASE = 12 ∧ d.isl.released = false ∧ d.isl.hostReleased = false ∧
      d.isl.mgmtReleased = false ∧ d.rd .clk Reg.CLK.HEAD_GATE_GATE = 0xFFFF ∧ (∀ h : Port, d.killHigh h = false) ∧
      d.sluice.batches = [] ∧ d.sluice.calStore = none
    (Completes (.brownoutCore e) s Flushed) ∧ (Completes (.brownoutAon e) s Flushed) ∧ Completes (.pwrGoodLoss e) s Flushed

/-- The release of RESET_N with supplies present, a good reference resistor, locked PLLs, a trained memory and a valid
image in the slot tried first or second ends with the islands, the host island and the management island released,
phase 4, frame 0 begun with number 0 within 3 ms of the time at which the timebase runs (0 where it has not run since
power-on), and IMAGE naming the slot: of two valid images that with the higher number. A completed scrub makes its
head or peer island reachable. A write of HEAD_GATE to a CLK page that the writer may write, with every head disabled
and no commit waiting, takes the written mask. The loss of lock of the PLL of a running island sends PLL_UNLOCK of the
CLK page with an island number in DETAIL that the spec leaves open (log 119). -/
def Obligations.StartUpReleasesTheIslands : Prop :=
  ∀ s : State, s.chip.Interlocked →
    (∀ (b : BootIn) (e : FlushEnd), s.chip.isl.aonUp = false → b.coreLow = false → b.aonLow = false →
      b.pgLow = false → 450 ≤ b.rextMv → b.rextMv ≤ 550 → b.pllOk = true → b.hbmOk = true →
      (s.chip.rs.slotA.ok || s.chip.rs.slotB.ok) = true →
      Completes (.resetNRelease b e) s fun d =>
        d.isl.aonUp = true ∧ d.isl.released = true ∧ d.isl.hostReleased = true ∧ d.isl.mgmtReleased = true ∧
        d.rd .sys Reg.SYS.BOOT_STAT_PHASE = 4 ∧ d.framesRunning = true ∧ d.frameNum = 0 ∧ d.frameStart = d.now ∧
        d.tb = (if s.chip.isl.tbRuns then s.chip.tb else 0) + BitVec.ofNat 64 (clampN 1 300000 b.frame0) ∧
        d.rd .sys Reg.SYS.BOOT_STAT_IMAGE = b2n (if s.chip.rs.slotA.ok && s.chip.rs.slotB.ok
          then decide (s.chip.rs.slotA.seq < s.chip.rs.slotB.seq) else s.chip.rs.slotB.ok) ∧
        d.pins.resetNLow = false) ∧
    (∀ h : Port, Completes (.islandScrubDone (some h)) s fun d =>
      (∀ k : Port, bit d.isl.scrubHead k.val = (bit s.chip.isl.scrubHead k.val && k != h)) ∧ s.chip.SameBut d [.isl]) ∧
    (Completes (.islandScrubDone none) s fun d => d.isl.scrubPeer = false ∧ s.chip.SameBut d [.isl]) ∧
    (∀ (r : Requester) (m : BitVec 16), s.chip.Writable r .clk → s.chip.commits = [] →
      (∀ h : Port, s.chip.rd (.head h) Reg.HDR.PAGE_STAT_STATE = 0) →
      Completes (.headGateWrite r m) s fun d =>
        (∀ h : Port, bit (d.rd .clk Reg.CLK.HEAD_GATE_GATE) h.val = m.getLsbD h.val) ∧
        s.chip.SameBut d [.reg, .isl, .beams, .rqHost, .rqMgmt, .rqI3c]) ∧
    ∀ i : Island, s.chip.islandUp i = true →
      Completes (.pllUnlock i) s fun d =>
        (∃ δ, δ < 1024 ∧ d.x16 = s.chip.x16 ++ [⟨0x005, 1, 2, δ, 0x11⟩]) ∧ d.freeCt = s.chip.freeCt + 1 ∧
        s.chip.SameBut d [.x16, .freeCt]

/-- In their turn: mounting the record store with at least one package present mounts it in phase 5; the recovery of
NAND erase intents leaves none open in phase 6; loading the calibration set in phase 7 takes the valid copy with the
higher SEQ; loading the tables reaches phase 8; the replay of the flush records ends start-up with READY 1 and
firmware executing commands, at once where the link to the partner is down, else once the partner has been asked for
what they lack. After ready, a package brought up to date while no flush runs is current, and an always-on fault
record not yet copied, while the record store's channels are free for it, is appended to the fault history as its
eight words and marked. -/
def Obligations.StartUpPhasesOfFirmware : Prop :=
  ∀ s : State, s.chip.Interlocked →
    (∀ f0 f1 : Option PkgFound, s.chip.inPhase 5 = true → (f0.isSome || f1.isSome) = true →
      Completes (.rstoreMount f0 f1) s fun d =>
        d.rs.mounted = true ∧ d.rd .sys Reg.SYS.BOOT_STAT_PHASE = 5 ∧ d.rs.pkg0.present = f0.isSome ∧
        d.rs.pkg1.present = f1.isSome) ∧
    (s.chip.inPhase 6 = true → s.chip.rs.mounted = true →
      Completes .nandIntentRecovery s fun d =>
        d.rs = { s.chip.rs with intents := [] } ∧ d.rd .sys Reg.SYS.BOOT_STAT_PHASE = 6 ∧
        s.chip.SameBut d [.reg, .rs] ∧
        s.chip.SameRegs d [(.sys, Reg.SYS.BOOT_STAT_PHASE, 0), (.rstore, Reg.RSTORE.MOUNT_STAT_INTENT_DONE, 0)]) ∧
    (∀ a b : CalCopy, s.chip.inPhase 7 = true → s.chip.rs.mounted = true → s.chip.rs.calA = some a → s.chip.rs.calB = some b →
      Completes .calibrationLoad s fun d =>
        (let k := if a.seq < b.seq then b else a
         d.assay = { s.chip.assay with cal := k.cal, opuIds := k.opuIds, seq := k.seq, setValid := true }) ∧
        d.rd .sys Reg.SYS.BOOT_STAT_PHASE = 7 ∧ s.chip.SameBut d [.reg, .assay, .halls] ∧
        s.chip.SameElsewhere d fun p => p = .sys ∨ p = .hall 109 ∨ p = .hall 111) ∧
    (s.chip.inPhase 8 = true → s.chip.rs.mounted = true → s.chip.rs.formats = [] →
      Completes .inventoryZoneLoad s fun d =>
        d.rd .sys Reg.SYS.BOOT_STAT_PHASE = 8 ∧ d.lib = s.chip.lib ∧ d.rs = s.chip.rs ∧ d.isl = s.chip.isl) ∧
    (∀ bad : List Nat, s.chip.inPhase 9 = true → s.chip.rs.mounted = true →
      (s.chip.rs.asked = true ∨ (s.chip.linkUp = false ∧ ∀ w ∈ s.chip.rs.recover, w.flush = none)) →
      Completes (.journalReplay bad) s fun d =>
        d.rd .sys Reg.SYS.BOOT_STAT_PHASE = 10 ∧ d.rd .sys Reg.SYS.BOOT_STAT_READY = 1 ∧ d.mgmt.resumed = true) ∧
    (∀ k : Fin 2, s.chip.rd .sys Reg.SYS.BOOT_STAT_READY ≠ 0 → (s.chip.pkg k).mounted = true → (s.chip.pkg k).current = false →
      s.chip.nandTurn k 5 = true →
      Completes (.rstoreResync k) s fun d => (d.pkg k).current = true ∧ d.lib = s.chip.lib ∧ d.isl = s.chip.isl) ∧
    ∀ (i : Fin 1024) (x : FaultRec), assocGet i.val s.chip.col.recs = some x → s.chip.mgmt.resumed = true →
      s.chip.rs.mounted = true → x.copied = false →
      (∀ k : Fin 2, (s.chip.pkg k).mounted = true → s.chip.nandTurn k 6 = true) →
      Completes (.faultRecordCopy i) s fun d =>
        d.rs = { s.chip.rs with history := s.chip.rs.history ++ [(List.range 8).map fun w => BitVec.ofNat 32 (x.word w)] } ∧
        d.col = { s.chip.col with recs := assocSet i.val { x with copied := true } s.chip.col.recs } ∧
        s.chip.SameBut d [.rs, .col]

/-- For every requester r whose accesses arrive (R871) and every state whose laser interlock holds and whose SYS page
is in no soft reset: FENCE.START with no fence in progress clears DONE, keeps SCOPE, the starting time and, for a data
fence, the number of items in X8 placed before it; START while a fence runs only stores SCOPE; a fence in progress,
within 100 us and with every such item delivered, completes with DONE 1, TIMEOUT 0 and SKIPPED the gated islands that
the started kind counts at that moment (log 158); a fence in progress that times out ends with DONE and TIMEOUT 1 and
sends SYS "fence timeout" (source 1, kind 3); a read of FRAME_NUM latches the timebase of the frame start for r. Of
the host without a link nothing arrives. An MCTP fence request with its integrity check starts the fence of the I3C
requester, and is answered with status 0 as that completes. No other requester's state and nothing else of the block
changes. -/
def Obligations.FencesStartAndEnd : Prop :=
  ∀ (s : State) (r : Requester), s.chip.Interlocked → s.chip.rd .sys Reg.HDR.PAGE_STAT_STATE ≠ 4 →
    (∀ k : Fin 4, s.chip.hears r = true →
      Completes (.fenceStart r k) s fun d =>
        (d.rq r).fence = (if (s.chip.rq r).fence.done
          then { (s.chip.rq r).fence with done := false, scope := k.val, since := s.chip.now, kind := k.val
                                          ahead := if k = 1 then 0 else s.chip.stripe.length }
          else { (s.chip.rq r).fence with scope := k.val }) ∧
        (∀ q, q ≠ r → d.rq q = s.chip.rq q) ∧
        s.chip.SameBut d [.rqHost, .rqMgmt, .rqI3c]) ∧
    (∀ m : McMsg, s.chip.isl.aonUp = true → s.chip.mgmt.mctpBusy = false → m.typ = 0x7E → m.vendor = 0x1F48 → m.check = true →
      m.body.length = 2 → mcOpcode m = 3 → mcCount m < 4 → (s.chip.rq .i3c).fence.done = true →
      Completes (.mctpFence m) s fun d =>
        (d.rq .i3c).fence.done = false ∧ (d.rq .i3c).fence.kind = mcCount m ∧ d.mgmt = { s.chip.mgmt with mctpBusy := true } ∧
        s.chip.SameBut d [.rqI3c, .mgmt]) ∧
    (∀ k : Fin 4, s.chip.hears r = false → Completes (.fenceStart r k) s fun d => d = s.chip) ∧
    ((s.chip.rq r).fence.done = false → (s.chip.rq r).fence.ahead = 0 → s.chip.now ≤ (s.chip.rq r).fence.since + 10000 →
      Completes (.fenceComplete r) s fun d =>
        (d.rq r).fence = { (s.chip.rq r).fence with
          done := true, timeout := false, skipped := s.chip.fenceSkipped (s.chip.rq r).fence.kind } ∧
        (r = .i3c → s.chip.mgmt.mctpBusy = true → d.mgmt.mctpBusy = false ∧ d.mgmt.mctpResp = { status := 0 }) ∧
        (∀ q, q ≠ r → d.rq q = s.chip.rq q) ∧
        s.chip.SameBut d [.rqHost, .rqMgmt, .rqI3c, .mgmt]) ∧
    ((s.chip.rq r).fence.done = false →
      Completes (.fenceTimeout r) s fun d =>
        (d.rq r).fence = { (s.chip.rq r).fence with
          done := true, timeout := true, skipped := s.chip.fenceSkipped (s.chip.rq r).fence.kind } ∧
        (∀ q, q ≠ r → d.rq q = s.chip.rq q) ∧
        d.x16 = s.chip.x16 ++ [⟨1, 3, 1, 0, 0x10⟩] ∧
        s.chip.SameBut d [.tb, .x16, .rqHost, .rqMgmt, .rqI3c, .mgmt]) ∧
    (s.chip.hears r = false → Completes (.frameNumRead r) s fun d => d = s.chip) ∧
    (s.chip.hears r = true → Completes (.frameNumRead r) s fun d =>
      (d.rq r).frameTb = (if s.chip.framesRunning then s.chip.frameStart else 0) ∧
      (∀ q, q ≠ r → d.rq q = s.chip.rq q) ∧
      s.chip.SameBut d [.rqHost, .rqMgmt, .rqI3c])

/-- On a reached page, for a requester whose accesses arrive (R871): ACQUIRE of a free lock sets HELD, makes the
writer its OWNER and clears DENIED; RELEASE by the holder clears HELD; BREAK with KEY 0xC3 by the management or I3C
requester clears HELD whoever holds the lock, and KEY reads as written; ACQUIRE of a held lock, RELEASE by another
requester, and BREAK by the host or with another key leave the lock as it is. Nothing but the LOCK register of that
page changes. -/
def Obligations.LocksAreTakenFreedAndBroken : Prop :=
  ∀ (s : State) (r : Requester) (p : Page), s.chip.Interlocked → s.chip.Reach p → s.chip.hears r = true →
    (s.chip.rd p Reg.HDR.LOCK_HELD = 0 →
      Completes (.lockAcquire r p) s fun d =>
        d.rd p Reg.HDR.LOCK_HELD = 1 ∧ d.rd p Reg.HDR.LOCK_OWNER = r.code ∧ d.rd p Reg.HDR.LOCK_DENIED = 0 ∧
        s.chip.SameBut d [.reg] ∧
        s.chip.SameRegs d [(p, Reg.HDR.LOCK_HELD, 0), (p, Reg.HDR.LOCK_OWNER, 0), (p, Reg.HDR.LOCK_DENIED, 0)]) ∧
    (s.chip.rd p Reg.HDR.LOCK_HELD ≠ 0 → Completes (.lockAcquire r p) s fun d => d = s.chip) ∧
    (s.chip.rd p Reg.HDR.LOCK_HELD ≠ 0 → s.chip.rd p Reg.HDR.LOCK_OWNER = r.code →
      Completes (.lockRelease r p) s fun d =>
        d.rd p Reg.HDR.LOCK_HELD = 0 ∧ s.chip.SameBut d [.reg] ∧
        s.chip.SameRegs d [(p, Reg.HDR.LOCK_HELD, 0), (p, Reg.HDR.LOCK_OWNER, 0)]) ∧
    (s.chip.rd p Reg.HDR.LOCK_OWNER ≠ r.code → Completes (.lockRelease r p) s fun d => d = s.chip) ∧
    (r ≠ .host →
      Completes (.lockBreak r p 0xC3) s fun d =>
        d.rd p Reg.HDR.LOCK_HELD = 0 ∧ d.rd p Reg.HDR.LOCK_KEY = 0xC3 ∧ s.chip.SameBut d [.reg] ∧
        s.chip.SameRegs d [(p, Reg.HDR.LOCK_KEY, 0), (p, Reg.HDR.LOCK_HELD, 0), (p, Reg.HDR.LOCK_OWNER, 0)]) ∧
    (∀ key : Byte, (key ≠ 0xC3 ∨ r = .host) →
      Completes (.lockBreak r p key) s fun d =>
        d.rd p Reg.HDR.LOCK_KEY = key.toNat ∧ s.chip.SameBut d [.reg] ∧
        s.chip.SameRegs d [(p, Reg.HDR.LOCK_KEY, 0)])

/-- Where the page may be written by r: arming an unarmed page whose shadow is open (of a loop engine, with a valid
BANK) sets BOUNDARY 4, ARMED and ARM_OWNER and clears DONE; DISCARD of an open shadow makes every shadow of the page
equal to its value in force, disarms the page and leaves every other page alone; INT_FORCE sets the INT_STAT bits of
its ones and nothing else, and the management processors see the page's interrupt where one of them is enabled;
FAULT_FORCE places into X16 one message of KIND 0xFF, DETAIL 0 and ARG 0 for each 1 below the page's number of
sources, in the order of the sources, and nothing else. -/
def Obligations.PagesAreArmedDiscardedAndForced : Prop :=
  ∀ (s : State) (r : Requester) (p : Page), s.chip.Interlocked → s.chip.Writable r p →
    (s.chip.frozen p = false → s.chip.rd p Reg.HDR.SHADOW_CTL_ARMED = 0 → s.chip.bankBad p = false →
      Completes (.pageArm r p) s fun d =>
        d.rd p Reg.HDR.SHADOW_CTL_BOUNDARY = 4 ∧ d.rd p Reg.HDR.SHADOW_CTL_ARMED = 1 ∧
        d.rd p Reg.HDR.SHADOW_CTL_ARM_OWNER = r.code ∧ d.rd p Reg.HDR.SHADOW_CTL_DONE = 0 ∧
        s.chip.SameBut d [.reg] ∧
        s.chip.SameRegs d [(p, Reg.HDR.SHADOW_CTL_BOUNDARY, 0), (p, Reg.HDR.SHADOW_CTL_ARMED, 0),
          (p, Reg.HDR.SHADOW_CTL_ARM_OWNER, 0), (p, Reg.HDR.SHADOW_CTL_DONE, 0)]) ∧
    (s.chip.frozen p = false →
      Completes (.shadowDiscard r p) s fun d =>
        (∀ (f : Fld) (i : Nat), f.Fits i = true → f.acc = .rws → d.shI p f i = s.chip.rdI p f i ∧ d.rdI p f i = s.chip.rdI p f i) ∧
        d.rd p Reg.HDR.SHADOW_CTL_ARMED = 0 ∧ d.rd p Reg.HDR.SHADOW_CTL_DONE = 1 ∧
        (∀ (q : Page) (f : Fld) (i : Nat), q ≠ p → f.Fits i = true →
          d.rdI q f i = s.chip.rdI q f i ∧ d.shI q f i = s.chip.shI q f i) ∧
        d.cmdPages = (s.chip.cmdPages.filter fun q => !(q == p)) ∧ s.chip.SameBut d [.reg, .cmdPages]) ∧
    ∀ m : Word,
      (Completes (.intForce r p m) s fun d =>
        d.rd p Reg.HDR.INT_STAT_BLOCK = (s.chip.rd p Reg.HDR.INT_STAT_BLOCK ||| m.toNat % 2 ^ 30) % 2 ^ 30 ∧
        d.rd p Reg.HDR.INT_STAT_DL_MISS_INC = (s.chip.rd p Reg.HDR.INT_STAT_DL_MISS_INC ||| m.toNat / 2 ^ 30 % 2) % 2 ∧
        d.rd p Reg.HDR.INT_STAT_COMMIT_DONE = (s.chip.rd p Reg.HDR.INT_STAT_COMMIT_DONE ||| m.toNat / 2 ^ 31 % 2) % 2 ∧
        (m.toNat % 2 ^ 30 &&& s.chip.rd p Reg.HDR.INT_EN_EN_BLOCK ≠ 0 →
          d.pageIrq p = true ∧ (s.chip.isl.mgmtReleased = true → p ∈ d.mgmtIrqs)) ∧
        s.chip.SameBut d [.reg] ∧
        s.chip.SameRegs d [(p, Reg.HDR.INT_STAT_BLOCK, 0), (p, Reg.HDR.INT_STAT_DL_MISS_INC, 0),
          (p, Reg.HDR.INT_STAT_COMMIT_DONE, 0)]) ∧
      Completes (.faultForce r p m) s fun d =>
        d.x16 = s.chip.x16 ++ (((List.range (srcCount p)).filter fun n => m.toNat.testBit n).map fun n =>
          ⟨srcBase p + n, 0xFF, s.chip.rd .fault Reg.FAULT.FORCE_CFG_HINT, 0, 0⟩) ∧
        s.chip.SameBut d [.x16]

/-- For a requester r whose accesses arrive (R871) while SYS is in no soft reset: GO with no commit pending, at least
one armed page, every armed page reached, frames running and a lead of 4 to 400,000 makes r's commit pending for
TARGET and freezes exactly the armed pages; GO with nothing armed ends with RESULT 0x5; GO with armed pages and a lead
outside 4 to 400,000 ends with RESULT 0x2 and arms nothing more (where an armed page lies in a gated island too, log
159); the distribution marks the arm as delivered; CANCEL of a pending commit no later than 2 frames before the start
of the target frame ends it with RESULT 0x4 and no page of it waits any more. No other requester's state changes. -/
def Obligations.GlobalCommitsAreSubmittedAndCancelled : Prop :=
  ∀ (s : State) (r : Requester), s.chip.Interlocked → s.chip.rd .sys Reg.HDR.PAGE_STAT_STATE ≠ 4 → s.chip.hears r = true →
    ((s.chip.rq r).gcState ≠ 1 → s.chip.armedPages r = [] →
      Completes (.globalCommitGo r) s fun d =>
        d.rq r = { s.chip.rq r with gcState := 2, gcResult := 5 } ∧ (∀ q, q ≠ r → d.rq q = s.chip.rq q) ∧
        s.chip.SameBut d [.rqHost, .rqMgmt, .rqI3c]) ∧
    ((s.chip.rq r).gcState ≠ 1 → s.chip.armedPages r ≠ [] →
      (s.chip.framesRunning = false ∨ s.chip.lead (s.chip.rq r).target < 4 ∨ 400000 < s.chip.lead (s.chip.rq r).target) →
      Completes (.globalCommitGo r) s fun d =>
        (d.rq r).gcState = 2 ∧ (d.rq r).gcResult = 2 ∧ (∀ q, q ≠ r → d.rq q = s.chip.rq q) ∧
        d.x16 = s.chip.x16 ++ [⟨1, 1, 0, 0, 0x10⟩] ∧ s.chip.SameBut d [.reg, .x16, .commits, .rqHost, .rqMgmt, .rqI3c]) ∧
    ((s.chip.rq r).gcState ≠ 1 → s.chip.armedPages r ≠ [] → (∀ p ∈ s.chip.armedPages r, s.chip.pageUp p = true) →
      s.chip.framesRunning = true → 4 ≤ s.chip.lead (s.chip.rq r).target → s.chip.lead (s.chip.rq r).target ≤ 400000 →
      Completes (.globalCommitGo r) s fun d =>
        d.rq r = { s.chip.rq r with gcState := 1, gcFrame := (s.chip.rq r).target, gcArmSent := false } ∧
        d.commits = s.chip.commits ++ (s.chip.armedPages r).map (fun p => ⟨p, some r, 4, s.chip.now⟩) ∧
        (∀ q, q ≠ r → d.rq q = s.chip.rq q) ∧
        s.chip.SameBut d [.commits, .rqHost, .rqMgmt, .rqI3c]) ∧
    ((s.chip.rq r).gcState = 1 →
      Completes (.globalCommitArmDistribute r) s fun d =>
        d.rq r = { s.chip.rq r with gcArmSent := true } ∧ (∀ q, q ≠ r → d.rq q = s.chip.rq q) ∧
        s.chip.SameBut d [.rqHost, .rqMgmt, .rqI3c]) ∧
    ((s.chip.rq r).gcState = 1 →
      s.chip.now + 500 ≤ s.chip.frameStart + 250 * s.chip.lead (s.chip.rq r).gcFrame →
      Completes (.globalCommitCancel r) s fun d =>
        (d.rq r).gcState = 2 ∧ (d.rq r).gcResult = 4 ∧ (∀ k ∈ d.commits, k.owner ≠ some r) ∧
        (∀ q, q ≠ r → d.rq q = s.chip.rq q) ∧
        s.chip.SameBut d [.reg, .commits, .rqHost, .rqMgmt, .rqI3c])

/-- On a page that r may write, with its shadow open, unarmed, and (a loop engine's) a valid BANK: SHADOW_CTL written
with COMMIT and a boundary kind other than immediate and global makes one commit of the page wait, freezes the shadow,
clears DONE and keeps BOUNDARY; with boundary immediate, on a page whose block has no act of its own at a commit,
every RWS field of the page written since its last commit takes its shadow and every other keeps its value in force,
SEQ counts one, COMMIT_DONE and DONE are set and no commit waits in the page. On an armed page the COMMIT alone is
discarded with SYS "arm conflict": BOUNDARY is stored. -/
def Obligations.LocalCommitsWaitOrApply : Prop :=
  ∀ (s : State) (r : Requester) (p : Page), s.chip.Interlocked → s.chip.Writable r p → s.chip.frozen p = false →
    s.chip.bankBad p = false →
    (s.chip.rd p Reg.HDR.SHADOW_CTL_ARMED ≠ 0 → ∀ b : Fin 8, b ≠ 4 →
      Completes (.localCommit r p b) s fun d =>
        d.rd p Reg.HDR.SHADOW_CTL_BOUNDARY = b.val ∧ d.x16 = s.chip.x16 ++ [⟨0, 5, 0, 0, 0x10⟩] ∧
        s.chip.SameBut d [.reg, .x16] ∧ s.chip.SameRegs d [(p, Reg.HDR.SHADOW_CTL_BOUNDARY, 0)]) ∧
    (s.chip.rd p Reg.HDR.SHADOW_CTL_ARMED = 0 → ∀ b : Fin 8, b ≠ 0 → b ≠ 4 →
      Completes (.localCommit r p b) s fun d =>
        d.commits = s.chip.commits ++ [⟨p, none, b.val, s.chip.now⟩] ∧ d.frozen p = true ∧
        d.rd p Reg.HDR.SHADOW_CTL_DONE = 0 ∧ d.rd p Reg.HDR.SHADOW_CTL_BOUNDARY = b.val ∧
        s.chip.SameBut d [.reg, .commits] ∧
        s.chip.SameRegs d [(p, Reg.HDR.SHADOW_CTL_BOUNDARY, 0), (p, Reg.HDR.SHADOW_CTL_DONE, 0)]) ∧
    (s.chip.rd p Reg.HDR.SHADOW_CTL_ARMED = 0 →
      p ∈ [Page.assay, .host, .cmd, .mem, .cache, .sluice, .polder, .inv, .rstore, .peer] →
      Completes (.localCommit r p 0) s fun d =>
        (∀ (f : Fld) (i : Nat), f.Fits i = true → f.acc = .rws →
          d.rdI p f i = (if fieldKey p f i ∈ s.chip.reg.wr then s.chip.shI p f i else s.chip.rdI p f i) ∧
          d.shI p f i = s.chip.shI p f i) ∧
        d.rd p Reg.HDR.SEQ_COUNT = (s.chip.rd p Reg.HDR.SEQ_COUNT + 1) % 2 ^ Reg.HDR.SEQ_COUNT.w ∧
        d.rd p Reg.HDR.INT_STAT_COMMIT_DONE = 1 ∧ d.rd p Reg.HDR.SHADOW_CTL_DONE = 1 ∧ d.frozen p = false ∧
        (∀ (q : Page) (f : Fld) (i : Nat), q ≠ p → f.Fits i = true →
          d.rdI q f i = s.chip.rdI q f i ∧ d.shI q f i = s.chip.shI q f i) ∧
        s.chip.SameBut d [.reg, .commits, .cmdPages])

/-- On a page that r may write: a write of EN to a block with no act of its own at that moment sets EN and shows
ENABLED or DISABLED, or with QUIESCE already 1 QUIESCED (the model's choice, log 168); the same write to a head page
with EN 0 leaves its LASER_KILL_N low; QUIESCE of an enabled block other than a head or beam shows QUIESCING; a
quiescing block whose unit of work is done shows QUIESCED; SOFT_RESET of the quiesced MEM, POLDER or INV page shows
RESETTING, with every field but LOCK and those that show what the reset leaves at its reset value; and the end of the
reset shows the state of reset again. -/
def Obligations.BlocksAreEnabledQuiescedAndReset : Prop :=
  ∀ (s : State) (r : Requester) (p : Page), s.chip.Interlocked →
    (s.chip.Writable r p → ∀ en : Bool, s.chip.enabled p = !en →
      p ∈ [Page.sys, .clk, .fault, .assay, .host, .cmd, .mem, .cache, .sluice, .polder, .inv, .rstore] →
      Completes (.pageEnable r p en) s fun d =>
        d.rd p Reg.HDR.PAGE_CTL_EN = b2n en ∧ d.rd p Reg.HDR.PAGE_STAT_STATE =
          (if !en then 0 else if s.chip.rd p Reg.HDR.PAGE_CTL_QUIESCE = 0 then 1 else 3) ∧ s.chip.SameBut d [.reg] ∧
        s.chip.SameRegs d [(p, Reg.HDR.PAGE_CTL_EN, 0), (p, Reg.HDR.PAGE_STAT_STATE, 0)]) ∧
    (∀ h : Port, s.chip.Writable r (.head h) → s.chip.enabled (.head h) = true →
      Completes (.pageEnable r (.head h) false) s fun d => d.killHigh h = false) ∧
    (s.chip.Writable r p → (∀ h, p ≠ .head h) → (∀ h b, p ≠ .beam h b) → s.chip.rd p Reg.HDR.PAGE_STAT_STATE = 1 →
      Completes (.quiesceRequest r p true) s fun d =>
        d.rd p Reg.HDR.PAGE_CTL_QUIESCE = 1 ∧ d.rd p Reg.HDR.PAGE_STAT_STATE = 2 ∧ s.chip.SameBut d [.reg] ∧
        s.chip.SameRegs d [(p, Reg.HDR.PAGE_CTL_QUIESCE, 0), (p, Reg.HDR.PAGE_STAT_STATE, 0)]) ∧
    (s.chip.rd p Reg.HDR.PAGE_STAT_STATE = 2 → s.chip.workDone p = true →
      Completes (.quiesceDone p) s fun d =>
        d.rd p Reg.HDR.PAGE_STAT_STATE = 3 ∧ s.chip.SameBut d [.reg, .beams] ∧
        s.chip.SameRegs d [(p, Reg.HDR.PAGE_STAT_STATE, 0)]) ∧
    (p = .mem ∨ p = .polder ∨ p = .inv → s.chip.Writable r p → s.chip.rd p Reg.HDR.PAGE_STAT_STATE = 3 →
      Completes (.pageSoftReset r p) s fun d =>
        d.rd p Reg.HDR.PAGE_STAT_STATE = 4 ∧ d.frozen p = false ∧
        (∀ (f : Fld) (i : Nat), f.Fits i = true →
          (∀ g ∈ Reg.HDR.PAGE_STAT_STATE :: lockFields ++ keptBySoftReset p, ∀ j < g.cnt, fieldKey p g j ≠ fieldKey p f i) →
          d.rdI p f i = fieldReset p f i % 2 ^ 32 ∧ d.shI p f i = fieldReset p f i % 2 ^ 32) ∧
        (∀ (q : Page) (f : Fld) (i : Nat), q ≠ p → f.Fits i = true →
          d.rdI q f i = s.chip.rdI q f i ∧ d.shI q f i = s.chip.shI q f i) ∧
        d.mem = (if p = .mem then { s.chip.mem with scrubAt := 0 } else s.chip.mem) ∧
        s.chip.SameBut d [.reg, .commits, .cmdPages, .mem]) ∧
    (s.chip.rd p Reg.HDR.PAGE_STAT_STATE = 4 →
      Completes (.softResetDone p) s fun d =>
        d.rd p Reg.HDR.PAGE_STAT_STATE = enReset p ∧ s.chip.SameBut d [.reg] ∧
        s.chip.SameRegs d [(p, Reg.HDR.PAGE_STAT_STATE, 0)])

/-- Where SYS may be written by r and the management island has been released: KICK with the watchdog enabled starts a
new period now; a write of WDOG_CTL sets EN and TIMEOUT_MS, and one that sets EN from 0 to 1 starts a period now, one
that clears EN ends it; RESTART restarts the island with RESET_CAUSE.MGMT_REQ set. A period that ends unkicked
restarts the island with RESET_CAUSE.WDOG set, no earlier than the period's length after its start. A restarting
island's cores execute again (a new period starts), and firmware that has not resumed then resumes admin commands,
each held one from its start. -/
def Obligations.FirmwareIsRestartedAndResumes : Prop :=
  ∀ (s : State) (r : Requester), s.chip.Interlocked →
    (s.chip.Writable r .sys → s.chip.isl.mgmtOnce = true → s.chip.isl.mgmtReleased = true →
      (s.chip.rd .sys Reg.SYS.WDOG_CTL_EN ≠ 0 →
        Completes (.watchdogKick r) s fun d =>
          d.mgmt = { s.chip.mgmt with wdogStart := some s.chip.now } ∧ s.chip.SameBut d [.mgmt]) ∧
      (∀ t : BitVec 16, s.chip.rd .sys Reg.SYS.WDOG_CTL_EN = 0 →
        Completes (.watchdogConfigWrite r true t) s fun d =>
          d.rd .sys Reg.SYS.WDOG_CTL_EN = 1 ∧ d.rd .sys Reg.SYS.WDOG_CTL_TIMEOUT_MS = t.toNat ∧
          d.mgmt = { s.chip.mgmt with wdogStart := some s.chip.now } ∧ s.chip.SameBut d [.reg, .mgmt] ∧
          s.chip.SameRegs d [(.sys, Reg.SYS.WDOG_CTL_EN, 0), (.sys, Reg.SYS.WDOG_CTL_TIMEOUT_MS, 0)]) ∧
      (∀ t : BitVec 16, Completes (.watchdogConfigWrite r false t) s fun d =>
          d.rd .sys Reg.SYS.WDOG_CTL_EN = 0 ∧ d.rd .sys Reg.SYS.WDOG_CTL_TIMEOUT_MS = t.toNat ∧
          d.mgmt = { s.chip.mgmt with wdogStart := none } ∧ s.chip.SameBut d [.reg, .mgmt] ∧
          s.chip.SameRegs d [(.sys, Reg.SYS.WDOG_CTL_EN, 0), (.sys, Reg.SYS.WDOG_CTL_TIMEOUT_MS, 0)]) ∧
      (Completes (.mgmtRestartRequest r) s fun d =>
        d.rd .sys Reg.SYS.RESET_CAUSE_MGMT_REQ = 1 ∧ d.mgmt.restarting = true ∧ d.mgmt.resumed = false ∧
        d.mgmt.wdogStart = none ∧ d.isl = s.chip.isl ∧ d.rqHost = s.chip.rqHost)) ∧
    (∀ t : Nat, s.chip.mgmt.wdogStart = some t →
      Completes .watchdogExpiry s fun d =>
        d.rd .sys Reg.SYS.RESET_CAUSE_WDOG = 1 ∧ d.mgmt.restarting = true ∧ d.mgmt.resumed = false ∧
        d.mgmt.wdogStart = none ∧ d.isl = s.chip.isl ∧
        d.mgmt.lastRestart = (s.chip.until' (t + s.chip.wdogTicks)).now) ∧
    (s.chip.mgmt.restarting = true → s.chip.isl.mgmtReleased = true →
      Completes .mgmtCoresResume s fun d =>
        d.mgmt.restarting = false ∧ s.chip.SameBut d [.mgmt] ∧
        (s.chip.isl.mgmtOnce = true → s.chip.rd .sys Reg.SYS.WDOG_CTL_EN ≠ 0 → d.mgmt.wdogStart = some s.chip.now)) ∧
    (s.chip.isl.mgmtReleased = true → s.chip.mgmt.restarting = false → s.chip.mgmt.resumed = false →
      s.chip.host.activation = none →
      Completes .adminResume s fun d =>
        d.mgmt = { s.chip.mgmt with resumed := true } ∧
        d.host.slots = s.chip.host.slots.map (fun x =>
          if x.2.repeated then (x.1, { x.2 with phase := .fetched, begun := false }) else x) ∧
        s.chip.SameBut d [.mgmt, .host])

/-- In every word of every page, the fields that the model decodes are pairwise disjoint bit ranges and each ends
within bit 31, so that a write of a word sets each field from its own bits only. -/
def Obligations.WordFieldsDoNotOverlap : Prop :=
  ∀ (p : Page) (k : Fin 1024),
    (∀ e ∈ wordFields p (4 * k.val), e.1.lo + e.1.w ≤ 32 ∧ e.1.Fits e.2 = true) ∧
    (wordFields p (4 * k.val)).Pairwise fun a b => a.1.lo + a.1.w ≤ b.1.lo ∨ b.1.lo + b.1.w ≤ a.1.lo

/-- An aligned 4-byte write of r (the host's through function 0, over a link that is up) to a block register of CMD,
POLDER or a SPIN page that r may write and whose shadow is open sets every RW field of the word to its bits, every RWS
field's shadow to its bits while its value in force stays, clears every W1C field where the written bit is 1, and
changes no RO field; no other page's register and nothing but registers and the note of a written command register
changes. A misaligned 4-byte write, a 1-byte or 2-byte write, and a write to a page number without a page (other than
the host's NVMe window) change nothing and send SYS REGISTER kind 3 or 2. A write request for one word over the
management bus is that write by the I3C requester and is answered. -/
def Obligations.RegisterWritesSetTheirFields : Prop :=
  ∀ (s : State) (r : Requester) (n : Ctrl) (env : WriteEnv) (hi : Word), s.chip.Interlocked → s.chip.hears r = true → (r = .host → n = 0) →
    (∀ (p : Page) (k : Fin 1024) (a : BitVec 24) (w : Word), (p = .cmd ∨ p = .polder ∨ ∃ m, p = .spin m) → 16 ≤ k.val →
      a.toNat = p.num * 4096 + 4 * k.val → s.chip.Writable r p → s.chip.frozen p = false →
      Completes (.registerWrite r n .b4 a w hi env) s fun d =>
        (∀ e ∈ wordFields p (4 * k.val),
          (e.1.acc = .rw → d.rdI p e.1 e.2 = w.toNat / 2 ^ e.1.lo % 2 ^ e.1.w) ∧
          (e.1.acc = .rws → d.shI p e.1 e.2 = w.toNat / 2 ^ e.1.lo % 2 ^ e.1.w ∧ d.rdI p e.1 e.2 = s.chip.rdI p e.1 e.2) ∧
          (e.1.acc = .w1c → d.rdI p e.1 e.2 = (s.chip.rdI p e.1 e.2 &&& (2 ^ e.1.w - 1 - w.toNat / 2 ^ e.1.lo % 2 ^ e.1.w))) ∧
          (e.1.acc = .ro → d.rdI p e.1 e.2 = s.chip.rdI p e.1 e.2)) ∧
        (∀ (q : Page) (f : Fld) (i : Nat), q ≠ p → f.Fits i = true →
          d.rdI q f i = s.chip.rdI q f i ∧ d.shI q f i = s.chip.shI q f i) ∧
        s.chip.SameBut d [.reg, .cmdPages]) ∧
    (∀ (a : BitVec 24) (w : Word), a.toNat % 4 ≠ 0 →
      Completes (.registerWrite r n .b4 a w hi env) s fun d =>
        d.x16 = s.chip.x16 ++ [⟨0, 3, 0, 0, 0x10⟩] ∧ s.chip.SameBut d [.x16]) ∧
    (∀ (a : BitVec 24) (w : Word),
      (Completes (.registerWrite r n .b1 a w hi env) s fun d =>
        d.x16 = s.chip.x16 ++ [⟨0, 3, 0, 0, 0x10⟩] ∧ s.chip.SameBut d [.x16]) ∧
      Completes (.registerWrite r n .b2 a w hi env) s fun d =>
        d.x16 = s.chip.x16 ++ [⟨0, 3, 0, 0, 0x10⟩] ∧ s.chip.SameBut d [.x16]) ∧
    (∀ (m : McMsg) (w : Word), s.chip.isl.aonUp = true → s.chip.mgmt.mctpBusy = false → m.typ = 0x7E → m.vendor = 0x1F48 →
      m.check = true → m.body.length = 10 → mcOpcode m = 2 → mcCount m = 1 → mcPage m < 0x1000 → mcOffset m % 4 = 0 →
      mcOffset m < 4096 → mcWords m = [w] →
      Completes (.mctpWrite m env) s fun d => d.mgmt.mctpResp.data = [] ∧ d.mgmt.mctpResp.busy = false ∧ ∃ t,
        exec (.registerWrite .i3c 0 .b4 (BitVec.ofNat 24 (mcPage m * 4096 + mcOffset m)) w 0 env) s = .next t ∧
        d = { t.chip with mgmt := { t.chip.mgmt with mctpResp := d.mgmt.mctpResp } }) ∧
    ∀ (a : BitVec 24) (w : Word), a.toNat % 4 = 0 → Page.ofNum (a.toNat / 4096) = none → (0x4000 ≤ a.toNat ∨ r ≠ .host) →
      Completes (.registerWrite r n .b4 a w hi env) s fun d =>
        d.x16 = s.chip.x16 ++ [⟨0, 2, 0, 0, 0x10⟩] ∧ s.chip.SameBut d [.x16]

/-- Of a requester whose reads arrive (the host's through function 0, over a link that is up): an aligned 4-byte read
of a reached page whose word is held in the register store alone (no live status, no engine or trace memory port)
answers, in the bits of each field, the value in force, for an RWS field its shadow, and 0 for a W1P field; fields
that clear on read are then 0 and nothing else changes but the reader's answer. A read of an unreached page answers
all ones and sends SYS REGISTER kind 1; of a page number without a page (other than the host's NVMe window) 0 and kind
2; a misaligned 4-byte read 0 and kind 3. A read request for one word over the management bus is answered with that
word of the page. -/
def Obligations.RegisterReadsAnswerTheirFields : Prop :=
  ∀ (s : State) (r : Requester) (n : Ctrl), s.chip.Interlocked → s.chip.hears r = true → (r = .host → n = 0) →
    (∀ (p : Page) (k : Fin 1024) (a : BitVec 24), (p = .cmd ∨ p = .sluice ∨ p = .mem ∨ ∃ m, p = .spin m) → 16 ≤ k.val →
      a.toNat = p.num * 4096 + 4 * k.val → s.chip.Reach p →
      Completes (.registerRead r n .b4 a) s fun d =>
        (∀ e ∈ wordFields p (4 * k.val),
          (d.rq r).readData.toNat / 2 ^ e.1.lo % 2 ^ e.1.w = s.chip.fieldRead p e.1 e.2 % 2 ^ e.1.w ∧
          (e.1.acc = .rc → d.rdI p e.1 e.2 = 0) ∧ (e.1.acc ≠ .rc → d.rdI p e.1 e.2 = s.chip.rdI p e.1 e.2)) ∧
        (∀ q, q ≠ r → d.rq q = s.chip.rq q) ∧ s.chip.SameBut d [.reg, .rqHost, .rqMgmt, .rqI3c]) ∧
    (∀ (p : Page) (a : BitVec 24), a.toNat % 4 = 0 → a.toNat / 4096 = p.num → s.chip.pageUp p = false →
      Completes (.registerRead r n .b4 a) s fun d =>
        (d.rq r).readData = 0xFFFFFFFF ∧ d.x16 = s.chip.x16 ++ [⟨0, 1, 0, 0, 0x10⟩] ∧
        s.chip.SameBut d [.x16, .rqHost, .rqMgmt, .rqI3c]) ∧
    (∀ a : BitVec 24, a.toNat % 4 = 0 → Page.ofNum (a.toNat / 4096) = none → (0x4000 ≤ a.toNat ∨ r ≠ .host) →
      Completes (.registerRead r n .b4 a) s fun d =>
        (d.rq r).readData = 0 ∧ d.x16 = s.chip.x16 ++ [⟨0, 2, 0, 0, 0x10⟩] ∧
        s.chip.SameBut d [.x16, .rqHost, .rqMgmt, .rqI3c]) ∧
    (∀ (m : McMsg) (p : Page), s.chip.isl.aonUp = true → s.chip.mgmt.mctpBusy = false → m.typ = 0x7E → m.vendor = 0x1F48 →
      m.check = true → m.body.length = 6 → mcOpcode m = 1 → mcCount m = 1 → mcPage m = p.num → mcOffset m % 4 = 0 →
      mcOffset m < 4096 → s.chip.Reach p → (p = .cmd ∨ p = .sluice ∨ p = .mem ∨ ∃ m, p = .spin m) →
      Completes (.mctpRead m) s fun d =>
        d.mgmt.mctpResp = { status := 0, data := [BitVec.ofNat 32 (s.chip.wordAt .i3c p (mcOffset m))] } ∧
        d.x16 = s.chip.x16) ∧
    ∀ a : BitVec 24, a.toNat % 4 ≠ 0 →
      Completes (.registerRead r n .b4 a) s fun d =>
        (d.rq r).readData = 0 ∧ d.x16 = s.chip.x16 ++ [⟨0, 3, 0, 0, 0x10⟩] ∧
        s.chip.SameBut d [.x16, .rqHost, .rqMgmt, .rqI3c]

/-- Once the I3C path answers and no other request is served, for a vendor-defined message with the controller's
vendor ID: a read request with its integrity check of 1 to 16 words within one reached page is answered with status 0
and that many words, a single one being the word of the page; a write request with a good check and as many words as
its COUNT is answered without data with a status of 0 to 3, and one word's is the write of that word by the I3C
requester; a fence request starts the I3C requester's fence where none is in progress and is answered at its end; a
request without a good check, or of an unknown OPCODE, is answered with status 4 and changes nothing else. While a
request is served every further one is answered busy; a message that is not the handler's changes nothing. -/
def Obligations.MctpRequestsAreServed : Prop :=
  ∀ (s : State) (m : McMsg) (env : WriteEnv), s.chip.Interlocked → s.chip.isl.aonUp = true →
    let Mine := m.typ = 0x7E ∧ m.vendor = 0x1F48
    let Fits := m.check = true ∧ 1 ≤ mcCount m ∧ mcCount m ≤ 16 ∧ mcPage m < 0x1000 ∧ mcOffset m % 4 = 0 ∧
      mcOffset m + 4 * mcCount m ≤ 4096
    let Malformed : Chip → Prop := fun d =>
      d.mgmt = { s.chip.mgmt with mctpResp := { status := 4 } } ∧ s.chip.SameBut d [.mgmt]
    (Mine → s.chip.mgmt.mctpBusy = false →
      (∀ p : Page, mcOpcode m = 1 → Fits → m.body.length = 6 → mcPage m = p.num → s.chip.pageUp p = true →
        Completes (.mctpRead m) s fun d =>
          d.mgmt.mctpResp.status = 0 ∧ d.mgmt.mctpResp.busy = false ∧ d.mgmt.mctpResp.data.length = mcCount m ∧
          (mcCount m = 1 → s.chip.rd p Reg.HDR.PAGE_STAT_STATE ≠ 4 → (∀ e, p ≠ .loop e) → (∀ t, p ≠ .trace t) →
            d.mgmt.mctpResp.data = [BitVec.ofNat 32 (s.chip.wordAt .i3c p (mcOffset m))]) ∧
          d.rqHost = s.chip.rqHost ∧ d.rqMgmt = s.chip.rqMgmt) ∧
      (mcOpcode m = 2 → Fits → m.body.length = 6 + 4 * mcCount m →
        Completes (.mctpWrite m env) s fun d =>
          d.mgmt.mctpResp.status ≤ 3 ∧ d.mgmt.mctpResp.busy = false ∧ d.mgmt.mctpResp.data = [] ∧
          ∀ w : Word, mcWords m = [w] → ∃ t,
            exec (.registerWrite .i3c 0 .b4 (BitVec.ofNat 24 (mcPage m * 4096 + mcOffset m)) w 0 env) s = .next t ∧
            d = { t.chip with mgmt := { t.chip.mgmt with mctpResp := { status := d.mgmt.mctpResp.status } } }) ∧
      (mcOpcode m = 3 → m.check = true → mcCount m < 4 → m.body.length = 2 → s.chip.rqI3c.fence.done = true →
        Completes (.mctpFence m) s fun d =>
          d.mgmt = { s.chip.mgmt with mctpBusy := true } ∧
          d.rqI3c.fence = { s.chip.rqI3c.fence with
            done := false, scope := mcCount m, since := s.chip.now, kind := mcCount m
            ahead := if mcCount m = 1 then 0 else s.chip.stripe.length } ∧
          s.chip.SameBut d [.rqI3c, .mgmt]) ∧
      (mcOpcode m ≠ 2 → mcOpcode m ≠ 3 → (m.check = false ∨ mcOpcode m ≠ 1) → Completes (.mctpRead m) s Malformed) ∧
      (mcOpcode m = 2 → m.check = false → Completes (.mctpWrite m env) s Malformed) ∧
      (mcOpcode m = 3 → (m.check = false ∨ 4 ≤ mcCount m) → Completes (.mctpFence m) s Malformed)) ∧
    (Mine → s.chip.mgmt.mctpBusy = true → ∀ i : Instr,
      (i = .mctpRead m ∧ mcOpcode m = 1) ∨ (i = .mctpWrite m env ∧ mcOpcode m = 2) ∨ (i = .mctpFence m ∧ mcOpcode m = 3) →
      Completes i s fun d => d.mgmt = { s.chip.mgmt with mctpResp := { busy := true } } ∧ s.chip.SameBut d [.mgmt]) ∧
    (¬ Mine → ∀ i ∈ [Instr.mctpRead m, .mctpWrite m env, .mctpFence m], Completes i s fun d => d = s.chip)

/-- The front message of X16, of a populated source, arrives, in the tick in which its port is free (a message of the
same island or of a higher SOURCE in this tick delays it by one): both its windows count it (a window that has changed
starts from 0, a count stops at 255); it escalates where a count reaches N; its class is ESC or BASE (never below
BASE), raised to its hint where HINT_EN is set; that class is the source's LAST_CLASS. Where its reaction names no
quench line and its class is below CRITICAL it is queued for capture with stamp, class and NOTIFY, ALERT_N is low from
a SEVERE class on, bit 0 of INT_STAT follows IRQ, and lasers, axes, spindles and servos stay as they are. A message
behind one of its own island arrives not yet. A window start counts that source's window from 0 and nothing else
changes but the timebase. A write of SRC_CFG of the populated source that SRC_SEL names gives it the fields of the
word, and RESTORE its fused defaults; both set its counts to 0; the parity check of each second completes and gives
every source found bad its defaults. -/
def Obligations.FaultMessagesAreClassified : Prop :=
  ∀ s : State, s.chip.Interlocked →
    (∀ (m : Msg) (rest : List Msg), s.chip.x16 = m :: rest → srcPage m.src ≠ none → s.chip.col.queue.length < 4096 →
      let cfg := s.chip.col.cfgOf m.src
      let k := s.chip.col.cntOf m.src
      let t := (s.chip.enterPort m.src).now
      let a := min 255 ((if k.aIx = t / cfg.ticks then k.a else 0) + 1)
      let b := min 255 ((if k.bIx = (t + cfg.ticks / 2) / cfg.ticks then k.b else 0) + 1)
      let up := decide (max 1 cfg.n ≤ a ∨ max 1 cfg.n ≤ b)
      let base := if up then max cfg.base cfg.esc else cfg.base
      let cls := if cfg.hintEn then max base m.hint else base
      let react := cfg.react / 2 ^ (8 * cls) % 256
      react.testBit 1 = false → react.testBit 2 = false → react.testBit 3 = false → cls < 3 →
        Completes (.faultMessage 0 false) s fun d =>
          d.x16 = rest ∧
          d.col.cntOf m.src = { aIx := t / cfg.ticks, a := a, bIx := (t + cfg.ticks / 2) / cfg.ticks, b := b, last := cls } ∧
          d.col.queue = s.chip.col.queue ++ [⟨m, t, cls, up, false, cfg.scope, false, react.testBit 4⟩] ∧
          d.col.recs = s.chip.col.recs ∧
          (2 ≤ cls → d.pins.alertLow = true ∧ d.col.alertAt = t) ∧
          bit (d.rd .fault Reg.HDR.INT_STAT_BLOCK) 0 =
            (bit (s.chip.rd .fault Reg.HDR.INT_STAT_BLOCK) 0 || react.testBit 0) ∧
          s.chip.SameBut d [.tb, .reg, .pins, .x16, .col, .traces] ∧ s.chip.SameElsewhere d (· = .fault)) ∧
    (∀ (i : Nat) (m : Msg) (b : Bool), s.chip.x16[i]? = some m → (∃ x ∈ s.chip.x16.take i, sameSender x.src m.src = true) →
      Completes (.faultMessage i b) s fun d => d = s.chip) ∧
    (∀ r : Requester, s.chip.Writable r .fault →
      (∀ w : Word, srcPage (s.chip.rd .fault Reg.FAULT.SRC_SEL_SOURCE) ≠ none → Completes (.srcCfgWrite r w) s fun d =>
        (let k := d.col.cfgOf (s.chip.rd .fault Reg.FAULT.SRC_SEL_SOURCE)
         k.n = w.toNat % 256 ∧ k.base = w.toNat / 2 ^ 8 % 4 ∧ k.esc = w.toNat / 2 ^ 10 % 4 ∧ k.scope = w.toNat / 2 ^ 13 % 4) ∧
        d.col.cntOf (s.chip.rd .fault Reg.FAULT.SRC_SEL_SOURCE) = {} ∧ s.chip.SameBut d [.col]) ∧
      ∀ src : Fin 1024, Completes (.srcRestore r src) s fun d =>
        d.col.cfgOf src.val = srcDefault src.val ∧ d.col.cntOf src.val = {} ∧ s.chip.SameBut d [.reg, .col]) ∧
    (∀ bad : List (Fin 1024), Completes (.configParityCheck bad) s fun d =>
      (∀ i ∈ bad, srcPage i.val ≠ none → d.col.cfgOf i.val = srcDefault i.val) ∧ d.col.cnt = s.chip.col.cnt ∧
      s.chip.SameBut d [.tb, .x16, .col]) ∧
    ∀ src : Fin 1024, srcPage src.val ≠ none →
      (Completes (.faultWindowStart src false) s fun d =>
        let w := (s.chip.col.cfgOf src.val).ticks
        d.col.cntOf src.val = { s.chip.col.cntOf src.val with aIx := d.now / w, a := 0 } ∧
        (∀ i, i ≠ src.val → d.col.cntOf i = s.chip.col.cntOf i) ∧ s.chip.SameBut d [.tb, .col]) ∧
      Completes (.faultWindowStart src true) s fun d =>
        let w := (s.chip.col.cfgOf src.val).ticks
        d.col.cntOf src.val = { s.chip.col.cntOf src.val with bIx := (d.now + w / 2) / w, b := 0 } ∧
        (∀ i, i ≠ src.val → d.col.cntOf i = s.chip.col.cntOf i) ∧ s.chip.SameBut d [.tb, .col]

/-- Whatever else the arrival of a fault message does: after it, LASER_KILL_N is low and the quench line active for
every port in the scope of the message's source, where the reaction byte of its class has Q_LASER set; and every
quench line that was active stays active. -/
def Obligations.QuenchReachesTheLasers : Prop :=
  ∀ (s : State) (m : Msg) (rest : List Msg) (p : Page) (n : Nat), s.chip.Interlocked → s.chip.x16 = m :: rest →
    srcPage m.src = some (p, n) →
      let cfg := s.chip.col.cfgOf m.src
      let k := (s.chip.col.cntOf m.src).arrive cfg (s.chip.enterPort m.src).now
      Completes (.faultMessage 0 false) s fun d =>
        (∀ h : Port, (cfg.reaction (classify cfg k m.hint).1).testBit 1 = true →
          (scopeUnits p cfg.scope).ports.testBit h.val = true →
            d.killHigh h = false ∧ bit (d.rd .fault Reg.FAULT.QUENCH_HEAD_PORTS) h.val = true) ∧
        (∀ h : Port, bit (s.chip.rd .fault Reg.FAULT.QUENCH_HEAD_PORTS) h.val = true →
          bit (d.rd .fault Reg.FAULT.QUENCH_HEAD_PORTS) h.val = true) ∧
        (∀ x : Spin, bit (s.chip.rd .fault Reg.FAULT.QUENCH_SPIN_SPINS) x.val = true →
          bit (d.rd .fault Reg.FAULT.QUENCH_SPIN_SPINS) x.val = true) ∧
        ∀ x : Axis, bit (s.chip.rd .fault Reg.FAULT.QUENCH_AXIS_AXES) x.val = true →
          bit (d.rd .fault Reg.FAULT.QUENCH_AXIS_AXES) x.val = true

/-- A write of ones to QUENCH_HEAD, QUENCH_SPIN or QUENCH_AXIS releases exactly those lines written as 1 that neither
an unacknowledged quenched record's scope nor a quenching message of the same tick holds, while no flush quench is in
force; every other line and all other kinds of line stay. ALERT_N low: the end of its 20 us minimum releases it where
HOLD is 0 or a release was written, else sets HELD; RELEASE after the minimum releases it, during the minimum is kept
for its end; with ALERT_N high neither changes anything. -/
def Obligations.QuenchLinesHoldUntilReleased : Prop :=
  ∀ (s : State) (r : Requester), s.chip.Interlocked →
    (s.chip.Writable r .fault →
      (∀ w : BitVec 16, Completes (.quenchHeadRelease r w) s fun d =>
        (∀ h : Port, bit (d.rd .fault Reg.FAULT.QUENCH_HEAD_PORTS) h.val =
          (bit (s.chip.rd .fault Reg.FAULT.QUENCH_HEAD_PORTS) h.val &&
            !(w.getLsbD h.val && s.chip.mayRelease ⟨2 ^ h.val, 0, 0⟩))) ∧
        d.rd .fault Reg.FAULT.QUENCH_SPIN_SPINS = s.chip.rd .fault Reg.FAULT.QUENCH_SPIN_SPINS ∧
        d.rd .fault Reg.FAULT.QUENCH_AXIS_AXES = s.chip.rd .fault Reg.FAULT.QUENCH_AXIS_AXES ∧ d.col = s.chip.col) ∧
      (∀ w : BitVec 8, Completes (.quenchSpinRelease r w) s fun d =>
        (∀ n : Spin, bit (d.rd .fault Reg.FAULT.QUENCH_SPIN_SPINS) n.val =
          (bit (s.chip.rd .fault Reg.FAULT.QUENCH_SPIN_SPINS) n.val &&
            !(w.getLsbD n.val && s.chip.mayRelease ⟨0, 2 ^ n.val, 0⟩))) ∧
        d.rd .fault Reg.FAULT.QUENCH_HEAD_PORTS = s.chip.rd .fault Reg.FAULT.QUENCH_HEAD_PORTS ∧
        d.rd .fault Reg.FAULT.QUENCH_AXIS_AXES = s.chip.rd .fault Reg.FAULT.QUENCH_AXIS_AXES ∧ d.col = s.chip.col) ∧
      (∀ w : BitVec 22, Completes (.quenchAxisRelease r w) s fun d =>
        (∀ a : Axis, bit (d.rd .fault Reg.FAULT.QUENCH_AXIS_AXES) a.val =
          (bit (s.chip.rd .fault Reg.FAULT.QUENCH_AXIS_AXES) a.val &&
            !(w.getLsbD a.val && s.chip.mayRelease ⟨0, 0, 2 ^ a.val⟩))) ∧
        s.chip.SameBut d [.reg] ∧
        s.chip.SameRegs d [(.fault, Reg.FAULT.QUENCH_AXIS_AXES, 0), (.fault, Reg.FAULT.QUENCH_EVENTS_DENIED, 0)]) ∧
      (s.chip.pins.alertLow = true →
        (s.chip.col.alertAt + 2000 ≤ s.chip.now → Completes (.alertRelease r) s fun d =>
          d.pins = { s.chip.pins with alertLow := false } ∧ d.rd .fault Reg.FAULT.ALERT_CTL_LOW = 0 ∧
          d.rd .fault Reg.FAULT.ALERT_CTL_HELD = 0 ∧ s.chip.SameBut d [.reg, .pins, .col]) ∧
        (s.chip.now < s.chip.col.alertAt + 2000 → Completes (.alertRelease r) s fun d =>
          d.col = { s.chip.col with alertRel := true } ∧ s.chip.SameBut d [.col])) ∧
      (s.chip.pins.alertLow = false → Completes (.alertRelease r) s fun d => d = s.chip)) ∧
    (s.chip.pins.alertLow = true → (s.chip.rd .fault Reg.FAULT.ALERT_CTL_HOLD = 0 ∨ s.chip.col.alertRel = true) →
      Completes .alertMinExpiry s fun d =>
        d.pins = { s.chip.pins with alertLow := false } ∧ d.rd .fault Reg.FAULT.ALERT_CTL_LOW = 0 ∧
        d.rd .fault Reg.FAULT.ALERT_CTL_HELD = 0 ∧ s.chip.SameBut d [.tb, .reg, .pins, .col]) ∧
    (s.chip.pins.alertLow = true → s.chip.rd .fault Reg.FAULT.ALERT_CTL_HOLD ≠ 0 → s.chip.col.alertRel = false →
      Completes .alertMinExpiry s fun d =>
        d.rd .fault Reg.FAULT.ALERT_CTL_HELD = 1 ∧ s.chip.SameBut d [.tb, .reg] ∧
        s.chip.SameRegs d [(.fault, Reg.FAULT.ALERT_CTL_HELD, 0)])

/-- The capture at the front of the queue merges into the source's unacknowledged record (count one more up to 16,383,
class and hint the higher, DETAIL ORed, the last kind, argument and stamp its own) or, with none, opens a record of
count 1 in the lowest free slot. ACK with the record's own count, no message of its source having arrived in the same
tick, acknowledges an unacknowledged record and clears STALE; any other ACK changes no record and sets STALE. COPIED
marks a valid record. A read of REC_DATA that arrives answers the selected word and steps WORD modulo 8. -/
def Obligations.FaultRecordsAreKept : Prop :=
  ∀ s : State, s.chip.Interlocked →
    (∀ (q : Capture) (rest : List Capture) (i : Nat) (x : FaultRec), s.chip.col.queue = q :: rest →
      s.chip.col.openRec q.msg.src = some (i, x) →
      Completes (.faultCapture false) s fun d =>
        d.col.queue = rest ∧ ∃ y, assocGet i d.col.recs = some y ∧ y.count = min 16383 (x.count + 1) ∧
          y.cls = max x.cls q.cls ∧ y.hint = max x.hint q.msg.hint ∧ y.detail = x.detail ||| q.msg.detail ∧
          y.kindFirst = x.kindFirst ∧ y.kindLast = q.msg.kind ∧ y.argFirst = x.argFirst ∧ y.argLast = q.msg.arg ∧
          y.tbFirst = x.tbFirst ∧ y.tbLast = q.stamp ∧ y.escalated = (x.escalated || q.escalated) ∧
          y.quenched = (x.quenched || q.quenched) ∧ y.acked = x.acked ∧ y.src = x.src ∧
          ∀ j, j ≠ i → assocGet j d.col.recs = assocGet j s.chip.col.recs) ∧
    (∀ (q : Capture) (rest : List Capture) (i : Nat), s.chip.col.queue = q :: rest →
      s.chip.col.openRec q.msg.src = none → s.chip.col.freeSlot = some i →
      Completes (.faultCapture false) s fun d =>
        d.col.queue = rest ∧ ∃ y, assocGet i d.col.recs = some y ∧ y.src = q.msg.src ∧ y.count = 1 ∧ y.cls = q.cls ∧
          y.kindFirst = q.msg.kind ∧ y.kindLast = q.msg.kind ∧ y.argFirst = q.msg.arg ∧ y.argLast = q.msg.arg ∧
          y.tbFirst = q.stamp ∧ y.tbLast = q.stamp ∧ y.acked = false ∧ y.copied = false ∧
          ∀ j, j ≠ i → assocGet j d.col.recs = assocGet j s.chip.col.recs) ∧
    (∀ (r : Requester) (i : Fin 1024) (n : BitVec 14), s.chip.Writable r .fault →
      (∀ x, assocGet i.val s.chip.col.recs = some x → x.acked = false → x.count = n.toNat →
        (∀ q ∈ s.chip.arrivedNow, q.msg.src ≠ x.src) → Completes (.recAck r i n) s fun d =>
          d.col = { s.chip.col with recs := assocSet i.val { x with acked := true } s.chip.col.recs } ∧
          d.rd .fault Reg.FAULT.REC_ACK_STALE = 0 ∧ s.chip.SameBut d [.reg, .col]) ∧
      ((∀ x, assocGet i.val s.chip.col.recs = some x → x.acked = true ∨ x.count ≠ n.toNat ∨
          ∃ q ∈ s.chip.arrivedNow, q.msg.src = x.src) →
        Completes (.recAck r i n) s fun d =>
          d.rd .fault Reg.FAULT.REC_ACK_STALE = 1 ∧ s.chip.SameBut d [.reg] ∧
          s.chip.SameRegs d [(.fault, Reg.FAULT.REC_ACK_INDEX, 0), (.fault, Reg.FAULT.REC_ACK_COUNT, 0),
            (.fault, Reg.FAULT.REC_ACK_STALE, 0)]) ∧
      (∀ x, assocGet i.val s.chip.col.recs = some x →
        Completes (.recCopied r i n) s fun d =>
          d.col = { s.chip.col with recs := assocSet i.val { x with copied := true } s.chip.col.recs } ∧
          s.chip.SameBut d [.reg, .col])) ∧
    ∀ (r : Requester) (x : FaultRec), s.chip.hears r = true → s.chip.rd .fault Reg.HDR.PAGE_STAT_STATE ≠ 4 →
      assocGet (s.chip.rd .fault Reg.FAULT.REC_SEL_INDEX) s.chip.col.recs = some x →
      Completes (.recDataRead r) s fun d =>
        (d.rq r).readData = BitVec.ofNat 32 (x.word (s.chip.rd .fault Reg.FAULT.REC_SEL_WORD)) ∧
        d.rd .fault Reg.FAULT.REC_SEL_WORD = (s.chip.rd .fault Reg.FAULT.REC_SEL_WORD + 1) % 8 ∧
        (∀ q, q ≠ r → d.rq q = s.chip.rq q) ∧ s.chip.SameBut d [.reg, .rqHost, .rqMgmt, .rqI3c] ∧
        s.chip.SameRegs d [(.fault, Reg.FAULT.REC_SEL_WORD, 0)]

/-- A write of SRC_CFG for a populated source that SRC_SEL names sets N, BASE, ESC, HINT_EN, SCOPE, T_MANT and T_EXP
from its bits, keeps the reaction bytes and sets the source's counts to 0; for an unpopulated ID nothing changes.
RESTORE returns the named source to its fused defaults with counts 0. The parity check of every second loads the
defaults of each source found bad, sends CONFIG_PARITY for it, and changes no other source. -/
def Obligations.FaultSourcesAreConfigured : Prop :=
  ∀ s : State, s.chip.Interlocked →
    (∀ (r : Requester) (w : Word), s.chip.Writable r .fault →
      let id := s.chip.rd .fault Reg.FAULT.SRC_SEL_SOURCE
      (srcPage id ≠ none →
        Completes (.srcCfgWrite r w) s fun d =>
          d.col.cfgOf id = { s.chip.col.cfgOf id with
            n := w.toNat % 256, base := w.toNat / 2 ^ 8 % 4, esc := w.toNat / 2 ^ 10 % 4, hintEn := w.getLsbD 12,
            scope := w.toNat / 2 ^ 13 % 4, tMant := w.toNat / 2 ^ 16 % 1024, tExp := w.toNat / 2 ^ 26 % 16 } ∧
          d.col.cntOf id = {} ∧ (∀ j, j ≠ id → d.col.cfgOf j = s.chip.col.cfgOf j ∧ d.col.cntOf j = s.chip.col.cntOf j) ∧
          s.chip.SameBut d [.col]) ∧
      (srcPage id = none → Completes (.srcCfgWrite r w) s fun d => d = s.chip)) ∧
    (∀ (r : Requester) (src : Fin 1024), s.chip.Writable r .fault →
      Completes (.srcRestore r src) s fun d =>
        d.col.cfgOf src.val = srcDefault src.val ∧ d.col.cntOf src.val = {} ∧
        d.rd .fault Reg.FAULT.SRC_SEL_SOURCE = src.val ∧
        (∀ j, j ≠ src.val → d.col.cfgOf j = s.chip.col.cfgOf j ∧ d.col.cntOf j = s.chip.col.cntOf j) ∧
        s.chip.SameBut d [.reg, .col] ∧ s.chip.SameRegs d [(.fault, Reg.FAULT.SRC_SEL_SOURCE, 0)]) ∧
    ∀ bad : List (Fin 1024),
      Completes (.configParityCheck bad) s fun d =>
        (∀ i ∈ bad, srcPage i.val ≠ none → d.col.cfgOf i.val = srcDefault i.val) ∧
        (∀ i : Fin 1024, i ∉ bad → d.col.cfgOf i.val = s.chip.col.cfgOf i.val) ∧ d.col.cnt = s.chip.col.cnt ∧
        d.x16 = s.chip.x16 ++ (bad.filter fun i => (srcPage i.val).isSome).map (fun _ => ⟨7, 2, 1, 0, 0x12⟩) ∧
        d.col.nextParity = s.chip.col.nextParity + 100000000 ∧ s.chip.SameBut d [.tb, .x16, .col]

/-- TRAIN of a port that is not absent, with DEVCLK running for 1 ms within 10 ms from now, and the automatic training
of a lost port with fewer than three attempts (which counts in RETRAINS), end RUNNING with both uplinks and the
downlink locked, frame number 0, the committed rate, delays and capabilities in force and no attempt counted, where
the OPU answers every step and its figures fit; answered only up to step 4 they stand in SETUP, up to step 1 in
LOCKING; else they end LOST with the lasers off and ALIGN_FAIL, its detail the failed step and in the third automatic
attempt the retry bit. Without DEVCLK the training waits, and where none comes by 10 ms after its beginning it fails
at step 2. -/
def Obligations.LinksTrainOrFail : Prop :=
  ∀ (s : State) (r : Requester) (h : Port) (a : OpuAnswer), s.chip.Interlocked →
    let p : Page := .head h
    let rate := s.chip.rd p Reg.HEAD.LINK_CTL_RATE
    let good : Bool := decide (a.failStep = 0) && decide (rate < 5) && bit a.caps.toNat rate && a.hkOk &&
      decide (a.txLat + 166 ≤ s.chip.rd p Reg.HEAD.LINK_CFG_UL_DELAY) &&
      decide (s.chip.rd p Reg.HEAD.LINK_CFG_DL_RELEASE ≤ s.chip.rd p Reg.HEAD.LINK_CFG_L_DL) &&
      decide (s.chip.rd p Reg.HEAD.LINK_CFG_L_DL - s.chip.rd p Reg.HEAD.LINK_CFG_DL_RELEASE ≤ 436)
    let Running : Chip → Prop := fun d =>
      d.linkState h = 3 ∧ d.rd p Reg.HEAD.LINK_STAT_UL0_LOCK = 1 ∧ d.rd p Reg.HEAD.LINK_STAT_UL1_LOCK = 1 ∧
      d.rd p Reg.HEAD.LINK_STAT_DL_ALIGNED = 1 ∧ d.rd p Reg.HEAD.LINK_FRAME_N = 0 ∧ (d.hd h).rate = rate ∧
      (d.hd h).ulNext = 0 ∧ (d.hd h).dlNext = 0 ∧ (d.hd h).caps = a.caps ∧ (d.hd h).tries = 0
    let Failed : Bool → Chip → Prop := fun retry d =>
      d.linkState h = 4 ∧ d.killHigh h = false ∧
      d.x16.getLast? = some ⟨0x140 + 16 * h.val, 3, 1,
        if retry then s.chip.trainStep h a ||| 2 ^ (Config.alignRetryBit % 10) else s.chip.trainStep h a, p.num⟩
    let clock : Nat → Prop := fun t0 => ∃ t, (s.chip.hd h).clkSince = some t ∧ t + 100000 ≤ t0 + 1000000 ∧ t + 100000 < 2 ^ 64
    (s.chip.Writable r p → s.chip.linkState h ≠ 5 →
      (clock s.chip.now → good = true → a.reach ≠ 1 → a.reach ≠ 2 → Completes (.linkTrain r h a) s Running) ∧
      (clock s.chip.now → good = true → a.reach = 1 ∨ a.reach = 2 → Completes (.linkTrain r h a) s fun d =>
        d.linkState h = a.reach ∧ d.killHigh h = false) ∧
      (clock s.chip.now → good = false → a.failStep ≤ 8 → Completes (.linkTrain r h a) s (Failed false)) ∧
      ((s.chip.hd h).clkSince = none → Completes (.linkTrain r h a) s fun d =>
        d.linkState h = 1 ∧ (d.hd h).trainWait = true ∧ d.killHigh h = false)) ∧
    (s.chip.pageUp p = true → s.chip.linkState h = 4 → s.chip.rd p Reg.HEAD.LINK_CTL_AUTO_RETRAIN ≠ 0 →
      (s.chip.hd h).tries < 3 → (s.chip.hd h).trainWait = false → (s.chip.hd h).lostAt + 100000 < 2 ^ 64 →
      clock (max s.chip.now ((s.chip.hd h).lostAt + 100000)) →
      (good = true → a.reach ≠ 1 → a.reach ≠ 2 → Completes (.autoRetrain h a) s fun d =>
        Running d ∧ d.rd p Reg.HEAD.LINK_STAT_RETRAINS = min (s.chip.rd p Reg.HEAD.LINK_STAT_RETRAINS + 1) 255) ∧
      (good = false → a.failStep ≤ 8 → Completes (.autoRetrain h a) s fun d =>
        Failed (decide ((s.chip.hd h).tries = 2)) d ∧ (d.hd h).tries = (s.chip.hd h).tries + 1)) ∧
    (s.chip.pageUp p = true → (s.chip.hd h).trainWait = true → (s.chip.hd h).clkSince = none →
      Completes (.autoRetrain h a) s fun d =>
        d.linkState h = 4 ∧ d.killHigh h = false ∧ (d.hd h).tries = (s.chip.hd h).tries + 1 ∧
        d.x16.getLast? = some ⟨0x140 + 16 * h.val, 3, 1,
          if (s.chip.hd h).trainLast then 2 ||| 2 ^ (Config.alignRetryBit % 10) else 2, p.num⟩)

/-- On a link of a reached port that runs or is in setup, an uplink frame that is locked and complete, carries the
next frame number on both lanes and, once the link runs, says that the OPU is aligned, makes its number the port's
FRAME_N and the following one the next expected; any other frame makes the link LOST at once, turns the lasers off and
sends loss of alignment. On any other link a frame changes nothing. -/
def Obligations.UplinkFramesAreChecked : Prop :=
  ∀ (s : State) (h : Port) (u : Uplink), s.chip.Interlocked →
    let p : Page := .head h
    let n := (s.chip.hd h).ulNext
    let good : Bool := u.locked && u.complete && decide (leBytes (octets u.lane0 0 2) = n % 65536) &&
      decide (leBytes (octets u.lane1 0 2) = n % 65536) &&
      (bit (leBytes (octets u.lane0 2 1)) 6 || s.chip.linkState h == 2)
    (s.chip.pageUp p = true → s.chip.linkState h = 2 ∨ s.chip.linkState h = 3 →
      (good = true → Completes (.uplinkFrame h u) s fun d =>
        d.rd p Reg.HEAD.LINK_FRAME_N = n % 2 ^ 32 ∧ (d.hd h).ulNext = n + 1 ∧ d.linkState h = s.chip.linkState h) ∧
      (good = false → Completes (.uplinkFrame h u) s fun d =>
        d.linkState h = 4 ∧ d.killHigh h = false ∧ d.rd p Reg.HEAD.LINK_STAT_UL0_LOCK = 0 ∧
        d.x16.getLast? = some ⟨0x140 + 16 * h.val, 2, 1, 0, p.num⟩)) ∧
    (s.chip.linkState h ≠ 2 → s.chip.linkState h ≠ 3 → Completes (.uplinkFrame h u) s fun d => d = s.chip)

/-- At 230 ticks of a servo frame every reached port that a running engine owns has its closed group ready to send; an
unclosed one counts in GROUP_MISS and is not sent; a port without a running owner has none. A downlink frame advances
the port's frame number; while the port's quench line is active it carries a group with the power fields of all beams
0 and the five actuator fields held, GVALID 1 and no beam enabled. -/
def Obligations.GroupsLeaveAtTheCutoff : Prop :=
  ∀ s : State, s.chip.Interlocked →
    (Completes .frameCutoff s fun d =>
      ∀ h : Port,
        (s.chip.pageUp (.head h) = true → s.chip.headDriven h = true →
          ((s.chip.groups.get h).closed = true →
            (d.hd h).groupReady = true ∧ (d.hd h).nextGroup = (s.chip.groups.get h).fields) ∧
          ((s.chip.groups.get h).closed = false →
            (d.hd h).groupReady = false ∧
            d.rd (.head h) Reg.HEAD.DL_ERR_GROUP_MISS = min (s.chip.rd (.head h) Reg.HEAD.DL_ERR_GROUP_MISS + 1) 65535)) ∧
        (s.chip.headDriven h = false → (d.hd h).groupReady = false)) ∧
    ∀ h : Port, s.chip.pageUp (.head h) = true → s.chip.linkState h = 3 →
      (Completes (.downlinkFrame h) s fun d => (d.hd h).dlNext = (s.chip.hd h).dlNext + 1) ∧
      (s.chip.headQuenched h = true → Completes (.downlinkFrame h) s fun d =>
        (d.hd h).dlNext = (s.chip.hd h).dlNext + 1 ∧
        (d.hd h).lastGroup = (s.chip.hd h).lastGroup.take 5 ++ List.replicate 15 0 ∧
        (∃ x, (d.hd h).lastFrame[2]? = some x ∧ x.getLsbD 0 = true) ∧ (d.hd h).lastFrame[3]? = some 0)

/-- GO with DONE 1 on a link in setup or running keeps WRITE, COUNT and ADDR, clears DONE and has the request sent in
the next downlink frame. A response to a request in progress ends it with DONE 1 and the OPU's status, ERROR where
that is not 0; a good read fills HK_DATA up to COUNT; without a response in time, or with no frame to carry it any
more, it ends with status 255 and is reported. The margin and temperature polls of a running link are taken over.
Nothing else of the port changes. -/
def Obligations.HousekeepingIsServed : Prop :=
  ∀ (s : State) (h : Port), s.chip.Interlocked →
    let p : Page := .head h
    (∀ (r : Requester) (w : Bool) (n : Fin 8) (a : BitVec 16), s.chip.Writable r p → s.chip.rd p Reg.HEAD.HK_CTL_DONE ≠ 0 →
      (s.chip.linkState h = 2 ∨ s.chip.linkState h = 3) →
      Completes (.hkRequest r h w n a) s fun d =>
        d.rd p Reg.HEAD.HK_CTL_WRITE = b2n w ∧ d.rd p Reg.HEAD.HK_CTL_COUNT = n.val ∧
        d.rd p Reg.HEAD.HK_CTL_ADDR = a.toNat ∧ d.rd p Reg.HEAD.HK_CTL_DONE = 0 ∧ (d.hd h).hkSend = true ∧
        s.chip.SameBut d [.reg, .heads] ∧
        s.chip.SameRegs d [(p, Reg.HEAD.HK_CTL_WRITE, 0), (p, Reg.HEAD.HK_CTL_COUNT, 0), (p, Reg.HEAD.HK_CTL_ADDR, 0),
          (p, Reg.HEAD.HK_CTL_DONE, 0)]) ∧
    (s.chip.rd p Reg.HEAD.HK_CTL_DONE = 0 → (s.chip.hd h).hkSent ≠ none →
      (∀ (st : Byte) (v : Vector Word 8), s.chip.linkState h = 3 →
        Completes (.hkResponse h st v) s fun d =>
          d.rd p Reg.HEAD.HK_CTL_DONE = 1 ∧ d.rd p Reg.HEAD.HK_CTL_STATUS = st.toNat ∧
          d.rd p Reg.HEAD.HK_CTL_ERROR = (if st = 0 then 0 else 1) ∧ (d.hd h).hkSent = none ∧
          (st = 0 → s.chip.rd p Reg.HEAD.HK_CTL_WRITE = 0 → ∀ k : Fin 8, k.val ≤ s.chip.rd p Reg.HEAD.HK_CTL_COUNT →
            d.rdI p Reg.HEAD.HK_DATA_DATA k.val = (v.get k).toNat) ∧
          s.chip.SameBut d [.reg, .heads] ∧ s.chip.SameElsewhere d (· = p)) ∧
      (s.chip.pageUp p = true → Completes (.hkTimeout h) s fun d =>
        d.rd p Reg.HEAD.HK_CTL_DONE = 1 ∧ d.rd p Reg.HEAD.HK_CTL_STATUS = 255 ∧ d.rd p Reg.HEAD.HK_CTL_ERROR = 1 ∧
        d.x16 = s.chip.x16 ++ [⟨0x140 + 16 * h.val, 5, 0, 0, p.num⟩] ∧ s.chip.SameBut d [.tb, .reg, .x16, .heads])) ∧
    (s.chip.rd p Reg.HEAD.HK_CTL_DONE = 0 → (s.chip.hd h).hkSent = none → s.chip.linkState h ≠ 2 → s.chip.linkState h ≠ 3 →
      s.chip.pageUp p = true → Completes (.hkTimeout h) s fun d =>
        d.rd p Reg.HEAD.HK_CTL_DONE = 1 ∧ d.rd p Reg.HEAD.HK_CTL_STATUS = 255 ∧ d.rd p Reg.HEAD.HK_CTL_ERROR = 1) ∧
    (s.chip.linkState h = 3 →
      (∀ m : BitVec 10, Completes (.dlMarginPoll h m) s fun d =>
        d.rd p Reg.HEAD.LAT_STAT_DL_MARGIN = m.toNat ∧ s.chip.SameBut d [.reg] ∧
        s.chip.SameRegs d [(p, Reg.HEAD.LAT_STAT_DL_MARGIN, 0)]) ∧
      ∀ w : Word, Completes (.opuTempPoll h w) s fun d =>
        (d.hd h).opuTemp = some (BitVec.toInt (w.extractLsb' 8 8)) ∧ s.chip.SameBut d [.heads])

/-- A write of ARM = 1 to a port that may be written, is enabled and driven by a running engine, with a running link,
the OPU present and no quench raises LASER_KILL_N; ARM = 0 lowers it; ARM = 1 without a running owner changes neither
ARM nor the line. PRESENT_N high lowers the line at once and is remembered; of an OPU recognised as present, low again
before REMOVE_MS it is a glitch; REMOVE_MS long it is a removal: the port is ABSENT and shown so. PRESENT_N of a port
without a recognised OPU may fall; low for INSERT_MS the insertion is recognised: the port turns from absent to OFF
and is shown present. -/
def Obligations.LasersFollowArmAndPresence : Prop :=
  ∀ (s : State) (h : Port), s.chip.Interlocked →
    let p : Page := .head h
    (∀ r : Requester, s.chip.Writable r p →
      (s.chip.headDriven h = true → s.chip.enabled p = true → s.chip.linkState h = 3 → bit s.chip.pins.presentLow h.val = true →
        s.chip.headQuenched h = false → s.chip.headGated h = false →
        Completes (.laserArm r h true) s fun d =>
          d.rd p Reg.HEAD.LASER_CTL_ARM = 1 ∧ d.killHigh h = true ∧ d.rd p Reg.HEAD.LASER_CTL_KILL = 0) ∧
      (Completes (.laserArm r h false) s fun d => d.rd p Reg.HEAD.LASER_CTL_ARM = 0 ∧ d.killHigh h = false) ∧
      (s.chip.headDriven h = false → Completes (.laserArm r h true) s fun d =>
        d.rd p Reg.HEAD.LASER_CTL_ARM = s.chip.rd p Reg.HEAD.LASER_CTL_ARM ∧ d.killHigh h = s.chip.killHigh h)) ∧
    (bit s.chip.pins.presentLow h.val = true → Completes (.presentNRise h) s fun d =>
      d.killHigh h = false ∧ bit d.pins.presentLow h.val = false ∧ (d.hd h).riseAt = some s.chip.now ∧
      d.rd p Reg.HEAD.LASER_CTL_WHY_ABSENT = 1) ∧
    (∀ t : Nat, (s.chip.hd h).riseAt = some t → s.chip.present h = true →
      (s.chip.now < t + 100000 * max 1 (s.chip.hd h).removeMs → s.chip.pageUp p = true →
        Completes (.presentGlitch h) s fun d =>
          bit d.pins.presentLow h.val = true ∧ (d.hd h).riseAt = none ∧
          d.x16 = s.chip.x16 ++ [⟨0x142 + 16 * h.val, 1, 0, 0, p.num⟩] ∧ s.chip.SameBut d [.pins, .x16, .heads]) ∧
      (Completes (.opuRemoved h) s fun d =>
        d.linkState h = 5 ∧ d.killHigh h = false ∧ (d.hd h).riseAt = none ∧
        d.rd p Reg.HEAD.LINK_STAT_PRESENT = 0 ∧ bit (d.rd .clk Reg.CLK.OPU_PRESENT_PRESENT) h.val = false)) ∧
    (s.chip.present h = false → bit s.chip.pins.presentLow h.val = false → Completes (.presentGlitch h) s fun d =>
      bit d.pins.presentLow h.val = true ∧ (d.hd h).fallAt = some s.chip.now ∧ s.chip.SameBut d [.pins, .heads]) ∧
    (s.chip.present h = false → Completes (.opuInserted h) s fun d =>
      d.rd p Reg.HEAD.LINK_STAT_PRESENT = 1 ∧ bit (d.rd .clk Reg.CLK.OPU_PRESENT_PRESENT) h.val = true ∧
      bit d.pins.presentLow h.val = true ∧ (s.chip.linkState h = 5 → d.linkState h = 0) ∧ d.isl = s.chip.isl)

/-- A frame boundary while frames run raises FRAME_NUM by 1 and moves the frame's start on by 250 ticks; before the
first frame it changes nothing. A servo field under a segment-locked beam advances the beam's field number, and its
turn past field 1,023; a mark at offset 1 or 2 is counted as a slip, a second missing mark in succession or a mark
further away loses segment lock, and with it timing lock while fewer than 1,024 phases are known. Without segment lock
a mark with a valid identity word sets the field number and the lock. -/
def Obligations.FramesAndFieldsAdvance : Prop :=
  ∀ s : State, s.chip.Interlocked →
    (s.chip.framesRunning = true → Completes .frameBoundary s fun d =>
      d.frameNum = s.chip.frameNum + 1 ∧ d.frameStart = s.chip.frameStart + 250) ∧
    (s.chip.framesRunning = false → Completes .frameBoundary s fun d => d = s.chip) ∧
    ∀ (h : Port) (b : BeamNo) (m : FieldMark),
      let x := s.chip.bm h b
      let next := if x.field = 1023 then 0 else x.field + 1
      (s.chip.rd (.beam h b) Reg.BEAM.RD_STAT_SEG_LOCK ≠ 0 →
        (findMark m.bits = none → Completes (.beamSegmentField h b m) s fun d =>
          (d.bm h b).field = next ∧ (d.bm h b).turn = (if x.field = 1023 then x.turn + 1 else x.turn) ∧
          (d.bm h b).marksMissed = x.marksMissed + 1 ∧
          (1 ≤ x.marksMissed → d.rd (.beam h b) Reg.BEAM.RD_STAT_SEG_LOCK = 0)) ∧
        (∀ (e : Int) (ix : Bool), findMark m.bits = some (e, ix) →
          (e.natAbs = 1 ∨ e.natAbs = 2 → Completes (.beamSegmentField h b m) s fun d =>
            d.rd (.beam h b) Reg.BEAM.QUAL_EVENTS_SEG_SLIP =
              min (s.chip.rd (.beam h b) Reg.BEAM.QUAL_EVENTS_SEG_SLIP + 1) (2 ^ Reg.BEAM.QUAL_EVENTS_SEG_SLIP.w - 1) ∧
            (d.bm h b).marksMissed = 0 ∧ (d.bm h b).field = next) ∧
          (2 < e.natAbs → Completes (.beamSegmentField h b m) s fun d =>
            d.rd (.beam h b) Reg.BEAM.RD_STAT_SEG_LOCK = 0 ∧
            (x.dphi.length < 1024 → d.rd (.beam h b) Reg.BEAM.TR_STAT_LOCK = 0)))) ∧
      (s.chip.rd (.beam h b) Reg.BEAM.RD_STAT_SEG_LOCK = 0 → ∀ (e : Int) (ix : Bool), findMark m.bits = some (e, ix) →
        identOk (identWord m.bits e) = true → Completes (.beamSegmentField h b m) s fun d =>
          d.rd (.beam h b) Reg.BEAM.RD_STAT_SEG_LOCK = 1 ∧ (d.bm h b).field = identField (identWord m.bits e))

/-- Under a beam that reads, without a run and without quiesce, a slot start begins the slot of the position, still
unclassified. After 4,096 data bits, 90 % of them marks, the slot is burned; after both places of sector 0's sync
marks, without one and with a preamble below BLANK_LEVEL, it is blank, else recorded; a burned or a blank slot
delivers one item. At a sector boundary the sector of a recorded slot waits for its decode with its place; after
sector 17 the slot is over; a linking mark read there abandons the slot and delivers ABANDONED for the sector it
replaces. Without a reading beam and without a run nothing changes. -/
def Obligations.SlotsAndSectorsAreFramed : Prop :=
  (∀ (x : BeamSt) (k : LoopCfg), x.unclassed = true →
    (x.frameAt k 4096).slotKind = (if x.burned = true then 3 else x.slotKind) ∧
    (x.slotKind = 1 → (x.frameAt k 19048).slotKind = if (x.frameAt k 19048).found = false ∧
      (match x.swing with
        | some (lo, hi) => hi - lo
        | none => 0) < (k.blank : Int) then 2 else 1)) ∧
  ∀ (s : State) (h : Port) (b : BeamNo),
    let x := s.chip.bm h b
    (x.unclassed = true → 4096 ≤ (x.zn : Int) - x.slotStart → x.linkAt = none → x.slotKind = 3 ∨ x.slotKind = 2 →
      ∃ y, (s.chip.slotJudge h b).stripe = s.chip.stripe ++ [y] ∧ y.port = h.val ∧ y.beam = b.val ∧ y.slot = x.slot ∧
        y.status = (if x.slotKind = 3 then 6 else 7) ∧ y.payload = []) ∧
    (s.chip.Interlocked → s.chip.commits = [] → s.chip.wrActive h b = false → x.run = none → s.chip.quiet h b = false →
      (s.chip.reads h b = true →
        (∀ k : Nat, slotAt x.turn x.field = some k → Completes (.slotStart h b) s fun d =>
          (d.bm h b).slot = k ∧ (d.bm h b).slotKind = 1 ∧ (d.bm h b).sector = 0 ∧ (d.bm h b).ended = none ∧
          (d.bm h b).unclassed = true ∧ d.stripe = s.chip.stripe) ∧
        (x.slotKind = 1 → Completes (.sectorBoundary h b) s fun d =>
          (d.bm h b).passed = x.passed ++ [⟨x.slot, x.sector, x.turn, s.chip.beamLayer h b, x.ended,
            x.slotStart + 128 + 37632 * x.sector, x.probeSum, x.probeN⟩] ∧
          (d.bm h b).sector = x.sector + 1 ∧ (d.bm h b).ended = none ∧
          (x.linkAt ≠ some (x.sector + 1) →
            (d.bm h b).slotKind = (if x.sector = 17 then 0 else 1) ∧ d.stripe = s.chip.stripe) ∧
          (x.linkAt = some (x.sector + 1) → (d.bm h b).slotKind = 4 ∧
            ∃ y, d.stripe = s.chip.stripe ++ [y] ∧ y.status = 5 ∧ y.slot = x.slot ∧ y.sec = x.sector + 1 ∧
              y.port = h.val ∧ y.beam = b.val))) ∧
      (s.chip.reads h b = false → (Completes (.sectorBoundary h b) s fun d => d = s.chip) ∧
        Completes (.slotStart h b) s fun d => d = s.chip))

/-- The oldest sector that waits leaves the queue when its decode ends, and takes the beam's waiting checks with its
item. It keeps a status it already had; else with a valid header copy it is MISPLACED where the header disagrees with
the position, GOOD where the decode under the header's seed converged within ITER_MAX and, for a data sector, CHECK
holds, else FAILED; without one the seeds are tried, the likeliest first; where no decode converges it is no GOOD
sector. Data sectors and failed parity sectors are delivered, the payload of a GOOD one with them. A missed deadline
delivers FAILED and counts in DL_MISS. After sector 17 the outer code delivers what it recovers, in order, with status
GOOD_OUTER, CORRECTED_OUTER or OUTER_INCONSISTENT, and begins anew. -/
def Obligations.SectorDecodesAreDelivered : Prop :=
  ∀ (s : State) (h : Port) (b : BeamNo), s.chip.Interlocked →
    let x := s.chip.bm h b
    (∀ (q : Passed) (rest : List Passed), x.passed = q :: rest →
      let f := s.chip.search h b q
      let good : Decode → Bool := fun k => k.converged && decide (k.iters ≤ s.chip.iterMax h b) &&
        (decide (16 ≤ q.sec) || (decide (k.payload.length = 4160) && decide
          (s.chip.hallValue (beamHall h b) ((k.payload.take 4156).map (·.toNat)) = leNat (k.payload.drop 4156))))
      let Ends : Vector Decode 4 → Nat → List Byte → Prop := fun ks st pay => Completes (.sectorDecodeDone h b ks) s fun d =>
        (d.bm h b).passed = rest ∧ assocGet q.sec (d.bm h b).stats = some st ∧
        ((16 ≤ q.sec ∧ st = 0) → d.stripe = s.chip.stripe) ∧
        (¬ (16 ≤ q.sec ∧ st = 0) → (d.bm h b).checks = [] ∧ ∃ y, d.stripe = s.chip.stripe ++ [y] ∧ y.status = st ∧ y.sec = q.sec ∧
          y.slot = q.slot ∧ y.payload = (if st = 0 then pay else []) ∧ y.checks = x.checks)
      (∀ (st : Nat) (ks : Vector Decode 4), q.ended = some st → Completes (.sectorDecodeDone h b ks) s fun d =>
        (d.bm h b).passed = rest ∧ ∃ y, d.stripe = s.chip.stripe ++ [y] ∧ y.status = st ∧ y.sec = q.sec ∧ y.slot = q.slot ∧
          y.payload = []) ∧
      (∀ (w : Nat) (ks : Vector Decode 4), q.ended = none → pickHeader f = some w →
        let k := ks.toList.getD (slice 38 2 w) ⟨false, 0, []⟩
        Ends ks (if s.chip.misplaced h b q w = true then 4 else if good k = true then 0 else 3) k.payload) ∧
      (∀ ks : Vector Decode 4, q.ended = none → (∀ k ∈ ks.toList, k.converged = false) →
        Ends ks (if (pickHeader f).any (s.chip.misplaced h b q) = true then 4 else 3) []) ∧
      (∀ (n : Nat) (ks : Vector Decode 4), q.ended = none → (pickHeader f = none → (s.chip.seedOrder h b q f).head? = some n) →
        (∀ w, pickHeader f = some w → slice 38 2 w = n ∧ s.chip.misplaced h b q w = false) →
        let k := ks.toList.getD n ⟨false, 0, []⟩
        good k = true → Ends ks 0 k.payload) ∧
      Completes (.decodeDeadline h b) s fun d =>
        (d.bm h b).passed = rest ∧
        d.rd (.beam h b) Reg.HDR.DL_MISS_COUNT =
          min (s.chip.rd (.beam h b) Reg.HDR.DL_MISS_COUNT + 1) (2 ^ Reg.HDR.DL_MISS_COUNT.w - 1) ∧
        ∃ y, d.stripe = s.chip.stripe ++ [y] ∧ y.status = 3 ∧ y.sec = q.sec ∧ y.slot = q.slot) ∧
    (s.chip.rd (.beam h b) Reg.BEAM.RD_CTL_OUTER_EN ≠ 0 → assocGet 17 x.stats ≠ none →
      Completes (.outerRecovery h b) s fun d =>
        (d.bm h b).goods = [] ∧ (d.bm h b).stats = [] ∧ ∃ l, d.stripe = s.chip.stripe ++ l ∧
          l.map (·.sec) = (outerSolve x.goods (s.chip.flag (.beam h b) Reg.BEAM.RD_CTL_OUTER_SINGLE)).map (·.1) ∧
          ∀ y ∈ l, (y.status = 1 ∨ y.status = 2 ∨ y.status = 10) ∧ y.slot = x.outSlot)

/-- An absent sample sends DEADLINE for the producing beam and counts in its DL_MISS, leaves the absent marker where
the consumer reads next, and a new run of absent indices counts in the consuming beam; a late canceller does so for
its own beam. SNAP copies every active equaliser and canceller tap of a beam page that may be written into its shadow
and changes no active value; with the shadow frozen it changes nothing. -/
def Obligations.CancellersAndSnapshots : Prop :=
  ∀ (s : State) (h : Port) (b : BeamNo), s.chip.Interlocked → s.chip.pageUp (.beam h b) = true →
    let Late : List Part → BeamNo → Chip → Prop := fun l q d =>
      d.rd (.beam h q) Reg.HDR.DL_MISS_COUNT =
        min (s.chip.rd (.beam h q) Reg.HDR.DL_MISS_COUNT + 1) (2 ^ Reg.HDR.DL_MISS_COUNT.w - 1) ∧
      d.x16 = s.chip.x16 ++ [⟨0x240 + 4 * (5 * h.val + q.val), 1, 0, 0, (Page.beam h q).num⟩] ∧ s.chip.SameBut d ([.reg, .x16] ++ l)
    let Absent : BeamNo → Chip → Prop := fun q d => Late [.beams] q d ∧ (d.bm h q).exch = (s.chip.bm h q).exch.set 761 .absent
    (Completes (.cancellerDeadline h b none false) s (Late [] b)) ∧
    (∀ q : BeamNo, (Completes (.cancellerDeadline h b (some q) false) s (Absent q)) ∧
      Completes (.cancellerDeadline h b (some q) true) s fun d => Absent q d ∧
        d.rd (.beam h b) Reg.BEAM.QUAL_EVENTS_ABSENT_RUNS =
          min (s.chip.rd (.beam h b) Reg.BEAM.QUAL_EVENTS_ABSENT_RUNS + 1) (2 ^ Reg.BEAM.QUAL_EVENTS_ABSENT_RUNS.w - 1)) ∧
    ∀ r : Requester, s.chip.Writable r (.beam h b) →
      (s.chip.frozen (.beam h b) = true → Completes (.eqSnap r h b) s fun d => d = s.chip) ∧
      (s.chip.frozen (.beam h b) = false → Completes (.eqSnap r h b) s fun d =>
        (∀ f ∈ [Reg.BEAM.EQ_TAP_C_LO, Reg.BEAM.EQ_TAP_C_HI], ∀ i < 8,
          d.shI (.beam h b) f i = s.chip.rdI (.beam h b) f i % 2 ^ f.w) ∧
        (∀ f ∈ [Reg.BEAM.XT_TAP_L_H_LO, Reg.BEAM.XT_TAP_L_H_HI, Reg.BEAM.XT_TAP_R_H_LO, Reg.BEAM.XT_TAP_R_H_HI], ∀ i < 4,
          d.shI (.beam h b) f i = s.chip.rdI (.beam h b) f i % 2 ^ f.w) ∧
        (∀ (p : Page) (f : Fld) (i : Nat), d.rdI p f i = s.chip.rdI p f i) ∧ s.chip.SameBut d [.reg])

/-- A run towards a gated island is discarded and reported, and one that the surface does not allow is not handed
over. A work item that the beam may not accept is returned with cause 0xB and changes nothing else; an accepted one
becomes the run of a free beam with a fresh recording sequence number and loading begun, or waits behind the run in
progress. A run not armed before its first slot is given back whole with cause 0xA. STOP marks the run to stop. The
payload of the sector that the beam asks for, 4,096 user and 60 metadata bytes with the ingot's RSN, joins the buffers
with its CHECK from the beam's hallmark unit (inverted where it is recorded failed), sector 15 followed by parity
sectors 16 and 17; one not yet held does not arrive. Encoding gives the oldest buffer without a code its header and
scrambled codeword under the seed of R213. -/
def Obligations.WorkItemsAreLoadedAndEncoded : Prop :=
  ∀ (s : State) (h : Port) (b : BeamNo), s.chip.Interlocked →
    let p : Page := .beam h b
    let x := s.chip.bm h b
    (∀ w : WorkItem,
      (s.chip.islandUp (.beam h b) = false → s.chip.pageUp .sys = true → Completes (.writeWorkItem h b w) s fun d =>
        d.x16 = s.chip.x16 ++ [⟨2, 1, 0, 9, 0x010⟩] ∧ s.chip.SameBut d [.x16]) ∧
      (s.chip.islandUp (.beam h b) = true → s.chip.runMay h w = false → Completes (.writeWorkItem h b w) s fun d => d = s.chip) ∧
      (s.chip.islandUp (.beam h b) = true → s.chip.runMay h w = true →
      (s.chip.itemOk h b w = false → Completes (.writeWorkItem h b w) s fun d =>
        d.bm h b = { x with returned := x.returned ++ [(w, 11)] } ∧ d.rd p Reg.BEAM.WR_STAT_CAUSE = 11 ∧
        s.chip.SameBut d [.reg, .beams] ∧ s.chip.SameRegs d [(p, Reg.BEAM.WR_STAT_CAUSE, 0)]) ∧
      (s.chip.itemOk h b w = true → x.run = none → s.chip.quiet h b = false → Completes (.writeWorkItem h b w) s fun d =>
        (d.bm h b).run = some { item := w, queue := w.ingots, slot := w.slot, rsn := (s.chip.hd h).nextRsn } ∧
        (d.bm h b).bufs = [] ∧ (d.bm h b).loadSec = 0 ∧ d.wrState h b = 1 ∧
        (d.hd h).nextRsn = ((s.chip.hd h).nextRsn + 1) % 2 ^ 64 ∧ s.chip.SameBut d [.reg, .heads, .beams] ∧
        s.chip.SameRegs d [(p, Reg.BEAM.WR_STAT_STATE, 0)]) ∧
      (s.chip.itemOk h b w = true → x.run ≠ none → Completes (.writeWorkItem h b w) s fun d =>
        d.bm h b = { x with items := x.items ++ [w] } ∧ s.chip.SameBut d [.beams]))) ∧
    (∀ w : WorkItem, s.chip.itemOk h b w = true ↔
      (s.chip.enabled p = true ∧ s.chip.rd p Reg.HDR.PAGE_STAT_STATE = 1 ∧ x.refused = false ∧
        s.chip.rd p Reg.BEAM.WR_CTL_WR_ALLOW ≠ 0 ∧ (s.chip.beamRole h b = 1 ∨ s.chip.beamRole h b = 4) ∧
        w.spiral = s.chip.spiralOf h b w.layer ∧ 384 ≤ w.slot ∧ w.slot + w.ingots.length ≤ 481856 ∧ w.ingots ≠ [])) ∧
    (∀ r : Run, x.run = some r →
      (s.chip.wrState h b = 1 → Completes (.runMissed h b) s fun d =>
        (d.bm h b).returned = x.returned ++ [({ r.item with slot := r.slot, ingots := r.queue }, 10)] ∧
        d.rd p Reg.BEAM.WR_STAT_CAUSE = 10 ∧ (x.items = [] → (d.bm h b).run = none ∧ d.wrState h b = 0)) ∧
      (∀ q : Requester, s.chip.Writable q p → Completes (.writeStop q h b) s fun d =>
        d.bm h b = { x with run := some { r with stop := true } } ∧ s.chip.SameBut d [.beams]) ∧
      (s.chip.islandUp (.beam h b) = true → s.chip.loads h b = true →
        ∀ i : IngotRef, (r.queue.drop (b2n x.loadsNext)).head? = some i →
        (s.chip.toRecord i x.nextSec = none → Completes (.sectorPayload h b) s fun d => d = s.chip) ∧
        ∀ w : ToRecord, s.chip.toRecord i x.nextSec = some w → 4096 ≤ w.data.length →
          let rsn := if x.loadsNext = true then r.rsnNext.getD (s.chip.hd h).nextRsn else r.rsn
          let u := w.data.take 4096 ++ w.md.bytes x.nextSec rsn
          let v := s.chip.hallValue (beamHall h b) (u.map (·.toNat))
          let pl := u ++ bytesLE 4 (if w.spoil = true then 2 ^ 32 - 1 - v % 2 ^ 32 else v)
          Completes (.sectorPayload h b) s fun d =>
            (d.bm h b).loadSec = x.nextSec + 1 ∧
            (x.nextSec < 15 → (d.bm h b).bufs = x.bufs ++ [⟨x.nextSec, pl, none⟩]) ∧
            (x.nextSec = 15 → ∃ p16 p17, (p16, p17) = outerStep x.par16 x.par17 pl ∧
              (d.bm h b).bufs = x.bufs ++ [⟨15, pl, none⟩, ⟨16, p16, none⟩, ⟨17, p17, none⟩])) ∧
      ∀ (done : List WriteSector) (v : WriteSector) (l : List WriteSector), x.bufs = done ++ v :: l →
        (∀ w ∈ done, w.coded.isSome = true) → v.coded = none →
        let slot := r.slot + b2n (done.any fun w => w.sec == 17)
        let k := pickSeed slot v.sec r.item.spiral (codeword v.payload)
        Completes (.sectorEncodeDone h b) s fun d =>
          (d.bm h b).bufs =
            done ++ { v with coded := some (headerWord v.sec k.1 r.item.side r.item.layer r.item.spiral slot, k.2) } :: l) ∧
    (s.chip.islandUp (.beam h b) = true → s.chip.loads h b = false → Completes (.sectorPayload h b) s fun d => d = s.chip) ∧
    (s.chip.islandUp (.beam h b) = false → s.chip.pageUp .sys = true → Completes (.sectorPayload h b) s fun d =>
      d.x16 = s.chip.x16 ++ [⟨2, 1, 0, 9, 0x010⟩] ∧ s.chip.SameBut d [.x16])

/-- ABORT and a late payload of a recording beam record their cause and start a linking end; a late payload also
counts in DATA_LATE and DL_MISS; one that is in time changes nothing. At the end of the linking mark the slot is
consumed with reason 3 and the ingot is recorded again in the next slot with a fresh RSN, at its first failure. After
a written sector the monitor's result joins the run and DELTA, which the samples give; power control sets m_b from it
by R379, held within RPC_LIM of 1.0, CLAMPED at either limit; without MON_EN nothing changes. -/
def Obligations.WritesEndWithTheirCause : Prop :=
  ∀ (s : State) (h : Port) (b : BeamNo), s.chip.Interlocked →
    let p : Page := .beam h b
    let x := s.chip.bm h b
    (s.chip.wrState h b = 3 →
      (∀ q : Requester, s.chip.Writable q p → Completes (.writeAbort q h b) s fun d =>
        d.wrState h b = 4 ∧ d.rd p Reg.BEAM.WR_STAT_CAUSE = 5 ∧ s.chip.SameBut d [.reg] ∧
        s.chip.SameRegs d [(p, Reg.BEAM.WR_STAT_CAUSE, 0), (p, Reg.BEAM.WR_STAT_STATE, 0)]) ∧
      (s.chip.payloadLate h b = false → Completes (.dataLate h b) s fun d => d = s.chip) ∧
      (s.chip.payloadLate h b = true → Completes (.dataLate h b) s fun d =>
        d.wrState h b = 4 ∧ d.rd p Reg.BEAM.WR_STAT_CAUSE = 2 ∧
        d.rd p Reg.BEAM.WR_EVENTS_DATA_LATE =
          min (s.chip.rd p Reg.BEAM.WR_EVENTS_DATA_LATE + 1) (2 ^ Reg.BEAM.WR_EVENTS_DATA_LATE.w - 1) ∧
        d.rd p Reg.HDR.DL_MISS_COUNT = min (s.chip.rd p Reg.HDR.DL_MISS_COUNT + 1) (2 ^ 32 - 1) ∧
        s.chip.SameBut d [.reg, .x16])) ∧
    (∀ (r : Run) (i : IngotRef) (l : List IngotRef), s.chip.wrState h b = 4 → x.run = some r → r.queue = i :: l →
      x.failIngot ≠ some i → r.slot < 481855 →
      Completes (.writeLinkingEnd h b) s fun d =>
        d.consumed = s.chip.consumed ++ [⟨h.val, r.item.layer, r.item.spiral, r.slot, 3⟩] ∧
        (d.bm h b).run = some { r with slot := r.slot + 1, rsn := (s.chip.hd h).nextRsn, rsnNext := none, goOn := false, monOk := true } ∧
        (d.bm h b).stream = [] ∧ (d.bm h b).fifo = [] ∧ (d.bm h b).fails = 1 ∧ d.wrState h b = 1 ∧
        d.rd p Reg.BEAM.WR_STAT_SECTOR = 0x1F) ∧
    ∀ (r : Run) (m : MonitorSample), x.run = some r → (s.chip.wrState h b = 3 ∨ s.chip.wrState h b = 4) →
      (s.chip.rd p Reg.BEAM.WR_CTL_MON_EN ≠ 0 → Completes (.writeSectorEnd h b m) s fun d =>
        (∃ r', (d.bm h b).run = some r' ∧ r'.monOk = (r.monOk && decide ((s.chip.monitor h b m).2 ≤ s.chip.rd p Reg.BEAM.MON_CFG_MON_LIMIT))) ∧
        ∀ e, (s.chip.monitor h b m).1 = some e → (d.rd p Reg.BEAM.RPC_STATE_DELTA : Int) = clampI 0 4095 e) ∧
      (s.chip.rd p Reg.BEAM.WR_CTL_MON_EN ≠ 0 → s.chip.rd p Reg.BEAM.WR_CTL_RPC_EN ≠ 0 → ∀ e, (s.chip.monitor h b m).1 = some e →
        let lim := min 50 (s.chip.rd p Reg.BEAM.RPC_CFG_RPC_LIM)
        let lo : Int := ((100 - lim) * 32768 / 100 : Nat)
        let hi : Int := ((100 + lim) * 32768 / 100 : Nat)
        let v := rpcStep (s.chip.rd p Reg.BEAM.RPC_STATE_M) (clampI 0 4095 e).toNat (s.chip.rd p Reg.BEAM.RPC_CFG_TARGET)
          (s.chip.rd p Reg.BEAM.RPC_CFG_RPC_GAIN)
        Completes (.writeSectorEnd h b m) s fun d =>
          (d.rd p Reg.BEAM.RPC_STATE_M : Int) = max lo (min hi v) ∧
          d.rd p Reg.BEAM.RPC_STATE_CLAMPED = (if v ≤ lo ∨ hi ≤ v then 1 else 0)) ∧
      (s.chip.rd p Reg.BEAM.WR_CTL_MON_EN = 0 →
        Completes (.writeSectorEnd h b m) s fun d => d = s.chip)

/-- A second-pass result for a recorded ingot takes it off the list and counts a pass when the readback and its
monitor pass, counts a fail and consumes its slot with reason 2 when either fails, and keeps it when inconclusive. A
second pass, while no beam writes, marks every recorded ingot and restarts the pass length. A trail-out sends unread
spiral-3 ingots to second pass and settles the others. A power test without a blank test slot sends its fault alone;
else it takes one, a chosen step enters the correction of its beam and area, m_b returns to 1.0 and DEGRADED clears. A
layer that may be opened takes its powers from its pressed record and gives every beam the bank, in force and in
shadow, and m_b 1.0; its Layer Opening joins the control zones; without a record nothing changes. MIN_RESET sets every
FIFO_MIN to 127. -/
def Obligations.IngotsAreVerified : Prop :=
  ∀ (s : State) (h : Port), s.chip.Interlocked →
    let p : Page := .head h
    let x := s.chip.hd h
    (∀ (b : BeamNo) (y : Recorded) (layer : Fin 8) (spiral : Fin 4) (slot : BitVec 19) (rsn : BitVec 64) (k : List SectorCheck),
      x.recorded.find? (fun r => r.layer = layer.val && r.spiral = spiral.val && r.slot = slot.toNat && r.rsn = rsn.toNat) = some y →
      y.second = true →
      let v := judgeReadback k (max 1 (s.chip.rd (.beam h b) Reg.BEAM.VFY_CFG_VFY_ITER))
        (s.chip.rd (.beam h b) Reg.BEAM.VFY_CFG_VFY_ERRS)
      let pass := s.chip.rd (.beam h b) Reg.BEAM.VFY_COUNT_PASS
      let fail := s.chip.rd (.beam h b) Reg.BEAM.VFY_COUNT_FAIL
      (v = 0 → y.monOk = true → Completes (.verifyResult h b layer spiral slot rsn k) s fun d =>
        (d.hd h).recorded = x.recorded.erase y ∧ d.rd (.beam h b) Reg.BEAM.VFY_COUNT_PASS = min (pass + 1) 65535) ∧
      ((v = 1 ∨ (v = 0 ∧ y.monOk = false)) → Completes (.verifyResult h b layer spiral slot rsn k) s fun d =>
        (d.hd h).recorded = x.recorded.erase y ∧ d.rd (.beam h b) Reg.BEAM.VFY_COUNT_FAIL = min (fail + 1) 65535 ∧
        ⟨h.val, y.layer, y.spiral, y.slot, 2⟩ ∈ d.consumed) ∧
      (v = 2 → Completes (.verifyResult h b layer spiral slot rsn k) s fun d =>
        y ∈ (d.hd h).recorded ∧ d.rd (.beam h b) Reg.BEAM.VFY_COUNT_PASS = pass ∧
        d.rd (.beam h b) Reg.BEAM.VFY_COUNT_FAIL = fail)) ∧
    ((∀ b : BeamNo, s.chip.wrActive h b = false) →
      (Completes (.secondPassVerify h) s fun d =>
        d.hd h = { x with
          passLen := [], verifying := !x.recorded.isEmpty, recorded := x.recorded.map fun q => { q with second := true } } ∧
        (x.recorded ≠ [] → d.rd p Reg.HEAD.WR_HSTAT_VFY_ACTIVE = 2) ∧ s.chip.SameBut d [.reg, .heads]) ∧
      (s.chip.trailing h = true → Completes (.verifyTrailOut h) s fun d =>
        (d.hd h).trailOut = false ∧ ∀ q ∈ (d.hd h).recorded, q.second = true ∨
          ∃ k ∈ x.recorded, k.spiral = 3 ∧ k.layer = q.layer ∧ k.slot = q.slot)) ∧
    (∀ b : BeamNo, s.chip.wrActive h b = true → (Completes (.secondPassVerify h) s fun d => d = s.chip) ∧
      Completes (.verifyTrailOut h) s fun d => d = s.chip) ∧
    (∀ (a : Fin 2) (dsc layer : Nat), s.chip.pageUp p = true → s.chip.discAt h = some dsc → x.layerOpen = some layer →
      let place := if layer % 2 = 0 then a.val else 1 - a.val
      let used := (assocGet (layer * 2 + place) (s.chip.surf dsc (h.val % 2)).tests).getD 0
      (256 ≤ used → ∀ e, Completes (.powerTest h a e) s fun d =>
        d.x16 = s.chip.x16 ++ [⟨0x148 + 16 * h.val, 2, 1, 0, p.num⟩] ∧ s.chip.SameBut d [.x16]) ∧
      (used < 256 → ∀ (b : BeamNo) (l : List Nat) (n : Nat), powerStep l = some n → Completes (.powerTest h a [(b, l)]) s fun d =>
        (b.val, a.val, 800 + 25 * n) ∈ (d.hd h).corr ∧ d.rd p Reg.HEAD.WR_HSTAT_DEGRADED = 0 ∧
        assocGet (layer * 2 + place) (d.surf dsc (h.val % 2)).tests = some (used + 1) ∧
        ∀ q : BeamNo, d.rd (.beam h q) Reg.BEAM.RPC_STATE_M = 0x8000)) ∧
    (∀ (y : Fin 8) (l : List MediaSector) (bank : Fin 2),
      (pressedOf l = none ∨ s.chip.discAt h = none → Completes (.layerOpen h y l bank) s fun d => d = s.chip) ∧
      ∀ (dsc : Nat) (r : Pressed), s.chip.pageUp p = true → s.chip.discAt h = some dsc → pressedOf l = some r → r.layer = y.val →
        (s.chip.syncSurf h).layerMay dsc (h.val % 2) y.val = true → 18 < (s.chip.surf dsc (h.val % 2)).blankCtrl 0 →
        9 < (s.chip.surf dsc (h.val % 2)).blankCtrl y.val → Completes (.layerOpen h y l bank) s fun d =>
          (d.hd h).layerOpen = some y.val ∧ (d.hd h).startPow = r.power ∧ (d.hd h).passLen = [] ∧
          d.rd p Reg.HEAD.WR_HSTAT_DEGRADED = 0 ∧
          (∃ k ∈ (d.surf dsc (h.val % 2)).ctrl, k.typ = 2 ∧ k.layer = y.val ∧ k.csn = (d.surf dsc (h.val % 2)).csn) ∧
          ∀ q : BeamNo, d.rd (.beam h q) Reg.BEAM.WR_CTL_BANK = bank.val ∧ d.shd (.beam h q) Reg.BEAM.WR_CTL_BANK = bank.val ∧
            d.rd (.beam h q) Reg.BEAM.RPC_STATE_M = 0x8000) ∧
    ∀ r : Requester, s.chip.Writable r p → Completes (.fifoMinReset r h) s fun d =>
      (∀ f ∈ [Reg.HEAD.FIFO_MIN_B0, Reg.HEAD.FIFO_MIN_B1, Reg.HEAD.FIFO_MIN_B2, Reg.HEAD.FIFO_MIN_B3, Reg.HEAD.FIFO_MIN2_B4],
        d.rd p f = 127) ∧ s.chip.SameBut d [.reg] ∧ s.chip.SameElsewhere d (· = p)

/-- A tail doorbell within an existing queue sets its tail; a head doorbell that frees posted entries drops them and
moves the head. A fetch serves the controller whose turn it is from the queue that arbitration gives, which holds an
entry: the entry goes into the free slot as a new command, the queue's head moves on, and the turn passes; an I/O
command of a group that is not accessible is answered with its path status at once. Create I/O CQ and SQ with a free
identifier within the controller's queues, a size of 2 to 4,096 and contiguous memory make the queue; Delete I/O SQ
with no command of it in flight and Delete I/O CQ without an SQ remove it. Each is answered with success. -/
def Obligations.HostQueuesAndFetch : Prop :=
  ∀ s : State, s.chip.Interlocked →
    (∀ (n : Ctrl) (qid v : BitVec 16), s.chip.islandUp .host = true → s.chip.host.linkUp = true → (s.chip.ctl n.val).en = true →
      (∀ q, (s.chip.ctl n.val).sqs.find? (fun q => q.id == qid.toNat) = some q → v.toNat < q.size →
        Completes (.sqDoorbell n qid v) s fun d =>
          (d.ctl n.val).sqs.find? (fun q => q.id == qid.toNat) = some { q with tail := v.toNat } ∧
          (∀ j, j ≠ qid.toNat →
            (d.ctl n.val).sqs.find? (fun q => q.id == j) = (s.chip.ctl n.val).sqs.find? (fun q => q.id == j)) ∧
          d.ctl n.val = { s.chip.ctl n.val with sqs := (d.ctl n.val).sqs } ∧
          s.chip.OnlyCtl d n.val ∧ s.chip.SameBut d [.host]) ∧
      (∀ q, (s.chip.ctl n.val).cqs.find? (fun q => q.id == qid.toNat) = some q → v.toNat < q.size → s.chip.host.cplWait = [] →
        let k := (v.toNat + q.size - q.head) % q.size
        k ≤ q.entries.length → Completes (.cqDoorbell n qid v) s fun d =>
          (d.ctl n.val).cqs.find? (fun q => q.id == qid.toNat) = some { q with head := v.toNat, entries := q.entries.drop k } ∧
          (∀ j, j ≠ qid.toNat →
            (d.ctl n.val).cqs.find? (fun q => q.id == j) = (s.chip.ctl n.val).cqs.find? (fun q => q.id == j)) ∧
          d.ctl n.val = { s.chip.ctl n.val with cqs := (d.ctl n.val).cqs } ∧
          s.chip.OnlyCtl d n.val ∧ s.chip.SameBut d [.reg, .host])) ∧
    (∀ (e : Sqe) (q : SQueue) (x : CtrlSt) (slot : Nat), s.chip.islandUp .host = true → s.chip.islandUp .cmd = true →
      s.chip.rd .sluice Reg.SLUICE.SLUICE_STAT_FLUSHING = 0 → s.chip.host.nextCtrl < 16 →
      (s.chip.ctl s.chip.host.nextCtrl).served = true → s.chip.arbitrate s.chip.host.nextCtrl = some (q, x) →
      s.chip.freeSlot = some slot →
      let n := s.chip.host.nextCtrl
      let k : Cmd := { ctrl := n, sq := q.id, sqe := e, seq := s.chip.host.fetchSeq, since := s.chip.now }
      let path := (s.chip.ns? e.nsid.toNat).bind fun z => anaStatus (s.chip.ana z.ana)
      Completes (.commandFetch e) s fun d =>
        q ∈ (s.chip.ctl n).sqs ∧ q.tail ≠ q.head ∧
        (∀ y, (s.chip.ctl n).sqs.find? (fun y => y.id == q.id) = some y →
          (d.ctl n).sqs.find? (fun y => y.id == q.id) = some { y with head := (y.head + 1) % y.size }) ∧
        d.host.fetchSeq = s.chip.host.fetchSeq + 1 ∧ d.host.nextCtrl = (n + 1) % 16 ∧ (∀ m, m ≠ n → d.ctl m = s.chip.ctl m) ∧
        (∀ m, m ≠ slot → d.cmdAt m = s.chip.cmdAt m) ∧ s.chip.SameBut d [.reg, .host] ∧
        (q.id = 0 ∨ path = none → d.cmdAt slot = some k) ∧
        (∀ sc, q.id ≠ 0 → path = some sc → s.chip.Answers d slot k (k.entry 3 sc false))) ∧
    (∀ (slot : Fin 3072) (k : Cmd) (opc : Byte), s.chip.AdminReady slot.val k opc →
      let id := k.sqe.cdw10.toNat % 65536
      let size := k.sqe.cdw10.toNat / 65536
      let w := k.sqe.cdw11.toNat
      let x := s.chip.ctl k.ctrl
      let Ok : Chip → Prop := fun d => s.chip.Answers d slot.val k (k.entry 0 0 false) ∧ s.chip.SameBut d [.reg, .host] ∧
        (∀ m, m ≠ k.ctrl → d.ctl m = s.chip.ctl m) ∧ ∀ m, m ≠ slot.val → d.cmdAt m = s.chip.cmdAt m
      (id ≠ 0 → id ≤ s.chip.ioQueues k.ctrl → size ≠ 0 → size ≤ 4095 → w.testBit 0 = true →
        (opc = 0x05 → (∀ y ∈ x.cqs, y.id ≠ id) → w / 65536 < s.chip.vectors k.ctrl → Completes (.createIoCq slot) s fun d =>
          Ok d ∧ ∃ y, (d.ctl k.ctrl).cqs.find? (fun y => y.id == id) = some y ∧ y.size = size + 1 ∧ y.ien = w.testBit 1 ∧
            y.vector = w / 65536) ∧
        (opc = 0x01 → (∀ q ∈ x.sqs, q.id ≠ id) → (∃ y ∈ x.cqs, y.id = w / 65536 ∧ y.id ≠ 0) →
          Completes (.createIoSq slot) s fun d =>
            Ok d ∧ (d.ctl k.ctrl).sqs.find? (fun q => q.id == id) =
              some { id := id, size := size + 1, cq := w / 65536, prio := slice 1 2 w })) ∧
      (opc = 0x00 → id ≠ 0 → (∃ q ∈ x.sqs, q.id = id) →
        (∀ e ∈ s.chip.host.slots, ¬ (e.2.ctrl = k.ctrl ∧ e.2.sq = id ∧ e.2.origin = 0)) →
        Completes (.deleteIoSq slot) s fun d => Ok d ∧ ∀ q, q ∈ (d.ctl k.ctrl).sqs ↔ q ∈ x.sqs ∧ q.id ≠ id) ∧
      (opc = 0x04 → id ≠ 0 → (∃ y ∈ x.cqs, y.id = id) → (∀ q ∈ x.sqs, q.cq ≠ id) →
        Completes (.deleteIoCq slot) s fun d => Ok d ∧ ∀ y ∈ (d.ctl k.ctrl).cqs, y.id ≠ id))

/-- Enabling an online controller makes its admin queues with the sizes of AQA, RDY follows BOOT_STAT.READY and
FUNC_STAT shows it; an offline one ignores it; without the host link nothing of a controller is reached. A reset of a
controller, by CC.EN or function level, none of whose commands has staged or waiting data ends its commands without
completion, but an admin command that has begun runs on in silence; queues, features and events are gone, and its
resources are those assigned for the next reset. A shutdown interrupts the commands that wait for a mount, and an
abrupt one with nothing in flight is complete at once. The link trains to at most LINK_CTL's limits, unless PERST_N is
low, and is DEGRADED below 32 GT/s or x4; its loss clears LINK_STAT and is reported where the host did not start it;
each retraining counts. -/
def Obligations.ControllersAndPcieLink : Prop :=
  ∀ s : State, s.chip.Interlocked → s.chip.islandUp .host = true →
    (s.chip.host.linkUp = false → ∀ (n : Ctrl) (ams : Fin 8) (a b : BitVec 12) (v : Bool),
      ∀ i ∈ [Instr.controllerEnable n ams a b, .controllerReset n, .functionLevelReset n, .controllerShutdown n v],
        Completes i s fun d => d = s.chip) ∧
    (s.chip.host.linkUp = true →
    (∀ (n : Ctrl) (ams : Fin 8) (a b : BitVec 12), let x := s.chip.ctl n.val
      (x.online = true → x.en = false → Completes (.controllerEnable n ams a b) s fun d =>
        d.ctl n.val = { x with
          en := true, rdy := decide (s.chip.rd .sys Reg.SYS.BOOT_STAT_READY ≠ 0), ams := ams.val, shst := 0, next := 0
          credits := [], props := assocSet 0x14 (1 + 2 ^ 11 * ams.val) (assocSet 0x24 (a.toNat + 2 ^ 16 * b.toNat) x.props)
          sqs := [{ id := 0, size := a.toNat + 1, cq := 0 }], cqs := [{ id := 0, size := b.toNat + 1 }] } ∧
        d.rd .host Reg.HOST.FUNC_STAT_EN = ((List.range 16).map fun i => b2n (d.ctl i).en * 2 ^ i).sum ∧
        d.rd .host Reg.HOST.FUNC_STAT_RDY = ((List.range 16).map fun i => b2n (d.ctl i).rdy * 2 ^ i).sum ∧
        s.chip.OnlyCtl d n.val ∧ s.chip.SameBut d [.reg, .host] ∧
        s.chip.SameRegs d [(.host, Reg.HOST.FUNC_STAT_EN, 0), (.host, Reg.HOST.FUNC_STAT_RDY, 0), (.host, Reg.HDR.INT_STAT_BLOCK, 0)]) ∧
      (x.online = false → Completes (.controllerEnable n ams a b) s fun d =>
        (d.ctl n.val).en = x.en ∧ (d.ctl n.val).sqs = x.sqs ∧ s.chip.OnlyCtl d n.val ∧ s.chip.SameBut d [.host])) ∧
    (∀ (n : Ctrl) (i : Instr), i = .controllerReset n ∨ i = .functionLevelReset n → (s.chip.host.slots.map (·.1)).Pairwise (· < ·) →
      (∀ e ∈ s.chip.host.slots, e.2.ctrl = n.val → e.2.origin = 0 → e.2.batch = none) → let x := s.chip.ctl n.val
      Completes i s fun d =>
        d.ctl n.val = { online := x.online, vq := x.vqNext.getD x.vq, vi := x.viNext.getD x.vi, props := x.props.filter fun e => 0x24 ≤ e.1, changedNs := x.changedNs
                        changedZones := x.changedZones, errors := x.errors, errCount := x.errCount } ∧
        (∀ m, m ≠ n.val → d.ctl m = s.chip.ctl m) ∧ d.host.miOut = s.chip.host.miOut ∧
        (∀ e ∈ d.host.cplWait, e ∈ s.chip.host.cplWait ∧ e.ctrl ≠ n.val) ∧
        (∀ (slot : Nat) (k : Cmd), s.chip.cmdAt slot = some k →
          d.cmdAt slot = if k.ctrl = n.val ∧ k.origin = 0 then
              (if k.sq = 0 ∧ k.begun = true ∧ k.phase ≠ .event then some { k with silent := true } else none)
            else some k) ∧
        s.chip.SameBut d [.reg, .host]) ∧
    (∀ n : Ctrl, (s.chip.ctl n.val).en = true →
      ((s.chip.ctl n.val).shst = 0 → ∀ a : Bool, Completes (.controllerShutdown n a) s fun d =>
        ((d.ctl n.val).shst = 1 ∨ (d.ctl n.val).shst = 2) ∧
        ∀ (slot : Nat) (k : Cmd), s.chip.cmdAt slot = some k → k.ctrl = n.val → k.origin = 0 → k.phase = .mount →
          d.cmdAt slot = none) ∧
      ((s.chip.ctl n.val).shst ≤ 1 → (∀ e ∈ s.chip.host.slots, e.2.ctrl = n.val → e.2.origin = 0 → e.2.phase = .event) →
        Completes (.controllerShutdown n true) s fun d =>
          d.ctl n.val = { s.chip.ctl n.val with shst := 2 } ∧ s.chip.OnlyCtl d n.val ∧ s.chip.SameBut d [.host]))) ∧
    (s.chip.pins.perstNLow = true → ∀ (v : Fin 5) (w : Fin 3), Completes (.pcieLinkTraining v w) s fun d => d = s.chip) ∧
    (s.chip.pins.perstNLow = false → ∀ (v : Fin 5) (w : Fin 3), let sp := min (v.val + 1) s.chip.maxSpeed
      let wd := min (2 ^ w.val) s.chip.maxWidth
      Completes (.pcieLinkTraining v w) s fun d =>
        d.rd .host Reg.HOST.LINK_STAT_SPEED = sp ∧ d.rd .host Reg.HOST.LINK_STAT_WIDTH = wd ∧
        d.rd .host Reg.HOST.LINK_STAT_UP = 1 ∧ d.rd .host Reg.HOST.LINK_STAT_DEGRADED = b2n (decide (sp < 5 ∨ wd < 4)) ∧
        d.host.linkUp = true ∧
        (sp = 5 → wd = 4 → s.chip.SameBut d [.reg, .host]) ∧
        (sp < 5 ∨ wd < 4 → ∃ e l, d.log.events = e :: l ∧ e.code = 0x000B)) ∧
    (s.chip.host.linkUp = true → ∀ own : Bool, Completes (.pcieLinkDown own) s fun d =>
      d.host = { s.chip.host with linkUp := false } ∧ d.rd .host Reg.HOST.LINK_STAT_UP = 0 ∧
      d.rd .host Reg.HOST.LINK_STAT_SPEED = 0 ∧ d.rd .host Reg.HOST.LINK_STAT_WIDTH = 0 ∧
      d.rd .host Reg.HOST.LINK_STAT_DEGRADED = 0 ∧
      (own = true → d.x16 = s.chip.x16) ∧
      (own = false → s.chip.pageUp .host = true → d.x16 = s.chip.x16 ++ [⟨0xC, 2, 1, 0, 0x14⟩]) ∧
      s.chip.SameBut d [.reg, .host, .x16]) ∧
    (∀ r : Requester, s.chip.Writable r .host → Completes (.pcieRetrain r) s fun d =>
      d.rd .host Reg.HOST.LINK_STAT_RETRAINS =
        min (s.chip.rd .host Reg.HOST.LINK_STAT_RETRAINS + 1) (2 ^ Reg.HOST.LINK_STAT_RETRAINS.w - 1) ∧
      s.chip.SameBut d [.reg])

/-- A write-class command to a standard namespace, within its range and with its reference tag in place, becomes a
batch: while the budget has no room it waits for admission; with room, as the only batch, on an open zone of a polder
that takes rows, it is admitted with the next sequence number and its transfer starts at the write pointer. Once its
data has arrived (no protection, no partner), it lies encrypted in staging, the write pointer advances, the zone is
Full at its capacity, and the command is answered. A write to a maintenance namespace starts its transfer at once, a
Write Zeroes there programs its blocks and is answered. A range beyond the namespace is refused with LBA Out of Range,
more than 64 blocks with Invalid Field, and a Zone Append not at a zone start too. -/
def Obligations.WritesReachStaging : Prop :=
  ∀ (s : State) (slot : Fin 3072) (k : Cmd) (n : NsSt), s.chip.Interlocked →
    let c := s.chip
    let q := k.sqe
    let z := Sqe.slba q / zoneSize
    let x := n.zone z
    let charge := 4160 * Sqe.nlb q + 64
    (∀ (i : Instr) (kind : Nat) (opc : Byte),
      (kind = 1 ∧ opc = 0x01 ∧ i = .ioWrite slot) ∨ (kind = 2 ∧ opc = 0x08 ∧ i = .ioWriteZeroes slot) ∨
        (kind = 3 ∧ opc = 0x7D ∧ i = .zoneAppend slot) →
      c.NsReady slot.val k opc n →
      (n.size < Sqe.slba q + Sqe.nlb q → (kind = 3 → n.std = true) → Completes i s fun d =>
        c.Answers d slot.val k (k.entry 0 0x80 true) ∧ c.SameBut d [.reg, .host]) ∧
      (Sqe.slba q + Sqe.nlb q ≤ n.size → kind ≠ 2 → 64 < Sqe.nlb q → (kind = 3 → n.std = true) → Completes i s fun d =>
        c.Answers d slot.val k (k.entry 0 0x02 true) ∧ c.SameBut d [.reg, .host]) ∧
      (Sqe.slba q + Sqe.nlb q ≤ n.size → (kind = 2 ∨ Sqe.nlb q ≤ 64) → n.std = true →
        (kind = 3 → Sqe.slba q % zoneSize ≠ 0 → Completes i s fun d =>
          c.Answers d slot.val k (k.entry 0 0x02 true) ∧ c.SameBut d [.reg, .host]) ∧
        ((kind = 3 → Sqe.slba q % zoneSize = 0) → n.badRef (Sqe.pi q) (Sqe.slba q) = false → c.nsWt n.nsid = false →
          let b : Batch := { id := c.sluice.nextId, kind := kind, slot := some slot.val, nsid := n.nsid, zone := z
                             ofs := Sqe.slba q % zoneSize, nlb := Sqe.nlb q, keyTag := n.keyTag, since := c.now }
          ((∀ y ∈ c.sluice.batches, y.seq.isSome = true ∨ y.wt = true) → c.sluice.budget < c.admitted + charge →
            Completes i s fun d =>
              d.sluice.batches = c.sluice.batches ++ [b] ∧ d.sluice.nextId = c.sluice.nextId + 1 ∧
              d.cmdAt slot.val = some { k with begun := true, phase := .admission, since := c.now, batch := some b.id } ∧
              c.SameBut d [.reg, .host, .sluice]) ∧
          (kind ≠ 2 → c.sluice.batches = [] → charge ≤ c.sluice.budget → x.st.isOpen = true → (kind = 1 → b.ofs = x.wp) →
            x.wp + Sqe.nlb q ≤ zoneCap → c.peer.handback = none →
            (∀ pz p, x.bind = some pz → c.polder? pz.1 = some p → c.takesRows p = true) →
            Completes i s fun d =>
              d.sluice.batches = [{ b with seq := some c.sluice.nextSeq, ofs := x.wp }] ∧
              d.sluice.nextSeq = c.sluice.nextSeq + 1 ∧
              d.cmdAt slot.val = some { k with begun := true, phase := .dma, since := c.now, batch := some b.id } ∧
              c.SameBut d [.reg, .host, .sluice])))) ∧
    (n.std = false → c.rs.mounted = true → Sqe.slba q + Sqe.nlb q ≤ n.size →
      (c.NsReady slot.val k 0x01 n → Sqe.nlb q ≤ 64 → n.badRef (Sqe.pi q) (Sqe.slba q) = false →
        Completes (.ioWrite slot) s fun d =>
          d.cmdAt slot.val = some { k with begun := true, phase := .dma, since := c.now } ∧ c.SameBut d [.host]) ∧
      (c.NsReady slot.val k 0x08 n → n.lbaf = 0 → Completes (.ioWriteZeroes slot) s fun d =>
        c.Answers d slot.val k (k.entry 0 0 false) ∧
        (∀ i, i < Sqe.nlb q → assocGet (maintKey n.nsid (Sqe.slba q + i)) d.rs.maint =
          some ⟨Config.xtsEncrypt n.key (Sqe.slba q + i) (List.replicate 4096 0), []⟩) ∧
        c.SameBut d [.reg, .host, .rs, .log])) ∧
    (∀ (b : Batch) (r : DmaResult), c.islandUp .host = true → c.islandUp .mem = true → c.cmdAt slot.val = some k →
      k.phase = .dma → k.origin ≠ 1 → k.ctrl < 16 → q.opc = 0x01 ∨ q.opc = 0x7D → k.batch = some b.id → c.sluice.batches = [b] →
      b.slot = some slot.val → b.wt = false → b.staged = false → b.nlb = Sqe.nlb q → c.ns? q.nsid.toNat = some n →
      b.nsid = n.nsid → n.lbaf = 0 → (n.zone b.zone).st.isOpen = true → c.linkUp = false → c.shared b.nsid = false →
      r.cqFault = false →
      (r.fault = none → n.bufferStatus q r = none → r.blocks.length = Sqe.nlb q →
        (∀ y ∈ r.blocks, Block.fits n (Sqe.pi q) y = true) → Completes (.cmdDmaDone slot r) s fun d =>
          let lba := b.zone * zoneSize + b.ofs
          c.Answers d slot.val k
            { k.entry 0 0 false with
              dw0 := if b.kind = 3 then lba % 2 ^ 32 else 0, dw1 := if b.kind = 3 then lba / 2 ^ 32 else 0 } ∧
          (d.zone n.nsid b.zone).wp = b.ofs + b.nlb ∧ (d.zone n.nsid b.zone).dataEnd = b.ofs + b.nlb ∧
          (d.zone n.nsid b.zone).st = (if b.ofs + b.nlb = zoneCap then .full else (n.zone b.zone).st) ∧
          (∃ y, d.sluice.batches = [y] ∧ y.id = b.id ∧ y.staged = true ∧ y.slot = none ∧ y.data = n.encrypt lba r.blocks) ∧
          d.log.blocksWritten = c.log.blocksWritten + b.nlb) ∧
      (∀ f, r.fault = some f → Completes (.cmdDmaDone slot r) s fun d =>
        c.Answers d slot.val k (k.entry 0 0x04 false) ∧ (d.zone n.nsid b.zone).wp = (n.zone b.zone).wp ∧
        d.sluice.batches = [] ∧ d.log.blocksWritten = c.log.blocksWritten))

/-- A Read or Compare of blocks above the write pointer of one zone starts its transfer with zeros, a Verify of them
is answered; an offline zone, two zones and a range beyond the namespace are refused with their status. A Flush is
answered. At the end of its transfer a Read is answered with its blocks, less what a Bit Bucket takes, and counted; an
SGL that cannot describe the transfer ends it with its status; a Compare is answered or fails with Compare Failure,
and a DMA fault is counted in DMA_ERR, reported, and answered with Data Transfer Error. A command that waits too long
for a mount is answered with Command Interrupted and CRD 1, and the wait is reported. An opcode that is not supported
is answered so, and a command to a namespace that is not attached with Invalid Namespace. -/
def Obligations.ReadsFlushAndTransferFaults : Prop :=
  ∀ (s : State) (slot : Fin 3072) (k : Cmd), s.chip.Interlocked →
    let c := s.chip
    let q := k.sqe
    (∀ (n : NsSt) (i : Instr) (opc : Byte),
      (opc = 0x02 ∧ i = .ioRead slot) ∨ (opc = 0x05 ∧ i = .ioCompare slot) ∨ (opc = 0x0C ∧ i = .ioVerify slot) →
      c.NsReady slot.val k opc n →
      let z := Sqe.slba q / zoneSize
      (n.size < Sqe.slba q + Sqe.nlb q → Completes i s fun d =>
        c.Answers d slot.val k (k.entry 0 0x80 true) ∧ c.SameBut d [.reg, .host]) ∧
      (Sqe.slba q + Sqe.nlb q ≤ n.size → opc = 0x0C ∨ Sqe.nlb q ≤ 64 → n.badRef (Sqe.pi q) (Sqe.slba q) = false → n.std = true →
        (z ≠ (Sqe.slba q + Sqe.nlb q - 1) / zoneSize → Completes i s fun d =>
          c.Answers d slot.val k (k.entry 1 0xB8 true) ∧ c.SameBut d [.reg, .host]) ∧
        (z = (Sqe.slba q + Sqe.nlb q - 1) / zoneSize → (n.zone z).st = .offline → Completes i s fun d =>
          c.Answers d slot.val k (k.entry 1 0xBB true) ∧ c.SameBut d [.reg, .host]) ∧
        (z = (Sqe.slba q + Sqe.nlb q - 1) / zoneSize → (n.zone z).st ≠ .offline →
          (n.zone z).dataEnd ≤ Sqe.slba q % zoneSize →
          (opc ≠ 0x0C → Completes i s fun d =>
            (∃ k', d.cmdAt slot.val = some k' ∧ k'.phase = .dma ∧ k'.since = c.now ∧ k'.begun = true ∧ k'.sqe = q ∧
              k'.upTo = (n.zone z).dataEnd ∧
              ∀ j, j < Sqe.nlb q → assocGet j k'.got = some (zeroBlock (lbafMd n.lbaf), false)) ∧ c.SameBut d [.host]) ∧
          (opc = 0x0C → n.lbaf = 0 → Completes i s fun d =>
            c.Answers d slot.val k (k.entry 0 0 false) ∧ c.SameBut d [.reg, .host])))) ∧
    (∀ (n : NsSt) (i : Instr) (opc : Byte),
      (opc = 0x01 ∧ i = .ioWrite slot) ∨ (opc = 0x02 ∧ i = .ioRead slot) ∨ (opc = 0x05 ∧ i = .ioCompare slot) ∨
        (opc = 0x08 ∧ i = .ioWriteZeroes slot) ∨ (opc = 0x0C ∧ i = .ioVerify slot) ∨ (opc = 0x7D ∧ i = .zoneAppend slot) →
      c.IoReady slot.val k opc → c.ns? q.nsid.toNat = some n → k.origin = 0 → n.attached.testBit k.ctrl = false →
      Completes i s fun d => c.Answers d slot.val k (k.entry 0 0x0B true) ∧ c.SameBut d [.reg, .host]) ∧
    (c.IoReady slot.val k 0x00 → c.marked k = false → (c.ns? q.nsid.toNat).isSome = true ∨ q.nsid = 0xFFFFFFFF →
      Completes (.ioFlush slot) s fun d => c.Answers d slot.val k (k.entry 0 0 false) ∧ c.SameBut d [.reg, .host]) ∧
    (c.IoReady slot.val k q.opc → ioSupported (((c.ns? q.nsid.toNat).map (·.std)).getD true) q.opc = false →
      Completes (.unsupportedIoCommand slot) s fun d =>
        c.Answers d slot.val k (k.entry 0 0x01 true) ∧ c.SameBut d [.reg, .host]) ∧
    (∀ (n : NsSt) (r : DmaResult), c.islandUp .host = true → c.islandUp .mem = true → c.cmdAt slot.val = some k →
      k.phase = .dma → k.origin ≠ 1 → k.ctrl < 16 → c.ns? q.nsid.toNat = some n → n.lbaf = 0 → r.cqFault = false →
      let bs := k.got.map (·.2.1)
      let data := bs.flatMap fun b => if n.extLba then b.data ++ b.md else b.data
      let md := if n.extLba then [] else bs.flatMap (·.md)
      (∀ sc, q.opc = 0x02 → r.fault = none → n.bufferStatus q r = some sc → Completes (.cmdDmaDone slot r) s fun d =>
        c.Answers d slot.val k (k.entry 0 sc true) ∧ c.SameBut d [.reg, .host]) ∧
      (q.opc = 0x02 → r.fault = none → n.bufferStatus q r = none → Completes (.cmdDmaDone slot r) s fun d =>
        c.Answers d slot.val k { k.entry 0 0 false with
          data := if q.psdt = 0 then data else sglTake r.sgl.flatten data, md := if q.psdt = 2 then sglTake r.mdSgl md else md } ∧
        d.log = { c.log with blocksRead := c.log.blocksRead + bs.length } ∧ c.SameBut d [.reg, .host, .log]) ∧
      (q.opc = 0x05 → r.fault = none → n.bufferStatus q r = none → r.blocks.length = Sqe.nlb q → (∀ y ∈ r.blocks, Block.fits n (Sqe.pi q) y = true) →
        Completes (.cmdDmaDone slot r) s fun d =>
          c.Answers d slot.val k (if bs = r.blocks then k.entry 0 0 false else k.entry 2 0x85 true) ∧
          c.SameBut d [.reg, .host]) ∧
      (q.opc = 0x02 ∨ q.opc = 0x05 → ∀ f, r.fault = some f → c.pageUp .host = true → Completes (.cmdDmaDone slot r) s fun d =>
        let e := match f with
          | .abort => Reg.HOST.DMA_ERR_CA
          | .unsupported => Reg.HOST.DMA_ERR_UR
          | .poison => Reg.HOST.DMA_ERR_POISON
          | .timeout => Reg.HOST.DMA_ERR_TIMEOUT
        c.Answers d slot.val k (k.entry 0 0x04 false) ∧ d.rd .host e = min (c.rd .host e + 1) (2 ^ e.w - 1) ∧
        d.x16 = c.x16 ++ [⟨0xD, 1, 0, 0, 0x14⟩] ∧ c.SameBut d [.reg, .host, .x16])) ∧
    (c.cmdAt slot.val = some k → k.phase = .mount → k.origin ≠ 1 → k.ctrl < 16 → c.pageUp .cmd = true →
      Completes (.mountTimeout slot) s fun d =>
        c.Answers d slot.val k { k.entry 0 0x21 false with crd := 1 } ∧ d.x16 = c.x16 ++ [⟨0x10, 1, 0, 0, 0x15⟩] ∧
        c.SameBut d [.tb, .reg, .host, .x16])

/-- On a standard namespace, naming the start of a zone: Open makes an open or Closed zone Explicitly Opened, and an
Empty one within the limits too, bound to the lowest free zone index of a recording polder of the namespace; of a Full
or Offline zone it fails. Close makes an active zone Closed and else fails. Finish of a zone with nothing staged makes
it Full with the write pointer at its end. Reset of a zone with nothing staged, not migrating, makes it Empty and
unbound and drops what the read cache and the Lost LBA log hold of it. Offline always fails, Set Zone Descriptor
Extension is an invalid field. Report Zones answers the report; other actions of it are invalid. -/
def Obligations.ZonesAreManaged : Prop :=
  ∀ (s : State) (slot : Fin 3072) (k : Cmd) (n : NsSt), s.chip.Interlocked → n.std = true →
    let c := s.chip
    let q := k.sqe
    let l := Sqe.slba q
    let z := l / zoneSize
    let x := n.zone z
    let zsa := q.cdw13.toNat % 256
    let Fails : Chip → Nat → Nat → Prop := fun d sct sc =>
      c.Answers d slot.val k (k.entry sct sc true) ∧ c.SameBut d [.reg, .host]
    let Ok : Chip → Prop := fun d => c.Answers d slot.val k (k.entry 0 0 false)
    (c.NsReady slot.val k 0x79 n → l < n.size →
      (∀ i, (zsa = 1 ∧ i = Instr.zoneClose slot) ∨ (zsa = 2 ∧ i = .zoneFinish slot) ∨ (zsa = 3 ∧ i = .zoneOpen slot) ∨
          (zsa = 4 ∧ i = .zoneReset slot) → q.cdw13.toNat.testBit 8 = false → l % zoneSize ≠ 0 →
        Completes i s fun d => Fails d 0 0x02) ∧
      (q.cdw13.toNat.testBit 8 = false → l % zoneSize = 0 →
        (zsa = 1 →
          (x.st.isActive = true → Completes (.zoneClose slot) s fun d =>
            Ok d ∧ d.zone n.nsid z = { x with st := .closed } ∧ c.SameBut d [.reg, .host]) ∧
          (x.st.isActive = false → Completes (.zoneClose slot) s fun d => Fails d 1 0xBF)) ∧
        (zsa = 2 → c.sluice.batches = [] →
          (x.st = .offline → Completes (.zoneFinish slot) s fun d => Fails d 1 0xBF) ∧
          (x.st ≠ .offline → x.st ≠ .full → Completes (.zoneFinish slot) s fun d =>
            Ok d ∧ (d.zone n.nsid z).st = .full ∧ (d.zone n.nsid z).wp = zoneSize ∧ (d.zone n.nsid z).dataEnd = x.dataEnd)) ∧
        (zsa = 3 →
          (x.st = .full ∨ x.st = .offline → Completes (.zoneOpen slot) s fun d => Fails d 1 0xBF) ∧
          (x.st.isOpen = true ∨ (x.st = .closed ∧ x.bind.isSome = true ∧ n.countZones ZState.isOpen < 256) →
            Completes (.zoneOpen slot) s fun d =>
              Ok d ∧ d.zone n.nsid z = { x with st := .eOpen } ∧ c.SameBut d [.reg, .host]) ∧
          (x.st = .empty → 256 ≤ n.countZones ZState.isActive ∨ 1024 ≤ c.countZones ZState.isActive →
            Completes (.zoneOpen slot) s fun d => Fails d 1 0xBD) ∧
          (x.st = .empty → n.countZones ZState.isActive < 256 → c.countZones ZState.isActive < 1024 →
            n.countZones ZState.isOpen < 256 →
            (∃ p ∈ c.lib.polders, p.nsid = n.nsid ∧ p.recording = true ∧ p.nextZone < 7450) →
            Completes (.zoneOpen slot) s fun d =>
              Ok d ∧ (d.zone n.nsid z).st = .eOpen ∧
              ∃ p ∈ c.lib.polders, ∃ p' ∈ c.lib.polders, p.nsid = n.nsid ∧ p.recording = true ∧ p.nextZone < 7450 ∧
                p'.id = p.id ∧ (d.zone n.nsid z).bind = some (p'.id, p'.nextZone))) ∧
        (zsa = 4 → c.sluice.batches = [] →
          (x.st = .offline → Completes (.zoneReset slot) s fun d => Fails d 1 0xBF) ∧
          (x.st ≠ .offline → x.moving = none → Completes (.zoneReset slot) s fun d =>
            Ok d ∧ d.zone n.nsid z = { st := .empty } ∧
            (∀ e ∈ d.lib.cache, ¬ (e.1 = n.nsid ∧ z * zoneSize ≤ e.2.1 ∧ e.2.1 < (z + 1) * zoneSize)) ∧
            ∀ e ∈ d.log.lost, ¬ (e.nsid = n.nsid ∧ z * zoneSize ≤ e.slba ∧ e.slba < (z + 1) * zoneSize))) ∧
        (zsa = 5 → Completes (.zoneOfflineAction slot) s fun d => Fails d 1 0xBF) ∧
        (zsa = 0x10 → Completes (.setZoneDescriptorExtension slot) s fun d => Fails d 0 0x02))) ∧
    (c.NsReady slot.val k 0x7A n →
      let len := (q.cdw12.toNat + 1) * 4
      let sel := slice 8 8 q.cdw13.toNat
      (zsa ≠ 0 ∨ 7 < sel → Completes (.reportZones slot) s fun d => Fails d 0 0x02) ∧
      (zsa = 0 → sel ≤ 7 → len ≤ 262144 → l < n.size → Completes (.reportZones slot) s fun d =>
        c.Answers d slot.val k { k.entry 0 0 false with data := n.report z sel len (q.cdw13.toNat.testBit 16) } ∧
        c.SameBut d [.reg, .host]))

/-- Get Log Page answers the part of the log asked for, and without Retain Asynchronous Event unmasks its events; an
unknown log and a longer transfer than MDTS fail. Identify answers its structure. Abort answers 1 where no such
command waits and else ends it. Set Features keeps the value of each listed feature in its place, Get Features answers
it. An Asynchronous Event Request waits, or is answered with the oldest event, up to 16. Keep Alive is answered while
firmware restarts too and starts its period anew; a period that ends is reported. A self-test starts, is aborted by
code 15, and another meanwhile fails. NVMe-MI messages are passed on. Other opcodes are invalid. -/
def Obligations.AdminCommandsAndFeatures : Prop :=
  ∀ (s : State) (slot : Fin 3072) (k : Cmd), s.chip.Interlocked →
    let c := s.chip
    let n := k.ctrl
    let d10 := k.sqe.cdw10.toNat
    let v := k.sqe.cdw11.toNat
    let Ok : Chip → Prop := fun d => c.Answers d slot.val k (k.entry 0 0 false)
    let Dw0 : Chip → Nat → Prop := fun d w => c.Answers d slot.val k { k.entry 0 0 false with dw0 := w }
    let Fails : Chip → Nat → Nat → Prop := fun d sct sc => c.Answers d slot.val k (k.entry sct sc true) ∧ c.SameBut d [.reg, .host]
    (∀ data : List Byte, c.AdminReady slot.val k 0x09 →
      let fid := d10 % 256
      (d10.testBit 31 = true → Completes (.setFeatures slot data) s fun d => Fails d 1 0x0D) ∧
      (d10.testBit 31 = false → fid ∉ featureIds → Completes (.setFeatures slot data) s fun d => Fails d 0 0x02) ∧
      (d10.testBit 31 = false →
        (∀ e ∈ [(0x01, v), (0x05, v % 65536), (0x08, v % 65536), (0x0A, v % 2), (0x0B, v)], fid = e.1 →
          (fid = 0x05 → v.testBit 16 = false) → Completes (.setFeatures slot data) s fun d =>
            Ok d ∧ d.feat n fid = e.2 ∧ c.SameBut d [.reg, .host]) ∧
        (fid = 0x02 → v % 32 ≤ 2 → Completes (.setFeatures slot data) s fun d => Ok d ∧ d.host.ps = v % 32) ∧
        (fid = 0x07 → v % 65536 ≠ 65535 → v / 65536 ≠ 65535 → (∀ q ∈ (c.ctl n).sqs, q.id = 0) →
          (∀ y ∈ (c.ctl n).cqs, y.id = 0) → Completes (.setFeatures slot data) s fun d =>
            Dw0 d (min (v % 65536) (c.ioQueues n - 1) + min (v / 65536 % 65536) (c.ioQueues n - 1) * 65536)) ∧
        (fid = 0x0E → Completes (.setFeatures slot data) s fun d => Ok d ∧ d.feat n 0x0E = natLE (data.take 6)) ∧
        (fid = 0x0F → Completes (.setFeatures slot data) s fun d =>
          Ok d ∧ d.feat n 0x0F = v ∧ (d.ctl n).kaAt = if v = 0 then none else some c.now) ∧
        (fid = 0xC0 → Completes (.setFeatures slot data) s fun d =>
          Ok d ∧ (d.rd .cmd Reg.CMD.ORDER_CFG_MARK).testBit n = (v % 2 == 1)) ∧
        (fid = 0xC1 → n = 0 → v ≤ 255 → Completes (.setFeatures slot data) s fun d =>
          Ok d ∧ d.rd .cmd Reg.CMD.MOUNT_WAIT_SECONDS = v))) ∧
    (c.AdminReady slot.val k 0x0A →
      let fid := d10 % 256
      (fid ∉ featureIds ∨ 3 < slice 8 3 d10 → Completes (.getFeatures slot) s fun d => Fails d 0 0x02) ∧
      (slice 8 3 d10 = 0 →
        (fid ∈ [0x01, 0x05, 0x08, 0x0A, 0x0B, 0x0F] → Completes (.getFeatures slot) s fun d =>
          Dw0 d (c.feat n fid) ∧ c.SameBut d [.reg, .host]) ∧
        (fid = 0x02 → Completes (.getFeatures slot) s fun d => Dw0 d c.host.ps ∧ c.SameBut d [.reg, .host]))) ∧
    (c.AdminReady slot.val k 0x02 →
      let lid := d10 % 256
      let len := (d10 / 65536 + v % 65536 * 65536 + 1) * 4
      let off := k.sqe.cdw12.toNat + k.sqe.cdw13.toNat * 2 ^ 32
      (lid ∉ logIds → Completes (.getLogPage slot) s fun d => Fails d 1 0x09) ∧
      (lid ∈ logIds → 262144 < len → Completes (.getLogPage slot) s fun d => Fails d 0 0x02) ∧
      (lid ∈ [0x00, 0x01, 0x04, 0x05, 0xC1, 0xC2, 0xC3] → len ≤ 262144 → Completes (.getLogPage slot) s fun d =>
        let page := (c.logPage n lid (slice 8 7 d10) k.sqe.nsid.toNat).1
        c.Answers d slot.val k { k.entry 0 0 false with data := (page.drop off ++ List.replicate len 0).take len } ∧
        (d10.testBit 15 = false → logKind lid ∉ (d.ctl n).masked ∧ (lid = 0x04 → (d.ctl n).changedNs = [])) ∧
        (d10.testBit 15 = true → (d.ctl n).masked = (c.ctl n).masked ∧ (d.ctl n).changedNs = (c.ctl n).changedNs) ∧
        c.SameBut d [.reg, .host])) ∧
    (c.AdminReady slot.val k 0x06 →
      (∀ data, c.identData k = .inr data → Completes (.identify slot) s fun d =>
        c.Answers d slot.val k { k.entry 0 0 false with data := data } ∧ c.SameBut d [.reg, .host]) ∧
      (∀ e, c.identData k = .inl e → Completes (.identify slot) s fun d => Fails d e.1 e.2)) ∧
    (c.AdminReady slot.val k 0x08 →
      let hit := fun (e : Nat × Cmd) => e.2.sqe.cid.toNat == d10 / 65536 && e.2.waits
      ((∀ e ∈ c.slotsOn n (d10 % 65536), hit e = false) → Completes (.abort slot) s fun d =>
        Dw0 d 1 ∧ c.SameBut d [.reg, .host]) ∧
      (∀ e q y, d10 % 65536 ≠ 0 → (c.slotsOn n (d10 % 65536)).find? hit = some e → c.cmdAt e.1 = some e.2 → e.2.batch = none →
        e.2.silent = false → (c.ctl n).sqs.find? (fun q => q.id == e.2.sq) = some q →
        (c.ctl n).cqs.find? (fun y => y.id == q.cq) = some y → Completes (.abort slot) s fun d =>
          d.cmdAt slot.val = none ∧ d.cmdAt e.1 = none ∧
          ((∃ y' ∈ (d.ctl n).cqs, y'.id = q.cq ∧ e.2.entry 0 7 false ∈ y'.entries) ∨ e.2.entry 0 7 false ∈ d.host.cplWait))) ∧
    (c.AdminReady slot.val k 0x0C →
      let ers := c.host.slots.filter fun e => e.2.ctrl == n && e.2.phase == .event
      (16 ≤ ers.length → Completes (.asyncEventRequest slot) s fun d => Fails d 1 0x05) ∧
      (ers.length < 16 → (c.ctl n).events = [] → Completes (.asyncEventRequest slot) s fun d =>
        d.cmdAt slot.val = some { k with begun := true, phase := .event, since := c.now } ∧ c.SameBut d [.host]) ∧
      (∀ e r, ers = [] → (c.ctl n).events = e :: r → Completes (.asyncEventRequest slot) s fun d =>
        Dw0 d (e.1 + e.2.1 * 2 ^ 8 + e.2.2 * 2 ^ 16) ∧ (d.ctl n).events = r ∧ c.SameBut d [.reg, .host])) ∧
    (c.cmdAt slot.val = some k → k.phase = .fetched → k.sq = 0 → k.sqe.opc = 0x18 → k.origin ≠ 1 → n < 16 →
      c.islandUp .cmd = true → Completes (.keepAlive slot) s fun d =>
        Ok d ∧ ((d.ctl n).kaAt = if c.feat n 0x0F = 0 then none else some c.now) ∧ c.SameBut d [.reg, .host]) ∧
    (∀ (m : Ctrl) (t : Nat), (c.ctl m.val).kaAt = some t → c.pageUp .cmd = true → Completes (.keepAliveExpired m) s fun d =>
      d.ctl m.val = { c.ctl m.val with kaAt := none } ∧ d.x16 = c.x16 ++ [⟨0xF, 1, 0, 0, 0x15⟩] ∧ c.OnlyCtl d m.val ∧
      c.SameBut d [.tb, .host, .x16]) ∧
    (c.AdminReady slot.val k 0x14 →
      let code := d10 % 16
      (c.host.selfTest = none → code = 1 ∨ code = 2 → Completes (.deviceSelfTest slot) s fun d =>
        Ok d ∧ d.host.selfTest = some (code, c.now) ∧ c.SameBut d [.reg, .host]) ∧
      (∀ run t, c.host.selfTest = some (run, t) → c.now < t + secs (if run = 1 then 120 else 1800) →
        (code = 15 → Completes (.deviceSelfTest slot) s fun d =>
          Ok d ∧ d.host.selfTest = none ∧ d.host.selfTests = ((run, 1) :: c.host.selfTests).take 20 ∧ c.SameBut d [.reg, .host]) ∧
        (code ≠ 15 → Completes (.deviceSelfTest slot) s fun d => Fails d 1 0x1D))) ∧
    (∀ data : List Byte, c.AdminReady slot.val k 0x1D → Completes (.nvmeMiSend slot data) s fun d =>
      (∃ w, Dw0 d w) ∧ d.mgmt = { c.mgmt with miQueue := c.mgmt.miQueue ++ [data] } ∧ c.SameBut d [.freeCt, .reg, .host, .mgmt]) ∧
    (c.AdminReady slot.val k 0x1E → k.origin = 0 → ∀ r rest, c.host.miOut = r :: rest → Completes (.nvmeMiReceive slot) s fun d =>
      c.Answers d slot.val k { k.entry 0 0 false with data := r } ∧ d.host.miOut = rest ∧ c.SameBut d [.reg, .host]) ∧
    (c.AdminReady slot.val k k.sqe.opc → k.sqe.opc.toNat ∉ adminOpcodes →
      Completes (.unsupportedAdminCommand slot) s fun d => Fails d 0 0x01)

/-- A sanitize in progress turns these commands away. A creation makes a standard namespace of whole zones under a
free identifier; a deletion removes it; attachment changes the listed controllers only. Firmware pieces of 4 KiB are
collected once each; a commit writes the image slot, or activates the other slot's image by a warm restart; a firmware
that does not resume is reverted. Flexible resources are assigned to offline secondaries, which are brought on and off
line. A format and a sanitize begin when fetched and end with their effect. Library geometry and calibration items are
written where they belong; a zone migration binds a second polder zone and then moves the zone there. -/
def Obligations.NamespacesFirmwareSanitizeAndVendor : Prop :=
  ∀ (s : State) (slot : Fin 3072) (k : Cmd), s.chip.Interlocked →
    let c := s.chip
    let q := k.sqe
    let d10 := q.cdw10.toNat
    let v := q.cdw11.toNat
    let Ok : Chip → Prop := fun d => c.Answers d slot.val k (k.entry 0 0 false)
    let Dw0 : Chip → Nat → Prop := fun d w => c.Answers d slot.val k { k.entry 0 0 false with dw0 := w }
    let Fails : Chip → Nat → Nat → Prop := fun d sct sc => c.Answers d slot.val k (k.entry sct sc true) ∧ c.SameBut d [.reg, .host]
    (∀ (i : Instr) (data : List Byte) (img : ImageSlot), i ∈ [.namespaceManagement slot data, .namespaceAttachment slot data,
        .firmwareImageDownload slot, .firmwareCommit slot img, .virtualizationManagement slot, .formatNvm slot false, .sanitize slot,
        .libraryGeometryWrite slot data, .calibrationItemWrite slot, .zoneMigrate slot] → c.cmdAt slot.val = some k →
      k.phase = .fetched → k.sq = 0 → k.origin ≠ 1 → k.ctrl < 16 → c.islandUp .cmd = true → c.mgmt.resumed = true →
      c.rs.san.status = 2 ∨ c.host.sanWait = true →
      (match i with
        | .namespaceManagement _ _ => q.opc = 0x0D | .namespaceAttachment _ _ => q.opc = 0x15
        | .firmwareImageDownload _ => q.opc = 0x11 | .firmwareCommit _ _ => q.opc = 0x10
        | .virtualizationManagement _ => q.opc = 0x1C | .formatNvm _ _ => q.opc = 0x80 | .sanitize _ => q.opc = 0x84
        | .libraryGeometryWrite _ _ => q.opc = 0xC0 | .calibrationItemWrite _ => q.opc = 0xC1 | _ => q.opc = 0xC2) →
      Completes i s fun d => c.Answers d slot.val k (k.entry 0 0x1D false) ∧ c.SameBut d [.reg, .host]) ∧
    (∀ data : List Byte, c.AdminReady slot.val k 0x0D →
      (d10 % 16 = 0 →
        (∀ e, c.createCheck k data = .inl e → Completes (.namespaceManagement slot data) s fun d => Fails d e.1 e.2) ∧
        (∀ n, c.createCheck k data = .inr n → Completes (.namespaceManagement slot data) s fun d =>
          n.std = true ∧ 3 ≤ n.nsid ∧ n.nsid ≤ 1024 ∧ c.ns? n.nsid = none ∧ n.size ≠ 0 ∧ n.size % zoneSize = 0 ∧ n.lbaf ≤ 2 ∧
          (∃ key, d.host.nss = c.host.nss ++ [{ n with key := key }]) ∧ Dw0 d n.nsid)) ∧
      (∀ n, d10 % 16 = 1 → q.nsid ≠ 0xFFFFFFFF → c.ns? q.nsid.toNat = some n →
        (n.std = true → Completes (.namespaceManagement slot data) s fun d =>
          (∀ x ∈ d.host.nss, x.nsid ≠ q.nsid.toNat) ∧ d.cmdAt slot.val = none) ∧
        (n.std = false → Completes (.namespaceManagement slot data) s fun d => Fails d 0 0x02))) ∧
    (∀ (data : List Byte) (n : NsSt), c.AdminReady slot.val k 0x15 → c.ns? q.nsid.toNat = some n → n.std = true → d10 % 16 ≤ 1 →
      let ids := ctrlListOf data
      ids ≠ [] → (∀ i ∈ ids, i < 16 ∧ n.attached.testBit i ≠ (d10 % 16 == 0)) →
      Completes (.namespaceAttachment slot data) s fun d =>
        d.cmdAt slot.val = none ∧ ∃ n', d.ns? q.nsid.toNat = some n' ∧
          ∀ i, n'.attached.testBit i = if i ∈ ids then (d10 % 16 == 0) else n.attached.testBit i) ∧
    (c.AdminReady slot.val k 0x11 →
      let len := (d10 + 1) * 4
      let o := v * 4
      let ps := (List.range (len / 4096)).map (o / 4096 + ·)
      (len % 4096 ≠ 0 ∨ o % 4096 ≠ 0 ∨ 2 ^ 23 < o + len → Completes (.firmwareImageDownload slot) s fun d => Fails d 0 0x02) ∧
      (len % 4096 = 0 → o % 4096 = 0 → o + len ≤ 2 ^ 23 →
        ((∃ p ∈ ps, p ∈ c.host.download.pieces) → Completes (.firmwareImageDownload slot) s fun d => Fails d 1 0x14) ∧
        ((∀ p ∈ ps, p ∉ c.host.download.pieces) → Completes (.firmwareImageDownload slot) s fun d =>
          Ok d ∧ d.host.download.pieces = c.host.download.pieces ++ ps ∧ c.SameBut d [.reg, .host]))) ∧
    (∀ img : ImageSlot, c.AdminReady slot.val k 0x10 → d10 % 8 ≤ 2 → c.runningSlot ≤ 1 → c.host.download.pieces ≠ [] →
      let act := slice 3 3 d10
      let n := if d10 % 8 = 0 then 1 - c.runningSlot else d10 % 8 - 1
      (act ≤ 1 → img.ok = true → Completes (.firmwareCommit slot img) s fun d =>
        Ok d ∧ d.imageSlot n = { img with seq := if act = 0 then 0 else max c.rs.slotA.seq c.rs.slotB.seq + 1 } ∧
        d.imageSlot (1 - n) = c.imageSlot (1 - n) ∧ d.host.download.pieces = [] ∧ c.SameBut d [.reg, .host, .rs]) ∧
      (act ≤ 1 → img.ok = false → Completes (.firmwareCommit slot img) s fun d => Fails d 1 0x07) ∧
      (act = 3 → n = c.runningSlot → Completes (.firmwareCommit slot img) s fun d => Fails d 1 0x06) ∧
      (act = 3 → n ≠ c.runningSlot → c.activeLately = true → Completes (.firmwareCommit slot img) s fun d => Fails d 1 0x13) ∧
      (act = 3 → n ≠ c.runningSlot → c.activeLately = false → img.ok = true → Completes (.firmwareCommit slot img) s fun d =>
        d.host.activation = some ⟨n, some slot.val, c.now, c.imageSlot n⟩ ∧ d.rd .sys Reg.SYS.BOOT_STAT_IMAGE = n ∧
        d.mgmt.resumed = false ∧ d.mgmt.restarting = true ∧ (d.imageSlot n).version = img.version)) ∧
    (∀ a : Activation, c.host.revert = false → c.host.activation = some a → c.mgmt.resumed = false → a.slot ≤ 1 →
      Completes .firmwareRevert s fun d =>
        d.host.revert = true ∧ d.host.activation = none ∧ d.rd .sys Reg.SYS.BOOT_STAT_IMAGE = 1 - a.slot ∧
        (d.imageSlot a.slot).ok = false) ∧
    (c.AdminReady slot.val k 0x1C →
      let m := d10 / 65536
      let nr := v % 65536
      let x := c.ctl m
      (k.ctrl ≠ 0 → Completes (.virtualizationManagement slot) s fun d => Fails d 0 0x01) ∧
      (k.ctrl = 0 → m ≠ 0 → m ≤ 15 →
        (d10 % 16 = 8 → slice 8 3 d10 = 0 → x.online = false → nr ≤ c.unassigned (·.vq) + x.vq →
          Completes (.virtualizationManagement slot) s fun d => Dw0 d nr ∧ d.ctl m = { x with vq := nr } ∧ c.SameBut d [.reg, .host]) ∧
        (d10 % 16 = 8 → slice 8 3 d10 = 1 → x.online = false → nr ≤ c.unassigned (·.vi) + x.vi →
          Completes (.virtualizationManagement slot) s fun d => Dw0 d nr ∧ d.ctl m = { x with vi := nr } ∧ c.SameBut d [.reg, .host]) ∧
        (d10 % 16 = 9 → 2 ≤ x.vq → 1 ≤ x.vi → Completes (.virtualizationManagement slot) s fun d =>
          Ok d ∧ d.ctl m = { x with online := true } ∧ c.SameBut d [.reg, .host]) ∧
        (d10 % 16 = 7 → Completes (.virtualizationManagement slot) s fun d =>
          (d.ctl m).online = false ∧ (d.ctl m).en = false ∧ (d.ctl m).vq = 0 ∧ (d.ctl m).vi = 0 ∧ c.SameBut d [.reg, .host]))) ∧
    (∀ n : NsSt, c.ns? q.nsid.toNat = some n →
      (c.AdminReady slot.val k 0x80 → n.fpi = none → d10 % 16 ≤ 2 → k.ses ≤ 2 → (n.std = true → k.ses ≠ 1) → slice 5 3 d10 = 0 →
        c.sluice.batches = [] → (∀ e ∈ c.host.slots, e.2.sq ≠ 0 → e.2.sqe.nsid ≠ q.nsid) →
        Completes (.formatNvm slot false) s fun d =>
          d.cmdAt slot.val = some { k with begun := true, phase := .firmware, since := c.now } ∧
          d.ns? n.nsid = some { n with fpi := some 100 } ∧ d.rs = { c.rs with formats := c.rs.formats ++ [(n.nsid, k.ses)] } ∧
          c.SameBut d [.host, .rs]) ∧
      (c.cmdAt slot.val = some k → k.phase = .firmware → k.sq = 0 → q.opc = 0x80 → c.mgmt.resumed = true → n.zones = [] →
        Completes (.formatNvm slot false) s fun d =>
          d.cmdAt slot.val = none ∧ (∃ n', d.ns? n.nsid = some n' ∧ n'.fpi = none ∧ n'.lbaf = d10 % 16 ∧ n'.dps = slice 5 4 d10 ∧ n'.extLba = bit d10 4 ∧
            n'.keyTag = n.keyTag + (if k.ses = 2 then 1 else 0) ∧ n'.size = n.size ∧ (k.ses ≠ 2 → n'.key = n.key)) ∧
          (n.std = false → ∀ e ∈ d.rs.maint, e.1 / 2 ^ 22 ≠ n.nsid) ∧ ∀ f ∈ d.rs.formats, f.1 ≠ n.nsid)) ∧
    (c.AdminReady slot.val k 0x84 →
      (d10 % 8 = 4 → (∀ e ∈ c.host.slots, e.2.phase ≠ .mount) → Completes (.sanitize slot) s fun d =>
        d.cmdAt slot.val = some { k with begun := true, phase := .firmware, since := c.now } ∧ d.host.sanWait = true ∧
        d.rs.san.action = 4 ∧ c.SameBut d [.host, .rs]) ∧
      (d10 % 8 = 0 ∨ d10 % 8 = 2 ∨ 4 < d10 % 8 → Completes (.sanitize slot) s fun d => Fails d 0 0x02)) ∧
    (∀ i : Instr, c.rs.san.action = 4 → c.mgmt.resumed = true → (∀ n ∈ c.host.nss, n.zones = []) →
      (c.host.nss.map (·.nsid)).Pairwise (· ≠ ·) →
      (i = .sanitize slot ∧ c.cmdAt slot.val = some k ∧ k.phase = .firmware ∧ k.sq = 0 ∧ q.opc = 0x84 ∧
          c.sanitizeHeld slot.val = false) ∨
        (i = .sanitizeResume ∧ c.rs.san.status = 2 ∧ c.rs.san.erased = false ∧ c.rs.mounted = true) →
      Completes i s fun d =>
        d.rs.san.status = 1 ∧ d.rs.san.erased = true ∧ d.rs.maint = [] ∧ d.lib.cache = [] ∧ d.log.lost = [] ∧
        d.host.nss.map (·.keyTag) = c.host.nss.map (·.keyTag + 1) ∧
        (i = .sanitize slot → d.host.sanWait = false ∧ d.cmdAt slot.val = none)) ∧
    (∀ data : List Byte, c.AdminReady slot.val k 0xC0 → k.ctrl = 0 →
      let first := d10 % 2048
      let m := v % 256 + 1
      m ≤ 128 → first + m ≤ 1032 → Completes (.libraryGeometryWrite slot data) s fun d =>
        Ok d ∧ (∀ i, i < m → assocGet (first + i) d.rs.geometry = some (geometryEntry (data.drop (32 * i)))) ∧
        (∀ j, j < first ∨ first + m ≤ j → assocGet j d.rs.geometry = assocGet j c.rs.geometry) ∧ c.SameBut d [.reg, .host, .rs]) ∧
    (∀ (h : Port) (b : BeamNo), c.AdminReady slot.val k 0xC1 → k.ctrl = 0 → unitOf 16 0 (slice 8 4 d10) = some h →
      unitOf 5 0 (slice 12 3 d10) = some b → c.assay.cal.wf = true →
      let item := d10 % 4
      let x := sext 16 (v % 65536)
      item ≠ 3 → d10.testBit 2 = true ∨ slice 3 3 d10 ≤ 5 → (item = 0 → -2048 ≤ x ∧ x ≤ 2047) → (item = 2 → -3 ≤ x ∧ x ≤ 3) →
      Completes (.calibrationItemWrite slot) s fun d =>
        Ok d ∧ (∀ j ∈ (if d10.testBit 2 then List.range 6 else [slice 3 3 d10]),
          d.calWord j h b (if item = 0 then 257 else if item = 1 then 259 else 258) =
            (if item = 0 then toBits 12 x else if item = 2 then toBits 8 x else v % 65536) ∧
          d.calFlag j h b (if item = 0 then 202 else if item = 1 then 204 else 203) = true) ∧
        c.SameBut d [.reg, .host, .assay]) ∧
    (∀ n : NsSt, c.ns? q.nsid.toNat = some n → n.std = true →
      let z := Sqe.slba q / zoneSize
      let x := n.zone z
      (c.AdminReady slot.val k 0xC2 → k.ctrl = 0 → Sqe.slba q % zoneSize = 0 → Sqe.slba q < n.size → x.moving = none →
        (x.st ≠ .full → Completes (.zoneMigrate slot) s fun d => Fails d 0 0x02) ∧
        (x.st = .full → c.sluice.batches = [] → x.bind.isSome = true →
          (∃ p ∈ c.lib.polders, p.nsid = n.nsid ∧ p.recording = true ∧ p.nextZone < 7450) → Completes (.zoneMigrate slot) s fun d =>
            d.cmdAt slot.val = some { k with begun := true, phase := .firmware, since := c.now } ∧
            (d.zone n.nsid z).moving.isSome = true ∧ (d.zone n.nsid z).bind = x.bind)) ∧
      (∀ to' old, c.cmdAt slot.val = some k → k.phase = .firmware → k.sq = 0 → q.opc = 0xC2 → k.origin ≠ 1 → k.ctrl < 16 →
        c.mgmt.resumed = true → x.st ≠ .empty → x.moving = some to' → x.bind = some old →
        (∀ p, c.polder? to'.1 = some p → ∀ r ∈ p.rows, r.zone ≠ to'.2) → Completes (.zoneMigrate slot) s fun d =>
          Ok d ∧ (d.zone n.nsid z).bind = some to' ∧ (d.zone n.nsid z).moving = none))

/-- A free spindle is granted the best request; where it holds a disc, its unmount is requested too. The first step of
a mount takes a disc that stands in its slot to an empty spindle at rest: its record moves, a move begins, PICKER
shows it and the picker axes in FOLLOW get the slot's targets; a grip that stalls within GRIP_WIN holds it, another
finds none and the disc is missing; on the station the record names the spindle, counts the mount and the move ends. A
disc whose pressed records name its sides and answer to its inventory record makes the spindle ready; an unreadable or
inverted one is marked and asked away. An unmount goes the same way back. A picker axis that is lost ends the move
with FAILED. Recovery with a disc in the grip puts it back into its slot. -/
def Obligations.PickerMovesDiscs : Prop :=
  ∀ (s : State) (n : Spin), s.chip.Interlocked →
    let c := s.chip
    let st := n.val
    (c.islandUp .polder = true → c.needsOf = [] →
      (c.bestReq n = none → Completes (.spindleRequest n) s fun d => c.SameBut d []) ∧
      (∀ r, c.bestReq n = some r → (∀ k, c.heldBy n = some k → r.cls < k) → c.mgmt.resumed = true → c.inUnit n = false →
        c.mustStay n = false → Completes (.spindleRequest n) s fun d =>
          { r with spin := n.val } ∈ d.lib.reqs ∧
          (∀ x ∈ d.lib.reqs, x.kind = 0 → x.spin = n.val → x.peer = none → x = { r with spin := n.val }) ∧
          (∀ dsc, c.discOn n = some dsc → SpinReq.mk r.cls 1 n.val dsc c.now none ∈ d.lib.reqs) ∧ c.SameBut d [.reg, .lib])) ∧
    (c.linkUp = false →
      (∀ r, c.ownReq n 0 = some r → c.pickerReady = true → (c.inv r.disc).state = 1 → c.slotExists r.disc = true →
        c.discOn n = none → c.opusParked n = true → c.spinIdle n = true → Completes (.discMount n false .take) s fun d =>
          d.lib.move = some ⟨r.disc, 2 ^ 20 + st, 1, st, false⟩ ∧ d.inv r.disc = { c.inv r.disc with state := 2 } ∧
          d.rd .inv Reg.INV.INV_STAT_PICKER = 2 ∧ c.SameBut d [.reg, .lib, .axes] ∧
          let t := pickTargets (c.geometryAt r.disc) r.disc
          ∀ e ∈ [((16 : Axis), t.1), (17, t.2.1), (19, t.2.2.1), (18, t.2.2.2.2)],
            c.axState e.1 = 4 → (d.ax e.1).targetIn = some (sext 32 (toBits 32 e.2))) ∧
      (∀ r, c.ownReq n 1 = some r → c.pickerReady = true → c.discOn n = some r.disc → c.mayUnmount n r.disc = true →
        Completes (.discUnmount n false .take) s fun d =>
          d.lib.move = some ⟨r.disc, r.disc, 2, st, false⟩ ∧ d.inv r.disc = { c.inv r.disc with state := 2 } ∧
          bit d.lib.ready st = false ∧ d.rd .inv Reg.INV.INV_STAT_PICKER = 2 ∧ c.SameBut d [.reg, .lib, .heads, .axes]) ∧
      (∀ m, c.lib.move = some m → m.station = st →
        (m.kind = 1 → m.holding = false → ∀ off : Int,
          (c.gripHeld off = true → Completes (.discMount n false (.grip off)) s fun d =>
            d.lib = { c.lib with move := some { m with holding := true } } ∧ d.rd .inv Reg.INV.INV_STAT_PICKER = 3 ∧
            c.SameBut d [.reg, .lib, .axes]) ∧
          (c.gripHeld off = false → Completes (.discMount n false (.grip off)) s fun d =>
            d.lib.move = none ∧ (d.inv m.disc).state = 0 ∧ d.rd .inv Reg.INV.PICK_LAST_RESULT = 2)) ∧
        (m.kind = 1 → m.holding = true → Completes (.discMount n false .place) s fun d =>
          d.lib.move = none ∧ d.discOn n = some m.disc ∧ bit d.lib.ready st = false ∧ (d.inv m.disc).state = 3 ∧
          (d.inv m.disc).spindle = st ∧ (d.inv m.disc).mounts = min (2 ^ 32 - 1) ((c.inv m.disc).mounts + 1) ∧
          d.rd .inv Reg.INV.PICK_LAST_KIND = 1 ∧ d.rd .inv Reg.INV.PICK_LAST_RESULT = 1 ∧
          d.rd .inv Reg.INV.PICK_COUNT_MOVES =
            min (c.rd .inv Reg.INV.PICK_COUNT_MOVES + 1) (2 ^ Reg.INV.PICK_COUNT_MOVES.w - 1)) ∧
        (m.kind = 2 → m.holding = false → ∀ off : Int, c.gripHeld off = true → Completes (.discUnmount n false (.grip off)) s fun d =>
          d.lib.move = some { m with holding := true } ∧ d.discOn n = none ∧ d.rd .inv Reg.INV.INV_STAT_PICKER = 3 ∧
          c.SameBut d [.reg, .lib, .axes]) ∧
        (m.kind = 2 → m.holding = true → Completes (.discUnmount n false .place) s fun d =>
          d.lib.move = none ∧ (d.inv m.disc).spindle = 0xFF ∧
          (d.inv m.disc).state = (if (c.inv m.disc).media = 3 ∨ (c.inv m.disc).media = 4 then 4 else 1) ∧
          d.rd .inv Reg.INV.PICK_LAST_KIND = 2 ∧ d.rd .inv Reg.INV.PICK_LAST_RESULT = 1)) ∧
      (∀ m, c.lib.move = some m → (∃ a ∈ pickerAxes, c.axisGone a = true) → c.pageUp .inv = true → Completes .pickFail s fun d =>
        d.lib = { c.lib with move := none } ∧ d.rd .inv Reg.INV.PICK_LAST_RESULT = 3 ∧
        d.rd .inv Reg.INV.PICK_COUNT_FAILS = min (c.rd .inv Reg.INV.PICK_COUNT_FAILS + 1) (2 ^ Reg.INV.PICK_COUNT_FAILS.w - 1) ∧
        d.x16 = c.x16 ++ [⟨0x1A, 1, 2, 0, 0x1A⟩] ∧ c.SameBut d [.reg, .lib, .x16])) ∧
    (∀ (dsc : Nat) (f : DiscFound), c.discOn n = some dsc → bit c.lib.ready st = false → c.spState n = 5 → (c.inv dsc).media ≤ 2 →
      let unreadable := pressedOf f.upper.pressed = none ∨ pressedOf f.lower.pressed = none
      (∀ r r', pressedOf f.upper.pressed = some r → pressedOf f.lower.pressed = some r' → r.side = 0 → r'.side = 1 →
        (c.inv dsc).discId = r.discId → r.discId ≠ 0 →
        Completes (.discMount n false (.check f)) s fun d => bit d.lib.ready st = true ∧ d.discOn n = some dsc) ∧
      (unreadable ∨ (∃ r r', pressedOf f.upper.pressed = some r ∧ pressedOf f.lower.pressed = some r' ∧ (r.side ≠ 0 ∨ r'.side ≠ 1)) →
        Completes (.discMount n false (.check f)) s fun d =>
        (unreadable → (d.inv dsc).media = 3) ∧ (¬ unreadable → (d.inv dsc).media = 4) ∧ (∃ t, SpinReq.mk 0 1 st dsc t none ∈ d.lib.reqs) ∧
        bit d.lib.ready st = false)) ∧
    (∀ dsc r, c.lib.inv.find? (fun e => e.2.state == 2) = some (dsc, r) → c.pickerReady = true → ∀ off : Int,
      (c.gripHeld off = true → Completes (.pickerRecovery off) s fun d =>
        (d.inv dsc).state = (if r.media = 3 ∨ r.media = 4 then 4 else 1) ∧ (d.inv dsc).spindle = 0xFF ∧
        (∀ i : Spin, d.discOn i ≠ some dsc) ∧ d.lib.move = none) ∧
      (c.gripHeld off = false → Completes (.pickerRecovery off) s fun d =>
        d.inv dsc = { c.inv dsc with state := if (c.inv dsc).spindle = 0xFF then 1 else 3 } ∧
        d.rd .inv Reg.INV.INV_STAT_PICKER = 1 ∧ c.SameBut d [.reg, .lib]))

/-- A Slot Map records the slots consumed on a layer since the last one in both control zones with the next CSN and
RSNs of its own. A full layer is closed with the counts of its ingots, and no port writes it any more; where nothing
asks for it, nothing is closed. A finalisation with its cause present records its reason, once; one that power loss
interrupts leaves its slot incomplete and its record to be appended. A burn that reads as burned records result 0 and
leaves the list; one with slots that do not is burned once more and then records failure, which fails a sanitize. A
beam of DEGRADE class is retired in BEAM_MAP and logged; a port below two live beams is retired, reported and logged,
and its disc is asked away. -/
def Obligations.SurfacesBurnsAndRetiredParts : Prop :=
  ∀ s : State, s.chip.Interlocked →
    let c := s.chip
    (∀ (h : Port) (dsc : Nat), c.discAt h = some dsc →
      let side := h.val % 2
      let c1 := c.syncSurf h
      let t := c1.surf dsc side
      t = { c.surf dsc side with top := (c.hd h).topSlot, nextRsn := max (c.surf dsc side).nextRsn (c.hd h).nextRsn } ∧
      (∀ l : Fin 8, let out := (c.outstanding dsc side).filter (·.layer == l.val)
        let parts := max 1 ((8 * out.length + 65471) / 65472)
        (out = [] → t.finalised = none → 16 < t.blankCtrl 0 → l.val = 0 ∨ 8 < t.blankCtrl l.val →
          Completes (.slotMapAppend h l) s fun d => d.surf dsc side = t ∧ c.SameBut d [.lib]) ∧
        (out ≠ [] → t.testLog = [] → t.finalised = none → 16 + parts < t.blankCtrl 0 → l.val = 0 ∨ 8 + parts < t.blankCtrl l.val →
          Completes (.slotMapAppend h l) s fun d =>
            (d.surf dsc side).consumed = t.consumed ++ out ∧ (d.surf dsc side).csn = t.csn + 1 ∧
            (d.surf dsc side).blankCtrl l.val = t.blankCtrl l.val - parts ∧ (d.surf dsc side).nextRsn = t.nextRsn + 2 * parts ∧
            (∀ zone : Bool, ∃ x ∈ (d.surf dsc side).ctrl, x.layer = l.val ∧ x.leading = zone ∧ x.ix = t.used l.val zone ∧ x.typ = 3 ∧
              x.csn = t.csn + 1 ∧ x.part = 0 ∧ x.parts = parts) ∧
            (d.outstanding dsc side).filter (·.layer == l.val) = [] ∧ c.SameBut d [.lib, .consumed, .heads]) ∧
        (c1.layerFull dsc side l.val = true → t.finalised = none → l.val ∉ t.closed → out = [] → t.testLog = [] → 17 < t.blankCtrl 0 →
          Completes (.layerClose h l) s fun d =>
          (d.surf dsc side).closed = t.closed ++ [l.val] ∧ (d.surf dsc side).csn = t.csn + 1 ∧
          (∀ j, j < 4 → assocGet (l.val * 4 + j) (d.surf dsc side).ingots = some (c1.countOn dsc side l.val j)) ∧
          (∀ g : Port, c.discAt g = some dsc → g.val % 2 = side → (d.hd g).layerOpen ≠ some l.val) ∧
          ((∀ g : Port, (c.hd g).layerOpen ≠ some l.val) → c.SameBut d [.lib, .heads])) ∧
        (c1.layerFull dsc side l.val = false → l.val = 0 ∨ 8 < t.blankCtrl l.val → Completes (.layerClose h l) s fun d =>
          d.surf dsc side = t ∧ c.SameBut d [.lib])) ∧
      (∀ r : Fin 8, c1.finaliseCause dsc side r.val = true → t.plan = [] →
        (t.finalised = none → Completes (.surfaceFinalise h r none) s fun d => (d.surf dsc side).finalised = some r.val) ∧
        (t.finalised.isSome = true → r.val ≠ 2 → r.val ≠ 3 → Completes (.surfaceFinalise h r none) s fun d =>
          d.surf dsc side = t ∧ c.SameBut d [.lib]) ∧
        (t.finalised = none → r.val ≠ 2 → r.val ≠ 3 → 0 < t.blankCtrl 0 → (∀ x ∈ t.ctrl, x.csn ≤ t.csn) → t.testLog = [] →
          t.openLayer = none → c.outstanding dsc side = [] → Completes (.surfaceFinalise h r (some 0)) s fun d =>
            (d.surf dsc side).finalised = none ∧ (d.surf dsc side).used 0 true = t.used 0 true + 1 ∧
            (∃ x, (d.surf dsc side).plan = [x] ∧ x.typ = 7 ∧ x.csn = t.csn + 1) ∧ c.SameBut d [.lib, .heads]))) ∧
    (∀ (n : Spin) (side : Fin 2) (l : Fin 8) (dsc : Nat) (b : BurnSt), c.discOn n = some dsc → bit c.lib.ready n.val = true →
      c.lib.burns.find? (fun b => b.disc == dsc && b.side == side.val && b.layer == l.val) = some b →
      (c.surf dsc side.val).finalised.isSome = true ∨ 18 < (c.surf dsc side.val).blankCtrl 0 →
      let res := fun (r : Nat) => (c.surf dsc side.val).burns ++ [(l.val, b.first, b.last, r)]
      let left := fun (bad : List (Nat × Nat)) => bad.filter fun x =>
        x.1 < 4 && b.first ≤ x.2 && x.2 ≤ b.last && (b.step < 2 || b.bad.contains x)
      (b.sanitize = false →
        (Completes (.burn n side l []) s fun d =>
          (d.surf dsc side.val).burns = res 0 ∧ d.lib.burns = c.lib.burns.erase b ∧
          (d.surf dsc side.val).csn = (c.surf dsc side.val).csn + (if b.step = 0 then 2 else 1) ∧ c.SameBut d [.lib, .heads]) ∧
        (2 ≤ b.step → ∀ bad, left bad ≠ [] → bad.length ≤ 8000 → Completes (.burn n side l bad) s fun d =>
          (d.surf dsc side.val).burns = res 1 ∧ d.lib.burns = c.lib.burns.erase b ∧ c.SameBut d [.lib, .heads])) ∧
      (b.step < 2 → ∀ bad, left bad ≠ [] → Completes (.burn n side l bad) s fun d =>
        (d.surf dsc side.val).burns = (c.surf dsc side.val).burns ∧ { b with step := 2, bad := left bad } ∈ d.lib.burns ∧
        d.lib.burns.length = c.lib.burns.length ∧ c.SameBut d [.lib, .heads]) ∧
      (b.sanitize = true →
        (Completes (.burn n side l []) s fun d =>
          (d.surf dsc side.val).burns = res 0 ∧ d.rs.san.done = c.rs.san.done + 1 ∧
          d.rs.san.status = (if c.rs.san.status = 2 ∧ c.rs.san.total ≤ c.rs.san.done + 1 then 1 else c.rs.san.status) ∧
          c.SameBut d [.lib, .rs, .heads]) ∧
        (2 ≤ b.step → ∀ bad, left bad ≠ [] → bad.length ≤ 8000 → Completes (.burn n side l bad) s fun d =>
          d.rs.san.status = 3 ∧ d.rs.san.failMode = true ∧ c.SameBut d [.lib, .rs, .heads]))) ∧
    (∀ (h : Port) (b : BeamNo), c.mgmt.resumed = true → c.pageUp (.head h) = true → 1 ≤ (c.col.cntOf (srcBase (.beam h b) + 1)).last →
      bit (c.rd (.head h) Reg.HEAD.BEAM_MAP_RETIRED) b.val = false → Completes (.beamRetire h b) s fun d =>
        bit (d.rd (.head h) Reg.HEAD.BEAM_MAP_RETIRED) b.val = true ∧
        (∀ b' : BeamNo, b' ≠ b → bit (d.rd (.head h) Reg.HEAD.BEAM_MAP_RETIRED) b'.val =
          bit (c.rd (.head h) Reg.HEAD.BEAM_MAP_RETIRED) b'.val) ∧
        ∃ e l, d.log.events = e :: l ∧ e.code = 0x0001 ∧ e.unit = h.val) ∧
    (∀ h : Port, bit c.lib.retiredPorts h.val = false → (allBeams.filter fun b => c.liveBeam h b.val).length < 2 →
      (c.discAt h = none → Completes (.opuRetired h) s fun d =>
        bit d.lib.retiredPorts h.val = true ∧ (c.pageUp .polder = true → ⟨0x18, 2, 1, 0, 0x19⟩ ∈ d.x16) ∧
        ∃ e l, d.log.events = e :: l ∧ e.code = 0x0002 ∧ e.unit = h.val) ∧
      (∀ dsc, c.discAt h = some dsc → Completes (.opuRetired h) s fun d =>
        bit d.lib.retiredPorts h.val = true ∧ (∃ t, SpinReq.mk 2 1 h.spin.val dsc t none ∈ d.lib.reqs) ∧
        ∃ t, SpinReq.mk 2 0 8 dsc t none ∈ d.lib.reqs))

/-- An item of X8 leaves in its beam's order; an overflow of X1 to X7, X16 or X21 discards the item and is reported
and counted as a deadline miss of the receiver; an item to an absent island is discarded and reported. A position with
1 to 4 erasures and no member lagging is sent for its check to a beam that works on the polder; the result comes with
that beam's next item: the position is decoded into the stripe buffer and counted in RECON, or with a mismatch is
unrecoverable, reported and walked at once. 5 erasures wait for a retry, which drops the erased sectors once. A lost
member lags from its first missing row and the polder is DEGRADED; completion sets its target and records row after
row. A walk unit moves on by one row. Repairs take up to 12 ingots. A finished polder closes with its directory, which
is read back. -/
def Obligations.PoldersRecoverCompleteAndWalk : Prop :=
  ∀ s : State, s.chip.Interlocked →
    let c := s.chip
    let cnt : Page → Fld → Nat := fun p f => min (c.rd p f + 1) (2 ^ f.w - 1)
    (∀ (x : Fin 22) (i : Island) (u : Fin 80) (v : Bool), let no := x.val + 1
      let held : Chip → Prop := fun d =>
        (no ∉ [1, 3, 4, 5, 6, 16] → c.SameBut d [.reg, .x16]) ∧
        (no = 3 → d.sets.get (Fin.ofNat 16 u.val) = (c.sets.get (Fin.ofNat 16 u.val)).drop 1) ∧
        (∀ h, no = 5 → i = .head h → (d.bm h (Fin.ofNat 5 u.val)).stream = (c.bm h (Fin.ofNat 5 u.val)).stream.drop 1) ∧
        (∀ h b, no = 1 → i = .beam h b → (d.bm h b).ys = (c.bm h b).ys.drop 1)
      let rest := if no = 16 then c.x16.dropLast else c.x16
      (c.islandUp i = false → c.pageUp .sys = true → Completes (.crossingDelivery x i u v) s fun d =>
        d.x16 = rest ++ [⟨2, 1, 0, no, 0x010⟩] ∧ held d ∧ c.SameBut d [.x16, .sets, .beams, .heads, .spinDem]) ∧
      (c.islandUp i = true → v = true → no ≤ 7 ∨ no = 16 ∨ no = 21 → c.pageUp .sys = true →
        Completes (.crossingDelivery x i u v) s fun d =>
          d.x16 = rest ++ [⟨2, 2, 1, no, 0x010⟩] ∧ held d ∧ c.SameBut d [.reg, .x16, .sets, .beams, .heads, .spinDem] ∧
          ∀ p, islandPage u.val i = some p → d.rd p Reg.HDR.DL_MISS_COUNT = cnt p Reg.HDR.DL_MISS_COUNT) ∧
      (∀ n k, c.islandUp i = true → no = 8 → c.stripe.findIdx? (fun k => 5 * k.port + k.beam == u.val) = some n →
        c.stripe[n]? = some k →
        (k.checks = [] → Completes (.crossingDelivery x i u v) s fun d => d.stripe = c.stripe.eraseIdx n ∧
          (k.verify = true ∨ 16 ≤ k.sec → c.SameBut d [.stripe, .rqHost, .rqMgmt, .rqI3c])) ∧
        (∀ a p, k.verify = true ∨ 16 ≤ k.sec → k.checks = [a] → c.polder? a.polder = some p → a.q < 2 ^ 24 →
          let es := c.erasedOf p.id a.q a.sec
          c.waitingReads = [] → es ≠ [] → es.length ≤ 4 → Completes (.crossingDelivery x i u v) s fun d =>
            (a.bad = false → (∀ m ∈ es, m < 12 → (m, rsDecode es m (c.position p.id a.q a.sec)) ∈ d.position p.id a.q a.sec) ∧
              d.rd .polder Reg.POLDER.READ_STAT_RECON = cnt .polder Reg.POLDER.READ_STAT_RECON ∧
              c.SameBut d [.reg, .lib, .stripe, .rqHost, .rqMgmt, .rqI3c]) ∧
            (a.bad = true → d.rd .polder Reg.POLDER.READ_STAT_UNRECOVERED = cnt .polder Reg.POLDER.READ_STAT_UNRECOVERED ∧
              (∃ p', d.polder? p.id = some p' ∧ ∀ m ∈ es, m < 12 → (a.q, m * 16 + a.sec) ∈ p'.dead) ∧
              (p.id, a.q, 255) ∈ d.lib.walkNow ∧
              (c.pageUp .polder = true → ⟨0x17, 2, 2, 0, a.q⟩ ∈ d.x16))))) ∧
    (∀ (pid : BitVec 64) (q : BitVec 24) (sec : Fin 16) (p : Polder), c.islandUp .polder = true → c.polder? pid.toNat = some p →
      let es := c.erasedOf p.id q.toNat sec.val
      (∀ (h : Port) (b : BeamNo) (v : Bool), p.lag = [] → es.length ≤ 4 → (p.rowOf q.toNat).isSome = true →
        (c.mayCheck p h b = false → Completes (.stripeRowReconstruct pid q sec h b v) s fun d => c.SameBut d []) ∧
        (c.mayCheck p h b = true → Completes (.stripeRowReconstruct pid q sec h b v) s fun d =>
          ∃ bad, (d.bm h b).checks = (c.bm h b).checks ++ [⟨p.id, q.toNat, sec.val, bad⟩] ∧
            (bad = true ↔ (∃ m ∈ es, m < 12) ∧ (v = true ∨ (c.hallU (beamHall h b)).parity = true)) ∧
            c.SameBut d [.reg, .freeCt, .halls, .beams])) ∧
      (p.lag = [] → 4 < es.length → (p.id, q.toNat, sec.val) ∉ c.lib.retried → ∀ (h : Port) (b : BeamNo) (v : Bool),
        Completes (.stripeRowReconstruct pid q sec h b v) s fun d => c.SameBut d []) ∧
      ((p.id, q.toNat, sec.val) ∉ c.lib.retried → Completes (.erasureRetry pid q sec) s fun d =>
        d.lib.retried = c.lib.retried ++ [(p.id, q.toNat, sec.val)] ∧
        (∀ x, x ∈ d.lib.sectors ↔ x ∈ c.lib.sectors ∧
          ¬ (x.polder = p.id ∧ x.q = q.toNat ∧ x.sec = sec.val ∧ x.data = none)) ∧ c.SameBut d [.lib])) ∧
    (∀ (pid : BitVec 64) (p : Polder), c.polder? pid.toNat = some p →
      (∀ (m : Fin 16) (lost : Bool), c.islandUp .polder = true → p.st ≠ .retired → p.targets = [] → (∀ l ∈ p.lag, l.1 ≠ m.val) →
        Completes (.memberLost pid m lost) s fun d =>
          (∃ p', d.polder? p.id = some p' ∧ p'.st = .degraded ∧ p'.lag = p.lag ++
            [(m.val, match lost, p.discOf (m.val / 2) p.nextQ with
              | true, some x => p.firstRow x
              | _, _ => p.nextQ)]) ∧
          (c.pageUp .polder = true → ⟨0x18, 1, 1, 0, 0x19⟩ ∈ d.x16)) ∧
      (∀ t m f x, p.lagSince = some t → p.lag = [(m, f)] → p.targets = [] → p.st = .degraded → c.mgmt.resumed = true →
        c.rd .polder Reg.POLDER.POLDER_CTL_COMP_EN ≠ 0 → m < 16 → p.discOf (m / 2) p.nextQ = some x → (c.inv x).usable = true →
        f < p.nextQ → Completes (.completionStart pid) s fun d =>
          ∃ p', d.polder? p.id = some p' ∧ p'.st = .completing ∧ p'.targets = [⟨m, f, x⟩]) ∧
      (∀ (m : Fin 16) (t : Target), p.targets = [t] → t.member = m.val → c.rd .polder Reg.POLDER.POLDER_CTL_COMP_EN ≠ 0 →
        c.isMounted t.disc = true → t.next + 1 < p.nextQ → p.released? t.next = false → c.waitingReads = [] →
        ((List.range 16).filter fun k => k == m.val || c.memberLost p t.next k).length ≤ 4 →
        Completes (.completionRow pid m []) s fun d =>
          (∃ p', d.polder? p.id = some p' ∧ p'.targets = [{ t with next := t.next + 1 }]) ∧ (d.inv t.disc).lastRow = t.next ∧
          d.rd .polder Reg.POLDER.READ_STAT_RECON =
            min (c.rd .polder Reg.POLDER.READ_STAT_RECON + if m.val < 12 then 0 else 16) (2 ^ Reg.POLDER.READ_STAT_RECON.w - 1) ∧
          c.SameBut d [.reg, .lib]) ∧
      (p.st = .opened → p.rows = [] → c.mgmt.resumed = true → p.lag = [] → p.targets = [] →
        (∀ z ∈ p.zones, (c.zone p.nsid z.2).st.isActive = false) → Completes (.directoryWrite pid) s fun d =>
          let n := dirRows ((p.runs.map fun z => z.2.length).sum)
          ∃ p', d.polder? p.id = some p' ∧ p'.dir = some (p.nextQ, n) ∧ p'.nextQ = p.nextQ + n ∧ p'.recording = false ∧
            p'.dirLoaded = false ∧ p'.st = .closed ∧ p'.rows.length = n) ∧
      (p.dirLoaded = false → (∃ x ∈ c.discsOf p, c.isMounted x = true) → ∀ ok : Bool, Completes (.directoryLoad pid ok) s fun d =>
        (∃ p', d.polder? p.id = some p' ∧ p'.dirLoaded = true) ∧
        (ok = false → c.pageUp .polder = true → ⟨0x19, 2, 0, 0, 0x19⟩ ∈ d.x16))) ∧
    (∀ (n : Spin) (len pder : BitVec 32) (ma mb : BitVec 16) (x : Nat) (p : Polder), c.discOn n = some x →
      c.polder? (c.inv x).polder = some p →
      let r := c.inv x
      let q := if r.walkNext = 0xFFFFFFFF then p.firstRow x else r.walkNext
      (c.walkMay n = true → c.walkPolder.map (·.id) = some p.id → r.tWalked + c.walkPeriod < c.wall → p.released? q = false →
        q + 1 < p.nextQ → (∀ g ∈ p.segs.getD r.position [], p.firstRow x < g.first → q + 1 < g.first) →
        Completes (.dikeWalkUnit n len none ma mb pder []) s fun d =>
          (d.inv x).walkNext = q + 1 ∧ (d.inv x).nowRows = r.nowRows + 1 ∧ (d.inv x).nowMarginA = min r.nowMarginA ma.toNat ∧
          (d.inv x).nowMarginB = min r.nowMarginB mb.toNat ∧ (d.inv x).nowPder = max r.nowPder pder.toNat ∧
          (d.inv x).nowWeak = r.nowWeak ∧ (c.now, len.toNat, n.val) ∈ d.lib.walkUse) ∧
      (∀ (v : BitVec 24) (w : WalkSector), r.position < 8 → c.weakSector w.check = true →
        (∃ e ∈ c.lib.walkNow, e.1 = p.id ∧ e.2.1 = v.toNat ∧ bit e.2.2 r.position = true) →
        Completes (.dikeWalkUnit n len (some v) ma mb pder [w]) s fun d =>
          d.rd .polder Reg.POLDER.WALK_STAT_WEAK = cnt .polder Reg.POLDER.WALK_STAT_WEAK ∧ (d.inv x).nowWeak = r.nowWeak + 1 ∧
          (p.id, v.toNat, 2 * r.position + w.side.val, 2 ^ w.sec.val) ∈ d.lib.weakFound)) ∧
    (c.lib.toRepair ≠ [] → (∃ p ∈ c.lib.polders, p.st = .opened ∧ c.takesRows p = true ∧ p.repairRows < 2048) →
      c.rd .polder Reg.POLDER.POLDER_CTL_REPAIR_EN ≠ 0 → c.rd .sluice Reg.SLUICE.SLUICE_STAT_SHORT = 0 → c.mgmt.resumed = true →
      Completes .ingotRepair s fun d =>
        d.lib.toRepair = c.lib.toRepair.drop 12 ∧
        ∃ p ∈ c.lib.polders, p.st = .opened ∧ d.lib.repairing = c.lib.repairing ++ [(p.id, p.nextQ, c.lib.toRepair.take 12)])

/-- Trained lanes send HELLO; a HELLO of version 1.0 with the other role brings the link up. A frame out of order, or
one that fails its check, is counted, reported and answered with a NAK; a NAK and a timeout send the unacknowledged
frames again. HEARTBEAT is sent every 100 us, noted, and counted where it is missed. Loss of the lanes records t_L,
makes a holder SPLIT_HOLDER and ends forwarded commands. Mirrored batches are kept and acknowledged, released and
returned, and a returned one replaces its data; their MIRROR_ACK answers the command. Table updates, picker requests
and their results, forwarded commands, their data and completions take effect here. -/
def Obligations.DaxlinkCarriesThePair : Prop :=
  ∀ s : State, s.chip.Interlocked →
    let c := s.chip
    let cnt : Fld → Nat := fun f => min (c.rd .peer f + 1) (2 ^ f.w - 1)
    let Io : Chip → List Part → Prop := fun d l => c.SameBut d (l ++ [.freeCt, .reg, .halls, .peer])
    (∀ n : Fin 3, c.pairing = true → c.peer.lanes = 0 → Completes (.daxLinkTrained n) s fun d =>
      d.peer.lanes = 2 ^ n.val ∧ d.rd .peer Reg.PEER.PAIR_STAT_LANES = 2 ^ n.val ∧ d.peer.helloOut = true ∧ d.peer.helloIn = false ∧
      d.Sends false 0x01 [Config.serial.toNat, c.role, 0x0100, 2 ^ n.val, c.lowestSeq] ∧
      (n ≠ 2 → c.pageUp .peer = true → ⟨0x21, 2, 0, 0, 0x1C⟩ ∈ d.x16)) ∧
    (c.pairing = true → c.linkUp = false → c.pageUp .peer = true → Completes .daxTrainingFail s fun d =>
      d.x16 = c.x16 ++ [⟨0x21, 1, 1, 2, 0x1C⟩] ∧ d.peer = { c.peer with trainAt := d.now } ∧ c.SameBut d [.tb, .peer, .x16]) ∧
    (∀ (m : Bool) (h : DaxHead) (l : List Nat) (lo hi : Nat) (i : Instr), c.pairing = true → c.peer.lanes ≠ 0 →
      c.pageUp .peer = true → i = .daxFrameDrop m ∨ (m = false ∧ h.seq ≠ c.peer.ctl.rx ∧
        i ∈ [.daxRelease h l, .releaseAck h l, .recoverReq h lo hi]) →
      Completes i s fun d =>
        d.rd .peer Reg.PEER.DAX_ERR_CRC_ERR = cnt Reg.PEER.DAX_ERR_CRC_ERR ∧ d.x16 = c.x16 ++ [⟨0x21, 3, 0, 0, 0x1C⟩] ∧
        d.Sends false 0x03 [b2n m, (c.chan m).rx] ∧ d.peer.ctl.rx = c.peer.ctl.rx ∧ d.peer.mir.rx = c.peer.mir.rx ∧ Io d [.x16]) ∧
    (∀ (h : DaxHead) (m : Bool), c.Accepts false h → c.linkUp = true →
      (∀ f ∈ (c.chan m).unacked, f.seq ≠ if m then h.ackMir else h.ackCtl) → (c.chan m).waiting = [] →
      Completes (.daxNak h m) s fun d =>
        d.rd .peer Reg.PEER.DAX_ERR_RETRANS =
          min (c.rd .peer Reg.PEER.DAX_ERR_RETRANS + (c.chan m).unacked.length) (2 ^ Reg.PEER.DAX_ERR_RETRANS.w - 1) ∧
        (d.chan m).unacked = (c.chan m).unacked ∧ d.peer.ctl.rx = (c.peer.ctl.rx + 1) % 2 ^ 32 ∧ Io d []) ∧
    (∀ m : Bool, c.pairing = true → (c.chan m).unacked ≠ [] → Completes (.daxResendTimeout m) s fun d =>
      d.rd .peer Reg.PEER.DAX_ERR_RETRANS =
        min (c.rd .peer Reg.PEER.DAX_ERR_RETRANS + (c.chan m).unacked.length) (2 ^ Reg.PEER.DAX_ERR_RETRANS.w - 1) ∧
      (d.chan m).unacked = (c.chan m).unacked ∧ (d.chan m).sentAt = d.now ∧ Io d [.tb]) ∧
    (∀ (h : DaxHead) (m : Hello), c.Accepts false h → c.linkUp = false → c.peer.helloIn = false →
      (m.version = 0x0100 → b2n m.role1 ≠ c.role → c.peer.helloOut = true → c.peer.ctl.unacked = [] → c.peer.ctl.waiting = [] →
        Completes (.daxHello h m) s fun d =>
          d.linkUp = true ∧ d.peer.join = 1 ∧ d.peer.mirror = c.peer.mirror.filter (fun e => decide (m.lowest ≤ e.1)) ∧
          d.rd .peer Reg.PEER.PARTNER_SN_LO_SN = m.serial.toNat % 2 ^ 32 ∧
          d.rd .peer Reg.PEER.PARTNER_SN_HI_SN = m.serial.toNat / 2 ^ 32 ∧
          (c.pairState ≠ 5 → c.pairState ≠ 0 → c.peer.takeover ≠ 1 → d.pairState = 1)) ∧
      (m.version ≠ 0x0100 ∨ b2n m.role1 = c.role → Completes (.daxHello h m) s fun d =>
        d.linkUp = false ∧ d.peer.helloIn = false ∧ d.pairState = c.pairState ∧ d.peer.mirror = c.peer.mirror)) ∧
    (∀ (h : DaxHead) (m : Heartbeat), c.Accepts false h → c.linkUp = true → c.pairState ≠ 2 → Completes (.daxHeartbeat h m) s fun d =>
      d.peer.hbGot = m.num ∧ d.peer.hbAt = c.now ∧ d.peer.pState = m.state.val ∧ d.peer.pOwn = m.own.val ∧
      (c.isHolder = false → leaseHolder m.lease.toNat = 2 - c.role → d.rd .peer Reg.PEER.PAIR_STAT_PICKER_OWN = 0) ∧ Io d []) ∧
    (c.pairing = true → c.peer.lanes ≠ 0 → Completes .heartbeatSend s fun d =>
      d.peer.hbSent = c.peer.hbSent + 1 ∧ d.peer.hbNext = c.peer.hbNext + us 100 ∧
      d.Sends false 0x02 [c.peer.hbSent + 1, c.pairState, c.lease, c.statusFlags, c.peer.hbGot, groupBits c.owns,
        groupBits fun g => c.peer.handback == some g] ∧ Io d [.tb]) ∧
    (c.linkUp = true → c.pairing = true → c.pageUp .peer = true →
      (Completes .heartbeatMiss s fun d =>
        d.rd .peer Reg.PEER.HB_STAT_MISSED = cnt Reg.PEER.HB_STAT_MISSED ∧ d.x16 = c.x16 ++ [⟨0x22, 1, 0, 0, 0x1C⟩] ∧
        c.SameBut d [.tb, .reg, .peer, .x16]) ∧
      (c.peer.lanes ≠ 0 → c.pairState ≠ 1 → Completes (.daxLinkLoss .lane) s fun d =>
        d.linkUp = false ∧ d.peer.lanes = 0 ∧ d.peer.tL = some c.now ∧ d.rd .peer Reg.PEER.PAIR_STAT_LANES = 0 ∧
        d.rd .peer Reg.PEER.TL_TB_LO_TB = c.now % 2 ^ 32 ∧ ⟨0x21, 1, 1, 0, 0x1C⟩ ∈ d.x16 ∧
        d.pairState = (if c.pairState = 5 ∨ c.pairState = 0 then c.pairState else if c.isHolder then 3 else c.pairState) ∧
        ∀ (slot : Nat) (k : Cmd), c.cmdAt slot = some k → k.phase = .forwarded → d.cmdAt slot = none)) ∧
    (∀ h : DaxHead, c.linkUp = true → c.Accepts true h →
      (∀ b : BatchCopy, assocGet b.seq c.peer.mirror = none → b.data.length = b.nlb → Completes (.mirrorData h false b) s fun d =>
        assocGet b.seq d.peer.mirror = some b ∧ d.Sends false 0x11 [b.seq, 0] ∧ Io d []) ∧
      (∀ (b : BatchCopy) (x : Batch), c.sluice.batches.find? (fun x => x.seq == some b.seq) = some x →
        assocGet b.seq c.peer.ownIn = none → b.data.length = b.nlb → x.nlb = b.nlb → Completes (.mirrorData h true b) s fun d =>
          { x with data := b.data } ∈ d.sluice.batches ∧ d.peer.mirror = c.peer.mirror ∧ Io d [.sluice]) ∧
      (∀ (slot : Nat) (r : InvRec), Completes (.tableUpdate h (.inv slot r)) s fun d => d.inv slot = r ∧ Io d [.lib]) ∧
      (∀ n : NsSt, n.ana = 3 ∨ n.ana = 4 → Completes (.tableUpdate h (.ns n)) s fun d =>
        d.ns? n.nsid = some n ∧ (∀ j, j ≠ n.nsid → d.ns? j = c.ns? j) ∧ Io d [.host]) ∧
      (∀ p : Polder, Completes (.tableUpdate h (.polder p)) s fun d =>
        d.polder? p.id = some { p with shared := true } ∧ Io d [.lib]) ∧
      (∀ (slot : Fin 3072) (e : Sqe) (k : Nat), c.freeSlot = some k →
        (c.ns? e.nsid.toNat).bind (fun n => anaStatus (c.ana n.ana)) = none → Completes (.fwdCmd h slot e) s fun d =>
          d.cmdAt k = some { ctrl := 0, sq := 1, sqe := { e with cid := BitVec.ofNat 16 slot.val }, seq := c.host.fetchSeq
                             since := c.now, origin := 1 } ∧ Io d [.host]) ∧
      (∀ (slot : Fin 3072) (bs : List Block),
        (∀ x ∈ c.host.slots, ¬ (x.2.origin = 1 ∧ x.2.sqe.cid.toNat = slot.val)) → Completes (.fwdData h slot bs) s fun d =>
          assocGet slot.val d.peer.fwdHeld = some ((assocGet slot.val c.peer.fwdHeld).getD [] ++ bs) ∧ Io d []) ∧
      (∀ (slot : Fin 3072) (r : FwdCpl) (k : Cmd), c.cmdAt slot.val = some k → k.phase = .forwarded → k.origin = 0 → k.ctrl < 16 →
        Completes (.fwdCpl h slot r) s fun d =>
          c.Answers d slot.val k { k.entry r.sct r.sc r.dnr with crd := r.crd, dw0 := r.dw0, dw1 := r.dw1, data := r.data } ∧
          Io d [.host])) ∧
    (∀ h : DaxHead, c.linkUp = true → c.Accepts false h →
      (∀ (seq : Nat) (b : Batch) (slot : Nat), c.sluice.batches.find? (fun b => b.seq == some seq) = some b → c.batch? b.id = some b →
        b.slot = some slot → b.rows ≠ [] → c.shared b.nsid = false → c.peer.handback = none →
        Completes (.mirrorAck h seq true) s fun d =>
          d.cmdAt slot = none ∧ (∃ y ∈ d.sluice.batches, y.id = b.id ∧ y.mirrored = true ∧ y.slot = none) ∧
          d.log.blocksWritten = c.log.blocksWritten + b.nlb) ∧
      (∀ (seq : Nat) (b : Batch), c.sluice.batches.find? (fun b => b.seq == some seq) = some b →
        Completes (.mirrorAck h seq false) s fun d => d.peer.refused.isSome = true ∧ Io d []) ∧
      (∀ l : List Nat, Completes (.daxRelease h l) s fun d =>
        d.peer.mirror = c.peer.mirror.filter (fun e => !l.contains e.1) ∧ d.Sends false 0x13 l ∧ Io d []) ∧
      (∀ (l : List Nat) (b : Batch) (q : Nat), b ∈ c.sluice.batches → b.releasing = true → b.seq = some q → q ∈ l → b.slot = none →
        Completes (.releaseAck h l) s fun d => ∀ y ∈ d.sluice.batches, y.id ≠ b.id) ∧
      (∀ (lo hi : Nat) (e : Nat × BatchCopy), e ∈ c.peer.mirror → lo ≤ e.1 → e.1 ≤ hi → e.2.data.length = e.2.nlb → 0 < e.2.nlb →
        Completes (.recoverReq h lo hi) s fun d =>
          d.Sends true 0x10 [e.1, e.2.kind, e.2.nsid, e.2.zone, e.2.ofs, e.2.nlb, 1, min 3 e.2.nlb] ∧
          d.peer.mirror = c.peer.mirror ∧ Io d []) ∧
      (∀ (num disc : Nat) (cls : Fin 5) (un : Bool) (st : Spin), Completes (.pickReq h num cls un disc st) s fun d =>
        d.lib.reqs = c.lib.reqs ++ [SpinReq.mk cls.val (b2n un) st.val disc c.now (some num)] ∧ Io d [.lib]) ∧
      (∀ (st : Spin) (r : SpinReq), c.peer.pickOut.contains r.disc = true →
        (c.ownReq st 0 = some r → r.kind = 0 → Completes (.pickDone h false r.disc st 1) s fun d =>
          d.discOn st = some r.disc ∧ (d.inv r.disc).state = 3 ∧ (d.inv r.disc).spindle = st.val ∧ r.disc ∉ d.peer.pickOut) ∧
        (c.ownReq st 1 = some r → r.kind = 1 → Completes (.pickDone h true r.disc st 1) s fun d =>
          d.discOn st = none ∧ (d.inv r.disc).spindle = 0xFF ∧ r.disc ∉ d.peer.pickOut ∧
          (d.inv r.disc).state = if (c.inv r.disc).media = 3 ∨ (c.inv r.disc).media = 4 then 4 else 1)))

/-- The lease engine polls, acquires a free lease while the link is down, renews it, and stops and gives it up in
time; a malformed or missing answer is reported. Gaining the lease without the link makes SPLIT_HOLDER; losing it
without the link makes SPLIT_NONHOLDER, in which neither group is owned and both are Inaccessible; a renewal that
finds another generation, or a low fence net, makes FENCED. The holder opens the picker gate once recovered, the other
closes it. A takeover puts the partner's groups to Change and then Optimized. The status written to the witness names
the spindles at rest. Unfencing, the join's steps, handing back, NVMe-MI messages and the peer gate act as stated. -/
def Obligations.LeaseStatesAndFences : Prop :=
  ∀ s : State, s.chip.Interlocked →
    let c := s.chip
    let cnt : Fld → Nat := fun f => min (c.rd .peer f + 1) (2 ^ f.w - 1)
    let holder : Chip → Bool := Chip.isHolder
    (c.pairing = true → Completes .leasePoll s fun d =>
      d.peer.polledAt = d.now ∧ d.peer.ops = c.peer.ops ++ [(.readLease, d.now)] ∧ c.SameBut d [.tb, .peer]) ∧
    (c.pairing = true → holder c = true →
      (Completes .leaseRenew s fun d =>
        d.peer.renewAt = d.now + ms 100 ∧
        d.peer.ops = c.peer.ops ++
          [(.cas c.lease (leaseWord c.selfHolder (leaseRenew c.lease + 1) (leaseGen c.lease)) true, d.now)] ∧
        c.SameBut d [.tb, .peer]) ∧
      (c.linkUp = false → c.peer.stopped = false → Completes .leasePickerStop s fun d => d.peer.stopped = true) ∧
      (c.pageUp .peer = true → Completes .leaseLost s fun d =>
        holder d = false ∧ ⟨0x23, 2, 2, 0, 0x1C⟩ ∈ d.x16 ∧ (c.pairState ≠ 5 → d.pins.fenceDrive = false) ∧
        (c.linkUp = false → d.pairState = 4 ∧ d.rd .peer Reg.PEER.PAIR_CTL_SHARED_RELEASED = 1)) ∧
      (∀ t, c.peer.acquiredAt = some t → c.pairState = 2 ∨ c.pairState = 3 →
        (∀ a ∈ pickerAxes, c.rd (.axis a) Reg.AXIS.AX_STAT_HOMED ≠ 0) → (∀ e ∈ c.lib.inv, e.2.state ≠ 2) →
        Completes .pickerGateOpen s fun d => d.rd .peer Reg.PEER.PAIR_STAT_PICKER_OWN = 1 ∧ c.SameBut d [.tb, .reg]) ∧
      (∀ t, c.peer.tL = some t → c.linkUp = false → c.peer.pFreed = false → c.rd .peer Reg.PEER.PAIR_CTL_ASSERT_EN ≠ 0 →
        Completes .fenceAssert s fun d => d.pins = { c.pins with fenceDrive := true } ∧ c.SameBut d [.tb, .pins]) ∧
      (∀ t, c.peer.tL = some t → c.linkUp = false → c.pairState = 3 → c.peer.takeover = 0 → Completes .takeover s fun d =>
        d.peer.takeover = 1 ∧ ∀ g ∈ [3, 4], c.owns g = false → d.ana g = 4) ∧
      (c.peer.takeover = 1 → c.mgmt.resumed = true → Completes .takeover s fun d =>
        d.peer.takeover = 2 ∧ (∀ g ∈ [3, 4], d.owns g = true ∧ (c.owns g = false → d.ana g = 0)) ∧
        d.pairState = if c.linkUp then 1 else c.pairState)) ∧
    (∀ (w : WitOp) (t : Nat) (r : List (WitOp × Nat)), c.peer.ops = (w, t) :: r →
      (w = .readLease → ∀ v : BitVec 64,
        (holder c = true → Completes (.witnessResponse (.lease v)) s fun d =>
          d.lease = v.toNat ∧ d.peer.ops = r ++ [(.readStatus, c.now)] ∧ c.SameBut d [.reg, .peer]) ∧
        (holder c = false → c.linkUp = false → c.pairState ≠ 0 → c.pairState ≠ 5 → leaseHolder v.toNat = 0 →
          (∀ o ∈ r, ∀ x y z, o.1 ≠ .cas x y z) → Completes (.witnessResponse (.lease v)) s fun d =>
            d.lease = v.toNat ∧ d.peer.ops = r ++
              [(.cas v.toNat (leaseWord c.selfHolder 0 (leaseGen v.toNat + 1)) false, c.now), (.readStatus, c.now)] ∧
            c.SameBut d [.reg, .peer])) ∧
      (∀ x y (v : BitVec 64), w = .cas x y false → c.pairState ≠ 0 → c.pairState ≠ 5 →
        Completes (.witnessResponse (.cas 0 v)) s fun d =>
          holder d = true ∧ d.lease = v.toNat ∧ d.peer.s = c.now ∧ d.peer.acquiredAt = some c.now ∧
          (c.linkUp = false → d.pairState = 3) ∧ (c.linkUp = true → c.SameBut d [.reg, .peer])) ∧
      (∀ x y (v : BitVec 64), w = .cas x y true → holder c = true → c.now < c.peer.s + ms 400 →
        (Completes (.witnessResponse (.cas 0 v)) s fun d =>
          holder d = true ∧ d.lease = v.toNat ∧ d.peer.s = c.now ∧ d.peer.renewAt = c.now + ms 100 ∧ c.SameBut d [.reg, .peer]) ∧
        (leaseGen v.toNat ≠ leaseGen c.lease → c.pairState ≠ 5 → Completes (.witnessResponse (.cas 1 v)) s fun d =>
          holder d = false ∧ d.pairState = 5 ∧ d.rd .peer Reg.PEER.LEASE_STAT_RENEW_FAILS = cnt Reg.PEER.LEASE_STAT_RENEW_FAILS ∧
          d.pins.fenceDrive = decide (c.rd .peer Reg.PEER.PAIR_CTL_DRIVE_EN ≠ 0))) ∧
      (∀ v : BitVec 128, w = .readStatus → Completes (.witnessResponse (.status v)) s fun d =>
        d.peer.ops = r ∧ d.peer.pStatusSeq = v.toNat % 2 ^ 32 ∧ c.SameBut d [.peer, .pins]) ∧
      (c.pageUp .peer = true →
        (w = .readLease ∨ w = .readStatus → Completes (.witnessResponse .bad) s fun d =>
          d.peer = { c.peer with ops := r } ∧ d.x16 = c.x16 ++ [⟨0x25, 2, 1, 0, 0x1C⟩] ∧ c.SameBut d [.peer, .x16]) ∧
        (w = .readLease ∨ w = .readStatus → Completes .witnessTimeout s fun d =>
          d.peer = { c.peer with ops := r } ∧ d.x16 = c.x16 ++ [⟨0x25, 1, 1, 0, 0x1C⟩] ∧ c.SameBut d [.tb, .peer, .x16]) ∧
        (∀ x y, w = .cas x y true → Completes .witnessTimeout s fun d =>
          d.rd .peer Reg.PEER.LEASE_STAT_RENEW_FAILS = cnt Reg.PEER.LEASE_STAT_RENEW_FAILS ∧
          d.x16 = c.x16 ++ [⟨0x25, 1, 1, 0, 0x1C⟩, ⟨0x23, 1, 1, 0, 0x1C⟩]))) ∧
    (c.pairing = true → Completes .witnessStatusWrite s fun d =>
      d.rd .peer Reg.PEER.PAIR_CTL_STATIONS = c.freeStations ∧
      d.peer = { c.peer with
        statusAt := d.now, statusSeq := (c.peer.statusSeq + 1) % 2 ^ 32
        statusWord := (c.put .peer Reg.PEER.PAIR_CTL_STATIONS c.freeStations).statusWord } ∧ c.SameBut d [.tb, .reg, .peer]) ∧
    (∀ t, c.pairing = true → holder c = false → c.linkUp = false → c.peer.tL = some t →
      (Completes .pickerGateClose s fun d => d.rd .peer Reg.PEER.PAIR_STAT_PICKER_OWN = 0 ∧ c.SameBut d [.tb, .reg]) ∧
      (c.pairState ≠ 4 → c.pairState ≠ 5 → Completes .splitNonholder s fun d =>
        d.pairState = 4 ∧ d.owns 3 = false ∧ d.owns 4 = false ∧ d.ana 3 = 2 ∧ d.ana 4 = 2 ∧
        d.rd .peer Reg.PEER.PAIR_CTL_SHARED_RELEASED = 1 ∧ d.rd .peer Reg.PEER.PAIR_STAT_PICKER_OWN = 0)) ∧
    (Completes (.peerFenceLow true) s fun d => d.pins = { c.pins with fenceNetLow := false } ∧ c.SameBut d [.pins]) ∧
    (c.pairing = true → c.pins.fenceDrive = false → holder c = false → c.pairState ≠ 0 → c.pairState ≠ 5 →
      Completes (.peerFenceLow false) s fun d =>
        d.pairState = 5 ∧ d.pins.fenceNetLow = true ∧ d.owns 3 = false ∧ d.owns 4 = false ∧ d.ana 3 = 3 ∧ d.ana 4 = 3) ∧
    (∀ (r : Requester) (high : Bool), s.chip.Writable r .peer →
      (c.pairState ≠ 5 → Completes (.unfence r high) s fun d => c.SameBut d []) ∧
      (c.pairState = 5 → Completes (.unfence r high) s fun d =>
        d.pins.fenceNetLow = !high ∧
        (high = true → d.pins.fenceDrive = false ∧ d.ana 3 = 2 ∧ d.ana 4 = 2 ∧ d.pairState = if c.linkUp then 1 else 4) ∧
        (high = false → d.pairState = 5))) ∧
    (c.pairing = true → c.linkUp = true → c.pairState = 1 →
      (c.peer.join = 1 → Completes .pairJoin s fun d => d.peer.join = 2 ∧ d.pairState = 1) ∧
      (c.peer.mir.unacked = [] → c.peer.mir.waiting = [] →
        (c.peer.join = 2 → (∀ b ∈ c.sluice.batches, b.sent = true → b.mirrored = true) → Completes .pairJoin s fun d =>
          d.peer.join = 3 ∧ d.pairState = 1) ∧
        (c.peer.join = 3 → c.peer.pState = 1 ∨ c.peer.pState = 2 → Completes .pairJoin s fun d =>
          d.peer.join = 0 ∧ d.pairState = 2 ∧ ∀ g ∈ [3, 4], c.owns g = true → d.ana g = 0 ∧ d.owns g = true))) ∧
    (∀ r : Requester, s.chip.Writable r .peer → c.role ≤ 1 → let g := c.awayGroup
      (c.pairState ≠ 2 ∨ c.owns g = false → Completes (.handback r) s fun d => c.SameBut d []) ∧
      (c.pairState = 2 → c.owns g = true → c.peer.handback = none →
        ((∃ b ∈ c.sluice.batches, c.group b.nsid = g ∧ b.kind ≠ 0 ∧ b.seq.isSome = true ∧ b.mirrored = false) →
          Completes (.handback r) s fun d => d.peer.handback = some g ∧ d.ana g = 4 ∧ d.owns g = true) ∧
        (c.sluice.batches = [] → Completes (.handback r) s fun d =>
          d.peer.handback = none ∧ d.ana g = 1 ∧ d.owns g = false))) ∧
    (∀ (data : List Byte) (e : Sqe), c.isl.aonUp = true →
      (Completes (.nvmeMiMctpMessage data none) s fun d =>
        d.mgmt = { c.mgmt with miQueue := c.mgmt.miQueue ++ [data] } ∧ c.SameBut d [.mgmt]) ∧
      (∀ k, c.freeSlot = some k → Completes (.nvmeMiMctpMessage data (some e)) s fun d =>
        d.cmdAt k = some { ctrl := 0, sq := 0, sqe := e, seq := c.host.fetchSeq, since := c.now, origin := 2 } ∧
        c.SameBut d [.reg, .host])) ∧
    (∀ (r : Requester) (gate solo : Bool), s.chip.Writable r .clk → Completes (.peerGateWrite r gate solo) s fun d =>
      d.rd .clk Reg.CLK.PEER_GATE_SOLO_PICKER = b2n solo ∧
      (gate = true → c.pairState ≠ 0 → d.rd .clk Reg.CLK.PEER_GATE_GATE = c.rd .clk Reg.CLK.PEER_GATE_GATE) ∧
      (gate = true → c.pairState = 0 → c.rd .clk Reg.CLK.PEER_GATE_GATE = 0 → d.rd .clk Reg.CLK.PEER_GATE_GATE = 1) ∧
      (gate = false → d.rd .clk Reg.CLK.PEER_GATE_GATE = 0 ∧
        (c.rd .clk Reg.CLK.PEER_GATE_GATE ≠ 0 → d.isl.scrubPeer = true ∧
          d.peer = { mirror := c.peer.mirror, stale := c.peer.stale, statusSeq := c.peer.statusSeq, statusWord := c.peer.statusWord })))

/-- The next entry of a running engine, its chain neither missed nor held and its words without a double-bit error,
executes and the engine advances; a single-bit error counts in CORR. READ, BIQUAD, SHIFT, LIMIT and MINSEL write Q,
ADD, SUB and MUL write R, saturated, and no other local word; BIQUAD advances its section by R431. WRITE keeps an
exchange word or sets LAST and the head's field; GCLOSE closes an owned head's group; MARK makes the units waiting for
it trigger; NOP does nothing. In a missed chain READ to LIMIT leave the memory as it is and WRITE of an exchange word
is not executed; a double-bit error marks the chain missed and counts. -/
def Obligations.ScheduleEntriesExecute : Prop :=
  ∀ (s : State) (e : Eng) (k : Fin 3), s.chip.Interlocked → s.chip.engRuns e = true →
    let p : Page := .loop e
    let x := s.chip.en e
    let b := s.chip.engBank e
    let t := x.entry b x.next
    x.next < 1024 →
    (k.val ≠ 2 → t.chain ∉ x.missed → s.chip.chainHeld e t.chain = false →
      let Adv : Chip → Prop := fun d =>
        (d.en e).next = x.next + 1 ∧ (d.en e).missed = x.missed ∧ s.chip.SameRegs d [(p, Reg.LOOP.ECC_STAT_CORR, 0)] ∧
        d.rd p Reg.LOOP.ECC_STAT_CORR =
          (if k.val = 1 then min (s.chip.rd p Reg.LOOP.ECC_STAT_CORR + 1) 65535 else s.chip.rd p Reg.LOOP.ECC_STAT_CORR)
      let Sets : Nat → Int → Chip → Prop := fun n v d =>
        Adv d ∧ (d.en e).loc n = satI 32 v ∧ (∀ m, m % 1024 ≠ n % 1024 → (d.en e).loc m = x.loc m) ∧
        s.chip.SameBut d [.reg, .engs, .traces]
      (t.op = 1 → ∀ v, s.chip.readSid t.r (t.arg % 8) (slice 3 2 t.arg) = .ok v → Completes (.opRead e k) s (Sets t.q v)) ∧
      (t.op = 2 →
        let n := t.r % 512
        let cf := fun j : Nat => sext 32 (x.word (0x4000 * b + 0x0800 + 8 * n + j))
        let cfg := x.word (0x4000 * b + 0x0800 + 8 * n + 5)
        let st := fun j : Nat => sext 32 (x.word (0x8000 + 4 * n + j))
        let v := x.loc t.p
        let sum := divRound (cf 0 * v) 4 + divRound (cf 1 * st 0) 4 + divRound (cf 2 * st 1) 4 - divRound (cf 3 * st 2) 4 -
          divRound (cf 4 * st 3) 4
        let y := satI 32 (divRound (sum * (2 ^ (cfg % 4) : Nat)) 536870912)
        (bit cfg 3 = true → Completes (.opBiquad e k) s (Sets t.q v)) ∧
        (bit cfg 3 = false → Completes (.opBiquad e k) s fun d =>
          Sets t.q y d ∧ (d.en e).word (0x8000 + 4 * n) = toBits 32 v ∧ (d.en e).word (0x8001 + 4 * n) = toBits 32 (st 0) ∧
          (d.en e).word (0x8002 + 4 * n) = toBits 32 y ∧ (d.en e).word (0x8003 + 4 * n) = toBits 32 (st 2))) ∧
      (t.op = 3 → Completes (.opAdd e k) s (Sets t.r (x.loc t.p + x.loc t.q))) ∧
      (t.op = 4 → Completes (.opSub e k) s (Sets t.r (x.loc t.p - x.loc t.q))) ∧
      (t.op = 5 → Completes (.opMul e k) s (Sets t.r (divRound (x.loc t.p * x.loc t.q) 2147483648))) ∧
      (t.op = 6 → Completes (.opShift e k) s (Sets t.q
        (if 0 ≤ sext 8 t.arg then x.loc t.p * (2 ^ (sext 8 t.arg).toNat : Nat)
          else divRound (x.loc t.p) (2 ^ (-sext 8 t.arg).toNat : Nat)))) ∧
      (t.op = 7 →
        let w := 0x4000 * b + 0x1980 + 2 * (t.r % 64)
        Completes (.opLimit e k) s (Sets t.q (min (max (x.loc t.p) (sext 32 (x.word w))) (sext 32 (x.word (w + 1)))))) ∧
      (t.op = 8 →
        let n := t.r % 32
        let ins := x.nodeInputs b n
        let mx := bit (x.word (0x4000 * b + 0x1900 + 4 * n)) 4
        ∀ i ∈ ins, (∀ j ∈ ins, j.1 < i.1 → (if mx then x.loc j.2.1 < x.loc i.2.1 else x.loc i.2.1 < x.loc j.2.1)) →
          (∀ j ∈ ins, (if mx then x.loc j.2.1 ≤ x.loc i.2.1 else x.loc i.2.1 ≤ x.loc j.2.1)) →
          Completes (.opMinsel e k) s fun d =>
            Sets t.q (x.loc i.2.1) d ∧ (d.en e).word (0x8C00 + n) = i.1) ∧
      (t.op = 9 →
        let v := x.loc t.p
        (t.r < 0x400 → Completes (.opWrite e k) s fun d =>
          Adv d ∧ assocGet t.r (d.en e).exch = some (BitVec.ofNat 32 (toBits 32 v)) ∧ (d.en e).mem = x.mem ∧
          s.chip.SameBut d [.reg, .engs, .traces]) ∧
        (0x400 ≤ t.r → t.r < 0x600 → ∀ h : Port, h.val = (t.r - 0x400) / 32 → s.chip.headOwner h = some e →
          let w := if t.r % 32 < 5 then satI 16 (divRound v 65536) else clampI 0 65535 (divRound v 32768)
          Completes (.opWrite e k) s fun d =>
            Adv d ∧ (d.en e).word (0x9000 + (t.r - 0x400)) = toBits 32 w ∧
            (d.groups.get h).fields = (s.chip.groups.get h).fields.set (t.r % 32) w ∧
            (∀ g : Port, g ≠ h → d.groups.get g = s.chip.groups.get g) ∧
            s.chip.SameBut d [.reg, .engs, .traces, .groups])) ∧
      (t.op = 10 → ∀ h : Port, h.val = t.r % 16 → s.chip.headOwner h = some e → Completes (.opGclose e k) s fun d =>
        Adv d ∧ d.groups.get h = { s.chip.groups.get h with closed := true } ∧ (d.en e).mem = x.mem ∧
        s.chip.SameBut d [.reg, .engs, .traces, .groups]) ∧
      (t.op = 11 → Completes (.opMark e k) s fun d =>
        Adv d ∧ (d.en e).mem = x.mem ∧ s.chip.SameBut d [.reg, .engs, .traces] ∧
        ∀ u : Eng, s.chip.rd (.trace u) Reg.TRACE.TR_STAT_STATE = 1 → (s.chip.tr u).cont = false → (s.chip.tr u).src = 2 →
          (s.chip.tr u).arg % 4 = e.val → (s.chip.tr u).arg / 4 % 8 = t.arg % 8 → (d.tr u).pending = true) ∧
      (t.op = 0 → Completes (.opNop e k) s fun d =>
        Adv d ∧ (d.en e).mem = x.mem ∧ s.chip.SameBut d [.reg, .engs, .traces])) ∧
    (k.val ≠ 2 → t.chain ∈ x.missed →
      ∀ o ∈ [(Instr.opRead e k, 1), (.opBiquad e k, 2), (.opAdd e k, 3), (.opSub e k, 4), (.opMul e k, 5), (.opShift e k, 6),
          (.opLimit e k, 7)], t.op = o.2 →
        Completes o.1 s fun d => (d.en e).mem = x.mem ∧ (d.en e).next = x.next + 1) ∧
    (k.val ≠ 2 → t.chain ∈ x.missed → t.op = 9 → t.r < 0x400 →
      Completes (.opWrite e k) s fun d => (d.en e).exch = x.exch ∧ (d.en e).next = x.next + 1) ∧
    (k.val = 2 → t.chain ≠ 0 →
      ∀ o ∈ [(Instr.opNop e k, 0), (.opRead e k, 1), (.opBiquad e k, 2), (.opAdd e k, 3), (.opSub e k, 4), (.opMul e k, 5),
          (.opShift e k, 6), (.opLimit e k, 7), (.opMinsel e k, 8), (.opWrite e k, 9), (.opGclose e k, 10), (.opMark e k, 11)],
        t.op = o.2 → Completes o.1 s fun d =>
          t.chain ∈ (d.en e).missed ∧ (d.en e).mem = x.mem ∧ (d.en e).next = x.next + 1 ∧
          d.rd p Reg.LOOP.ECC_STAT_UNCORR = min (s.chip.rd p Reg.LOOP.ECC_STAT_UNCORR + 1) 65535)

/-- COPY and VALIDATE start when neither runs; the end of COPY makes the standby bank equal to the active one with its
VALID bit; the end of a validation gives its result and END_CYCLE, VALID on a pass, 0xB when the bank was written. A
memory access writes the standby bank, reserved bits as 0, and clears its VALID, is refused in the active bank, waits
for the frame boundary elsewhere, and reads words. An ownership write clears both VALID bits. ARM of an enabled unit
reads its settings; FORCE triggers; STOP ends recording at the last sample; a sample joins the buffer; a read in range
returns its sample and advances INDEX. -/
def Obligations.BanksAndTraceUnits : Prop :=
  ∀ (s : State) (r : Requester) (e : Eng), s.chip.Interlocked → s.chip.Writable r (.loop e) → s.chip.Writable r (.trace e) →
    let p : Page := .loop e
    let q : Page := .trace e
    let x := s.chip.en e
    let y := s.chip.tr e
    let st := s.chip.rd q Reg.TRACE.TR_STAT_STATE
    let b := s.chip.engBank e
    let vf : Nat → Fld := fun n => if n = 0 then Reg.LOOP.ENG_STAT_VALID0 else Reg.LOOP.ENG_STAT_VALID1
    (s.chip.rd p Reg.LOOP.ENG_STAT_VALIDATING = 0 → s.chip.rd p Reg.LOOP.ENG_STAT_COPYING = 0 →
      (Completes (.bankCopy r e) s fun d =>
        d.rd p Reg.LOOP.ENG_STAT_COPYING = 1 ∧ s.chip.SameBut d [.reg] ∧
        s.chip.SameRegs d [(p, Reg.LOOP.ENG_STAT_COPYING, 0)]) ∧
      ∀ v : Fin 2, Completes (.bankValidate r e v) s fun d =>
        d.rd p Reg.LOOP.ENG_STAT_VALIDATING = 1 ∧ (d.en e).valBank = v.val ∧ (d.en e).valTouched = false ∧
        s.chip.SameBut d [.reg, .engs]) ∧
    (s.chip.rd p Reg.LOOP.ENG_STAT_COPYING ≠ 0 → b < 2 → x.mem.wf = true → Completes (.bankCopyDone e) s fun d =>
      (∀ a, a < 0x4000 → (d.en e).word (0x4000 * (1 - b) + a) = x.word (0x4000 * b + a)) ∧
      (∀ a, 0x8000 ≤ a → (d.en e).word a = x.word a) ∧ d.rd p (vf (1 - b)) = s.chip.rd p (vf b) % 2 ∧
      d.rd p Reg.LOOP.ENG_STAT_COPYING = 0 ∧ s.chip.SameBut d [.reg, .engs]) ∧
    (s.chip.rd p Reg.LOOP.ENG_STAT_VALIDATING ≠ 0 → x.valBank < 2 →
      (x.valTouched = true → Completes (.bankValidateDone e) s fun d =>
        d.rd p Reg.LOOP.ENG_STAT_RESULT = 11 ∧ d.rd p Reg.LOOP.ENG_STAT_VALIDATING = 0 ∧
        d.rd p (vf x.valBank) = s.chip.rd p (vf x.valBank) ∧ s.chip.SameBut d [.reg]) ∧
      (x.valTouched = false → Completes (.bankValidateDone e) s fun d =>
        d.rd p Reg.LOOP.ENG_STAT_RESULT = (s.chip.valResult e x.valBank).1 % 16 ∧
        d.rd p Reg.LOOP.ENG_STAT_END_CYCLE = (s.chip.valResult e x.valBank).2.2 ∧
        ((s.chip.valResult e x.valBank).1 = 1 → d.rd p (vf x.valBank) = 1) ∧
        d.rd p Reg.LOOP.ENG_STAT_VALIDATING = 0 ∧ s.chip.SameBut d [.reg])) ∧
    (let a := s.chip.rd p Reg.LOOP.MEM_ADDR_ADDR
     s.chip.rd p Reg.LOOP.MEM_ADDR_AUTOINC = 0 → b < 2 →
      (∀ w : Word,
        (a < 0x8000 → a % 0x4000 < 0x1A00 → a / 0x4000 = b → Completes (.engineMemAccess r e (some w)) s fun d =>
          d.en e = x ∧ d.rd p Reg.LOOP.ENG_STAT_MEM_REFUSED = 1 ∧ s.chip.SameBut d [.reg]) ∧
        (a < 0x8000 → a % 0x4000 < 0x1A00 → a / 0x4000 ≠ b → s.chip.commitOpen p = false →
          Completes (.engineMemAccess r e (some w)) s fun d =>
            (d.en e).word a = w.toNat % 2 ^ engBits a ∧ (∀ j, j ≠ a → (d.en e).word j = x.word j) ∧ d.rd p (vf (a / 0x4000)) = 0 ∧
            s.chip.SameBut d [.reg, .engs]) ∧
        (0x8000 ≤ a → a < 0x8C20 → Completes (.engineMemAccess r e (some w)) s fun d =>
          (d.en e).waiting = x.waiting ++ [(a, BitVec.ofNat 32 (w.toNat % 2 ^ engBits a))] ∧ (d.en e).mem = x.mem ∧ s.chip.SameBut d [.engs])) ∧
      (a < 0x8000 → a % 0x4000 < 0x1A00 → Completes (.engineMemAccess r e none) s fun d =>
        (d.rq r).readData.toNat = x.word a ∧ d.engs = s.chip.engs ∧ d.reg = s.chip.reg)) ∧
    (s.chip.commitOpen p = false →
      (∀ v : Word,
        (Completes (.ownershipWrite r e true v) s fun d =>
          d.shd p Reg.LOOP.OWN_AXIS_AXES = v.toNat % 2 ^ 22 ∧ d.rd p Reg.LOOP.ENG_STAT_VALID0 = 0 ∧
          d.rd p Reg.LOOP.ENG_STAT_VALID1 = 0 ∧ s.chip.SameBut d [.reg]) ∧
        Completes (.ownershipWrite r e false v) s fun d =>
          d.shd p Reg.LOOP.OWN_HEAD_HEADS = v.toNat % 65536 ∧ d.shd p Reg.LOOP.OWN_HEAD_SPINS = v.toNat / 65536 % 256 ∧
          d.rd p Reg.LOOP.ENG_STAT_VALID0 = 0 ∧ d.rd p Reg.LOOP.ENG_STAT_VALID1 = 0 ∧ s.chip.SameBut d [.reg]) ∧
      ∀ v : Fin 2, Completes (.bankSelectWrite r e v) s fun d =>
        d.shd p Reg.LOOP.ENG_CTL_BANK = v.val ∧ s.chip.engBank e = d.engBank e ∧ s.chip.SameBut d [.reg]) ∧
    (s.chip.traceReady e = true → Completes (.traceArm r e) s fun d =>
      d.rd q Reg.TRACE.TR_STAT_STATE = 1 ∧ (d.tr e).buf = [] ∧ (d.tr e).pre = s.chip.rd q Reg.TRACE.TR_PRE_PRE ∧
      (d.tr e).decim = s.chip.rd q Reg.TRACE.TR_DECIM_DECIM ∧ (d.tr e).arg = s.chip.rd q Reg.TRACE.TR_CTL_TRIG_ARG ∧
      (d.tr e).src = (if 7 ≤ s.chip.rd q Reg.TRACE.TR_CTL_TRIG_SRC then 0 else s.chip.rd q Reg.TRACE.TR_CTL_TRIG_SRC) ∧
      s.chip.SameBut d [.reg, .traces]) ∧
    (s.chip.traceReady e = false → Completes (.traceArm r e) s fun d => s.chip.SameBut d []) ∧
    ((st = 1 ∨ st = 2) → Completes (.traceStop r e) s fun d =>
      d.rd q Reg.TRACE.TR_STAT_STATE = 3 ∧ d.rd q Reg.TRACE.TR_STAT_TRIG_POS = (y.buf.length - 1) % 2 ^ 14 ∧
      d.traces = s.chip.traces ∧ s.chip.SameBut d [.reg]) ∧
    (st = 1 → y.cont = false → Completes (.traceForce r e) s fun d =>
      d.tr e = { y with pending := true } ∧ s.chip.SameBut d [.traces]) ∧
    (s.chip.frameNum.toNat % (y.decim + 1) = 0 → y.buf.length < 16384 →
      ((st = 1 ∧ y.pending = false ∧ y.src ≠ 1) ∨ (st = 2 ∧ 1 < y.left) → Completes (.traceSample e) s fun d =>
        ∃ v : List Word, v.length = y.nodes.length ∧ (d.tr e).buf = v :: y.buf ∧ (d.tr e).left = y.left - 1 ∧
          d.rd q Reg.TRACE.TR_STAT_STATE = st) ∧
      (st = 1 → y.pending = true → y.cont = false → y.pre < 16383 → Completes (.traceSample e) s fun d =>
        (d.tr e).left = 16383 - y.pre ∧ d.rd q Reg.TRACE.TR_STAT_STATE = 2 ∧
        d.rd q Reg.TRACE.TR_STAT_TRIG_POS = min y.buf.length y.pre ∧
        d.rd q Reg.TRACE.TR_TRIG_FRAME_FRAME = s.chip.frameNum.toNat)) ∧
    (let i := s.chip.rd q Reg.TRACE.TR_RD_ADDR_INDEX
     let n := s.chip.rd q Reg.TRACE.TR_RD_ADDR_NODE
     ∀ (row : List Word) (w : Word) (nd : TraceNode), y.buf.reverse[i]? = some row → row[n]? = some w → y.nodes[n]? = some nd →
      nd.kind ≠ 3 → Completes (.traceRead r e) s fun d =>
        (d.rq r).readData = w ∧ d.rd q Reg.TRACE.TR_RD_ADDR_INDEX = (i + 1) % 16384 ∧ d.traces = s.chip.traces)

/-- ACQUIRE with the link running, the laser on and no quench, in OFF, PARKED or FAILED, opens every gate, retracts
the lens and clears the runout tables; SEEK to another layer in FOLLOW jumps, to the same layer goes on in SEEK_FINE
or SEEK_COARSE; PARK parks and ends 100 ms later, STOP enters OFF. A rejected command reports its RESULT. A coarse
phase without fields reports 6 and recovers; a recovery past its limit, or the third in a second, ends in FAILED with
the laser off; a focus recovery past 100 ms starts ACQUIRE. A field counts for or against field lock; a refinement
within 25 % writes kappa; CLEAR clears the runout tables. -/
def Obligations.ServoCommandsAndFields : Prop :=
  ∀ (s : State) (h : Port), s.chip.Interlocked →
    let p : Page := .head h
    let x := s.chip.sv h
    let st := s.chip.srvState h
    let frames := min (s.chip.frameNum - BitVec.ofNat 32 x.cmdFrame).toNat 16777215
    (∀ (l : Fin 8) (t : BitVec 16), s.chip.linkState h = 3 → s.chip.killHigh h = true → s.chip.headQuenched h = false →
      t.toNat ≤ 50028 →
      ((st = 0 ∨ st = 10 ∨ st = 11) → Completes (.srvAcquire h l t) s fun d =>
        d.srvState h = 1 ∧ (d.sv h).phase = .sweep ∧ (d.sv h).cmd = 1 ∧ (d.sv h).layer = l.val ∧ (d.sv h).turn = t.toNat ∧
        (d.sv h).gFoc = false ∧ (d.sv h).gTrk = false ∧ (d.sv h).gRot = false ∧ (d.sv h).gCtr = true ∧
        (d.sv h).focFF = -2147483647 ∧ d.rd p Reg.HEAD.SRV_STAT_FOCUS_LOCK = 0 ∧ d.rd p Reg.HEAD.SRV_STAT_TRACK_LOCK = 0 ∧
        d.rd p Reg.HEAD.SRV_STAT_ROT_LOCK = 0 ∧ d.rd p Reg.HEAD.SRV_STAT_COUNT_LOCK = 0 ∧
        (∀ i, i < 256 → d.rdI p Reg.HEAD.RUNOUT_FOC i = 0 ∧ d.rdI p Reg.HEAD.RUNOUT_TRK i = 0) ∧
        s.chip.SameBut d [.reg, .servos]) ∧
      (st = 4 → l.val ≠ s.chip.portLayer h → x.inRec = false → Completes (.srvSeek h l t) s fun d =>
        d.srvState h = 7 ∧ (d.sv h).phase = .jump ∧ (d.sv h).cmd = 2 ∧ (d.sv h).aim = l.val ∧ (d.sv h).turn = t.toNat ∧
        (d.sv h).gFoc = false ∧ (d.sv h).gTrk = false ∧ (d.sv h).gRot = false ∧ (d.sv h).gCtr = true ∧
        s.chip.SameBut d [.reg, .servos]) ∧
      (st = 4 → l.val = s.chip.portLayer h → Completes (.srvSeek h l t) s fun d =>
        ((d.srvState h = 5 ∧ (d.sv h).phase = .walk ∧ (d.sv h).walking = true) ∨
          (d.srvState h = 6 ∧ (d.sv h).phase = .coarse ∧ (d.sv h).sled = sledWord (d.sv h).xStar)) ∧
        (d.sv h).cmd = 2 ∧ (d.sv h).turn = t.toNat ∧ s.chip.SameBut d [.reg, .servos])) ∧
    (Completes (.srvPark h) s fun d =>
      d.srvState h = 9 ∧ (d.sv h).phase = .idle ∧ (d.sv h).focFF = -2147483647 ∧ (d.sv h).gFoc = false ∧
      (d.sv h).gTrk = false ∧ (d.sv h).gRot = false ∧ (d.sv h).gCtr = true ∧
      (d.sv h).sled = s.chip.rd p Reg.HEAD.PARK_CFG_PARK_UM * 1000 * 2147483648 / 65536000) ∧
    (st = 9 → x.cmd ≠ 0 → Completes (.parkDone h) s fun d =>
      d.srvState h = 10 ∧ d.rd p Reg.HEAD.SRV_RESULT_RESULT = 1 ∧ d.rd p Reg.HEAD.SRV_RESULT_FRAMES = frames ∧
      (d.sv h).cmd = 0 ∧ s.chip.SameBut d [.tb, .reg, .servos]) ∧
    (Completes (.srvStop h) s fun d =>
      d.srvState h = 0 ∧ d.rd p Reg.HEAD.SRV_RESULT_RESULT = 1 ∧ (d.sv h).cmd = 0 ∧ (d.sv h).focFF = x.focFF ∧
      (d.sv h).gFoc = false ∧ (d.sv h).gTrk = false ∧ (d.sv h).gRot = false) ∧
    (∀ (cmd : Fin 16) (l : Fin 8) (t : BitVec 16),
      (5 ≤ cmd.val → Completes (.srvCommandReject h cmd l t) s fun d =>
        d.rd p Reg.HEAD.SRV_RESULT_RESULT = 4 ∧ d.sv h = x ∧ s.chip.SameBut d [.reg]) ∧
      ((cmd.val = 1 ∨ cmd.val = 2) → (s.chip.linkState h ≠ 3 ∨ s.chip.killHigh h = false ∨ s.chip.headQuenched h = true) →
        Completes (.srvCommandReject h cmd l t) s fun d =>
          d.rd p Reg.HEAD.SRV_RESULT_RESULT = 3 ∧ d.sv h = x ∧ s.chip.SameBut d [.reg])) ∧
    (st = 6 → s.chip.rd p Reg.HEAD.RECOVER_CTL_AUTO ≠ 0 → x.recs = [] → x.cmd ≠ 0 → Completes (.seekFail h) s fun d =>
      d.srvState h = 8 ∧ (d.sv h).phase = .recTrack ∧ (d.sv h).inRec = true ∧ d.rd p Reg.HEAD.SRV_RESULT_RESULT = 6 ∧
      d.rd p Reg.HEAD.RECOVER_STAT_STREAK = 1 ∧ s.chip.SameBut d [.tb, .reg, .servos, .x16]) ∧
    (st = 8 → (x.phase = .recTrack ∨ x.phase = .walk ∨ x.phase = .coarse) → Completes (.servoFail h) s fun d =>
      d.srvState h = 11 ∧ d.killHigh h = false ∧ d.rd p Reg.HEAD.LASER_CTL_ARM = 0) ∧
    (st = 8 → s.chip.rd p Reg.HEAD.SRV_STAT_FOCUS_LOCK = 0 → x.gTrk = false → Completes (.focusRecoveryTimeout h) s fun d =>
      d.srvState h = 1 ∧ (d.sv h).phase = .sweep ∧ (d.sv h).inRec = true ∧ (d.sv h).tries = 0 ∧
      s.chip.SameBut d [.tb, .reg, .servos]) ∧
    (∀ hi lo : Int, x.phase = .refine → 1024 ≤ x.fields → x.dMax = some hi → x.dMin = some lo → x.kappaWrite = none → lo ≤ hi →
      let l := s.chip.portLayer h
      let old := s.chip.kappa h l
      let new := ((hi - lo).toNat * 16 + 32768) / 65536
      l < 8 → new < 256 → 4 * ((hi - lo) * 16 - old * 65536).natAbs ≤ old * 65536 → Completes (.kappaRefine h) s fun d =>
        d.kappa h l = new ∧ bit (d.rd p Reg.HEAD.KAPPA_STAT_REFINED) l = true ∧ d.srvState h = 3 ∧ (d.sv h).phase = .capture ∧
        s.chip.SameBut d [.reg, .servos]) ∧
    (∀ r : Requester, s.chip.Writable r p → Completes (.runoutClear r h) s fun d =>
      (∀ i, i < 256 → d.rdI p Reg.HEAD.RUNOUT_FOC i = 0 ∧ d.rdI p Reg.HEAD.RUNOUT_TRK i = 0) ∧ s.chip.SameBut d [.reg]) ∧
    ∀ (b : BeamNo) (f : FieldPulses), b ∉ s.chip.workers h →
      let y := s.chip.dm h b
      let ok := s.chip.fieldOk h b f
      (s.chip.demodRuns h b = false → Completes (.servoFieldDecode h b f) s fun d => d = s.chip) ∧
      (s.chip.pageUp p = true → s.chip.demodRuns h b = true → Completes (.servoFieldDecode h b f) s fun d =>
        (d.dm h b).got = (if ok then y.got + 1 else 0) ∧ (d.dm h b).miss = (if ok then 0 else y.miss + 1) ∧
        (ok = true → 1 ≤ y.got → d.fieldLock h b = true) ∧ (ok = false → 1 ≤ y.miss → d.fieldLock h b = false) ∧
        (ok = true → (d.dm h b).d = (fieldD f).1))

/-- START at standstill begins detection, from OFF after 1 ms; BRAKE brakes a driven motor above SHORT_RPM; COAST, OFF
and CLEAR end in IDLE, OFF and OFF, each with RESULT 1; a reserved code gets RESULT 3, a quiesced page 2, a START of a
disabled page 8. DETECT counts attempts, measures on confidence, and after three failures aligns or fails; measurement
and ALIGN lead to RAMP; a missing breakaway raises I_RAMP by a quarter up to its maximum and detects again, else the
start fails with RESULT 4, as past START_TIMEOUT; a CATCH past 100 ms shorts. A driver fault enters FAULT with the
duties 0; a lost setpoint brakes. A sign change of a back-EMF beyond the hysteresis is an edge: edges give SPEED, a
reversal takes it back, no edges report 0. A PWM period shows its peak current; a late one is a deadline miss. No
phase has both gates high. -/
def Obligations.SpindlesFollowTheirCommands : Prop :=
  ∀ (s : State) (n : Spin), s.chip.Interlocked →
    let p : Page := .spin n
    let x := s.chip.sp n
    let st := s.chip.spState n
    let still : Prop := s.chip.spSpeed n = 0 ∧ s.chip.spValid n = true
    let src := 0x050 + 4 * n.val
    let Ends : Nat → Nat → Chip → Prop := fun to' r d =>
      d.spState n = to' ∧ d.rd p Reg.SPIN.SPIN_STAT_RESULT = r ∧ (∀ m : Spin, m ≠ n → d.sp m = s.chip.sp m) ∧
      s.chip.SameBut d [.tb, .reg, .spins, .x16]
    (s.chip.rd p Reg.HDR.PAGE_STAT_STATE ≠ 3 → s.chip.spQuenched n = false →
      (s.chip.enabled p = false → st ≤ 1 → (st = 1 → still) → Completes (.spinStart n) s (Ends st 8)) ∧
      (s.chip.enabled p = true → st = 1 → still → Completes (.spinStart n) s fun d =>
        d.spState n = 2 ∧ (d.sp n).starting = true ∧ (d.sp n).startAt = s.chip.now ∧ (d.sp n).detFails = 0 ∧
        d.rd p Reg.SPIN.SPIN_STAT_ATTEMPTS = 0 ∧ (d.sp n).iRamp = s.chip.rd p Reg.SPIN.RAMP_CFG_I_RAMP_MA ∧
        s.chip.SameBut d [.reg, .spins]) ∧
      (s.chip.enabled p = true → st = 0 → Completes (.spinStart n) s fun d =>
        d.spState n = 0 ∧ (d.sp n).wakeAt = some s.chip.now ∧ (d.sp n).starting = true ∧ s.chip.SameBut d [.reg, .spins]) ∧
      ((st = 0 ∨ st = 1) → Completes (.spinBrake n) s (Ends st 1)) ∧
      (st = 5 → ((256 * s.chip.rd p Reg.SPIN.BRAKE_CFG_SHORT_RPM : Nat) : Int) ≤ s.chip.spSpeed n →
        Completes (.spinBrake n) s fun d => d.spState n = 6 ∧ (d.sp n).braking = true ∧ (d.sp n).v = 0 ∧
          s.chip.SameBut d [.reg, .spins]) ∧
      (st ≠ 0 → st ≠ 8 → st ≠ 10 → Completes (.spinCoast n) s (Ends 1 1)) ∧
      (st = 1 → Completes (.spinOff n) s (Ends 0 1)) ∧
      (st = 10 → bit s.chip.pins.drvFaultLow n.val = false → Completes (.spinClear n) s (Ends 0 1)) ∧
      ∀ t, x.wakeAt = some t → st = 0 → still → Completes (.driverWake n) s fun d =>
        d.spState n = 2 ∧ (d.sp n).wakeAt = none ∧ s.chip.SameBut d [.tb, .reg, .spins]) ∧
    (∀ cmd : Fin 8, ((cmd.val = 6 ∨ cmd.val = 7) → Completes (.spinCommandReject n cmd) s (Ends st 3)) ∧
      (s.chip.rd p Reg.HDR.PAGE_STAT_STATE = 3 → 1 ≤ cmd.val → cmd.val ≤ 5 →
        Completes (.spinCommandReject n cmd) s (Ends st 2))) ∧
    (Completes (.drvFault n false) s fun d =>
      d.spState n = 10 ∧ d.rd p Reg.SPIN.SPIN_STAT_DRV_FAULT = 1 ∧ (d.sp n).dA = 0 ∧ (d.sp n).dB = 0 ∧ (d.sp n).dC = 0 ∧
      (s.chip.pageUp p = true → d.x16 = s.chip.x16 ++ [⟨src, 1, 2, 0, p.num⟩]) ∧ s.chip.SameBut d [.reg, .spins, .pins, .x16]) ∧
    (Completes (.drvFault n true) s fun d =>
      d.rd p Reg.SPIN.SPIN_STAT_DRV_FAULT = 0 ∧ bit d.pins.drvFaultLow n.val = false ∧ s.chip.SameBut d [.reg, .pins]) ∧
    (st = 2 → x.measuring = false → ∀ t : DetectRises,
      let attempts := min (s.chip.rd p Reg.SPIN.SPIN_STAT_ATTEMPTS + 1) (2 ^ Reg.SPIN.SPIN_STAT_ATTEMPTS.w - 1)
      (s.chip.detectReached n t = false → x.detFails < 2 → Completes (.detectAttempt n t) s fun d =>
        d.spState n = 2 ∧ (d.sp n).detFails = x.detFails + 1 ∧ d.rd p Reg.SPIN.SPIN_STAT_ATTEMPTS = attempts) ∧
      (s.chip.detectReached n t = false → x.detFails = 2 → s.chip.rd p Reg.SPIN.START_CFG_ALIGN_EN ≠ 0 → Completes (.detectAttempt n t) s fun d =>
        d.spState n = 3 ∧ (d.sp n).thetaOl = 0) ∧
      (s.chip.detectReached n t = false → x.detFails = 2 → s.chip.rd p Reg.SPIN.START_CFG_ALIGN_EN = 0 →
        Completes (.detectAttempt n t) s (Ends 1 4)) ∧
      (s.chip.detectReached n t = true → s.chip.rd p Reg.SPIN.START_CFG_DETECT_MIN = 0 → Completes (.detectAttempt n t) s fun d =>
        d.spState n = 2 ∧ (d.sp n).measuring = true ∧ d.rd p Reg.SPIN.START_STAT_THETA_D = (detectAxis (t.map riseMean)).1 % 65536)) ∧
    (∀ a m : Nat, st = 2 → x.measuring = true → Completes (.rmeasDone n a m) s fun d =>
      d.spState n = 4 ∧ (m ≠ 0 → d.rd p Reg.SPIN.START_STAT2_R_MEAS_MOHM = min 65535 (1000 * a / m))) ∧
    (st = 3 → Completes (.alignDone n) s fun d => d.spState n = 4 ∧ d.rd p Reg.SPIN.SPIN_STAT_ALIGN_USED = 1) ∧
    (st = 4 → x.edgeSeen = false →
      let top := s.chip.rd p Reg.SPIN.RAMP_CFG_I_RAMP_MAX_MA
      (top ≤ x.iRamp → Completes (.breakawayTimeout n) s (Ends 1 4)) ∧
      (x.iRamp < top → Completes (.breakawayTimeout n) s fun d =>
        d.spState n = 2 ∧ (d.sp n).iRamp = min top (x.iRamp * 5 / 4))) ∧
    (st = 9 → ¬ still → Completes (.catchTimeout n) s fun d => d.spState n = 7 ∧ (d.sp n).starting = true) ∧
    (x.starting = true → Completes (.startFail n) s fun d => Ends 1 4 d ∧ (d.sp n).starting = false) ∧
    (st = 5 → Completes (.setpointLost n) s fun d =>
      d.spState n = 6 ∧ (d.sp n).v = 0 ∧ (s.chip.pageUp p = true → d.x16 = s.chip.x16 ++ [⟨src + 2, 3, 1, 0, p.num⟩])) ∧
    (∀ (k : Fin 3) (mv : BitVec 16) (dt : BitVec 32), st = 1 → x.polePairs ≠ 0 →
      let phase := if x.dir = 1 ∧ k.val ≠ 0 then 3 - k.val else k.val
      let new := setBit x.signs phase (decide (0 < mv.toInt))
      let edge := 10 * s.chip.rd p Reg.SPIN.OBS_CFG_EDGE_HYST ≤ mv.toInt.natAbs ∧ decide (0 < mv.toInt) ≠ bit x.signs phase
      (¬ edge → Completes (.backEmfEdge n k mv dt) s fun d => s.chip.SameBut d []) ∧
      (edge → edgeDir x.signs new = none → Completes (.backEmfEdge n k mv dt) s fun d =>
        d.sp n = { x with signs := new } ∧ s.chip.SameBut d [.spins]) ∧
      ∀ fwd : Bool, edge → edgeDir x.signs new = some fwd →
      (1 ≤ x.edgeRun → x.lastFwd = fwd → Completes (.backEmfEdge n k mv dt) s fun d =>
        (d.sp n).signs = new ∧
        let l := (dt.toNat :: x.ivals).take (6 * x.polePairs)
        (d.sp n).ivals = l ∧ d.rd p Reg.SPIN.SPEED_VALID = 1 ∧
        d.rd p Reg.SPIN.SPEED_RPM = toBits 24 (edgeRpm (l.take 6).length ((l.take 6).foldl (· + ·) 0) x.polePairs fwd)) ∧
      (1 ≤ x.edgeRun → x.lastFwd ≠ fwd → Completes (.backEmfEdge n k mv dt) s fun d =>
        (d.sp n).edgeRun = 1 ∧ d.rd p Reg.SPIN.SPEED_VALID = 0 ∧ d.rd p Reg.SPIN.SPEED_RPM = 0 ∧
        (s.chip.pageUp p = true → d.x16 = s.chip.x16 ++ [⟨src + 2, 4, 0, 0, p.num⟩]))) ∧
    (st = 1 → Completes (.spinEdgeTimeout n) s fun d =>
      d.spSpeed n = 0 ∧ d.spValid n = true ∧ (d.sp n).edgeRun = 0 ∧ d.spState n = 1 ∧ s.chip.SameBut d [.tb, .reg, .spins]) ∧
    (∀ g ∈ s.chip.gates n, ¬ (g.high = true ∧ g.low = true)) ∧
    (st = 0 ∨ st = 1 ∨ st = 9 ∨ st = 10 → ∀ g ∈ s.chip.gates n, g.high = false ∧ g.low = false) ∧
    ∀ (i : Vector (BitVec 12) 3) (v : PhaseVolts),
      let mA := fun (k : Fin 3) => (s.chip.currentMa 0 (6 * n.val + k.val) (s.chip.rd p Reg.SPIN.ISCALE_ISNS_FS_MA) (i.get k).toNat).natAbs
      (∀ late : Bool, s.chip.pwmDue n = false → Completes (.pwmPeriod n i v late) s fun d => s.chip.SameBut d []) ∧
      (s.chip.pwmDue n = true → st ≠ 0 → st ≠ 7 → st ≠ 8 → st ≠ 10 → Completes (.pwmPeriod n i v true) s fun d =>
        d.rd p Reg.HDR.DL_MISS_COUNT = min (s.chip.rd p Reg.HDR.DL_MISS_COUNT + 1) (2 ^ 32 - 1) ∧
        (s.chip.pageUp p = true → d.x16.getLast? = some ⟨src + 3, 1, 0, st % 1024, p.num⟩)) ∧
      (s.chip.pwmDue n = true → Completes (.pwmPeriod n i v false) s fun d =>
        d.rd p Reg.SPIN.CUR_STAT_IPEAK_MA = min 65535 (max (mA 0) (max (mA 1) (mA 2))) ∧
        (st = 1 → (d.sp n).dA = 0 ∧ (d.sp n).dB = 0 ∧ (d.sp n).dC = 0))

/-- HOME begins the travel with HOMED and STRONG 0 and deviation 0; MOVE of a homed axis with no active limit starts
towards its target within the soft limits; FOLLOW ends at once with RESULT 1 and stands where it is; STOP at rest ends
at once, in a MOVE it starts the ramp with cause 1 and the MOVE ends with RESULT 5; HOLD, RELEASE and CLEAR end in
HOLD, IDLE and IDLE with RESULT 1. A command turned away gets RESULT 3, in the wrong state 2, and moves nothing. After
the settle time position and offset are set and the back-off begins; after HOLD_DELAY the hold current applies. A
power-stage fault stops the drive and enters FAULT. -/
def Obligations.AxesTakeTheirCommands : Prop :=
  ∀ (s : State) (a : Axis), s.chip.Interlocked →
    let p : Page := .axis a
    let x := s.chip.ax a
    let st := s.chip.axState a
    let t := s.chip.rdS p Reg.AXIS.AX_TARGET_POS
    let soft := if s.chip.rd p Reg.AXIS.AXIS_CFG_SOFT_EN ≠ 0
      then clampI (s.chip.rdS p Reg.AXIS.SOFT_LO_POS) (s.chip.rdS p Reg.AXIS.SOFT_HI_POS) t else t
    let quenched := bit (s.chip.rd .fault Reg.FAULT.QUENCH_AXIS_AXES) a.val
    let Ends : Nat → Nat → Chip → Prop := fun to' r d =>
      d.axState a = to' ∧ d.rd p Reg.AXIS.AX_STAT_RESULT = r ∧ (d.ax a).cmd = 0 ∧
      (∀ b : Axis, b ≠ a → d.ax b = s.chip.ax b) ∧ s.chip.SameBut d [.reg, .axes]
    (quenched = false → s.chip.rd p Reg.HDR.PAGE_STAT_STATE ≠ 3 →
      ((st = 1 ∨ st = 2) → Completes (.axisHome a) s fun d =>
        d.axState a = 5 ∧ (d.ax a).homeStep = 2 ∧ (d.ax a).cmd = 1 ∧ d.rd p Reg.AXIS.AX_STAT_HOMED = 0 ∧
        d.rd p Reg.AXIS.AX_STAT_STRONG = 0 ∧ d.rd p Reg.AXIS.AX_STAT_STOP_CAUSE = 0 ∧ d.axE a = 0 ∧ (d.ax a).p = x.p ∧
        s.chip.SameBut d [.reg, .axes]) ∧
      ((st = 1 ∨ st = 2) → s.chip.rd p Reg.AXIS.AX_STAT_HOMED ≠ 0 → s.chip.axLimit a false = false →
        s.chip.axLimit a true = false → x.boundLo = none → x.boundHi = none → Completes (.axisMove a) s fun d =>
          d.axState a = 3 ∧ (d.ax a).cmd = 2 ∧ (d.ax a).target = soft ∧ (d.ax a).p = x.p ∧ (d.ax a).v = x.v ∧
          d.rd p Reg.AXIS.AX_STAT_SOFT_CLAMP = (if soft = t then 0 else 1) ∧ s.chip.SameBut d [.reg, .axes]) ∧
      ((st = 1 ∨ st = 2) → s.chip.rd p Reg.AXIS.AX_STAT_HOMED ≠ 0 → Completes (.axisFollow a) s fun d =>
        Ends 4 1 d ∧ (d.ax a).target = x.pos) ∧
      (st = 1 → Completes (.axisHold a) s fun d => Ends 2 1 d ∧ (d.ax a).v = 0) ∧
      (st = 7 → bit s.chip.pins.brgFaultLow a.val = false → Completes (.axisClear a) s fun d =>
        Ends 1 1 d ∧ (d.ax a).v = 0)) ∧
    ((st = 1 ∨ st = 2) → Completes (.axisStop a) s (Ends st 1)) ∧
    (st = 3 → x.cmd ≠ 0 → Completes (.axisStop a) s fun d =>
      d.axState a = 6 ∧ (d.ax a).cmd = 4 ∧ d.rd p Reg.AXIS.AX_STAT_RESULT = 5 ∧ d.rd p Reg.AXIS.AX_STAT_STOP_CAUSE = 1 ∧
      (d.ax a).v = x.v ∧ s.chip.SameBut d [.reg, .axes]) ∧
    ((st = 1 ∨ st = 2) → Completes (.axisRelease a) s (Ends 1 1)) ∧
    (∀ cmd : Fin 16,
      let Turned : Nat → Chip → Prop := fun r d =>
        d.rd p Reg.AXIS.AX_STAT_RESULT = r ∧ d.axState a = st ∧ d.axes = s.chip.axes ∧ s.chip.SameBut d [.reg]
      (8 ≤ cmd.val → Completes (.axisCommandReject a cmd) s (Turned 3)) ∧
      (quenched = true → 1 ≤ cmd.val → cmd.val < 8 → cmd.val ≠ 4 → cmd.val ≠ 6 →
        Completes (.axisCommandReject a cmd) s (Turned 3)) ∧
      (quenched = false → st = 7 → 1 ≤ cmd.val → cmd.val < 7 → Completes (.axisCommandReject a cmd) s (Turned 2))) ∧
    (st = 5 → x.homeStep = 3 → Completes (.homeSettle a) s fun d =>
      let stop := s.chip.rdS p Reg.AXIS.HOME_STOP_POS_POS
      let away : Int := if s.chip.rd p Reg.AXIS.HOME_CFG_HOME_DIR ≠ 0 then -1 else 1
      (d.ax a).p = stop * 4294967296 ∧ (d.ax a).homeStep = 5 ∧ d.axE a = 0 ∧
      (d.ax a).target = stop + away * (s.chip.rd p Reg.AXIS.HOME_BACKOFF_BACKOFF : Nat) ∧ s.chip.SameBut d [.tb, .reg, .axes]) ∧
    ((st = 2 ∨ st = 4) → x.v = 0 → Completes (.holdDelayExpiry a) s fun d =>
      d.ax a = { x with holdLow := true } ∧ s.chip.SameBut d [.tb, .axes]) ∧
    (Completes (.brgFault a false) s fun d =>
      d.axState a = 7 ∧ d.rd p Reg.AXIS.AX_STAT_BRG_FAULT = 1 ∧ (d.ax a).v = 0 ∧ (d.ax a).dutyA = 0 ∧ (d.ax a).dutyB = 0 ∧
      (x.cmd ≠ 0 → d.rd p Reg.AXIS.AX_STAT_RESULT = 6) ∧ (d.ax a).cmd = 0 ∧
      (s.chip.pageUp p = true → d.x16 = s.chip.x16 ++ [⟨0x080 + 8 * a.val, 1, 2, 0, p.num⟩]) ∧
      s.chip.SameBut d [.reg, .axes, .pins, .x16]) ∧
    Completes (.brgFault a true) s fun d =>
      d.rd p Reg.AXIS.AX_STAT_BRG_FAULT = 0 ∧ bit d.pins.brgFaultLow a.val = false ∧ s.chip.SameBut d [.reg, .pins]

/-- A frame of the stop ramp slows at DSTOP, advances by the mean speed and ends in HOLD; a frame of a MOVE follows
the trapezoid while it has not arrived. The generator updates once a frame. A chopper period, due once in CHOP_DIV
frames, shows the coil currents; a late one is a deadline miss. Levels that have not held past GLITCH change nothing;
one changed encoder level counts one, two count a skip; no edge reports speed 0. An index event keeps the first count,
corrects a deviation of up to two counts, and beyond that clears HOMED and stops with cause 7. An accepted limit
towards which a MOVE goes stops it with cause 3; a released one lifts its bound; an input that changes too often in a
window is declared faulty and stops with cause 5, and is cleared after 1 s of rest. Without targets for 400 frames
FOLLOW stops with cause 6. -/
def Obligations.AxesMoveAndAreSupervised : Prop :=
  ∀ (s : State) (a : Axis), s.chip.Interlocked →
    let p : Page := .axis a
    let x := s.chip.ax a
    let st := s.chip.axState a
    let prof : Fld → Int := fun f => (max 1 (s.chip.rd p f) : Nat)
    let one : Int := 4294967296
    let cnt : Fld → Nat := fun f => min (s.chip.rd p f + 1) (2 ^ f.w - 1)
    let src := 0x080 + 8 * a.val
    let Stops : Nat → Chip → Prop := fun k d =>
      d.axState a = 6 ∧ d.rd p Reg.AXIS.AX_STAT_STOP_CAUSE = k ∧ d.rd p Reg.AXIS.AX_STAT_RESULT = 5 ∧ (d.ax a).cmd = 0 ∧
      (d.ax a).v = x.v ∧ (d.ax a).p = x.p ∧ s.chip.SameBut d [.reg, .axes, .x16]
    (x.genFrame = some s.chip.frameNum.toNat → Completes (.axisFrameUpdate a) s fun d => s.chip.SameBut d []) ∧
    (x.targetIn = none → x.genFrame ≠ some s.chip.frameNum.toNat →
      (st = 6 → x.toOff = false →
        let v' := sgn x.v * max 0 (absI x.v - divRound (4 * prof Reg.AXIS.DSTOP_DSTOP * one) 400000)
        (v' ≠ 0 → Completes (.axisFrameUpdate a) s fun d =>
          d.axState a = 6 ∧ (d.ax a).v = v' ∧ (d.ax a).p = x.p + divRound (x.v + v') 800000) ∧
        (v' = 0 → Completes (.axisFrameUpdate a) s fun d =>
          d.axState a = 2 ∧ (d.ax a).v = 0 ∧ (x.cmd = 4 → d.rd p Reg.AXIS.AX_STAT_RESULT = 1))) ∧
      (st = 3 → x.kind = 0 → s.chip.axLimit a false = false → s.chip.axLimit a true = false →
        x.streak + 1 < s.chip.rd p Reg.AXIS.STALL_CFG_STALL_N →
        let v' := trapStep x.v (x.target * one - x.p) (prof Reg.AXIS.VMAX_VMAX) (prof Reg.AXIS.V1_V1) (4 * prof Reg.AXIS.A1_A1)
          (4 * prof Reg.AXIS.A2_A2) (4 * prof Reg.AXIS.D1_D1) (4 * prof Reg.AXIS.D2_D2)
        (x.advance v').arrived = false → Completes (.axisFrameUpdate a) s fun d =>
          d.axState a = 3 ∧ (d.ax a).v = v' ∧ (d.ax a).p = x.p + divRound (x.v + v') 800000 ∧
          (d.ax a).target = x.target)) ∧
    (∀ (iA iB : BitVec 12) (late : Bool), s.chip.chopDue a = false → Completes (.chopperPeriod a iA iB late) s fun d =>
      s.chip.SameBut d []) ∧
    (∀ iA iB : BitVec 12, s.chip.chopDue a = true →
      let mA := fun (k : Nat) (code : BitVec 12) => toBits 16 (satI 16
        (s.chip.currentMa 1 (2 * a.val + k) (s.chip.rd p Reg.AXIS.ISCALE_ISNS_FS_MA) code.toNat))
      (Completes (.chopperPeriod a iA iB true) s fun d =>
        d.rd p Reg.AXIS.CUR_STAT_IA_MA = mA 0 iA ∧ d.rd p Reg.AXIS.CUR_STAT_IB_MA = mA 1 iB ∧
        d.rd p Reg.HDR.DL_MISS_COUNT = min (s.chip.rd p Reg.HDR.DL_MISS_COUNT + 1) (2 ^ 32 - 1) ∧
        (s.chip.pageUp p = true → d.x16 = s.chip.x16 ++ [⟨src + 5, 1, 0, st % 1024, p.num⟩]) ∧ (d.ax a).dutyA = x.dutyA ∧
        (d.ax a).dutyB = x.dutyB) ∧
      Completes (.chopperPeriod a iA iB false) s fun d =>
        d.rd p Reg.AXIS.CUR_STAT_IA_MA = mA 0 iA ∧ d.rd p Reg.AXIS.CUR_STAT_IB_MA = mA 1 iB ∧
        ((st = 0 ∨ st = 1 ∨ st = 7) → (d.ax a).dutyA = 0 ∧ (d.ax a).dutyB = 0) ∧ s.chip.SameBut d [.reg, .axes]) ∧
    (∀ n : Nat, s.chip.encAccepts a n = false →
      (∀ A B : Bool, Completes (.encoderEdge a A B n) s fun d => s.chip.SameBut d []) ∧
      Completes (.indexEvent a n) s fun d => s.chip.SameBut d []) ∧
    (∀ (A B : Bool) (n : Nat), s.chip.encAccepts a n = true →
      (A ≠ x.encA → B ≠ x.encB → Completes (.encoderEdge a A B n) s fun d =>
        (d.ax a).enc = x.enc ∧ (d.ax a).encA = A ∧ (d.ax a).encB = B ∧ d.rd p Reg.AXIS.AX_STAT_POS_UNCERTAIN = 1 ∧
        d.rd p Reg.AXIS.INDEX_STAT_SKIPS = cnt Reg.AXIS.INDEX_STAT_SKIPS) ∧
      (s.chip.rd p Reg.AXIS.ENC_CFG_ENC_DIR = 0 →
        (A ≠ x.encA → B = x.encB → Completes (.encoderEdge a A B n) s fun d =>
          (d.ax a).enc = (if A = B then x.enc - 1 else x.enc + 1) ∧ (d.ax a).encA = A ∧ s.chip.SameBut d [.reg, .axes]) ∧
        (A = x.encA → B ≠ x.encB → Completes (.encoderEdge a A B n) s fun d =>
          (d.ax a).enc = (if A = B then x.enc + 1 else x.enc - 1) ∧ (d.ax a).encB = B ∧ s.chip.SameBut d [.reg, .axes])) ∧
      (A = x.encA → B = x.encB → Completes (.encoderEdge a A B n) s fun d => d.ax a = x ∧ d.reg = s.chip.reg)) ∧
    (Completes (.encoderSpeedTimeout a) s fun d =>
      d.rd p Reg.AXIS.SPEED_COUNTS_S = 0 ∧ d.rd p Reg.AXIS.SPEED_VALID = 1 ∧ (d.ax a).edges = [] ∧
      s.chip.SameBut d [.tb, .reg, .axes]) ∧
    (∀ n : Nat, s.chip.encAccepts a n = true → s.chip.rd p Reg.AXIS.ENC_CFG_INDEX_EN ≠ 0 → st ≠ 5 → s.chip.rd p Reg.AXIS.AX_STAT_HOMED ≠ 0 →
      (x.idxKnown = false → Completes (.indexEvent a n) s fun d =>
        d.rd p Reg.AXIS.INDEX_REF_COUNT = toBits 32 x.enc ∧ (d.ax a).idxKnown = true ∧
        d.rd p Reg.AXIS.AX_STAT_POS_UNCERTAIN = 0 ∧ s.chip.SameBut d [.reg, .axes]) ∧
      (x.idxKnown = true →
        let ref := s.chip.rdS p Reg.AXIS.INDEX_REF_COUNT
        let cpr : Nat := max 1 (s.chip.rd p Reg.AXIS.ENC_CPR_CPR)
        let dev := x.enc - (ref + divRound (x.enc - ref) cpr * cpr)
        (dev = 0 → Completes (.indexEvent a n) s fun d => (d.ax a) = x ∧ d.rd p Reg.AXIS.AX_STAT_POS_UNCERTAIN = 0) ∧
        (dev ≠ 0 → dev.natAbs ≤ 2 → Completes (.indexEvent a n) s fun d =>
          (d.ax a).enc = x.enc - dev ∧ d.rd p Reg.AXIS.INDEX_STAT_MINOR = cnt Reg.AXIS.INDEX_STAT_MINOR ∧
          d.axState a = st) ∧
        (2 < dev.natAbs → Completes (.indexEvent a n) s fun d =>
          (d.ax a).enc = x.enc ∧ d.rd p Reg.AXIS.AX_STAT_HOMED = 0 ∧
          d.rd p Reg.AXIS.INDEX_STAT_MAJOR = cnt Reg.AXIS.INDEX_STAT_MAJOR ∧
          (st = 4 → d.axState a = 6 ∧ d.rd p Reg.AXIS.AX_STAT_STOP_CAUSE = 7)))) ∧
    (∀ hi : Bool,
      let lim := if hi then Reg.AXIS.AX_STAT_LIM_HI else Reg.AXIS.AX_STAT_LIM_LO
      let bad := if hi then Reg.AXIS.AX_STAT_HI_FAULTY else Reg.AXIS.AX_STAT_LO_FAULTY
      let active : Bool := s.chip.rd p Reg.AXIS.LIMIT_CFG_LIM_POL != 0
      (st = 3 → x.cmd ≠ 0 → x.limSeen = false → (if hi then 0 < x.v else x.v < 0) →
        Completes (.limitAccept a hi active) s fun d => Stops 3 d ∧ d.rd p lim = 1) ∧
      (st ≤ 2 → Completes (.limitAccept a hi (!active)) s fun d =>
        d.rd p lim = 0 ∧ (if hi then (d.ax a).boundHi = none else (d.ax a).boundLo = none) ∧ d.axState a = st) ∧
      let win := (s.chip.now - x.onAt) / ms (max 1 (s.chip.rd p Reg.AXIS.LIMIT_CFG_CHATTER_WIN_MS))
      let tally := fun (n : Nat) => AxisSt.chatter (if hi then x.chatHi else x.chatLo) win n
      (∀ n : Nat, max 1 (s.chip.rd p Reg.AXIS.LIMIT_CFG_CHATTER_K) < (tally n).2 → s.chip.rd p bad = 0 → st = 3 → x.cmd ≠ 0 →
        Completes (.limitChatter a hi n) s fun d =>
          Stops 5 d ∧ d.rd p bad = 1 ∧ d.rd p Reg.AXIS.EVENTS_CHATTER = cnt Reg.AXIS.EVENTS_CHATTER) ∧
      (∀ n : Nat, (tally n).2 ≤ s.chip.rd p Reg.AXIS.LIMIT_CFG_CHATTER_K → Completes (.limitChatter a hi n) s fun d =>
        (n ≠ 0 → (if hi then (d.ax a).chatHi else (d.ax a).chatLo) = tally n) ∧ d.reg = s.chip.reg ∧ s.chip.SameBut d [.axes]) ∧
      ∀ r : Requester, s.chip.Writable r p →
        ((if hi then x.hiChange else x.loChange) + 100000000 ≤ s.chip.now → Completes (.limitClear r a hi) s fun d =>
          d.rd p bad = 0 ∧ s.chip.SameBut d [.reg] ∧ s.chip.SameRegs d [(p, bad, 0)]) ∧
        (s.chip.now < (if hi then x.hiChange else x.loChange) + 100000000 → Completes (.limitClear r a hi) s fun d =>
          d = s.chip)) ∧
    (st = 4 → 400 ≤ x.noTarget → Completes (.targetLost a) s fun d =>
      d.axState a = 6 ∧ d.rd p Reg.AXIS.AX_STAT_STOP_CAUSE = 6 ∧ (d.ax a).v = x.v ∧ (d.ax a).p = x.p ∧
      s.chip.SameBut d [.reg, .axes, .x16] ∧ d.rd p Reg.AXIS.EVENTS_TARGET_LOST = cnt Reg.AXIS.EVENTS_TARGET_LOST)

/-- With the assay island up: a calibration slot is done once, shows the trims ready and counts for each enabled,
trimmed kind of converter; the reference offset shows its deviation, and REF_OK within 3,000 ppm; a conversion, at
each fortieth frame, sets the twelve temperatures valid and Tj to their highest plus 2 degrees; a late one is marked,
counted and sent. A VHOLD sample shows its corrected code and, outside a flush, B_max and Budget = min(B_max,
STAGE_LIMIT) follow from it. TEST_REQ and each due time make the capacitance test due; its end releases HOLD_TEST and
shows an accepted capacitance, else sends HOLDUP_TEST_FAIL. -/
def Obligations.ReferenceTemperaturesAndHoldup : Prop :=
  ∀ s : State, s.chip.Interlocked →
    (s.chip.islandUp .assay = true →
      (∀ i : CalSlotIn, s.chip.framesRunning = true → 3584 ≤ s.chip.frameNum.toNat % 4096 →
        s.chip.assay.lastSlot ≠ some (s.chip.frameNum.toNat / 4096) →
        let enM := s.chip.flag .assay Reg.ASSAY.ASSAY_CTL_CAL_M_EN && i.trimM
        let enH := s.chip.flag .assay Reg.ASSAY.ASSAY_CTL_CAL_H_EN && i.trimH
        Completes (.calSlot i) s fun d =>
          d.assay.lastSlot = some (s.chip.frameNum.toNat / 4096) ∧
          d.rd .assay Reg.ASSAY.ASSAY_STAT_CAL_M_READY = b2n enM ∧ d.rd .assay Reg.ASSAY.ASSAY_STAT_CAL_H_READY = b2n enH ∧
          (enM = true → d.rd .assay Reg.ASSAY.CAL_CYCLES_M_SLOTS = min (s.chip.rd .assay Reg.ASSAY.CAL_CYCLES_M_SLOTS + 1) 65535) ∧
          (enH = true → d.rd .assay Reg.ASSAY.CAL_CYCLES_H_SLOTS = min (s.chip.rd .assay Reg.ASSAY.CAL_CYCLES_H_SLOTS + 1) 65535) ∧
          (enH = true → s.chip.frameNum.toNat / 4096 % 9 ≠ 0 → d.assay.nextAssay = (s.chip.assay.nextAssay + 1) % 13) ∧
          s.chip.SameBut d [.reg, .x16, .assay] ∧ s.chip.SameElsewhere d (· = .assay)) ∧
      (∀ ppm : Int, Completes (.refOffsetMeasure ppm) s fun d =>
        d.rdS .assay Reg.ASSAY.REF_DEV_PPM = max (-32768) (min 32767 ppm) ∧ d.assay.refAt = some d.now ∧
        (∀ t, s.chip.assay.refAt = some t → t + secs 1 < 2 ^ 64 → t + secs 1 ≤ d.now) ∧
        d.rd .assay Reg.ASSAY.ASSAY_STAT_REF_OK = (if ppm.natAbs ≤ 3000 then 1 else 0) ∧
        (3000 < ppm.natAbs → s.chip.assay.refOut = false → d.x16 = s.chip.x16 ++ [⟨8, 1, 1, 0, 0x13⟩]) ∧
        (ppm.natAbs ≤ 3000 ∨ s.chip.assay.refOut = true → d.x16 = s.chip.x16)) ∧
      (∀ dv : Vector (BitVec 32) 12,
        let t := fun (n : Fin 12) => sensorTemp n.val (dv.get n).toNat
        (s.chip.frameNum.toNat % 40 = 0 → Completes (.tempConversion dv) s fun d =>
          (∀ n : Fin 12, d.rdI .assay Reg.ASSAY.TEMP_T n.val = (t n).toNat ∧ d.rdI .assay Reg.ASSAY.TEMP_VALID n.val = 1) ∧
          d.rdS .assay Reg.ASSAY.TJ_T = satI 16 (((List.finRange 12).map fun n => (t n).toInt).foldl max (-32768) + 128)) ∧
        (s.chip.frameNum.toNat % 40 ≠ 0 → Completes (.tempConversion dv) s fun d => s.chip.SameBut d [])) ∧
      (∀ n : Fin 12, Completes (.tempDeadline n) s fun d =>
        d.rdI .assay Reg.ASSAY.TEMP_VALID n.val = 0 ∧ d.x16 = s.chip.x16 ++ [⟨0xB, 1, 0, 0, 0x13⟩] ∧
        d.rd .assay Reg.HDR.DL_MISS_COUNT = min (s.chip.rd .assay Reg.HDR.DL_MISS_COUNT + 1) (2 ^ 32 - 1)) ∧
      (∀ raw : BitVec 14, s.chip.islandUp .mem = true →
        let v := (clampI 0 16383 (divRound (s.chip.vholdCode raw.toNat) 16)).toNat
        Completes (.vholdSample raw) s fun d =>
          d.rd .assay Reg.ASSAY.VHOLD_CODE = v ∧
          (s.chip.rd .sluice Reg.SLUICE.SLUICE_STAT_FLUSHING = 0 →
            d.sluice.bMax = s.chip.bMaxOf v 1 ∧ d.sluice.budget = min (s.chip.bMaxOf v 1) s.chip.stageLimit))) ∧
    (∀ r : Requester, s.chip.Writable r .sluice → Completes (.capTestRequest r) s fun d =>
      d.sluice = { s.chip.sluice with due := true } ∧ s.chip.SameBut d [.sluice]) ∧
    (∀ t : Nat, s.chip.sluice.dueAt = some t → Completes .capTestDue s fun d =>
      d.sluice = { s.chip.sluice with due := true, dueAt := some (t + s.chip.testPeriod) } ∧ s.chip.SameBut d [.tb, .sluice]) ∧
    ∀ (t : CapTest) (t0 : Nat), s.chip.sluice.test = some t → t.t0 = some t0 → 100 * t.len ≤ t.codes.length →
      (∀ uf esr : Nat, s.chip.testResult t = some (uf, esr) → s.chip.cRef ≤ 2 * uf → uf ≤ 2 * s.chip.cRef →
        Completes .capTestEnd s fun d =>
          d.pins.holdTest = false ∧ d.sluice.test = none ∧ d.rd .sluice Reg.SLUICE.CAP_MEAS_UF = min uf (2 ^ 24 - 1) ∧
          d.rd .sluice Reg.SLUICE.SLUICE_STAT_CAP_VALID = 1) ∧
      (s.chip.testResult t = none → s.chip.islandUp .mem = true → Completes .capTestEnd s fun d =>
        d.pins.holdTest = false ∧ d.sluice.test = none ∧ d.x16 = s.chip.x16 ++ [⟨0x16, 2, 1, 0, 0x18⟩] ∧
        d.rd .sluice Reg.SLUICE.CAP_MEAS_UF = s.chip.rd .sluice Reg.SLUICE.CAP_MEAS_UF)

/-- A qualifying ingot under a beam in its working role whose zone entry was not captured in the last 60 s writes
GAIN_z × g_a, rounded and held to 12 bits, as that zone's gain at the port's temperature point. The commit of the
values of a due port, or of ports about to be enabled with a set present, computes them at the port's temperature.
STORE_REQ asks for a store; a due one takes a snapshot of the working set with the next SEQ for the older copy; with
its batch admitted that copy is erased under an intent, then written where a package takes it with its check, and
becomes the set in force; without admission it is abandoned, counted and left to be tried again. -/
def Obligations.CalibrationSetIsCapturedAndStored : Prop :=
  ∀ s : State, s.chip.Interlocked →
    (∀ (h : Port) (b : BeamNo) (k l z : Nat), (s.chip.bm h b).capReady = some (l, z) →
      s.chip.calPoint (s.chip.portTemp h) = some k → s.chip.beamRole h b = 1 → s.chip.headQuenched h = false →
      s.chip.headGated h = false → s.chip.linkState h = 3 → s.chip.mgmt.resumed = true → k < 6 → l < 8 → z < 24 →
      assocGet (calKey k h b (24 * l + z)) s.chip.assay.capAt = none →
      Completes (.captureCalibration h b) s fun d =>
        (d.bm h b).capReady = none ∧
        (d.calWord k h b (24 * l + z)) % 4096 = min 4095 ((s.chip.rdI (.beam h b) Reg.BEAM.ZT_GAIN (24 * l + z) *
          s.chip.rd (.beam h b) Reg.BEAM.FE_STATE_G_A + 16384) / 32768)) ∧
    (∀ h : Port, s.chip.calDue h = true → s.chip.headGated h = false → s.chip.headQuenched h = false →
      s.chip.linkState h = 3 → s.chip.mgmt.resumed = true → s.chip.rqMgmt.gcState ≠ 1 →
      Completes (.interpolationCommit h) s fun d =>
        assocGet h.val d.assay.valT = some (s.chip.portTemp h) ∧ assocGet h.val d.assay.valAt = some s.chip.now ∧
        h.val ∉ d.assay.dirty) ∧
    (∀ m : BitVec 16, s.chip.assay.setValid = true → s.chip.rqMgmt.gcState ≠ 1 →
      Completes (.portEnableCommit m) s fun d =>
        ∀ h : Port, m.getLsbD h.val = true → s.chip.headGated h = false →
          assocGet h.val d.assay.valT = some (s.chip.portTemp h) ∧ d.rqMgmt.target = (s.chip.frameNum.toNat + 4) % 2 ^ 32) ∧
    (∀ r : Requester, s.chip.Writable r .assay → Completes (.calStoreRequest r) s fun d =>
      d.assay = { s.chip.assay with storeReq := true } ∧ bit (d.rd .assay Reg.HDR.INT_STAT_BLOCK) 2 = true ∧
      s.chip.SameBut d [.reg, .assay] ∧ s.chip.SameRegs d [(.assay, Reg.HDR.INT_STAT_BLOCK, 0)]) ∧
    (s.chip.sluice.calStore = none → s.chip.mgmt.resumed = true → s.chip.rs.mounted = true → s.chip.calStoreDue = true →
      Completes .calStore s fun d =>
        (∃ k, d.sluice.calStore = some k ∧ k.copyB = s.chip.calOlderB ∧ k.snap.seq = s.chip.calSeq + 1 ∧
          k.snap.cal = s.chip.assay.cal ∧ k.snap.opuIds = s.chip.assay.opuIds) ∧
        d.assay.storeReq = false ∧ d.assay.changed = none) ∧
    ∀ k : CalStore, s.chip.sluice.calStore = some k →
      (((s.chip.batch? k.batch).bind (·.seq)).isSome = true → s.chip.rs.mounted = true → s.chip.mgmt.resumed = true →
        k.erased = false → Completes .calStore s fun d =>
          d.sluice.calStore = some { k with erased := true } ∧ (if k.copyB then d.rs.calB else d.rs.calA) = none ∧
          (∀ n : Fin 2, (s.chip.pkg n).mounted = true → (⟨n.val, 1⟩ : NandIntent) ∈ d.rs.intents) ∧ s.chip.SameBut d [.rs, .sluice]) ∧
      (((s.chip.batch? k.batch).bind (·.seq)).isSome = true → s.chip.rs.mounted = true → s.chip.mgmt.resumed = true →
        k.erased = true → Completes .calStore s fun d =>
          d.sluice.calStore = none ∧
          (if k.copyB then d.rs.calB else d.rs.calA) = (if s.chip.calHolds then some k.snap else none) ∧
          (∀ i ∈ d.rs.intents, i.what ≠ 1) ∧
          (if k.copyB then d.rs.calA else d.rs.calB) = (if k.copyB then s.chip.rs.calA else s.chip.rs.calB) ∧
          d.assay = { s.chip.assay with seq := k.snap.seq, setValid := true }) ∧
      (((s.chip.batch? k.batch).bind (·.seq)).isSome = false →
        Completes .calStoreAbandon s fun d =>
          d.sluice.calStore = none ∧ d.rs.calDefers = s.chip.rs.calDefers + 1 ∧ d.assay.changed = some d.now)

/-- WT_FORCE, written, puts every namespace into write-through or not; the oldest waiting write past its delay puts
its namespace there and sends STAGING_BLOCKED; with room for long enough the namespace leaves it; a partial row that
has waited is recorded padded. A hallmark unit's RESTART starts its test register from INIT and shows the value of no
bytes; FEED carries one byte through it; a held commit applies once the stream is idle; a parity error is kept for the
message in progress and sent. The value of a message depends on the setting by R772 alone, and CRC-8 of the nine
digits is 0xF4, CRC-32C 0xE3069283. -/
def Obligations.WriteThroughAndHallmarks : Prop :=
  (crc crc8 [0x31, 0x32, 0x33, 0x34, 0x35, 0x36, 0x37, 0x38, 0x39] = 0xF4 ∧
    crc crc32c [0x31, 0x32, 0x33, 0x34, 0x35, 0x36, 0x37, 0x38, 0x39] = 0xE3069283) ∧
  ∀ s : State, s.chip.Interlocked →
    (∀ r : Requester, s.chip.Writable r .sluice →
      (Completes (.wtForceWrite r true) s fun d => ∀ n, d.nsWt n = true) ∧
      Completes (.wtForceWrite r false) s fun d => ∀ n, d.nsWt n = s.chip.sluice.wt.contains n) ∧
    (∀ (n : Fin 1025) (b : Batch), s.chip.sluice.batches.find?
        (fun b => b.nsid == n.val && b.seq.isNone && !b.wt && b.kind != 0 && !s.chip.heldBack b) = some b →
      s.chip.islandUp .mem = true →
      Completes (.writeThroughEnter n) s fun d => n.val ∈ d.sluice.wt ∧ ⟨0x15, 2, 1, 0, 0x18⟩ ∈ d.x16) ∧
    (∀ (n : Fin 1025) (t : Nat), s.chip.sluice.roomSince = some t → n.val ∈ s.chip.sluice.wt →
      Completes (.writeThroughLeave n) s fun d =>
        n.val ∉ d.sluice.wt ∧ ∀ k, k ≠ n.val → (k ∈ d.sluice.wt ↔ k ∈ s.chip.sluice.wt)) ∧
    (∀ (n : Fin 1025) (z id pz : Nat) (p : Polder),
      let x := s.chip.zone n.val z
      let pad := x.dataEnd - x.rowNext * rowBlocks
      x.bind = some (id, pz) → s.chip.polder? id = some p → x.st ≠ .full → pad ≠ 0 → pad < rowBlocks → x.padAt ≠ x.dataEnd →
      s.chip.takesRows p = true →
      (s.chip.sluice.batches.any fun b => b.wt && b.staged && b.nsid == n.val && b.zone == z && b.rows.contains x.rowNext) = true →
      Completes (.partialRowTimeout n z) s fun d => (d.zone n.val z).padAt = x.dataEnd) ∧
    ∀ n : HallNo,
      let k := s.chip.hallSetting n
      (∀ r : Requester, s.chip.Writable r (.hall n) →
        (Completes (.hallRestart r n) s fun d =>
          d.hallU n = { s.chip.hallU n with test := some k.init } ∧
          d.rd (.hall n) Reg.HALL.TEST_LO_VALUE = crcFinal k k.init % 2 ^ 32 ∧
          d.rd (.hall n) Reg.HALL.TEST_HI_VALUE = crcFinal k k.init / 2 ^ 32 % 2 ^ 32 ∧ s.chip.SameBut d [.reg, .halls]) ∧
        ∀ (x : Byte) (t : Nat), (s.chip.hallU n).test = some t → Completes (.hallFeed r n x) s fun d =>
          d.hallU n = { s.chip.hallU n with test := some (crcByte k t x.toNat) } ∧
          d.rd (.hall n) Reg.HALL.TEST_CTL_BYTE = x.toNat ∧
          d.rd (.hall n) Reg.HALL.TEST_LO_VALUE = crcFinal k (crcByte k t x.toNat) % 2 ^ 32 ∧
          d.rd (.hall n) Reg.HALL.TEST_HI_VALUE = crcFinal k (crcByte k t x.toNat) / 2 ^ 32 % 2 ^ 32 ∧
          s.chip.SameBut d [.reg, .halls]) ∧
      (s.chip.rd (.hall n) Reg.HALL.HALL_STAT_HELD ≠ 0 → s.chip.rd (.hall n) Reg.HALL.HALL_STAT_IDLE ≠ 0 →
        s.chip.frozen (.hall n) = true → Completes (.hallCommitRelease n) s fun d =>
          d.rd (.hall n) Reg.HALL.HALL_STAT_HELD = 0 ∧ d.frozen (.hall n) = false ∧
          d.rd (.hall n) Reg.HDR.SEQ_COUNT = (s.chip.rd (.hall n) Reg.HDR.SEQ_COUNT + 1) % 2 ^ Reg.HDR.SEQ_COUNT.w ∧
          (∀ f ∈ [Reg.HALL.HALL_CFG_WIDTH, Reg.HALL.HALL_CFG_POLY_SEL, Reg.HALL.POLY_LO_POLY, Reg.HALL.POLY_HI_POLY],
            f.acc = .rws → d.rd (.hall n) f = s.chip.shd (.hall n) f)) ∧
      (s.chip.pageUp (.hall n) = true → Completes (.hallParity n) s fun d =>
        d.hallU n = { s.chip.hallU n with parity := true } ∧
        d.x16 = s.chip.x16 ++ [⟨0x380 + n.val, 1, 2, 0, (Page.hall n).num⟩] ∧ s.chip.SameBut d [.x16, .halls])

/-- A scrub step, at its time in the pass, over a clean word leaves every word as it is and moves on; a correctable
one is rewritten and counted in CORR; an uncorrectable one is counted in UNCORR. Arming the checker test takes its
fields, and is skipped in staging. A cache operation on a cacheable line held in a way zeroes it, writes it back word
by word, drops it, or both, and sets DONE; while DONE is 0, or outside the cacheable regions, nothing moves. INV_ALL
drops every way and keeps the victims; CLEAN_ALL leaves no way dirty; FLIP is armed with its fields. The oldest
victim's data reaches memory and its entry is freed. A way whose tag copies both fail is dropped and reported. -/
def Obligations.BufferMemoryAndCacheAreChecked : Prop :=
  ∀ (s : State) (r : Requester), s.chip.Interlocked → s.chip.Writable r .mem → s.chip.Writable r .cache →
    let m := s.chip.mem
    let cnt : Page → Fld → Nat := fun p f => min (s.chip.rd p f + 1) (2 ^ f.w - 1)
    (∀ (u : BitVec 144) (o : Nat), s.chip.rd .mem Reg.MEM.ECC_CTL_SCRUB_EN ≠ 0 → s.chip.rd .mem Reg.MEM.FLIP_CTL_ARMED = 0 →
      let a := m.scrubAt
      let w := (m.raw a ^^^ u).toNat
      let next := (a + 1) % 1610612736
      let Moves : Chip → Prop := fun d =>
        (s.chip.scrubDue a < 2 ^ 64 → s.chip.scrubDue a ≤ d.now) ∧
        d.mem.scrubAt = next ∧ d.rd .mem Reg.MEM.SCRUB_STAT_PROGRESS = next * 65536 / 1610612736 ∧
        (next = 0 → d.rd .mem Reg.MEM.SCRUB_STAT_PASSES = cnt .mem Reg.MEM.SCRUB_STAT_PASSES) ∧ d.mem.lines = m.lines ∧
        ∀ b, b ≠ a → d.mem.raw b = m.raw b
      (eccDecode 135 w = .clean → slice 128 7 w = eccTag a → Completes (.memoryScrubStep u o) s fun d =>
        Moves d ∧ d.mem.raw a = m.raw a ^^^ u ∧ s.chip.SameBut d [.tb, .reg, .mem]) ∧
      (∀ i, eccDecode 135 w = .fixed i → slice 128 7 (w ^^^ 2 ^ i) = eccTag a → Completes (.memoryScrubStep u o) s fun d =>
        Moves d ∧ d.mem.raw a = eccWord a (BitVec.ofNat 128 (w ^^^ 2 ^ i)) ∧
        d.rd .mem Reg.MEM.ECC_STAT_CORR = cnt .mem Reg.MEM.ECC_STAT_CORR ∧
        d.x16 = s.chip.x16 ++ [⟨0x11, 1, 0, 0, 16 * a % 2 ^ 32⟩]) ∧
      (eccDecode 135 w = .bad → 0x280000000 ≤ 16 * a → 16 * a < 0x380000000 → Completes (.memoryScrubStep u o) s fun d =>
        Moves d ∧ d.stripe = s.chip.stripe.eraseIdx o ∧ d.rd .mem Reg.MEM.ECC_STAT_UNCORR = cnt .mem Reg.MEM.ECC_STAT_UNCORR ∧
        d.x16 = s.chip.x16 ++ [⟨0x12, 1, 2, 0, 16 * a % 2 ^ 32⟩])) ∧
    (∀ w : Word,
      let staged := 0x140000000 ≤ 16 * s.chip.flipAddr ∧ 16 * s.chip.flipAddr < 0x1C0000000
      Completes (.memFlipArm r w) s fun d =>
        d.rd .mem Reg.MEM.FLIP_CTL_POS0 = w.toNat % 256 ∧ d.rd .mem Reg.MEM.FLIP_CTL_EN0 = w.toNat / 256 % 2 ∧
        d.rd .mem Reg.MEM.FLIP_CTL_POS1 = w.toNat / 65536 % 256 ∧ d.rd .mem Reg.MEM.FLIP_CTL_EN1 = w.toNat / 2 ^ 24 % 2 ∧
        (staged → d.rd .mem Reg.MEM.FLIP_CTL_ARMED = 0 ∧ d.rd .mem Reg.MEM.FLIP_CTL_DONE = 1) ∧
        (¬ staged → d.rd .mem Reg.MEM.FLIP_CTL_ARMED = 1 ∧ d.rd .mem Reg.MEM.FLIP_CTL_DONE = 0) ∧ s.chip.SameBut d [.reg]) ∧
    (let line := s.chip.opLine
     s.chip.rd .cache Reg.CACHE.OP_CTL_DONE ≠ 0 → m.cacheFlip = false → (∀ e ∈ m.lines, e.2.badA = false) →
      (128 * line < 0x140000000 → ∀ (k : Nat) (x : CacheLine), s.chip.wayOf line = some (k, x) →
        let Back : Chip → Prop := fun d => ∀ i, i < 8 →
          d.mem.raw (8 * line + i) = eccWord (8 * line + i) (BitVec.ofNat 128 (x.sub.getD i 0).toNat)
        let Done : Chip → Prop := fun d => d.rd .cache Reg.CACHE.OP_CTL_DONE = 1
        ((∀ v ∈ m.victims, v.1 ≠ line) → Completes (.cacheZeroLine r) s fun d =>
          Done d ∧ assocGet k d.mem.lines = some { x with sub := List.replicate 8 (cacheSub 0), dirty := true } ∧
          d.mem.ram = m.ram ∧ s.chip.SameBut d [.reg, .mem]) ∧
        (Completes (.cacheInvalidateLine r) s fun d =>
          Done d ∧ assocGet k d.mem.lines = none ∧ d.mem.ram = m.ram ∧ s.chip.SameBut d [.reg, .mem]) ∧
        (x.dirty = false → Completes (.cacheCleanLine r) s fun d => Done d ∧ d.mem = m ∧ s.chip.SameBut d [.reg]) ∧
        (x.dirty = true → x.sub.length = 8 → (∀ v ∈ x.sub, eccDecode 128 v.toNat = .clean) →
          s.chip.rd .mem Reg.MEM.FLIP_CTL_ARMED = 0 →
          (Completes (.cacheCleanLine r) s fun d =>
            Done d ∧ Back d ∧ (∃ y, assocGet k d.mem.lines = some y ∧ y.dirty = false ∧ y.sub = x.sub) ∧
            s.chip.SameBut d [.reg, .mem]) ∧
          Completes (.cacheCleanInvalidateLine r) s fun d =>
            Done d ∧ Back d ∧ assocGet k d.mem.lines = none ∧ s.chip.SameBut d [.reg, .mem])) ∧
      (0x140000000 ≤ 128 * line → Completes (.cacheZeroLine r) s fun d =>
        d.rd .cache Reg.CACHE.OP_CTL_DONE = 1 ∧ s.chip.SameBut d [.reg])) ∧
    (s.chip.rd .cache Reg.CACHE.OP_CTL_DONE = 0 →
      (Completes (.cacheZeroLine r) s fun d => s.chip.SameBut d [.reg]) ∧
      (Completes (.cacheCleanLine r) s fun d => s.chip.SameBut d [.reg]) ∧
      (Completes (.cacheInvalidateLine r) s fun d => s.chip.SameBut d [.reg]) ∧
      Completes (.cacheCleanInvalidateLine r) s fun d => s.chip.SameBut d [.reg]) ∧
    (s.chip.rd .cache Reg.CACHE.CACHE_CTL_BUSY = 0 →
      (Completes (.cacheInvAll r) s fun d =>
        d.mem.lines = [] ∧ d.mem.victims = m.victims ∧ d.mem.ram = m.ram ∧ s.chip.SameBut d [.tb, .reg, .mem]) ∧
      (m.cacheFlip = false → (m.lines.map (·.1)).Pairwise (· < ·) → Completes (.cacheCleanAll r) s fun d =>
        ∀ (k : Nat) (x : CacheLine), assocGet k d.mem.lines = some x → x.dirty = false)) ∧
    (∀ w : Word, Completes (.cacheFlipArm r w) s fun d =>
      d.mem.cacheFlip = true ∧ d.rd .cache Reg.CACHE.FLIP_SET = w.toNat % 4096 ∧
      d.rd .cache Reg.CACHE.FLIP_WAY = w.toNat / 4096 % 16 ∧ d.rd .cache Reg.CACHE.FLIP_SUB = w.toNat / 65536 % 8 ∧
      d.rd .cache Reg.CACHE.FLIP_BIT = w.toNat / 2 ^ 19 % 256 ∧ d.rd .cache Reg.CACHE.FLIP_MODE = w.toNat / 2 ^ 27 % 4 ∧
      d.rd .cache Reg.CACHE.FLIP_DONE = 0 ∧ s.chip.SameBut d [.reg, .mem]) ∧
    (∀ (v : Nat × List (BitVec 137)) (l : List (Nat × List (BitVec 137))), m.victims = v :: l → m.zeroWait = none →
      v.2.length = 8 → (∀ x ∈ v.2, eccDecode 128 x.toNat = .clean) → s.chip.rd .mem Reg.MEM.FLIP_CTL_ARMED = 0 →
      Completes .victimWritebackDone s fun d =>
        d.mem.victims = l ∧ d.mem.lines = m.lines ∧
        ∀ i, i < 8 → d.mem.raw (8 * v.1 + i) = eccWord (8 * v.1 + i) (BitVec.ofNat 128 (v.2.getD i 0).toNat)) ∧
    ∀ (set : Fin 4096) (way : Fin 16),
      let k := 16 * set.val + way.val
      (assocGet k m.lines ≠ none → Completes (.cacheTagLost set way) s fun d =>
        assocGet k d.mem.lines = none ∧ (∀ j, j ≠ k → assocGet j d.mem.lines = assocGet j m.lines) ∧
        d.rd .cache Reg.CACHE.ERR_LAST_SET = set.val ∧ d.rd .cache Reg.CACHE.ERR_LAST_WAY = way.val ∧
        d.rd .cache Reg.CACHE.ERR_LAST_KIND = 3 ∧ d.x16 = s.chip.x16 ++ [⟨0x13, 1, 2, 0, 0x17⟩]) ∧
      (assocGet k m.lines = none → Completes (.cacheTagLost set way) s fun d => d = s.chip)

/-- A failed program or erase of a mounted package takes a spare block, counts and is reported; with none left the
package is retired. HOLD takes a package only while the other serves; REPLACE formats a held one as blank, or reports
that it does not answer. A wear-levelling move waits for a flush, a resynchronisation and fault history, records its
intent when the counts spread too far and, at its end, removes it and takes the new counts. The hourly reading of
laser wear and the minute's life step run once firmware has resumed, at their times. -/
def Obligations.StorageIsWatchedOver : Prop :=
  ∀ (s : State) (r : Requester) (k : Fin 2), s.chip.Interlocked → s.chip.Writable r .rstore →
    let q := s.chip.pkg k
    let l := s.chip.log
    (∀ er : Bool, q.mounted = true →
      let n := q.spare - 1
      let first := s.chip.x16 ++ [⟨0x1D, if er then 2 else 1, 0, 0, 0x1B⟩]
      (1 < q.spare → Completes (.nandProgramFail k er) s fun d =>
        (d.pkg k).spare = n ∧ (d.pkg k).mounted = true ∧ (d.pkg k).retired = q.retired ∧
        (d.pkg k).programFails = (if er then q.programFails else q.programFails + 1) ∧ d.pkg (1 - k) = s.chip.pkg (1 - k) ∧
        ∃ m, d.x16 = first ++ m) ∧
      (q.spare ≤ 1 → Completes (.nandProgramFail k er) s fun d =>
        (d.pkg k).spare = 0 ∧ (d.pkg k).mounted = false ∧ (d.pkg k).retired = true ∧
        d.pkg (1 - k) = s.chip.pkg (1 - k) ∧ ⟨0x1F, 3, 2, 0, 0x1B⟩ ∈ d.x16)) ∧
    ((s.chip.pkg (1 - k)).serves = true → Completes (.packageHold r k) s fun d =>
      (d.pkg k).held = true ∧ (d.pkg k).mounted = false ∧ d.pkg (1 - k) = s.chip.pkg (1 - k) ∧
      d.rdI .rstore Reg.RSTORE.PKG_STAT_STATE k.val = 3) ∧
    ((s.chip.pkg (1 - k)).serves = false → Completes (.packageHold r k) s fun d => d = s.chip) ∧
    (q.held = true →
      (∀ i : PkgInfo, Completes (.packageReplace r k (some i)) s fun d =>
        (d.pkg k).mounted = true ∧ (d.pkg k).current = false ∧ (d.pkg k).held = false ∧ (d.pkg k).spare = i.spare ∧
        (d.pkg k).rated = i.rated ∧ d.rdI .rstore Reg.RSTORE.PKG_STAT_STATE k.val = 4) ∧
      Completes (.packageReplace r k none) s fun d =>
        (d.pkg k).present = false ∧ ⟨0x1F, 1, 2, 0, 0x1B⟩ ∈ d.x16) ∧
    (q.held = false → ∀ i : Option PkgInfo, Completes (.packageReplace r k i) s fun d => d = s.chip) ∧
    ((∀ i ∈ s.chip.rs.intents, i.pkg = k.val → i.what ≠ 0) → s.chip.mgmt.resumed = true → s.chip.bgSuspended = false →
      q.mounted = true → s.chip.nandTurn k 7 = true →
      q.eraseMin + max 1 (s.chip.rd .rstore Reg.RSTORE.WEAR_CFG_WL_SPREAD) < q.eraseMax →
      Completes (.wearLevelMove k none) s fun d =>
        d.rs.intents = s.chip.rs.intents ++ [⟨k.val, 0⟩] ∧ s.chip.SameBut d [.rs]) ∧
    (s.chip.nandTurn k 7 = false → Completes (.wearLevelMove k none) s fun d => d = s.chip) ∧
    (∀ e : EraseCounts, (∃ i ∈ s.chip.rs.intents, i.pkg = k.val ∧ i.what = 0) → Completes (.wearLevelMove k (some e)) s fun d =>
      d.rs.intents = s.chip.rs.intents.filter (fun i => !(i.pkg == k.val && i.what == 0)) ∧ (d.pkg k).eraseMin = e.least ∧ (d.pkg k).eraseMax = e.most ∧
      (d.pkg k).eraseMean = e.mean) ∧
    (s.chip.mgmt.resumed = false →
      (Completes .laserWearRead s fun d => d = s.chip) ∧ Completes .lifeSumUpdate s fun d => d = s.chip) ∧
    (s.chip.mgmt.resumed = true →
      (l.wearAt + 360000000000 < 2 ^ 64 → Completes .laserWearRead s fun d =>
        d.log.wearAt = d.now ∧ l.wearAt + 360000000000 ≤ d.now ∧ d.log.gen0 = l.gen0 + 1 ∧ s.chip.SameBut d [.tb, .log]) ∧
      (l.lifeAt + 6000000000 < 2 ^ 64 → Completes .lifeSumUpdate s fun d =>
        d.log.lifeAt = d.now ∧ l.lifeAt + 6000000000 ≤ d.now ∧ d.log.gen3 = l.gen3 + 1 ∧
        d.log.life = l.life + lifeRate (s.chip.rdS .assay Reg.ASSAY.TJ_T) ∧ s.chip.SameBut d [.tb, .log]))
end

