-- ==== Sys2Proof/Laws/Sparse.lean ====
section
/-!
SUPPORT. Laws of the sparse stores: a read after a write, and the canonical form that every operation keeps.
-/
namespace Sys2Proof.Machine

theorem Sparse.get_insert_same (d : Word) (s : Sparse) (k : Nat) (v : Word) :
    Sparse.get d (Sparse.insert s k v) k = v := by
  induction s with
  | nil => simp [Sparse.insert, Sparse.get]
  | cons e r ih =>
    obtain ⟨k', v'⟩ := e
    simp only [Sparse.insert]
    split
    · simp [Sparse.get]
    · split <;> simp_all [Sparse.get]

theorem Sparse.get_insert_ne (d : Word) (s : Sparse) (k j : Nat) (v : Word) (h : j ≠ k) :
    Sparse.get d (Sparse.insert s k v) j = Sparse.get d s j := by
  induction s with
  | nil => simp [Sparse.insert, Sparse.get, h]
  | cons e r ih =>
    obtain ⟨k', v'⟩ := e
    simp only [Sparse.insert]
    split
    · subst_vars; simp [Sparse.get, h]
    · split <;> simp_all [Sparse.get]

theorem Sparse.get_filter_ne (d : Word) (s : Sparse) (k j : Nat) (h : j ≠ k) :
    Sparse.get d (s.filter (fun e => e.1 != k)) j = Sparse.get d s j := by
  induction s with
  | nil => rfl
  | cons e r ih =>
    obtain ⟨k', v'⟩ := e
    by_cases hk : k' = k
    · subst hk; simp [Sparse.get, h, ih]
    · simp [hk, Sparse.get, ih]

theorem Sparse.get_filter_same (d : Word) (s : Sparse) (k : Nat) :
    Sparse.get d (s.filter (fun e => e.1 != k)) k = d := by
  induction s with
  | nil => rfl
  | cons e r ih =>
    obtain ⟨k', v'⟩ := e
    by_cases hk : k' = k
    · subst hk; simpa using ih
    · simp [hk, Sparse.get, Ne.symm hk, ih]

/-- A read after a write of the same key gives what was written. -/
theorem Sparse.get_set_same (d : Word) (s : Sparse) (k : Nat) (v : Word) : Sparse.get d (Sparse.set d s k v) k = v := by
  unfold Sparse.set
  split
  · subst_vars; exact Sparse.get_filter_same ..
  · exact Sparse.get_insert_same ..

/-- A write leaves every other key alone, whatever an unlisted key reads as. -/
theorem Sparse.get_set_ne (d d' : Word) (s : Sparse) (k j : Nat) (v : Word) (h : j ≠ k) :
    Sparse.get d' (Sparse.set d s k v) j = Sparse.get d' s j := by
  unfold Sparse.set
  split
  · exact Sparse.get_filter_ne _ _ _ _ h
  · exact Sparse.get_insert_ne _ _ _ _ _ h

theorem Sparse.wfFrom_mono {lo lo' : Nat} {s : Sparse} (hl : lo' ≤ lo) (h : Sparse.wfFrom lo s = true) :
    Sparse.wfFrom lo' s = true := by
  cases s with
  | nil => rfl
  | cons e r => simp only [Sparse.wfFrom, Bool.and_eq_true, decide_eq_true_eq] at *; exact ⟨by omega, h.2⟩

/-- Taking entries away keeps the canonical form. -/
theorem Sparse.wfFrom_filter (p : Nat × Word → Bool) {lo : Nat} {s : Sparse} (h : Sparse.wfFrom lo s = true) :
    Sparse.wfFrom lo (s.filter p) = true := by
  induction s generalizing lo with
  | nil => rfl
  | cons e r ih =>
    simp only [Sparse.wfFrom, Bool.and_eq_true, decide_eq_true_eq] at h
    by_cases hp : p e
    · simp only [List.filter_cons, hp, if_true, Sparse.wfFrom, Bool.and_eq_true, decide_eq_true_eq]
      exact ⟨h.1, ih h.2⟩
    · simp only [List.filter_cons, hp]
      exact Sparse.wfFrom_mono (by omega) (ih h.2)

theorem Sparse.wfFrom_insert {lo : Nat} {s : Sparse} {k : Nat} {v : Word} (hk : lo ≤ k)
    (h : Sparse.wfFrom lo s = true) : Sparse.wfFrom lo (Sparse.insert s k v) = true := by
  induction s generalizing lo with
  | nil => simp [Sparse.insert, Sparse.wfFrom, hk]
  | cons e r ih =>
    obtain ⟨k', v'⟩ := e
    simp only [Sparse.wfFrom, Bool.and_eq_true, decide_eq_true_eq] at h
    simp only [Sparse.insert]
    split
    · subst_vars; simp [Sparse.wfFrom, h.1, h.2]
    · split
      · simp [Sparse.wfFrom, hk, h.2]; omega
      · simp only [Sparse.wfFrom, Bool.and_eq_true, decide_eq_true_eq]
        exact ⟨h.1, ih (by omega) h.2⟩

/-- A write keeps the canonical form. -/
theorem Sparse.wf_set (d : Word) (s : Sparse) (k : Nat) (v : Word) (h : s.wf = true) : (Sparse.set d s k v).wf = true := by
  unfold Sparse.set Sparse.wf at *
  split
  · exact Sparse.wfFrom_filter _ h
  · exact Sparse.wfFrom_insert (Nat.zero_le _) h

/-- Dropping a range keeps the canonical form. -/
theorem Sparse.wf_dropRange (lo hi : Nat) (s : Sparse) (h : s.wf = true) : (Sparse.dropRange lo hi s).wf = true :=
  Sparse.wfFrom_filter _ h

theorem Sparse.wfFrom_append {lo m : Nat} {s t : Sparse} (hs : Sparse.wfFrom lo s = true) (hm : ∀ e ∈ s, e.1 < m)
    (hlo : lo ≤ m) (ht : Sparse.wfFrom m t = true) : Sparse.wfFrom lo (s ++ t) = true := by
  induction s generalizing lo with
  | nil => exact Sparse.wfFrom_mono hlo ht
  | cons e r ih =>
    simp only [Sparse.wfFrom, Bool.and_eq_true, decide_eq_true_eq] at hs
    simp only [List.cons_append, Sparse.wfFrom, Bool.and_eq_true, decide_eq_true_eq]
    have := hm e (by simp)
    exact ⟨hs.1, ih hs.2 (fun x hx => hm x (by simp [hx])) (by omega)⟩

theorem Sparse.wfFrom_bound {lo m : Nat} {s : Sparse} (h : Sparse.wfFrom lo s = true) (hm : ∀ e ∈ s, m ≤ e.1) :
    Sparse.wfFrom m s = true := by
  cases s with
  | nil => rfl
  | cons e r =>
    simp only [Sparse.wfFrom, Bool.and_eq_true, decide_eq_true_eq] at *
    exact ⟨hm e (by simp), h.2⟩

/-- Copying a range from another canonical store keeps the canonical form. -/
theorem Sparse.wf_copyRange (lo hi : Nat) (s t : Sparse) (hr : lo ≤ hi) (hs : s.wf = true) (ht : t.wf = true) :
    (Sparse.copyRange lo hi s t).wf = true := by
  unfold Sparse.copyRange Sparse.wf at *
  have h1 := Sparse.wfFrom_filter (fun e => decide (e.1 < lo)) hs
  have h2 := Sparse.wfFrom_filter (fun e => decide (lo ≤ e.1) && decide (e.1 < hi)) ht
  have h3 := Sparse.wfFrom_filter (fun e => decide (hi ≤ e.1)) hs
  have h12 := Sparse.wfFrom_append (m := lo) h1 (fun e he => by simpa using (List.mem_filter.1 he).2) (Nat.zero_le _)
    (Sparse.wfFrom_bound h2 (fun e he => by have := (List.mem_filter.1 he).2; simp at this; exact this.1))
  refine Sparse.wfFrom_append (m := hi) h12 (fun e he => ?_) (Nat.zero_le _)
    (Sparse.wfFrom_bound h3 (fun e he => by simpa using (List.mem_filter.1 he).2))
  rcases List.mem_append.1 he with he | he
  · have := (List.mem_filter.1 he).2; simp at this; omega
  · have := (List.mem_filter.1 he).2; simp at this; exact this.2

theorem Sparse.get_append (d : Word) (s t : Sparse) (k : Nat) :
    Sparse.get d (s ++ t) k = if s.any (fun e => e.1 == k) then Sparse.get d s k else Sparse.get d t k := by
  induction s with
  | nil => rfl
  | cons e r ih =>
    obtain ⟨k', v⟩ := e
    by_cases h : k = k'
    · subst h; simp [Sparse.get]
    · have h' : ¬ k' = k := fun e => h e.symm
      simp [Sparse.get, h, h', ih]

/-- Filtering by a test of the key leaves the keys that pass it. -/
theorem Sparse.get_filter (d : Word) (s : Sparse) (q : Nat → Bool) (k : Nat) :
    Sparse.get d (s.filter fun e => q e.1) k = if q k then Sparse.get d s k else d := by
  induction s with
  | nil => simp [Sparse.get]
  | cons e r ih =>
    obtain ⟨k', v⟩ := e
    by_cases h : k = k'
    · subst h
      by_cases hq : q k <;> simp [hq, Sparse.get] at *
      exact ih
    · by_cases hq : q k' <;> simp [hq, Sparse.get, h, ih]

theorem Sparse.any_filter (s : Sparse) (q : Nat → Bool) (k : Nat) (h : q k = false) :
    (s.filter fun e => q e.1).any (fun e => e.1 == k) = false := by
  rw [List.any_eq_false]
  intro e he hk
  have := (List.mem_filter.1 he).2
  simp at hk; subst hk; simp [h] at this

theorem Sparse.get_of_not_any (d : Word) (s : Sparse) (k : Nat) (h : s.any (fun e => e.1 == k) = false) :
    Sparse.get d s k = d := by
  induction s with
  | nil => rfl
  | cons e r ih =>
    obtain ⟨k', v⟩ := e
    simp only [List.any_cons, Bool.or_eq_false_iff, beq_eq_false_iff_ne] at h
    simp [Sparse.get, Ne.symm h.1, ih h.2]

/-- A read after a range was copied: the range reads as the source, the rest as before. -/
theorem Sparse.get_copyRange (d : Word) (lo hi : Nat) (s t : Sparse) (k : Nat) (hr : lo ≤ hi) :
    Sparse.get d (Sparse.copyRange lo hi s t) k = if lo ≤ k ∧ k < hi then Sparse.get d t k else Sparse.get d s k := by
  have e : ∀ (u v : Sparse), Sparse.get d (u ++ v) k =
      if u.any (fun e => e.1 == k) then Sparse.get d u k else Sparse.get d v k := fun u v => Sparse.get_append d u v k
  have f1 := Sparse.get_filter d s (fun x => decide (x < lo)) k
  have f2 := Sparse.get_filter d t (fun x => decide (lo ≤ x) && decide (x < hi)) k
  have f3 := Sparse.get_filter d s (fun x => decide (hi ≤ x)) k
  have a1 := Sparse.any_filter s (fun x => decide (x < lo)) k
  have a2 := Sparse.any_filter t (fun x => decide (lo ≤ x) && decide (x < hi)) k
  have g1 := Sparse.get_of_not_any d (s.filter fun e => decide (e.1 < lo)) k
  have g2 := Sparse.get_of_not_any d (t.filter fun e => decide (lo ≤ e.1) && decide (e.1 < hi)) k
  unfold Sparse.copyRange
  rw [e, e, List.any_append]
  by_cases h1 : k < lo
  · have h2 : ¬ (lo ≤ k) := by omega
    have h3 : ¬ (hi ≤ k) := by omega
    simp only [h1, h2, h3, decide_true, decide_false, Bool.false_and, if_true, if_false, false_and, Bool.false_eq_true] at *
    rw [a2 trivial]
    by_cases ha : (s.filter fun e => decide (e.1 < lo)).any (fun e => e.1 == k) = true
    · simp [ha, f1]
    · have ha' := Bool.eq_false_iff.2 ha
      simp only [ha', Bool.or_false, if_false, Bool.false_eq_true]; rw [f3, ← f1, g1 ha']
  · by_cases h3 : hi ≤ k
    · have h2 : ¬ (k < hi) := by omega
      simp only [h1, h2, h3, decide_true, decide_false, Bool.and_false, if_true, if_false, and_false, Bool.false_eq_true] at *
      rw [a2 trivial, a1 trivial]; simp only [Bool.or_false, if_false, Bool.false_eq_true]; rw [f3]
    · have h2 : lo ≤ k := by omega
      have h2' : k < hi := by omega
      simp only [h1, h2, h2', h3, decide_true, decide_false, Bool.and_self, if_true, if_false, and_self, Bool.false_eq_true] at *
      rw [a1 trivial]
      by_cases ha : (t.filter fun e => decide (lo ≤ e.1) && decide (e.1 < hi)).any (fun e => e.1 == k) = true
      · simp [ha, f2]
      · have ha' := Bool.eq_false_iff.2 ha
        simp only [ha', Bool.or_false, if_false, Bool.false_eq_true]; rw [f3, ← f2, g2 ha']

theorem Sparse.get_of_find_none (d : Word) (s : Sparse) (k : Nat) (h : s.find? (fun e => e.1 == k) = none) : Sparse.get d s k = d :=
  Sparse.get_of_not_any d s k (by simpa [List.find?_eq_none] using h)

theorem Sparse.get_of_find (d : Word) (s : Sparse) (k : Nat) (e : Nat × Word) (h : s.find? (fun e => e.1 == k) = some e) :
    Sparse.get d s k = e.2 := by
  induction s with
  | nil => simp at h
  | cons x r ih =>
    obtain ⟨k', v⟩ := x
    by_cases hk : k' = k
    · subst hk; simp at h; subst h; simp [Sparse.get]
    · simp only [List.find?_cons, beq_eq_false_iff_ne.2 hk] at h
      simp [Sparse.get, Ne.symm hk, ih h]

/-- A read after one key was copied: that key reads as the source, every other as before. -/
theorem Sparse.get_copyKey (d : Word) (k : Nat) (s t : Sparse) (j : Nat) :
    Sparse.get d (Sparse.copyKey k s t) j = if j = k then Sparse.get d t k else Sparse.get d s j := by
  unfold Sparse.copyKey
  by_cases hj : j = k
  · subst hj
    cases h : t.find? (fun e => e.1 == j) with
    | none => simp only [if_true]; rw [Sparse.get_filter_same, Sparse.get_of_find_none d t j h]
    | some e => simp only [if_true]; rw [Sparse.get_insert_same, Sparse.get_of_find d t j e h]
  · simp only [hj, if_false]
    cases t.find? (fun e => e.1 == k) with
    | none => exact Sparse.get_filter_ne d s k j hj
    | some e => exact Sparse.get_insert_ne d s k j e.2 hj

/-- Copying a key keeps the canonical form. -/
theorem Sparse.wf_copyKey (k : Nat) (s t : Sparse) (hs : s.wf = true) : (Sparse.copyKey k s t).wf = true := by
  unfold Sparse.copyKey
  cases t.find? (fun e => e.1 == k) with
  | none => exact Sparse.wfFrom_filter _ hs
  | some e => exact Sparse.wfFrom_insert (Nat.zero_le _) hs

/-- A read after several keys were copied. -/
theorem Sparse.get_copyKeys (d : Word) (l : List Nat) (s t : Sparse) (j : Nat) :
    Sparse.get d (l.foldl (fun a k => Sparse.copyKey k a t) s) j = if j ∈ l then Sparse.get d t j else Sparse.get d s j := by
  induction l generalizing s with
  | nil => simp
  | cons k r ih =>
    rw [List.foldl_cons, ih, Sparse.get_copyKey]
    by_cases hk : j = k <;> by_cases hr : j ∈ r <;> simp [hk, hr]

theorem Sparse.wf_copyKeys (l : List Nat) (s t : Sparse) (hs : s.wf = true) :
    (l.foldl (fun a k => Sparse.copyKey k a t) s).wf = true := by
  induction l generalizing s with
  | nil => exact hs
  | cons k r ih => exact ih _ (Sparse.wf_copyKey k s t hs)

/-- A dropped range reads as never written; the rest reads as before. -/
theorem Sparse.get_dropRange (d : Word) (lo hi : Nat) (s : Sparse) (k : Nat) :
    Sparse.get d (Sparse.dropRange lo hi s) k = if lo ≤ k ∧ k < hi then d else Sparse.get d s k := by
  unfold Sparse.dropRange
  rw [Sparse.get_filter d s (fun x => !(decide (lo ≤ x) && decide (x < hi))) k]
  by_cases h : lo ≤ k <;> by_cases h' : k < hi <;> simp [h, h']

end Sys2Proof.Machine
end

