-- ==== Sys2Proof/Laws/State.lean ====
section
/-!
SUPPORT. What each named update of the state leaves alone: one lemma per field and update, true by definition.
-/
namespace Sys2Proof.Machine

variable (c : Chip)

@[simp] theorem Chip.putI_tb (p : Page) (f : Fld) (i v : Nat) : (c.putI p f i v).tb = c.tb := rfl
@[simp] theorem Chip.putI_freeCt (p : Page) (f : Fld) (i v : Nat) : (c.putI p f i v).freeCt = c.freeCt := rfl
@[simp] theorem Chip.putI_commits (p : Page) (f : Fld) (i v : Nat) : (c.putI p f i v).commits = c.commits := rfl
@[simp] theorem Chip.putI_cmdPages (p : Page) (f : Fld) (i v : Nat) : (c.putI p f i v).cmdPages = c.cmdPages := rfl
@[simp] theorem Chip.putI_rqHost (p : Page) (f : Fld) (i v : Nat) : (c.putI p f i v).rqHost = c.rqHost := rfl
@[simp] theorem Chip.putI_rqMgmt (p : Page) (f : Fld) (i v : Nat) : (c.putI p f i v).rqMgmt = c.rqMgmt := rfl
@[simp] theorem Chip.putI_rqI3c (p : Page) (f : Fld) (i v : Nat) : (c.putI p f i v).rqI3c = c.rqI3c := rfl
@[simp] theorem Chip.putI_isl (p : Page) (f : Fld) (i v : Nat) : (c.putI p f i v).isl = c.isl := rfl
@[simp] theorem Chip.putI_pins (p : Page) (f : Fld) (i v : Nat) : (c.putI p f i v).pins = c.pins := rfl
@[simp] theorem Chip.putI_mgmt (p : Page) (f : Fld) (i v : Nat) : (c.putI p f i v).mgmt = c.mgmt := rfl
@[simp] theorem Chip.putI_framesRunning (p : Page) (f : Fld) (i v : Nat) : (c.putI p f i v).framesRunning = c.framesRunning := rfl
@[simp] theorem Chip.putI_frameNum (p : Page) (f : Fld) (i v : Nat) : (c.putI p f i v).frameNum = c.frameNum := rfl
@[simp] theorem Chip.putI_frameStart (p : Page) (f : Fld) (i v : Nat) : (c.putI p f i v).frameStart = c.frameStart := rfl
@[simp] theorem Chip.putI_x16 (p : Page) (f : Fld) (i v : Nat) : (c.putI p f i v).x16 = c.x16 := rfl
@[simp] theorem Chip.putI_col (p : Page) (f : Fld) (i v : Nat) : (c.putI p f i v).col = c.col := rfl
@[simp] theorem Chip.putI_halls (p : Page) (f : Fld) (i v : Nat) : (c.putI p f i v).halls = c.halls := rfl
@[simp] theorem Chip.putI_axes (p : Page) (f : Fld) (i v : Nat) : (c.putI p f i v).axes = c.axes := rfl
@[simp] theorem Chip.putI_spins (p : Page) (f : Fld) (i v : Nat) : (c.putI p f i v).spins = c.spins := rfl
@[simp] theorem Chip.putI_engs (p : Page) (f : Fld) (i v : Nat) : (c.putI p f i v).engs = c.engs := rfl
@[simp] theorem Chip.putI_traces (p : Page) (f : Fld) (i v : Nat) : (c.putI p f i v).traces = c.traces := rfl
@[simp] theorem Chip.putI_sets (p : Page) (f : Fld) (i v : Nat) : (c.putI p f i v).sets = c.sets := rfl
@[simp] theorem Chip.putI_meas (p : Page) (f : Fld) (i v : Nat) : (c.putI p f i v).meas = c.meas := rfl
@[simp] theorem Chip.putI_exch (p : Page) (f : Fld) (i v : Nat) : (c.putI p f i v).exch = c.exch := rfl
@[simp] theorem Chip.putI_groups (p : Page) (f : Fld) (i v : Nat) : (c.putI p f i v).groups = c.groups := rfl
@[simp] theorem Chip.putI_heads (p : Page) (f : Fld) (i v : Nat) : (c.putI p f i v).heads = c.heads := rfl
@[simp] theorem Chip.putI_servos (p : Page) (f : Fld) (i v : Nat) : (c.putI p f i v).servos = c.servos := rfl
@[simp] theorem Chip.putI_beams (p : Page) (f : Fld) (i v : Nat) : (c.putI p f i v).beams = c.beams := rfl
@[simp] theorem Chip.putI_assay (p : Page) (f : Fld) (i v : Nat) : (c.putI p f i v).assay = c.assay := rfl
@[simp] theorem Chip.putI_mem (p : Page) (f : Fld) (i v : Nat) : (c.putI p f i v).mem = c.mem := rfl
@[simp] theorem Chip.putI_sluice (p : Page) (f : Fld) (i v : Nat) : (c.putI p f i v).sluice = c.sluice := rfl
@[simp] theorem Chip.putI_rs (p : Page) (f : Fld) (i v : Nat) : (c.putI p f i v).rs = c.rs := rfl
@[simp] theorem Chip.putI_images (p : Page) (f : Fld) (i v : Nat) : (c.putI p f i v).images = c.images := rfl
@[simp] theorem Chip.putI_host (p : Page) (f : Fld) (i v : Nat) : (c.putI p f i v).host = c.host := rfl
@[simp] theorem Chip.putI_lib (p : Page) (f : Fld) (i v : Nat) : (c.putI p f i v).lib = c.lib := rfl
@[simp] theorem Chip.putI_peer (p : Page) (f : Fld) (i v : Nat) : (c.putI p f i v).peer = c.peer := rfl
@[simp] theorem Chip.putI_log (p : Page) (f : Fld) (i v : Nat) : (c.putI p f i v).log = c.log := rfl
@[simp] theorem Chip.putI_stripe (p : Page) (f : Fld) (i v : Nat) : (c.putI p f i v).stripe = c.stripe := rfl
@[simp] theorem Chip.putI_consumed (p : Page) (f : Fld) (i v : Nat) : (c.putI p f i v).consumed = c.consumed := rfl
@[simp] theorem Chip.putI_verified (p : Page) (f : Fld) (i v : Nat) : (c.putI p f i v).verified = c.verified := rfl
@[simp] theorem Chip.putI_spinDem (p : Page) (f : Fld) (i v : Nat) : (c.putI p f i v).spinDem = c.spinDem := rfl

@[simp] theorem Chip.put_tb (p : Page) (f : Fld) (v : Nat) : (c.put p f v).tb = c.tb := rfl
@[simp] theorem Chip.put_freeCt (p : Page) (f : Fld) (v : Nat) : (c.put p f v).freeCt = c.freeCt := rfl
@[simp] theorem Chip.put_commits (p : Page) (f : Fld) (v : Nat) : (c.put p f v).commits = c.commits := rfl
@[simp] theorem Chip.put_cmdPages (p : Page) (f : Fld) (v : Nat) : (c.put p f v).cmdPages = c.cmdPages := rfl
@[simp] theorem Chip.put_rqHost (p : Page) (f : Fld) (v : Nat) : (c.put p f v).rqHost = c.rqHost := rfl
@[simp] theorem Chip.put_rqMgmt (p : Page) (f : Fld) (v : Nat) : (c.put p f v).rqMgmt = c.rqMgmt := rfl
@[simp] theorem Chip.put_rqI3c (p : Page) (f : Fld) (v : Nat) : (c.put p f v).rqI3c = c.rqI3c := rfl
@[simp] theorem Chip.put_isl (p : Page) (f : Fld) (v : Nat) : (c.put p f v).isl = c.isl := rfl
@[simp] theorem Chip.put_pins (p : Page) (f : Fld) (v : Nat) : (c.put p f v).pins = c.pins := rfl
@[simp] theorem Chip.put_mgmt (p : Page) (f : Fld) (v : Nat) : (c.put p f v).mgmt = c.mgmt := rfl
@[simp] theorem Chip.put_framesRunning (p : Page) (f : Fld) (v : Nat) : (c.put p f v).framesRunning = c.framesRunning := rfl
@[simp] theorem Chip.put_frameNum (p : Page) (f : Fld) (v : Nat) : (c.put p f v).frameNum = c.frameNum := rfl
@[simp] theorem Chip.put_frameStart (p : Page) (f : Fld) (v : Nat) : (c.put p f v).frameStart = c.frameStart := rfl
@[simp] theorem Chip.put_x16 (p : Page) (f : Fld) (v : Nat) : (c.put p f v).x16 = c.x16 := rfl
@[simp] theorem Chip.put_col (p : Page) (f : Fld) (v : Nat) : (c.put p f v).col = c.col := rfl
@[simp] theorem Chip.put_halls (p : Page) (f : Fld) (v : Nat) : (c.put p f v).halls = c.halls := rfl
@[simp] theorem Chip.put_axes (p : Page) (f : Fld) (v : Nat) : (c.put p f v).axes = c.axes := rfl
@[simp] theorem Chip.put_spins (p : Page) (f : Fld) (v : Nat) : (c.put p f v).spins = c.spins := rfl
@[simp] theorem Chip.put_engs (p : Page) (f : Fld) (v : Nat) : (c.put p f v).engs = c.engs := rfl
@[simp] theorem Chip.put_traces (p : Page) (f : Fld) (v : Nat) : (c.put p f v).traces = c.traces := rfl
@[simp] theorem Chip.put_sets (p : Page) (f : Fld) (v : Nat) : (c.put p f v).sets = c.sets := rfl
@[simp] theorem Chip.put_meas (p : Page) (f : Fld) (v : Nat) : (c.put p f v).meas = c.meas := rfl
@[simp] theorem Chip.put_exch (p : Page) (f : Fld) (v : Nat) : (c.put p f v).exch = c.exch := rfl
@[simp] theorem Chip.put_groups (p : Page) (f : Fld) (v : Nat) : (c.put p f v).groups = c.groups := rfl
@[simp] theorem Chip.put_heads (p : Page) (f : Fld) (v : Nat) : (c.put p f v).heads = c.heads := rfl
@[simp] theorem Chip.put_servos (p : Page) (f : Fld) (v : Nat) : (c.put p f v).servos = c.servos := rfl
@[simp] theorem Chip.put_beams (p : Page) (f : Fld) (v : Nat) : (c.put p f v).beams = c.beams := rfl
@[simp] theorem Chip.put_assay (p : Page) (f : Fld) (v : Nat) : (c.put p f v).assay = c.assay := rfl
@[simp] theorem Chip.put_mem (p : Page) (f : Fld) (v : Nat) : (c.put p f v).mem = c.mem := rfl
@[simp] theorem Chip.put_sluice (p : Page) (f : Fld) (v : Nat) : (c.put p f v).sluice = c.sluice := rfl
@[simp] theorem Chip.put_rs (p : Page) (f : Fld) (v : Nat) : (c.put p f v).rs = c.rs := rfl
@[simp] theorem Chip.put_images (p : Page) (f : Fld) (v : Nat) : (c.put p f v).images = c.images := rfl
@[simp] theorem Chip.put_host (p : Page) (f : Fld) (v : Nat) : (c.put p f v).host = c.host := rfl
@[simp] theorem Chip.put_lib (p : Page) (f : Fld) (v : Nat) : (c.put p f v).lib = c.lib := rfl
@[simp] theorem Chip.put_peer (p : Page) (f : Fld) (v : Nat) : (c.put p f v).peer = c.peer := rfl
@[simp] theorem Chip.put_log (p : Page) (f : Fld) (v : Nat) : (c.put p f v).log = c.log := rfl
@[simp] theorem Chip.put_stripe (p : Page) (f : Fld) (v : Nat) : (c.put p f v).stripe = c.stripe := rfl
@[simp] theorem Chip.put_consumed (p : Page) (f : Fld) (v : Nat) : (c.put p f v).consumed = c.consumed := rfl
@[simp] theorem Chip.put_verified (p : Page) (f : Fld) (v : Nat) : (c.put p f v).verified = c.verified := rfl
@[simp] theorem Chip.put_spinDem (p : Page) (f : Fld) (v : Nat) : (c.put p f v).spinDem = c.spinDem := rfl

@[simp] theorem Chip.putB_tb (p : Page) (f : Fld) (b : Bool) : (c.putB p f b).tb = c.tb := rfl
@[simp] theorem Chip.putB_freeCt (p : Page) (f : Fld) (b : Bool) : (c.putB p f b).freeCt = c.freeCt := rfl
@[simp] theorem Chip.putB_commits (p : Page) (f : Fld) (b : Bool) : (c.putB p f b).commits = c.commits := rfl
@[simp] theorem Chip.putB_cmdPages (p : Page) (f : Fld) (b : Bool) : (c.putB p f b).cmdPages = c.cmdPages := rfl
@[simp] theorem Chip.putB_rqHost (p : Page) (f : Fld) (b : Bool) : (c.putB p f b).rqHost = c.rqHost := rfl
@[simp] theorem Chip.putB_rqMgmt (p : Page) (f : Fld) (b : Bool) : (c.putB p f b).rqMgmt = c.rqMgmt := rfl
@[simp] theorem Chip.putB_rqI3c (p : Page) (f : Fld) (b : Bool) : (c.putB p f b).rqI3c = c.rqI3c := rfl
@[simp] theorem Chip.putB_isl (p : Page) (f : Fld) (b : Bool) : (c.putB p f b).isl = c.isl := rfl
@[simp] theorem Chip.putB_pins (p : Page) (f : Fld) (b : Bool) : (c.putB p f b).pins = c.pins := rfl
@[simp] theorem Chip.putB_mgmt (p : Page) (f : Fld) (b : Bool) : (c.putB p f b).mgmt = c.mgmt := rfl
@[simp] theorem Chip.putB_framesRunning (p : Page) (f : Fld) (b : Bool) : (c.putB p f b).framesRunning = c.framesRunning := rfl
@[simp] theorem Chip.putB_frameNum (p : Page) (f : Fld) (b : Bool) : (c.putB p f b).frameNum = c.frameNum := rfl
@[simp] theorem Chip.putB_frameStart (p : Page) (f : Fld) (b : Bool) : (c.putB p f b).frameStart = c.frameStart := rfl
@[simp] theorem Chip.putB_x16 (p : Page) (f : Fld) (b : Bool) : (c.putB p f b).x16 = c.x16 := rfl
@[simp] theorem Chip.putB_col (p : Page) (f : Fld) (b : Bool) : (c.putB p f b).col = c.col := rfl
@[simp] theorem Chip.putB_halls (p : Page) (f : Fld) (b : Bool) : (c.putB p f b).halls = c.halls := rfl
@[simp] theorem Chip.putB_axes (p : Page) (f : Fld) (b : Bool) : (c.putB p f b).axes = c.axes := rfl
@[simp] theorem Chip.putB_spins (p : Page) (f : Fld) (b : Bool) : (c.putB p f b).spins = c.spins := rfl
@[simp] theorem Chip.putB_engs (p : Page) (f : Fld) (b : Bool) : (c.putB p f b).engs = c.engs := rfl
@[simp] theorem Chip.putB_traces (p : Page) (f : Fld) (b : Bool) : (c.putB p f b).traces = c.traces := rfl
@[simp] theorem Chip.putB_sets (p : Page) (f : Fld) (b : Bool) : (c.putB p f b).sets = c.sets := rfl
@[simp] theorem Chip.putB_meas (p : Page) (f : Fld) (b : Bool) : (c.putB p f b).meas = c.meas := rfl
@[simp] theorem Chip.putB_exch (p : Page) (f : Fld) (b : Bool) : (c.putB p f b).exch = c.exch := rfl
@[simp] theorem Chip.putB_groups (p : Page) (f : Fld) (b : Bool) : (c.putB p f b).groups = c.groups := rfl
@[simp] theorem Chip.putB_heads (p : Page) (f : Fld) (b : Bool) : (c.putB p f b).heads = c.heads := rfl
@[simp] theorem Chip.putB_servos (p : Page) (f : Fld) (b : Bool) : (c.putB p f b).servos = c.servos := rfl
@[simp] theorem Chip.putB_beams (p : Page) (f : Fld) (b : Bool) : (c.putB p f b).beams = c.beams := rfl
@[simp] theorem Chip.putB_assay (p : Page) (f : Fld) (b : Bool) : (c.putB p f b).assay = c.assay := rfl
@[simp] theorem Chip.putB_mem (p : Page) (f : Fld) (b : Bool) : (c.putB p f b).mem = c.mem := rfl
@[simp] theorem Chip.putB_sluice (p : Page) (f : Fld) (b : Bool) : (c.putB p f b).sluice = c.sluice := rfl
@[simp] theorem Chip.putB_rs (p : Page) (f : Fld) (b : Bool) : (c.putB p f b).rs = c.rs := rfl
@[simp] theorem Chip.putB_images (p : Page) (f : Fld) (b : Bool) : (c.putB p f b).images = c.images := rfl
@[simp] theorem Chip.putB_host (p : Page) (f : Fld) (b : Bool) : (c.putB p f b).host = c.host := rfl
@[simp] theorem Chip.putB_lib (p : Page) (f : Fld) (b : Bool) : (c.putB p f b).lib = c.lib := rfl
@[simp] theorem Chip.putB_peer (p : Page) (f : Fld) (b : Bool) : (c.putB p f b).peer = c.peer := rfl
@[simp] theorem Chip.putB_log (p : Page) (f : Fld) (b : Bool) : (c.putB p f b).log = c.log := rfl
@[simp] theorem Chip.putB_stripe (p : Page) (f : Fld) (b : Bool) : (c.putB p f b).stripe = c.stripe := rfl
@[simp] theorem Chip.putB_consumed (p : Page) (f : Fld) (b : Bool) : (c.putB p f b).consumed = c.consumed := rfl
@[simp] theorem Chip.putB_verified (p : Page) (f : Fld) (b : Bool) : (c.putB p f b).verified = c.verified := rfl
@[simp] theorem Chip.putB_spinDem (p : Page) (f : Fld) (b : Bool) : (c.putB p f b).spinDem = c.spinDem := rfl

@[simp] theorem Chip.putS_tb (p : Page) (f : Fld) (x : Int) : (c.putS p f x).tb = c.tb := rfl
@[simp] theorem Chip.putS_freeCt (p : Page) (f : Fld) (x : Int) : (c.putS p f x).freeCt = c.freeCt := rfl
@[simp] theorem Chip.putS_commits (p : Page) (f : Fld) (x : Int) : (c.putS p f x).commits = c.commits := rfl
@[simp] theorem Chip.putS_cmdPages (p : Page) (f : Fld) (x : Int) : (c.putS p f x).cmdPages = c.cmdPages := rfl
@[simp] theorem Chip.putS_rqHost (p : Page) (f : Fld) (x : Int) : (c.putS p f x).rqHost = c.rqHost := rfl
@[simp] theorem Chip.putS_rqMgmt (p : Page) (f : Fld) (x : Int) : (c.putS p f x).rqMgmt = c.rqMgmt := rfl
@[simp] theorem Chip.putS_rqI3c (p : Page) (f : Fld) (x : Int) : (c.putS p f x).rqI3c = c.rqI3c := rfl
@[simp] theorem Chip.putS_isl (p : Page) (f : Fld) (x : Int) : (c.putS p f x).isl = c.isl := rfl
@[simp] theorem Chip.putS_pins (p : Page) (f : Fld) (x : Int) : (c.putS p f x).pins = c.pins := rfl
@[simp] theorem Chip.putS_mgmt (p : Page) (f : Fld) (x : Int) : (c.putS p f x).mgmt = c.mgmt := rfl
@[simp] theorem Chip.putS_framesRunning (p : Page) (f : Fld) (x : Int) : (c.putS p f x).framesRunning = c.framesRunning := rfl
@[simp] theorem Chip.putS_frameNum (p : Page) (f : Fld) (x : Int) : (c.putS p f x).frameNum = c.frameNum := rfl
@[simp] theorem Chip.putS_frameStart (p : Page) (f : Fld) (x : Int) : (c.putS p f x).frameStart = c.frameStart := rfl
@[simp] theorem Chip.putS_x16 (p : Page) (f : Fld) (x : Int) : (c.putS p f x).x16 = c.x16 := rfl
@[simp] theorem Chip.putS_col (p : Page) (f : Fld) (x : Int) : (c.putS p f x).col = c.col := rfl
@[simp] theorem Chip.putS_halls (p : Page) (f : Fld) (x : Int) : (c.putS p f x).halls = c.halls := rfl
@[simp] theorem Chip.putS_axes (p : Page) (f : Fld) (x : Int) : (c.putS p f x).axes = c.axes := rfl
@[simp] theorem Chip.putS_spins (p : Page) (f : Fld) (x : Int) : (c.putS p f x).spins = c.spins := rfl
@[simp] theorem Chip.putS_engs (p : Page) (f : Fld) (x : Int) : (c.putS p f x).engs = c.engs := rfl
@[simp] theorem Chip.putS_traces (p : Page) (f : Fld) (x : Int) : (c.putS p f x).traces = c.traces := rfl
@[simp] theorem Chip.putS_sets (p : Page) (f : Fld) (x : Int) : (c.putS p f x).sets = c.sets := rfl
@[simp] theorem Chip.putS_meas (p : Page) (f : Fld) (x : Int) : (c.putS p f x).meas = c.meas := rfl
@[simp] theorem Chip.putS_exch (p : Page) (f : Fld) (x : Int) : (c.putS p f x).exch = c.exch := rfl
@[simp] theorem Chip.putS_groups (p : Page) (f : Fld) (x : Int) : (c.putS p f x).groups = c.groups := rfl
@[simp] theorem Chip.putS_heads (p : Page) (f : Fld) (x : Int) : (c.putS p f x).heads = c.heads := rfl
@[simp] theorem Chip.putS_servos (p : Page) (f : Fld) (x : Int) : (c.putS p f x).servos = c.servos := rfl
@[simp] theorem Chip.putS_beams (p : Page) (f : Fld) (x : Int) : (c.putS p f x).beams = c.beams := rfl
@[simp] theorem Chip.putS_assay (p : Page) (f : Fld) (x : Int) : (c.putS p f x).assay = c.assay := rfl
@[simp] theorem Chip.putS_mem (p : Page) (f : Fld) (x : Int) : (c.putS p f x).mem = c.mem := rfl
@[simp] theorem Chip.putS_sluice (p : Page) (f : Fld) (x : Int) : (c.putS p f x).sluice = c.sluice := rfl
@[simp] theorem Chip.putS_rs (p : Page) (f : Fld) (x : Int) : (c.putS p f x).rs = c.rs := rfl
@[simp] theorem Chip.putS_images (p : Page) (f : Fld) (x : Int) : (c.putS p f x).images = c.images := rfl
@[simp] theorem Chip.putS_host (p : Page) (f : Fld) (x : Int) : (c.putS p f x).host = c.host := rfl
@[simp] theorem Chip.putS_lib (p : Page) (f : Fld) (x : Int) : (c.putS p f x).lib = c.lib := rfl
@[simp] theorem Chip.putS_peer (p : Page) (f : Fld) (x : Int) : (c.putS p f x).peer = c.peer := rfl
@[simp] theorem Chip.putS_log (p : Page) (f : Fld) (x : Int) : (c.putS p f x).log = c.log := rfl
@[simp] theorem Chip.putS_stripe (p : Page) (f : Fld) (x : Int) : (c.putS p f x).stripe = c.stripe := rfl
@[simp] theorem Chip.putS_consumed (p : Page) (f : Fld) (x : Int) : (c.putS p f x).consumed = c.consumed := rfl
@[simp] theorem Chip.putS_verified (p : Page) (f : Fld) (x : Int) : (c.putS p f x).verified = c.verified := rfl
@[simp] theorem Chip.putS_spinDem (p : Page) (f : Fld) (x : Int) : (c.putS p f x).spinDem = c.spinDem := rfl

@[simp] theorem Chip.putShI_tb (p : Page) (f : Fld) (i v : Nat) : (c.putShI p f i v).tb = c.tb := rfl
@[simp] theorem Chip.putShI_freeCt (p : Page) (f : Fld) (i v : Nat) : (c.putShI p f i v).freeCt = c.freeCt := rfl
@[simp] theorem Chip.putShI_commits (p : Page) (f : Fld) (i v : Nat) : (c.putShI p f i v).commits = c.commits := rfl
@[simp] theorem Chip.putShI_cmdPages (p : Page) (f : Fld) (i v : Nat) : (c.putShI p f i v).cmdPages = c.cmdPages := rfl
@[simp] theorem Chip.putShI_rqHost (p : Page) (f : Fld) (i v : Nat) : (c.putShI p f i v).rqHost = c.rqHost := rfl
@[simp] theorem Chip.putShI_rqMgmt (p : Page) (f : Fld) (i v : Nat) : (c.putShI p f i v).rqMgmt = c.rqMgmt := rfl
@[simp] theorem Chip.putShI_rqI3c (p : Page) (f : Fld) (i v : Nat) : (c.putShI p f i v).rqI3c = c.rqI3c := rfl
@[simp] theorem Chip.putShI_isl (p : Page) (f : Fld) (i v : Nat) : (c.putShI p f i v).isl = c.isl := rfl
@[simp] theorem Chip.putShI_pins (p : Page) (f : Fld) (i v : Nat) : (c.putShI p f i v).pins = c.pins := rfl
@[simp] theorem Chip.putShI_mgmt (p : Page) (f : Fld) (i v : Nat) : (c.putShI p f i v).mgmt = c.mgmt := rfl
@[simp] theorem Chip.putShI_framesRunning (p : Page) (f : Fld) (i v : Nat) : (c.putShI p f i v).framesRunning = c.framesRunning := rfl
@[simp] theorem Chip.putShI_frameNum (p : Page) (f : Fld) (i v : Nat) : (c.putShI p f i v).frameNum = c.frameNum := rfl
@[simp] theorem Chip.putShI_frameStart (p : Page) (f : Fld) (i v : Nat) : (c.putShI p f i v).frameStart = c.frameStart := rfl
@[simp] theorem Chip.putShI_x16 (p : Page) (f : Fld) (i v : Nat) : (c.putShI p f i v).x16 = c.x16 := rfl
@[simp] theorem Chip.putShI_col (p : Page) (f : Fld) (i v : Nat) : (c.putShI p f i v).col = c.col := rfl
@[simp] theorem Chip.putShI_halls (p : Page) (f : Fld) (i v : Nat) : (c.putShI p f i v).halls = c.halls := rfl
@[simp] theorem Chip.putShI_axes (p : Page) (f : Fld) (i v : Nat) : (c.putShI p f i v).axes = c.axes := rfl
@[simp] theorem Chip.putShI_spins (p : Page) (f : Fld) (i v : Nat) : (c.putShI p f i v).spins = c.spins := rfl
@[simp] theorem Chip.putShI_engs (p : Page) (f : Fld) (i v : Nat) : (c.putShI p f i v).engs = c.engs := rfl
@[simp] theorem Chip.putShI_traces (p : Page) (f : Fld) (i v : Nat) : (c.putShI p f i v).traces = c.traces := rfl
@[simp] theorem Chip.putShI_sets (p : Page) (f : Fld) (i v : Nat) : (c.putShI p f i v).sets = c.sets := rfl
@[simp] theorem Chip.putShI_meas (p : Page) (f : Fld) (i v : Nat) : (c.putShI p f i v).meas = c.meas := rfl
@[simp] theorem Chip.putShI_exch (p : Page) (f : Fld) (i v : Nat) : (c.putShI p f i v).exch = c.exch := rfl
@[simp] theorem Chip.putShI_groups (p : Page) (f : Fld) (i v : Nat) : (c.putShI p f i v).groups = c.groups := rfl
@[simp] theorem Chip.putShI_heads (p : Page) (f : Fld) (i v : Nat) : (c.putShI p f i v).heads = c.heads := rfl
@[simp] theorem Chip.putShI_servos (p : Page) (f : Fld) (i v : Nat) : (c.putShI p f i v).servos = c.servos := rfl
@[simp] theorem Chip.putShI_beams (p : Page) (f : Fld) (i v : Nat) : (c.putShI p f i v).beams = c.beams := rfl
@[simp] theorem Chip.putShI_assay (p : Page) (f : Fld) (i v : Nat) : (c.putShI p f i v).assay = c.assay := rfl
@[simp] theorem Chip.putShI_mem (p : Page) (f : Fld) (i v : Nat) : (c.putShI p f i v).mem = c.mem := rfl
@[simp] theorem Chip.putShI_sluice (p : Page) (f : Fld) (i v : Nat) : (c.putShI p f i v).sluice = c.sluice := rfl
@[simp] theorem Chip.putShI_rs (p : Page) (f : Fld) (i v : Nat) : (c.putShI p f i v).rs = c.rs := rfl
@[simp] theorem Chip.putShI_images (p : Page) (f : Fld) (i v : Nat) : (c.putShI p f i v).images = c.images := rfl
@[simp] theorem Chip.putShI_host (p : Page) (f : Fld) (i v : Nat) : (c.putShI p f i v).host = c.host := rfl
@[simp] theorem Chip.putShI_lib (p : Page) (f : Fld) (i v : Nat) : (c.putShI p f i v).lib = c.lib := rfl
@[simp] theorem Chip.putShI_peer (p : Page) (f : Fld) (i v : Nat) : (c.putShI p f i v).peer = c.peer := rfl
@[simp] theorem Chip.putShI_log (p : Page) (f : Fld) (i v : Nat) : (c.putShI p f i v).log = c.log := rfl
@[simp] theorem Chip.putShI_stripe (p : Page) (f : Fld) (i v : Nat) : (c.putShI p f i v).stripe = c.stripe := rfl
@[simp] theorem Chip.putShI_consumed (p : Page) (f : Fld) (i v : Nat) : (c.putShI p f i v).consumed = c.consumed := rfl
@[simp] theorem Chip.putShI_verified (p : Page) (f : Fld) (i v : Nat) : (c.putShI p f i v).verified = c.verified := rfl
@[simp] theorem Chip.putShI_spinDem (p : Page) (f : Fld) (i v : Nat) : (c.putShI p f i v).spinDem = c.spinDem := rfl

@[simp] theorem Chip.putSh_tb (p : Page) (f : Fld) (v : Nat) : (c.putSh p f v).tb = c.tb := rfl
@[simp] theorem Chip.putSh_freeCt (p : Page) (f : Fld) (v : Nat) : (c.putSh p f v).freeCt = c.freeCt := rfl
@[simp] theorem Chip.putSh_commits (p : Page) (f : Fld) (v : Nat) : (c.putSh p f v).commits = c.commits := rfl
@[simp] theorem Chip.putSh_cmdPages (p : Page) (f : Fld) (v : Nat) : (c.putSh p f v).cmdPages = c.cmdPages := rfl
@[simp] theorem Chip.putSh_rqHost (p : Page) (f : Fld) (v : Nat) : (c.putSh p f v).rqHost = c.rqHost := rfl
@[simp] theorem Chip.putSh_rqMgmt (p : Page) (f : Fld) (v : Nat) : (c.putSh p f v).rqMgmt = c.rqMgmt := rfl
@[simp] theorem Chip.putSh_rqI3c (p : Page) (f : Fld) (v : Nat) : (c.putSh p f v).rqI3c = c.rqI3c := rfl
@[simp] theorem Chip.putSh_isl (p : Page) (f : Fld) (v : Nat) : (c.putSh p f v).isl = c.isl := rfl
@[simp] theorem Chip.putSh_pins (p : Page) (f : Fld) (v : Nat) : (c.putSh p f v).pins = c.pins := rfl
@[simp] theorem Chip.putSh_mgmt (p : Page) (f : Fld) (v : Nat) : (c.putSh p f v).mgmt = c.mgmt := rfl
@[simp] theorem Chip.putSh_framesRunning (p : Page) (f : Fld) (v : Nat) : (c.putSh p f v).framesRunning = c.framesRunning := rfl
@[simp] theorem Chip.putSh_frameNum (p : Page) (f : Fld) (v : Nat) : (c.putSh p f v).frameNum = c.frameNum := rfl
@[simp] theorem Chip.putSh_frameStart (p : Page) (f : Fld) (v : Nat) : (c.putSh p f v).frameStart = c.frameStart := rfl
@[simp] theorem Chip.putSh_x16 (p : Page) (f : Fld) (v : Nat) : (c.putSh p f v).x16 = c.x16 := rfl
@[simp] theorem Chip.putSh_col (p : Page) (f : Fld) (v : Nat) : (c.putSh p f v).col = c.col := rfl
@[simp] theorem Chip.putSh_halls (p : Page) (f : Fld) (v : Nat) : (c.putSh p f v).halls = c.halls := rfl
@[simp] theorem Chip.putSh_axes (p : Page) (f : Fld) (v : Nat) : (c.putSh p f v).axes = c.axes := rfl
@[simp] theorem Chip.putSh_spins (p : Page) (f : Fld) (v : Nat) : (c.putSh p f v).spins = c.spins := rfl
@[simp] theorem Chip.putSh_engs (p : Page) (f : Fld) (v : Nat) : (c.putSh p f v).engs = c.engs := rfl
@[simp] theorem Chip.putSh_traces (p : Page) (f : Fld) (v : Nat) : (c.putSh p f v).traces = c.traces := rfl
@[simp] theorem Chip.putSh_sets (p : Page) (f : Fld) (v : Nat) : (c.putSh p f v).sets = c.sets := rfl
@[simp] theorem Chip.putSh_meas (p : Page) (f : Fld) (v : Nat) : (c.putSh p f v).meas = c.meas := rfl
@[simp] theorem Chip.putSh_exch (p : Page) (f : Fld) (v : Nat) : (c.putSh p f v).exch = c.exch := rfl
@[simp] theorem Chip.putSh_groups (p : Page) (f : Fld) (v : Nat) : (c.putSh p f v).groups = c.groups := rfl
@[simp] theorem Chip.putSh_heads (p : Page) (f : Fld) (v : Nat) : (c.putSh p f v).heads = c.heads := rfl
@[simp] theorem Chip.putSh_servos (p : Page) (f : Fld) (v : Nat) : (c.putSh p f v).servos = c.servos := rfl
@[simp] theorem Chip.putSh_beams (p : Page) (f : Fld) (v : Nat) : (c.putSh p f v).beams = c.beams := rfl
@[simp] theorem Chip.putSh_assay (p : Page) (f : Fld) (v : Nat) : (c.putSh p f v).assay = c.assay := rfl
@[simp] theorem Chip.putSh_mem (p : Page) (f : Fld) (v : Nat) : (c.putSh p f v).mem = c.mem := rfl
@[simp] theorem Chip.putSh_sluice (p : Page) (f : Fld) (v : Nat) : (c.putSh p f v).sluice = c.sluice := rfl
@[simp] theorem Chip.putSh_rs (p : Page) (f : Fld) (v : Nat) : (c.putSh p f v).rs = c.rs := rfl
@[simp] theorem Chip.putSh_images (p : Page) (f : Fld) (v : Nat) : (c.putSh p f v).images = c.images := rfl
@[simp] theorem Chip.putSh_host (p : Page) (f : Fld) (v : Nat) : (c.putSh p f v).host = c.host := rfl
@[simp] theorem Chip.putSh_lib (p : Page) (f : Fld) (v : Nat) : (c.putSh p f v).lib = c.lib := rfl
@[simp] theorem Chip.putSh_peer (p : Page) (f : Fld) (v : Nat) : (c.putSh p f v).peer = c.peer := rfl
@[simp] theorem Chip.putSh_log (p : Page) (f : Fld) (v : Nat) : (c.putSh p f v).log = c.log := rfl
@[simp] theorem Chip.putSh_stripe (p : Page) (f : Fld) (v : Nat) : (c.putSh p f v).stripe = c.stripe := rfl
@[simp] theorem Chip.putSh_consumed (p : Page) (f : Fld) (v : Nat) : (c.putSh p f v).consumed = c.consumed := rfl
@[simp] theorem Chip.putSh_verified (p : Page) (f : Fld) (v : Nat) : (c.putSh p f v).verified = c.verified := rfl
@[simp] theorem Chip.putSh_spinDem (p : Page) (f : Fld) (v : Nat) : (c.putSh p f v).spinDem = c.spinDem := rfl

@[simp] theorem Chip.inc_tb (p : Page) (f : Fld) : (c.inc p f).tb = c.tb := rfl
@[simp] theorem Chip.inc_freeCt (p : Page) (f : Fld) : (c.inc p f).freeCt = c.freeCt := rfl
@[simp] theorem Chip.inc_commits (p : Page) (f : Fld) : (c.inc p f).commits = c.commits := rfl
@[simp] theorem Chip.inc_cmdPages (p : Page) (f : Fld) : (c.inc p f).cmdPages = c.cmdPages := rfl
@[simp] theorem Chip.inc_rqHost (p : Page) (f : Fld) : (c.inc p f).rqHost = c.rqHost := rfl
@[simp] theorem Chip.inc_rqMgmt (p : Page) (f : Fld) : (c.inc p f).rqMgmt = c.rqMgmt := rfl
@[simp] theorem Chip.inc_rqI3c (p : Page) (f : Fld) : (c.inc p f).rqI3c = c.rqI3c := rfl
@[simp] theorem Chip.inc_isl (p : Page) (f : Fld) : (c.inc p f).isl = c.isl := rfl
@[simp] theorem Chip.inc_pins (p : Page) (f : Fld) : (c.inc p f).pins = c.pins := rfl
@[simp] theorem Chip.inc_mgmt (p : Page) (f : Fld) : (c.inc p f).mgmt = c.mgmt := rfl
@[simp] theorem Chip.inc_framesRunning (p : Page) (f : Fld) : (c.inc p f).framesRunning = c.framesRunning := rfl
@[simp] theorem Chip.inc_frameNum (p : Page) (f : Fld) : (c.inc p f).frameNum = c.frameNum := rfl
@[simp] theorem Chip.inc_frameStart (p : Page) (f : Fld) : (c.inc p f).frameStart = c.frameStart := rfl
@[simp] theorem Chip.inc_x16 (p : Page) (f : Fld) : (c.inc p f).x16 = c.x16 := rfl
@[simp] theorem Chip.inc_col (p : Page) (f : Fld) : (c.inc p f).col = c.col := rfl
@[simp] theorem Chip.inc_halls (p : Page) (f : Fld) : (c.inc p f).halls = c.halls := rfl
@[simp] theorem Chip.inc_axes (p : Page) (f : Fld) : (c.inc p f).axes = c.axes := rfl
@[simp] theorem Chip.inc_spins (p : Page) (f : Fld) : (c.inc p f).spins = c.spins := rfl
@[simp] theorem Chip.inc_engs (p : Page) (f : Fld) : (c.inc p f).engs = c.engs := rfl
@[simp] theorem Chip.inc_traces (p : Page) (f : Fld) : (c.inc p f).traces = c.traces := rfl
@[simp] theorem Chip.inc_sets (p : Page) (f : Fld) : (c.inc p f).sets = c.sets := rfl
@[simp] theorem Chip.inc_meas (p : Page) (f : Fld) : (c.inc p f).meas = c.meas := rfl
@[simp] theorem Chip.inc_exch (p : Page) (f : Fld) : (c.inc p f).exch = c.exch := rfl
@[simp] theorem Chip.inc_groups (p : Page) (f : Fld) : (c.inc p f).groups = c.groups := rfl
@[simp] theorem Chip.inc_heads (p : Page) (f : Fld) : (c.inc p f).heads = c.heads := rfl
@[simp] theorem Chip.inc_servos (p : Page) (f : Fld) : (c.inc p f).servos = c.servos := rfl
@[simp] theorem Chip.inc_beams (p : Page) (f : Fld) : (c.inc p f).beams = c.beams := rfl
@[simp] theorem Chip.inc_assay (p : Page) (f : Fld) : (c.inc p f).assay = c.assay := rfl
@[simp] theorem Chip.inc_mem (p : Page) (f : Fld) : (c.inc p f).mem = c.mem := rfl
@[simp] theorem Chip.inc_sluice (p : Page) (f : Fld) : (c.inc p f).sluice = c.sluice := rfl
@[simp] theorem Chip.inc_rs (p : Page) (f : Fld) : (c.inc p f).rs = c.rs := rfl
@[simp] theorem Chip.inc_images (p : Page) (f : Fld) : (c.inc p f).images = c.images := rfl
@[simp] theorem Chip.inc_host (p : Page) (f : Fld) : (c.inc p f).host = c.host := rfl
@[simp] theorem Chip.inc_lib (p : Page) (f : Fld) : (c.inc p f).lib = c.lib := rfl
@[simp] theorem Chip.inc_peer (p : Page) (f : Fld) : (c.inc p f).peer = c.peer := rfl
@[simp] theorem Chip.inc_log (p : Page) (f : Fld) : (c.inc p f).log = c.log := rfl
@[simp] theorem Chip.inc_stripe (p : Page) (f : Fld) : (c.inc p f).stripe = c.stripe := rfl
@[simp] theorem Chip.inc_consumed (p : Page) (f : Fld) : (c.inc p f).consumed = c.consumed := rfl
@[simp] theorem Chip.inc_verified (p : Page) (f : Fld) : (c.inc p f).verified = c.verified := rfl
@[simp] theorem Chip.inc_spinDem (p : Page) (f : Fld) : (c.inc p f).spinDem = c.spinDem := rfl

@[simp] theorem Chip.orBits_tb (p : Page) (f : Fld) (m : Nat) : (c.orBits p f m).tb = c.tb := rfl
@[simp] theorem Chip.orBits_freeCt (p : Page) (f : Fld) (m : Nat) : (c.orBits p f m).freeCt = c.freeCt := rfl
@[simp] theorem Chip.orBits_commits (p : Page) (f : Fld) (m : Nat) : (c.orBits p f m).commits = c.commits := rfl
@[simp] theorem Chip.orBits_cmdPages (p : Page) (f : Fld) (m : Nat) : (c.orBits p f m).cmdPages = c.cmdPages := rfl
@[simp] theorem Chip.orBits_rqHost (p : Page) (f : Fld) (m : Nat) : (c.orBits p f m).rqHost = c.rqHost := rfl
@[simp] theorem Chip.orBits_rqMgmt (p : Page) (f : Fld) (m : Nat) : (c.orBits p f m).rqMgmt = c.rqMgmt := rfl
@[simp] theorem Chip.orBits_rqI3c (p : Page) (f : Fld) (m : Nat) : (c.orBits p f m).rqI3c = c.rqI3c := rfl
@[simp] theorem Chip.orBits_isl (p : Page) (f : Fld) (m : Nat) : (c.orBits p f m).isl = c.isl := rfl
@[simp] theorem Chip.orBits_pins (p : Page) (f : Fld) (m : Nat) : (c.orBits p f m).pins = c.pins := rfl
@[simp] theorem Chip.orBits_mgmt (p : Page) (f : Fld) (m : Nat) : (c.orBits p f m).mgmt = c.mgmt := rfl
@[simp] theorem Chip.orBits_framesRunning (p : Page) (f : Fld) (m : Nat) : (c.orBits p f m).framesRunning = c.framesRunning := rfl
@[simp] theorem Chip.orBits_frameNum (p : Page) (f : Fld) (m : Nat) : (c.orBits p f m).frameNum = c.frameNum := rfl
@[simp] theorem Chip.orBits_frameStart (p : Page) (f : Fld) (m : Nat) : (c.orBits p f m).frameStart = c.frameStart := rfl
@[simp] theorem Chip.orBits_x16 (p : Page) (f : Fld) (m : Nat) : (c.orBits p f m).x16 = c.x16 := rfl
@[simp] theorem Chip.orBits_col (p : Page) (f : Fld) (m : Nat) : (c.orBits p f m).col = c.col := rfl
@[simp] theorem Chip.orBits_halls (p : Page) (f : Fld) (m : Nat) : (c.orBits p f m).halls = c.halls := rfl
@[simp] theorem Chip.orBits_axes (p : Page) (f : Fld) (m : Nat) : (c.orBits p f m).axes = c.axes := rfl
@[simp] theorem Chip.orBits_spins (p : Page) (f : Fld) (m : Nat) : (c.orBits p f m).spins = c.spins := rfl
@[simp] theorem Chip.orBits_engs (p : Page) (f : Fld) (m : Nat) : (c.orBits p f m).engs = c.engs := rfl
@[simp] theorem Chip.orBits_traces (p : Page) (f : Fld) (m : Nat) : (c.orBits p f m).traces = c.traces := rfl
@[simp] theorem Chip.orBits_sets (p : Page) (f : Fld) (m : Nat) : (c.orBits p f m).sets = c.sets := rfl
@[simp] theorem Chip.orBits_meas (p : Page) (f : Fld) (m : Nat) : (c.orBits p f m).meas = c.meas := rfl
@[simp] theorem Chip.orBits_exch (p : Page) (f : Fld) (m : Nat) : (c.orBits p f m).exch = c.exch := rfl
@[simp] theorem Chip.orBits_groups (p : Page) (f : Fld) (m : Nat) : (c.orBits p f m).groups = c.groups := rfl
@[simp] theorem Chip.orBits_heads (p : Page) (f : Fld) (m : Nat) : (c.orBits p f m).heads = c.heads := rfl
@[simp] theorem Chip.orBits_servos (p : Page) (f : Fld) (m : Nat) : (c.orBits p f m).servos = c.servos := rfl
@[simp] theorem Chip.orBits_beams (p : Page) (f : Fld) (m : Nat) : (c.orBits p f m).beams = c.beams := rfl
@[simp] theorem Chip.orBits_assay (p : Page) (f : Fld) (m : Nat) : (c.orBits p f m).assay = c.assay := rfl
@[simp] theorem Chip.orBits_mem (p : Page) (f : Fld) (m : Nat) : (c.orBits p f m).mem = c.mem := rfl
@[simp] theorem Chip.orBits_sluice (p : Page) (f : Fld) (m : Nat) : (c.orBits p f m).sluice = c.sluice := rfl
@[simp] theorem Chip.orBits_rs (p : Page) (f : Fld) (m : Nat) : (c.orBits p f m).rs = c.rs := rfl
@[simp] theorem Chip.orBits_images (p : Page) (f : Fld) (m : Nat) : (c.orBits p f m).images = c.images := rfl
@[simp] theorem Chip.orBits_host (p : Page) (f : Fld) (m : Nat) : (c.orBits p f m).host = c.host := rfl
@[simp] theorem Chip.orBits_lib (p : Page) (f : Fld) (m : Nat) : (c.orBits p f m).lib = c.lib := rfl
@[simp] theorem Chip.orBits_peer (p : Page) (f : Fld) (m : Nat) : (c.orBits p f m).peer = c.peer := rfl
@[simp] theorem Chip.orBits_log (p : Page) (f : Fld) (m : Nat) : (c.orBits p f m).log = c.log := rfl
@[simp] theorem Chip.orBits_stripe (p : Page) (f : Fld) (m : Nat) : (c.orBits p f m).stripe = c.stripe := rfl
@[simp] theorem Chip.orBits_consumed (p : Page) (f : Fld) (m : Nat) : (c.orBits p f m).consumed = c.consumed := rfl
@[simp] theorem Chip.orBits_verified (p : Page) (f : Fld) (m : Nat) : (c.orBits p f m).verified = c.verified := rfl
@[simp] theorem Chip.orBits_spinDem (p : Page) (f : Fld) (m : Nat) : (c.orBits p f m).spinDem = c.spinDem := rfl

@[simp] theorem Chip.event_tb (p : Page) (n : Nat) : (c.event p n).tb = c.tb := rfl
@[simp] theorem Chip.event_freeCt (p : Page) (n : Nat) : (c.event p n).freeCt = c.freeCt := rfl
@[simp] theorem Chip.event_commits (p : Page) (n : Nat) : (c.event p n).commits = c.commits := rfl
@[simp] theorem Chip.event_cmdPages (p : Page) (n : Nat) : (c.event p n).cmdPages = c.cmdPages := rfl
@[simp] theorem Chip.event_rqHost (p : Page) (n : Nat) : (c.event p n).rqHost = c.rqHost := rfl
@[simp] theorem Chip.event_rqMgmt (p : Page) (n : Nat) : (c.event p n).rqMgmt = c.rqMgmt := rfl
@[simp] theorem Chip.event_rqI3c (p : Page) (n : Nat) : (c.event p n).rqI3c = c.rqI3c := rfl
@[simp] theorem Chip.event_isl (p : Page) (n : Nat) : (c.event p n).isl = c.isl := rfl
@[simp] theorem Chip.event_pins (p : Page) (n : Nat) : (c.event p n).pins = c.pins := rfl
@[simp] theorem Chip.event_mgmt (p : Page) (n : Nat) : (c.event p n).mgmt = c.mgmt := rfl
@[simp] theorem Chip.event_framesRunning (p : Page) (n : Nat) : (c.event p n).framesRunning = c.framesRunning := rfl
@[simp] theorem Chip.event_frameNum (p : Page) (n : Nat) : (c.event p n).frameNum = c.frameNum := rfl
@[simp] theorem Chip.event_frameStart (p : Page) (n : Nat) : (c.event p n).frameStart = c.frameStart := rfl
@[simp] theorem Chip.event_x16 (p : Page) (n : Nat) : (c.event p n).x16 = c.x16 := rfl
@[simp] theorem Chip.event_col (p : Page) (n : Nat) : (c.event p n).col = c.col := rfl
@[simp] theorem Chip.event_halls (p : Page) (n : Nat) : (c.event p n).halls = c.halls := rfl
@[simp] theorem Chip.event_axes (p : Page) (n : Nat) : (c.event p n).axes = c.axes := rfl
@[simp] theorem Chip.event_spins (p : Page) (n : Nat) : (c.event p n).spins = c.spins := rfl
@[simp] theorem Chip.event_engs (p : Page) (n : Nat) : (c.event p n).engs = c.engs := rfl
@[simp] theorem Chip.event_traces (p : Page) (n : Nat) : (c.event p n).traces = c.traces := rfl
@[simp] theorem Chip.event_sets (p : Page) (n : Nat) : (c.event p n).sets = c.sets := rfl
@[simp] theorem Chip.event_meas (p : Page) (n : Nat) : (c.event p n).meas = c.meas := rfl
@[simp] theorem Chip.event_exch (p : Page) (n : Nat) : (c.event p n).exch = c.exch := rfl
@[simp] theorem Chip.event_groups (p : Page) (n : Nat) : (c.event p n).groups = c.groups := rfl
@[simp] theorem Chip.event_heads (p : Page) (n : Nat) : (c.event p n).heads = c.heads := rfl
@[simp] theorem Chip.event_servos (p : Page) (n : Nat) : (c.event p n).servos = c.servos := rfl
@[simp] theorem Chip.event_beams (p : Page) (n : Nat) : (c.event p n).beams = c.beams := rfl
@[simp] theorem Chip.event_assay (p : Page) (n : Nat) : (c.event p n).assay = c.assay := rfl
@[simp] theorem Chip.event_mem (p : Page) (n : Nat) : (c.event p n).mem = c.mem := rfl
@[simp] theorem Chip.event_sluice (p : Page) (n : Nat) : (c.event p n).sluice = c.sluice := rfl
@[simp] theorem Chip.event_rs (p : Page) (n : Nat) : (c.event p n).rs = c.rs := rfl
@[simp] theorem Chip.event_images (p : Page) (n : Nat) : (c.event p n).images = c.images := rfl
@[simp] theorem Chip.event_host (p : Page) (n : Nat) : (c.event p n).host = c.host := rfl
@[simp] theorem Chip.event_lib (p : Page) (n : Nat) : (c.event p n).lib = c.lib := rfl
@[simp] theorem Chip.event_peer (p : Page) (n : Nat) : (c.event p n).peer = c.peer := rfl
@[simp] theorem Chip.event_log (p : Page) (n : Nat) : (c.event p n).log = c.log := rfl
@[simp] theorem Chip.event_stripe (p : Page) (n : Nat) : (c.event p n).stripe = c.stripe := rfl
@[simp] theorem Chip.event_consumed (p : Page) (n : Nat) : (c.event p n).consumed = c.consumed := rfl
@[simp] theorem Chip.event_verified (p : Page) (n : Nat) : (c.event p n).verified = c.verified := rfl
@[simp] theorem Chip.event_spinDem (p : Page) (n : Nat) : (c.event p n).spinDem = c.spinDem := rfl

@[simp] theorem Chip.until'_freeCt (t : Nat) : (c.until' t).freeCt = c.freeCt := rfl
@[simp] theorem Chip.until'_reg (t : Nat) : (c.until' t).reg = c.reg := rfl
@[simp] theorem Chip.until'_commits (t : Nat) : (c.until' t).commits = c.commits := rfl
@[simp] theorem Chip.until'_cmdPages (t : Nat) : (c.until' t).cmdPages = c.cmdPages := rfl
@[simp] theorem Chip.until'_rqHost (t : Nat) : (c.until' t).rqHost = c.rqHost := rfl
@[simp] theorem Chip.until'_rqMgmt (t : Nat) : (c.until' t).rqMgmt = c.rqMgmt := rfl
@[simp] theorem Chip.until'_rqI3c (t : Nat) : (c.until' t).rqI3c = c.rqI3c := rfl
@[simp] theorem Chip.until'_isl (t : Nat) : (c.until' t).isl = c.isl := rfl
@[simp] theorem Chip.until'_pins (t : Nat) : (c.until' t).pins = c.pins := rfl
@[simp] theorem Chip.until'_mgmt (t : Nat) : (c.until' t).mgmt = c.mgmt := rfl
@[simp] theorem Chip.until'_framesRunning (t : Nat) : (c.until' t).framesRunning = c.framesRunning := rfl
@[simp] theorem Chip.until'_frameNum (t : Nat) : (c.until' t).frameNum = c.frameNum := rfl
@[simp] theorem Chip.until'_frameStart (t : Nat) : (c.until' t).frameStart = c.frameStart := rfl
@[simp] theorem Chip.until'_x16 (t : Nat) : (c.until' t).x16 = c.x16 := rfl
@[simp] theorem Chip.until'_col (t : Nat) : (c.until' t).col = c.col := rfl
@[simp] theorem Chip.until'_halls (t : Nat) : (c.until' t).halls = c.halls := rfl
@[simp] theorem Chip.until'_axes (t : Nat) : (c.until' t).axes = c.axes := rfl
@[simp] theorem Chip.until'_spins (t : Nat) : (c.until' t).spins = c.spins := rfl
@[simp] theorem Chip.until'_engs (t : Nat) : (c.until' t).engs = c.engs := rfl
@[simp] theorem Chip.until'_traces (t : Nat) : (c.until' t).traces = c.traces := rfl
@[simp] theorem Chip.until'_sets (t : Nat) : (c.until' t).sets = c.sets := rfl
@[simp] theorem Chip.until'_meas (t : Nat) : (c.until' t).meas = c.meas := rfl
@[simp] theorem Chip.until'_exch (t : Nat) : (c.until' t).exch = c.exch := rfl
@[simp] theorem Chip.until'_groups (t : Nat) : (c.until' t).groups = c.groups := rfl
@[simp] theorem Chip.until'_heads (t : Nat) : (c.until' t).heads = c.heads := rfl
@[simp] theorem Chip.until'_servos (t : Nat) : (c.until' t).servos = c.servos := rfl
@[simp] theorem Chip.until'_beams (t : Nat) : (c.until' t).beams = c.beams := rfl
@[simp] theorem Chip.until'_assay (t : Nat) : (c.until' t).assay = c.assay := rfl
@[simp] theorem Chip.until'_mem (t : Nat) : (c.until' t).mem = c.mem := rfl
@[simp] theorem Chip.until'_sluice (t : Nat) : (c.until' t).sluice = c.sluice := rfl
@[simp] theorem Chip.until'_rs (t : Nat) : (c.until' t).rs = c.rs := rfl
@[simp] theorem Chip.until'_images (t : Nat) : (c.until' t).images = c.images := rfl
@[simp] theorem Chip.until'_host (t : Nat) : (c.until' t).host = c.host := rfl
@[simp] theorem Chip.until'_lib (t : Nat) : (c.until' t).lib = c.lib := rfl
@[simp] theorem Chip.until'_peer (t : Nat) : (c.until' t).peer = c.peer := rfl
@[simp] theorem Chip.until'_log (t : Nat) : (c.until' t).log = c.log := rfl
@[simp] theorem Chip.until'_stripe (t : Nat) : (c.until' t).stripe = c.stripe := rfl
@[simp] theorem Chip.until'_consumed (t : Nat) : (c.until' t).consumed = c.consumed := rfl
@[simp] theorem Chip.until'_verified (t : Nat) : (c.until' t).verified = c.verified := rfl
@[simp] theorem Chip.until'_spinDem (t : Nat) : (c.until' t).spinDem = c.spinDem := rfl

@[simp] theorem Chip.tick_freeCt : (c.tick).freeCt = c.freeCt := rfl
@[simp] theorem Chip.tick_reg : (c.tick).reg = c.reg := rfl
@[simp] theorem Chip.tick_commits : (c.tick).commits = c.commits := rfl
@[simp] theorem Chip.tick_cmdPages : (c.tick).cmdPages = c.cmdPages := rfl
@[simp] theorem Chip.tick_rqHost : (c.tick).rqHost = c.rqHost := rfl
@[simp] theorem Chip.tick_rqMgmt : (c.tick).rqMgmt = c.rqMgmt := rfl
@[simp] theorem Chip.tick_rqI3c : (c.tick).rqI3c = c.rqI3c := rfl
@[simp] theorem Chip.tick_isl : (c.tick).isl = c.isl := rfl
@[simp] theorem Chip.tick_mgmt : (c.tick).mgmt = c.mgmt := rfl
@[simp] theorem Chip.tick_framesRunning : (c.tick).framesRunning = c.framesRunning := rfl
@[simp] theorem Chip.tick_frameNum : (c.tick).frameNum = c.frameNum := rfl
@[simp] theorem Chip.tick_frameStart : (c.tick).frameStart = c.frameStart := rfl
@[simp] theorem Chip.tick_x16 : (c.tick).x16 = c.x16 := rfl
@[simp] theorem Chip.tick_col : (c.tick).col = c.col := rfl
@[simp] theorem Chip.tick_halls : (c.tick).halls = c.halls := rfl
@[simp] theorem Chip.tick_axes : (c.tick).axes = c.axes := rfl
@[simp] theorem Chip.tick_spins : (c.tick).spins = c.spins := rfl
@[simp] theorem Chip.tick_engs : (c.tick).engs = c.engs := rfl
@[simp] theorem Chip.tick_traces : (c.tick).traces = c.traces := rfl
@[simp] theorem Chip.tick_sets : (c.tick).sets = c.sets := rfl
@[simp] theorem Chip.tick_meas : (c.tick).meas = c.meas := rfl
@[simp] theorem Chip.tick_exch : (c.tick).exch = c.exch := rfl
@[simp] theorem Chip.tick_groups : (c.tick).groups = c.groups := rfl
@[simp] theorem Chip.tick_heads : (c.tick).heads = c.heads := rfl
@[simp] theorem Chip.tick_servos : (c.tick).servos = c.servos := rfl
@[simp] theorem Chip.tick_beams : (c.tick).beams = c.beams := rfl
@[simp] theorem Chip.tick_assay : (c.tick).assay = c.assay := rfl
@[simp] theorem Chip.tick_mem : (c.tick).mem = c.mem := rfl
@[simp] theorem Chip.tick_sluice : (c.tick).sluice = c.sluice := rfl
@[simp] theorem Chip.tick_rs : (c.tick).rs = c.rs := rfl
@[simp] theorem Chip.tick_images : (c.tick).images = c.images := rfl
@[simp] theorem Chip.tick_host : (c.tick).host = c.host := rfl
@[simp] theorem Chip.tick_lib : (c.tick).lib = c.lib := rfl
@[simp] theorem Chip.tick_peer : (c.tick).peer = c.peer := rfl
@[simp] theorem Chip.tick_log : (c.tick).log = c.log := rfl
@[simp] theorem Chip.tick_stripe : (c.tick).stripe = c.stripe := rfl
@[simp] theorem Chip.tick_consumed : (c.tick).consumed = c.consumed := rfl
@[simp] theorem Chip.tick_verified : (c.tick).verified = c.verified := rfl
@[simp] theorem Chip.tick_spinDem : (c.tick).spinDem = c.spinDem := rfl

@[simp] theorem Chip.send_tb (m : Msg) : (c.send m).tb = c.tb := rfl
@[simp] theorem Chip.send_freeCt (m : Msg) : (c.send m).freeCt = c.freeCt := rfl
@[simp] theorem Chip.send_reg (m : Msg) : (c.send m).reg = c.reg := rfl
@[simp] theorem Chip.send_commits (m : Msg) : (c.send m).commits = c.commits := rfl
@[simp] theorem Chip.send_cmdPages (m : Msg) : (c.send m).cmdPages = c.cmdPages := rfl
@[simp] theorem Chip.send_rqHost (m : Msg) : (c.send m).rqHost = c.rqHost := rfl
@[simp] theorem Chip.send_rqMgmt (m : Msg) : (c.send m).rqMgmt = c.rqMgmt := rfl
@[simp] theorem Chip.send_rqI3c (m : Msg) : (c.send m).rqI3c = c.rqI3c := rfl
@[simp] theorem Chip.send_isl (m : Msg) : (c.send m).isl = c.isl := rfl
@[simp] theorem Chip.send_pins (m : Msg) : (c.send m).pins = c.pins := rfl
@[simp] theorem Chip.send_mgmt (m : Msg) : (c.send m).mgmt = c.mgmt := rfl
@[simp] theorem Chip.send_framesRunning (m : Msg) : (c.send m).framesRunning = c.framesRunning := rfl
@[simp] theorem Chip.send_frameNum (m : Msg) : (c.send m).frameNum = c.frameNum := rfl
@[simp] theorem Chip.send_frameStart (m : Msg) : (c.send m).frameStart = c.frameStart := rfl
@[simp] theorem Chip.send_col (m : Msg) : (c.send m).col = c.col := rfl
@[simp] theorem Chip.send_halls (m : Msg) : (c.send m).halls = c.halls := rfl
@[simp] theorem Chip.send_axes (m : Msg) : (c.send m).axes = c.axes := rfl
@[simp] theorem Chip.send_spins (m : Msg) : (c.send m).spins = c.spins := rfl
@[simp] theorem Chip.send_engs (m : Msg) : (c.send m).engs = c.engs := rfl
@[simp] theorem Chip.send_traces (m : Msg) : (c.send m).traces = c.traces := rfl
@[simp] theorem Chip.send_sets (m : Msg) : (c.send m).sets = c.sets := rfl
@[simp] theorem Chip.send_meas (m : Msg) : (c.send m).meas = c.meas := rfl
@[simp] theorem Chip.send_exch (m : Msg) : (c.send m).exch = c.exch := rfl
@[simp] theorem Chip.send_groups (m : Msg) : (c.send m).groups = c.groups := rfl
@[simp] theorem Chip.send_heads (m : Msg) : (c.send m).heads = c.heads := rfl
@[simp] theorem Chip.send_servos (m : Msg) : (c.send m).servos = c.servos := rfl
@[simp] theorem Chip.send_beams (m : Msg) : (c.send m).beams = c.beams := rfl
@[simp] theorem Chip.send_assay (m : Msg) : (c.send m).assay = c.assay := rfl
@[simp] theorem Chip.send_mem (m : Msg) : (c.send m).mem = c.mem := rfl
@[simp] theorem Chip.send_sluice (m : Msg) : (c.send m).sluice = c.sluice := rfl
@[simp] theorem Chip.send_rs (m : Msg) : (c.send m).rs = c.rs := rfl
@[simp] theorem Chip.send_images (m : Msg) : (c.send m).images = c.images := rfl
@[simp] theorem Chip.send_host (m : Msg) : (c.send m).host = c.host := rfl
@[simp] theorem Chip.send_lib (m : Msg) : (c.send m).lib = c.lib := rfl
@[simp] theorem Chip.send_peer (m : Msg) : (c.send m).peer = c.peer := rfl
@[simp] theorem Chip.send_log (m : Msg) : (c.send m).log = c.log := rfl
@[simp] theorem Chip.send_stripe (m : Msg) : (c.send m).stripe = c.stripe := rfl
@[simp] theorem Chip.send_consumed (m : Msg) : (c.send m).consumed = c.consumed := rfl
@[simp] theorem Chip.send_verified (m : Msg) : (c.send m).verified = c.verified := rfl
@[simp] theorem Chip.send_spinDem (m : Msg) : (c.send m).spinDem = c.spinDem := rfl

@[simp] theorem Chip.fault_tb (p : Page) (n k h d a : Nat) : (c.fault p n k h d a).tb = c.tb := rfl
@[simp] theorem Chip.fault_freeCt (p : Page) (n k h d a : Nat) : (c.fault p n k h d a).freeCt = c.freeCt := rfl
@[simp] theorem Chip.fault_reg (p : Page) (n k h d a : Nat) : (c.fault p n k h d a).reg = c.reg := rfl
@[simp] theorem Chip.fault_commits (p : Page) (n k h d a : Nat) : (c.fault p n k h d a).commits = c.commits := rfl
@[simp] theorem Chip.fault_cmdPages (p : Page) (n k h d a : Nat) : (c.fault p n k h d a).cmdPages = c.cmdPages := rfl
@[simp] theorem Chip.fault_rqHost (p : Page) (n k h d a : Nat) : (c.fault p n k h d a).rqHost = c.rqHost := rfl
@[simp] theorem Chip.fault_rqMgmt (p : Page) (n k h d a : Nat) : (c.fault p n k h d a).rqMgmt = c.rqMgmt := rfl
@[simp] theorem Chip.fault_rqI3c (p : Page) (n k h d a : Nat) : (c.fault p n k h d a).rqI3c = c.rqI3c := rfl
@[simp] theorem Chip.fault_isl (p : Page) (n k h d a : Nat) : (c.fault p n k h d a).isl = c.isl := rfl
@[simp] theorem Chip.fault_pins (p : Page) (n k h d a : Nat) : (c.fault p n k h d a).pins = c.pins := rfl
@[simp] theorem Chip.fault_mgmt (p : Page) (n k h d a : Nat) : (c.fault p n k h d a).mgmt = c.mgmt := rfl
@[simp] theorem Chip.fault_framesRunning (p : Page) (n k h d a : Nat) : (c.fault p n k h d a).framesRunning = c.framesRunning := rfl
@[simp] theorem Chip.fault_frameNum (p : Page) (n k h d a : Nat) : (c.fault p n k h d a).frameNum = c.frameNum := rfl
@[simp] theorem Chip.fault_frameStart (p : Page) (n k h d a : Nat) : (c.fault p n k h d a).frameStart = c.frameStart := rfl
@[simp] theorem Chip.fault_col (p : Page) (n k h d a : Nat) : (c.fault p n k h d a).col = c.col := rfl
@[simp] theorem Chip.fault_halls (p : Page) (n k h d a : Nat) : (c.fault p n k h d a).halls = c.halls := rfl
@[simp] theorem Chip.fault_axes (p : Page) (n k h d a : Nat) : (c.fault p n k h d a).axes = c.axes := rfl
@[simp] theorem Chip.fault_spins (p : Page) (n k h d a : Nat) : (c.fault p n k h d a).spins = c.spins := rfl
@[simp] theorem Chip.fault_engs (p : Page) (n k h d a : Nat) : (c.fault p n k h d a).engs = c.engs := rfl
@[simp] theorem Chip.fault_traces (p : Page) (n k h d a : Nat) : (c.fault p n k h d a).traces = c.traces := rfl
@[simp] theorem Chip.fault_sets (p : Page) (n k h d a : Nat) : (c.fault p n k h d a).sets = c.sets := rfl
@[simp] theorem Chip.fault_meas (p : Page) (n k h d a : Nat) : (c.fault p n k h d a).meas = c.meas := rfl
@[simp] theorem Chip.fault_exch (p : Page) (n k h d a : Nat) : (c.fault p n k h d a).exch = c.exch := rfl
@[simp] theorem Chip.fault_groups (p : Page) (n k h d a : Nat) : (c.fault p n k h d a).groups = c.groups := rfl
@[simp] theorem Chip.fault_heads (p : Page) (n k h d a : Nat) : (c.fault p n k h d a).heads = c.heads := rfl
@[simp] theorem Chip.fault_servos (p : Page) (n k h d a : Nat) : (c.fault p n k h d a).servos = c.servos := rfl
@[simp] theorem Chip.fault_beams (p : Page) (n k h d a : Nat) : (c.fault p n k h d a).beams = c.beams := rfl
@[simp] theorem Chip.fault_assay (p : Page) (n k h d a : Nat) : (c.fault p n k h d a).assay = c.assay := rfl
@[simp] theorem Chip.fault_mem (p : Page) (n k h d a : Nat) : (c.fault p n k h d a).mem = c.mem := rfl
@[simp] theorem Chip.fault_sluice (p : Page) (n k h d a : Nat) : (c.fault p n k h d a).sluice = c.sluice := rfl
@[simp] theorem Chip.fault_rs (p : Page) (n k h d a : Nat) : (c.fault p n k h d a).rs = c.rs := rfl
@[simp] theorem Chip.fault_images (p : Page) (n k h d a : Nat) : (c.fault p n k h d a).images = c.images := rfl
@[simp] theorem Chip.fault_host (p : Page) (n k h d a : Nat) : (c.fault p n k h d a).host = c.host := rfl
@[simp] theorem Chip.fault_lib (p : Page) (n k h d a : Nat) : (c.fault p n k h d a).lib = c.lib := rfl
@[simp] theorem Chip.fault_peer (p : Page) (n k h d a : Nat) : (c.fault p n k h d a).peer = c.peer := rfl
@[simp] theorem Chip.fault_log (p : Page) (n k h d a : Nat) : (c.fault p n k h d a).log = c.log := rfl
@[simp] theorem Chip.fault_stripe (p : Page) (n k h d a : Nat) : (c.fault p n k h d a).stripe = c.stripe := rfl
@[simp] theorem Chip.fault_consumed (p : Page) (n k h d a : Nat) : (c.fault p n k h d a).consumed = c.consumed := rfl
@[simp] theorem Chip.fault_verified (p : Page) (n k h d a : Nat) : (c.fault p n k h d a).verified = c.verified := rfl
@[simp] theorem Chip.fault_spinDem (p : Page) (n k h d a : Nat) : (c.fault p n k h d a).spinDem = c.spinDem := rfl

@[simp] theorem Chip.modRq_tb (r : Requester) (f : ReqState → ReqState) : (c.modRq r f).tb = c.tb := rfl
@[simp] theorem Chip.modRq_freeCt (r : Requester) (f : ReqState → ReqState) : (c.modRq r f).freeCt = c.freeCt := rfl
@[simp] theorem Chip.modRq_reg (r : Requester) (f : ReqState → ReqState) : (c.modRq r f).reg = c.reg := rfl
@[simp] theorem Chip.modRq_commits (r : Requester) (f : ReqState → ReqState) : (c.modRq r f).commits = c.commits := rfl
@[simp] theorem Chip.modRq_cmdPages (r : Requester) (f : ReqState → ReqState) : (c.modRq r f).cmdPages = c.cmdPages := rfl
@[simp] theorem Chip.modRq_isl (r : Requester) (f : ReqState → ReqState) : (c.modRq r f).isl = c.isl := rfl
@[simp] theorem Chip.modRq_pins (r : Requester) (f : ReqState → ReqState) : (c.modRq r f).pins = c.pins := rfl
@[simp] theorem Chip.modRq_mgmt (r : Requester) (f : ReqState → ReqState) : (c.modRq r f).mgmt = c.mgmt := rfl
@[simp] theorem Chip.modRq_framesRunning (r : Requester) (f : ReqState → ReqState) : (c.modRq r f).framesRunning = c.framesRunning := rfl
@[simp] theorem Chip.modRq_frameNum (r : Requester) (f : ReqState → ReqState) : (c.modRq r f).frameNum = c.frameNum := rfl
@[simp] theorem Chip.modRq_frameStart (r : Requester) (f : ReqState → ReqState) : (c.modRq r f).frameStart = c.frameStart := rfl
@[simp] theorem Chip.modRq_x16 (r : Requester) (f : ReqState → ReqState) : (c.modRq r f).x16 = c.x16 := rfl
@[simp] theorem Chip.modRq_col (r : Requester) (f : ReqState → ReqState) : (c.modRq r f).col = c.col := rfl
@[simp] theorem Chip.modRq_halls (r : Requester) (f : ReqState → ReqState) : (c.modRq r f).halls = c.halls := rfl
@[simp] theorem Chip.modRq_axes (r : Requester) (f : ReqState → ReqState) : (c.modRq r f).axes = c.axes := rfl
@[simp] theorem Chip.modRq_spins (r : Requester) (f : ReqState → ReqState) : (c.modRq r f).spins = c.spins := rfl
@[simp] theorem Chip.modRq_engs (r : Requester) (f : ReqState → ReqState) : (c.modRq r f).engs = c.engs := rfl
@[simp] theorem Chip.modRq_traces (r : Requester) (f : ReqState → ReqState) : (c.modRq r f).traces = c.traces := rfl
@[simp] theorem Chip.modRq_sets (r : Requester) (f : ReqState → ReqState) : (c.modRq r f).sets = c.sets := rfl
@[simp] theorem Chip.modRq_meas (r : Requester) (f : ReqState → ReqState) : (c.modRq r f).meas = c.meas := rfl
@[simp] theorem Chip.modRq_exch (r : Requester) (f : ReqState → ReqState) : (c.modRq r f).exch = c.exch := rfl
@[simp] theorem Chip.modRq_groups (r : Requester) (f : ReqState → ReqState) : (c.modRq r f).groups = c.groups := rfl
@[simp] theorem Chip.modRq_heads (r : Requester) (f : ReqState → ReqState) : (c.modRq r f).heads = c.heads := rfl
@[simp] theorem Chip.modRq_servos (r : Requester) (f : ReqState → ReqState) : (c.modRq r f).servos = c.servos := rfl
@[simp] theorem Chip.modRq_beams (r : Requester) (f : ReqState → ReqState) : (c.modRq r f).beams = c.beams := rfl
@[simp] theorem Chip.modRq_assay (r : Requester) (f : ReqState → ReqState) : (c.modRq r f).assay = c.assay := rfl
@[simp] theorem Chip.modRq_mem (r : Requester) (f : ReqState → ReqState) : (c.modRq r f).mem = c.mem := rfl
@[simp] theorem Chip.modRq_sluice (r : Requester) (f : ReqState → ReqState) : (c.modRq r f).sluice = c.sluice := rfl
@[simp] theorem Chip.modRq_rs (r : Requester) (f : ReqState → ReqState) : (c.modRq r f).rs = c.rs := rfl
@[simp] theorem Chip.modRq_images (r : Requester) (f : ReqState → ReqState) : (c.modRq r f).images = c.images := rfl
@[simp] theorem Chip.modRq_host (r : Requester) (f : ReqState → ReqState) : (c.modRq r f).host = c.host := rfl
@[simp] theorem Chip.modRq_lib (r : Requester) (f : ReqState → ReqState) : (c.modRq r f).lib = c.lib := rfl
@[simp] theorem Chip.modRq_peer (r : Requester) (f : ReqState → ReqState) : (c.modRq r f).peer = c.peer := rfl
@[simp] theorem Chip.modRq_log (r : Requester) (f : ReqState → ReqState) : (c.modRq r f).log = c.log := rfl
@[simp] theorem Chip.modRq_stripe (r : Requester) (f : ReqState → ReqState) : (c.modRq r f).stripe = c.stripe := rfl
@[simp] theorem Chip.modRq_consumed (r : Requester) (f : ReqState → ReqState) : (c.modRq r f).consumed = c.consumed := rfl
@[simp] theorem Chip.modRq_verified (r : Requester) (f : ReqState → ReqState) : (c.modRq r f).verified = c.verified := rfl
@[simp] theorem Chip.modRq_spinDem (r : Requester) (f : ReqState → ReqState) : (c.modRq r f).spinDem = c.spinDem := rfl

@[simp] theorem Chip.putI_reg (p : Page) (f : Fld) (i v : Nat) : (c.putI p f i v).reg = c.reg.putI p f i v := rfl
@[simp] theorem Chip.tick_tb : c.tick.tb = if c.isl.tbRuns then c.tb + 1 else c.tb := rfl
@[simp] theorem Chip.send_x16 (m : Msg) : (c.send m).x16 = c.x16 ++ [m] := rfl

end Sys2Proof.Machine
end

