-- ==== Sys2Proof/Laws/Regs.lean ====
section
/-!
SUPPORT. Laws of the register fields: a read after a write of the same field, of another field and of another page, in
force and in shadow, and which fields a chain of writes may change.
-/
namespace Sys2Proof.Machine

theorem Page.num_inj {p q : Page} (h : p.num = q.num) : p = q := by
  cases p <;> cases q <;> simp only [Page.num] at h <;> first
    | rfl
    | (exfalso; omega)
    | (congr 1; apply Fin.ext; omega)
  all_goals (apply Fin.ext; omega)

/-- Fields of different pages have different keys. -/
theorem fieldKey_ne_page {p q : Page} {f g : Fld} {i j : Nat} (hp : p ≠ q) (hf : f.Fits i = true) (hg : g.Fits j = true) :
    fieldKey p f i ≠ fieldKey q g j := by
  simp only [Fld.Fits, Bool.and_eq_true, decide_eq_true_eq] at hf hg
  intro h
  apply hp; apply Page.num_inj
  unfold fieldKey at h; omega

/-- Fields at different words or places have different keys. -/
theorem fieldKey_ne_place {p q : Page} {f g : Fld} {i j : Nat} (hf : f.Fits i = true) (hg : g.Fits j = true)
    (h : (f.off + i * f.stride) / 4 ≠ (g.off + j * g.stride) / 4 ∨ f.lo ≠ g.lo) : fieldKey p f i ≠ fieldKey q g j := by
  simp only [Fld.Fits, Bool.and_eq_true, decide_eq_true_eq] at hf hg
  intro e
  unfold fieldKey at e; omega

theorem fieldKey_ne_apart {p q : Page} {f g : Fld} (h : f.Apart g = true) : fieldKey p f 0 ≠ fieldKey q g 0 := by
  simp only [Fld.Apart, Bool.and_eq_true, Bool.or_eq_true, decide_eq_true_eq] at h
  exact fieldKey_ne_place h.1.1 h.1.2 (by simpa using h.2)

/-! ## In force -/

theorem RegFile.rdI_putI_same (g : RegFile) (p : Page) (f : Fld) (i v : Nat) (h : f.w ≤ 32) :
    (g.putI p f i v).rdI p f i = v % 2 ^ f.w := by
  have hx : (BitVec.ofNat 32 (v % 2 ^ f.w)).toNat = v % 2 ^ f.w := by
    rw [BitVec.toNat_ofNat]
    exact Nat.mod_eq_of_lt (Nat.lt_of_lt_of_le (Nat.mod_lt _ (Nat.two_pow_pos _)) (Nat.pow_le_pow_right (by decide) h))
  unfold RegFile.putI RegFile.rdI
  by_cases hf : f.acc = .rws
  · simp only [hf, if_true]; rw [Sparse.get_set_same, hx]
  · simp only [hf, if_false]; rw [Sparse.get_set_same, hx]

theorem RegFile.rdI_putI_ne (g : RegFile) (p q : Page) (f f' : Fld) (i j v : Nat)
    (h : fieldKey p f i ≠ fieldKey q f' j) : (g.putI p f i v).rdI q f' j = g.rdI q f' j := by
  unfold RegFile.putI RegFile.rdI
  by_cases hf : f.acc = .rws <;> by_cases hf' : f'.acc = .rws <;> simp only [hf, hf', if_true, if_false] <;>
    first | rfl | rw [Sparse.get_set_ne _ _ _ _ _ _ (Ne.symm h)]

theorem Chip.rdI_putI_same (c : Chip) (p : Page) (f : Fld) (i v : Nat) (h : f.w ≤ 32) :
    (c.putI p f i v).rdI p f i = v % 2 ^ f.w := RegFile.rdI_putI_same _ _ _ _ _ h

theorem Chip.rdI_putI_ne (c : Chip) (p q : Page) (f f' : Fld) (i j v : Nat) (h : fieldKey p f i ≠ fieldKey q f' j) :
    (c.putI p f i v).rdI q f' j = c.rdI q f' j := RegFile.rdI_putI_ne _ _ _ _ _ _ _ _ h

/-- A field reads as it was put, cut to its width. -/
theorem Chip.rd_put_same (c : Chip) (p : Page) (f : Fld) (v : Nat) (h : f.w ≤ 32) :
    (c.put p f v).rd p f = v % 2 ^ f.w := Chip.rdI_putI_same _ _ _ _ _ h

/-- A put leaves a field at another place alone, on any page. -/
theorem Chip.rd_put_place (c : Chip) (p q : Page) (f g : Fld) (v : Nat) (h : f.Apart g = true) :
    (c.put p f v).rd q g = c.rd q g := Chip.rdI_putI_ne _ _ _ _ _ _ _ _ (fieldKey_ne_apart h)

/-- A put leaves every field of another page alone. -/
theorem Chip.rd_put_page (c : Chip) (p q : Page) (f g : Fld) (v : Nat) (h : p ≠ q) (hf : f.Fits 0 = true)
    (hg : g.Fits 0 = true) : (c.put p f v).rd q g = c.rd q g :=
  Chip.rdI_putI_ne _ _ _ _ _ _ _ _ (fieldKey_ne_page h hf hg)

/-! ## Shadows -/

theorem RegFile.putI_sh (g : RegFile) (p : Page) (f : Fld) (i v : Nat) : (g.putI p f i v).sh = g.sh := by
  unfold RegFile.putI; split <;> rfl

@[simp] theorem Chip.shI_putI (c : Chip) (p q : Page) (f g : Fld) (i j v : Nat) :
    (c.putI p f i v).shI q g j = c.shI q g j := by
  simp [Chip.shI, RegFile.putI_sh]

@[simp] theorem Chip.shd_put (c : Chip) (p q : Page) (f g : Fld) (v : Nat) : (c.put p f v).shd q g = c.shd q g :=
  Chip.shI_putI ..

@[simp] theorem Chip.rdI_putShI (c : Chip) (p q : Page) (f g : Fld) (i j v : Nat) :
    (c.putShI p f i v).rdI q g j = c.rdI q g j := rfl

@[simp] theorem Chip.rd_putSh (c : Chip) (p q : Page) (f g : Fld) (v : Nat) : (c.putSh p f v).rd q g = c.rd q g := rfl

theorem Chip.shI_putShI_same (c : Chip) (p : Page) (f : Fld) (i v : Nat) (h : f.w ≤ 32) :
    (c.putShI p f i v).shI p f i = v % 2 ^ f.w := by
  unfold Chip.putShI Chip.shI
  rw [Sparse.get_set_same, BitVec.toNat_ofNat]
  exact Nat.mod_eq_of_lt (Nat.lt_of_lt_of_le (Nat.mod_lt _ (Nat.two_pow_pos _)) (Nat.pow_le_pow_right (by decide) h))

theorem Chip.shI_putShI_ne (c : Chip) (p q : Page) (f g : Fld) (i j v : Nat) (h : fieldKey p f i ≠ fieldKey q g j) :
    (c.putShI p f i v).shI q g j = c.shI q g j := by
  unfold Chip.putShI Chip.shI
  rw [Sparse.get_set_ne _ _ _ _ _ _ (Ne.symm h)]

/-! ## A commit -/

theorem inPage_self {p : Page} {f : Fld} {i : Nat} (hf : f.Fits i = true) : inPage p (fieldKey p f i) = true := by
  simp only [Fld.Fits, Bool.and_eq_true, decide_eq_true_eq] at hf
  refine decide_eq_true ?_; unfold pageLo pageHi fieldKey; omega

theorem inPage_other {p q : Page} {f : Fld} {i : Nat} (h : p ≠ q) (hf : f.Fits i = true) : inPage p (fieldKey q f i) = false := by
  simp only [Fld.Fits, Bool.and_eq_true, decide_eq_true_eq] at hf
  have : p.num ≠ q.num := fun e => h (Page.num_inj e)
  refine decide_eq_false ?_; unfold pageLo pageHi fieldKey; omega

/-- After a commit of page `p` a field written since the last one holds its shadow value; every other field, of this page and of
all others, keeps its value (R156). -/
theorem Chip.rdI_shadowToActive (c : Chip) (p q : Page) (f : Fld) (i : Nat) (hf : f.Fits i = true) :
    (c.shadowToActive p).rdI q f i = if f.acc = .rws ∧ p = q ∧ fieldKey q f i ∈ c.reg.wr then c.shI q f i else c.rdI q f i := by
  by_cases ha : f.acc = .rws
  · simp only [Chip.rdI, Chip.shI, RegFile.rdI, Chip.shadowToActive, ha, if_true, true_and, Sparse.get_copyKeys, List.mem_filter]
    by_cases hp : p = q
    · subst hp; simp only [inPage_self hf, and_true, true_and]; split <;> rfl
    · simp [inPage_other hp hf, hp]
  · simp [Chip.rdI, RegFile.rdI, Chip.shadowToActive, ha]

/-- A commit leaves every shadow alone. -/
@[simp] theorem Chip.shI_shadowToActive (c : Chip) (p q : Page) (f : Fld) (i : Nat) :
    (c.shadowToActive p).shI q f i = c.shI q f i := rfl

/-! ## On the register file -/

theorem RegFile.rdI_putI_place (g : RegFile) (p q : Page) (f f' : Fld) (v : Nat) (h : f.Apart f' = true) :
    (g.putI p f 0 v).rdI q f' 0 = g.rdI q f' 0 := RegFile.rdI_putI_ne _ _ _ _ _ _ _ _ (fieldKey_ne_apart h)

theorem RegFile.rdI_putI_page (g : RegFile) (p q : Page) (f f' : Fld) (i j v : Nat) (h : p ≠ q) (hf : f.Fits i = true)
    (hg : f'.Fits j = true) : (g.putI p f i v).rdI q f' j = g.rdI q f' j :=
  RegFile.rdI_putI_ne _ _ _ _ _ _ _ _ (fieldKey_ne_page h hf hg)

/-- The shadow of a field in the register file. -/
def RegFile.shI (g : RegFile) (p : Page) (f : Fld) (i : Nat) : Nat :=
  (Sparse.get (BitVec.ofNat 32 (fieldReset p f i)) g.sh (fieldKey p f i)).toNat

/-- Two register files agree but for the fields listed. -/
def RegFile.Same (g k : RegFile) (l : List (Page × Fld × Nat)) : Prop :=
  ∀ (p : Page) (f : Fld) (i : Nat), (∀ e ∈ l, fieldKey e.1 e.2.1 e.2.2 ≠ fieldKey p f i) →
    k.rdI p f i = g.rdI p f i ∧ k.shI p f i = g.shI p f i

/-- Two register files agree on every page outside `W`. -/
def RegFile.SamePages (W : Page → Bool) (g k : RegFile) : Prop :=
  ∀ (p : Page) (f : Fld) (i : Nat), W p = false → f.Fits i = true → k.rdI p f i = g.rdI p f i ∧ k.shI p f i = g.shI p f i

theorem Chip.sameRegs_iff {c d : Chip} {l : List (Page × Fld × Nat)} : c.SameRegs d l ↔ c.reg.Same d.reg l := Iff.rfl

theorem RegFile.Same.rfl' (g : RegFile) (l : List (Page × Fld × Nat)) : g.Same g l := fun _ _ _ _ => ⟨rfl, rfl⟩

theorem RegFile.Same.trans {a b c : RegFile} {l : List (Page × Fld × Nat)} (h : a.Same b l) (k : b.Same c l) : a.Same c l :=
  fun p f i e => ⟨(k p f i e).1.trans (h p f i e).1, (k p f i e).2.trans (h p f i e).2⟩

theorem RegFile.Same.mono {a b : RegFile} {l m : List (Page × Fld × Nat)} (h : a.Same b l) (hs : ∀ e ∈ l, e ∈ m) :
    a.Same b m := fun p f i e => h p f i fun x hx => e x (hs x hx)

theorem RegFile.Same.putI {a b : RegFile} {l : List (Page × Fld × Nat)} (p : Page) (f : Fld) (i v : Nat)
    (h : a.Same b l) (hm : (p, f, i) ∈ l) : a.Same (b.putI p f i v) l :=
  h.trans fun q g j e => by
    have k : fieldKey p f i ≠ fieldKey q g j := e (p, f, i) hm
    exact ⟨RegFile.rdI_putI_ne _ _ _ _ _ _ _ _ k, by simp [RegFile.shI, RegFile.putI_sh]⟩

theorem RegFile.SamePages.rfl' (W : Page → Bool) (g : RegFile) : g.SamePages W g := fun _ _ _ _ _ => ⟨rfl, rfl⟩

theorem RegFile.SamePages.trans {W : Page → Bool} {a b c : RegFile} (h : a.SamePages W b) (k : b.SamePages W c) :
    a.SamePages W c :=
  fun p f i e e' => ⟨(k p f i e e').1.trans (h p f i e e').1, (k p f i e e').2.trans (h p f i e e').2⟩

theorem RegFile.SamePages.mono {W V : Page → Bool} {a b : RegFile} (h : a.SamePages W b)
    (hs : ∀ p, V p = false → W p = false) : a.SamePages V b := fun p f i e => h p f i (hs p e)

theorem RegFile.SamePages.putI {W : Page → Bool} {a b : RegFile} (p : Page) (f : Fld) (i v : Nat) (h : a.SamePages W b)
    (hp : W p = true) (hf : f.Fits i = true) : a.SamePages W (b.putI p f i v) :=
  h.trans fun q g j e e' => by
    have hn : p ≠ q := by rintro rfl; simp [hp] at e
    exact ⟨RegFile.rdI_putI_page _ _ _ _ _ _ _ _ hn hf e', by simp [RegFile.shI, RegFile.putI_sh]⟩

/-! ## Chains of writes -/

theorem Chip.SameRegs.rfl' (c : Chip) (l : List (Page × Fld × Nat)) : c.SameRegs c l := fun _ _ _ _ => ⟨rfl, rfl⟩

/-- Only the registers count. -/
theorem Chip.SameRegs.of_reg {c d : Chip} (h : d.reg = c.reg) (l : List (Page × Fld × Nat)) : c.SameRegs d l :=
  fun p f i _ => by simp [Chip.rdI, Chip.shI, h]

theorem Chip.SameRegs.trans {a b c : Chip} {l : List (Page × Fld × Nat)} (h : a.SameRegs b l) (k : b.SameRegs c l) :
    a.SameRegs c l := RegFile.Same.trans (a := a.reg) h k

theorem Chip.SameRegs.mono {a b : Chip} {l m : List (Page × Fld × Nat)} (h : a.SameRegs b l) (hs : ∀ e ∈ l, e ∈ m) :
    a.SameRegs b m := fun p f i e => h p f i fun x hx => e x (hs x hx)

theorem Chip.SameRegs.put {a b : Chip} {l : List (Page × Fld × Nat)} (p : Page) (f : Fld) (v : Nat)
    (h : a.SameRegs b l) (hm : (p, f, 0) ∈ l) : a.SameRegs (b.put p f v) l := RegFile.Same.putI p f 0 v h hm

theorem Chip.SameRegs.putShI {a b : Chip} {l : List (Page × Fld × Nat)} (p : Page) (f : Fld) (i v : Nat)
    (h : a.SameRegs b l) (hm : (p, f, i) ∈ l) : a.SameRegs (b.putShI p f i v) l :=
  h.trans fun q g j e => by
    have k : fieldKey p f i ≠ fieldKey q g j := e (p, f, i) hm
    exact ⟨Chip.rdI_putShI .., Chip.shI_putShI_ne _ _ _ _ _ _ _ _ k⟩

theorem Chip.SameBut.rfl' (c : Chip) (l : List Part) : c.SameBut c l := fun q _ => by cases q <;> exact rfl

theorem Chip.SameBut.trans {a b c : Chip} {l : List Part} (h : a.SameBut b l) (k : b.SameBut c l) : a.SameBut c l :=
  fun q hq => by
    have h1 := h q hq
    have h2 := k q hq
    cases q <;> exact Eq.trans h2 h1

theorem Chip.SameBut.mono {a b : Chip} {l m : List Part} (h : a.SameBut b l) (hs : ∀ q ∈ l, q ∈ m) : a.SameBut b m :=
  fun q hq => h q fun hl => hq (hs q hl)

/-- Nothing listed: the two states are equal. -/
theorem Chip.SameBut.eq {c d : Chip} (h : c.SameBut d []) : d = c := by
  have k := fun q => h q (by simp)
  cases c; cases d
  congr 1
  · exact k .tb
  · exact k .freeCt
  · exact k .reg
  · exact k .commits
  · exact k .cmdPages
  · exact k .rqHost
  · exact k .rqMgmt
  · exact k .rqI3c
  · exact k .isl
  · exact k .pins
  · exact k .mgmt
  · exact k .framesRunning
  · exact k .frameNum
  · exact k .frameStart
  · exact k .x16
  · exact k .col
  · exact k .halls
  · exact k .axes
  · exact k .spins
  · exact k .engs
  · exact k .traces
  · exact k .sets
  · exact k .meas
  · exact k .exch
  · exact k .groups
  · exact k .heads
  · exact k .servos
  · exact k .beams
  · exact k .assay
  · exact k .mem
  · exact k .sluice
  · exact k .rs
  · exact k .images
  · exact k .host
  · exact k .lib
  · exact k .peer
  · exact k .log
  · exact k .stripe
  · exact k .consumed
  · exact k .verified
  · exact k .spinDem

end Sys2Proof.Machine
end

