-- ==== Sys2Proof/Laws/Units.lean ====
section
/-!
SUPPORT. What each named update of one unit leaves alone: one lemma per field and update, true by definition; and what the unit
holds after it.
-/
namespace Sys2Proof.Machine

variable (c : Chip)

@[simp] theorem Chip.modHd_tb (h : Port) (f : HeadSt → HeadSt) : (c.modHd h f).tb = c.tb := rfl
@[simp] theorem Chip.modHd_freeCt (h : Port) (f : HeadSt → HeadSt) : (c.modHd h f).freeCt = c.freeCt := rfl
@[simp] theorem Chip.modHd_reg (h : Port) (f : HeadSt → HeadSt) : (c.modHd h f).reg = c.reg := rfl
@[simp] theorem Chip.modHd_commits (h : Port) (f : HeadSt → HeadSt) : (c.modHd h f).commits = c.commits := rfl
@[simp] theorem Chip.modHd_cmdPages (h : Port) (f : HeadSt → HeadSt) : (c.modHd h f).cmdPages = c.cmdPages := rfl
@[simp] theorem Chip.modHd_rqHost (h : Port) (f : HeadSt → HeadSt) : (c.modHd h f).rqHost = c.rqHost := rfl
@[simp] theorem Chip.modHd_rqMgmt (h : Port) (f : HeadSt → HeadSt) : (c.modHd h f).rqMgmt = c.rqMgmt := rfl
@[simp] theorem Chip.modHd_rqI3c (h : Port) (f : HeadSt → HeadSt) : (c.modHd h f).rqI3c = c.rqI3c := rfl
@[simp] theorem Chip.modHd_isl (h : Port) (f : HeadSt → HeadSt) : (c.modHd h f).isl = c.isl := rfl
@[simp] theorem Chip.modHd_pins (h : Port) (f : HeadSt → HeadSt) : (c.modHd h f).pins = c.pins := rfl
@[simp] theorem Chip.modHd_mgmt (h : Port) (f : HeadSt → HeadSt) : (c.modHd h f).mgmt = c.mgmt := rfl
@[simp] theorem Chip.modHd_framesRunning (h : Port) (f : HeadSt → HeadSt) : (c.modHd h f).framesRunning = c.framesRunning := rfl
@[simp] theorem Chip.modHd_frameNum (h : Port) (f : HeadSt → HeadSt) : (c.modHd h f).frameNum = c.frameNum := rfl
@[simp] theorem Chip.modHd_frameStart (h : Port) (f : HeadSt → HeadSt) : (c.modHd h f).frameStart = c.frameStart := rfl
@[simp] theorem Chip.modHd_x16 (h : Port) (f : HeadSt → HeadSt) : (c.modHd h f).x16 = c.x16 := rfl
@[simp] theorem Chip.modHd_col (h : Port) (f : HeadSt → HeadSt) : (c.modHd h f).col = c.col := rfl
@[simp] theorem Chip.modHd_halls (h : Port) (f : HeadSt → HeadSt) : (c.modHd h f).halls = c.halls := rfl
@[simp] theorem Chip.modHd_axes (h : Port) (f : HeadSt → HeadSt) : (c.modHd h f).axes = c.axes := rfl
@[simp] theorem Chip.modHd_spins (h : Port) (f : HeadSt → HeadSt) : (c.modHd h f).spins = c.spins := rfl
@[simp] theorem Chip.modHd_engs (h : Port) (f : HeadSt → HeadSt) : (c.modHd h f).engs = c.engs := rfl
@[simp] theorem Chip.modHd_traces (h : Port) (f : HeadSt → HeadSt) : (c.modHd h f).traces = c.traces := rfl
@[simp] theorem Chip.modHd_sets (h : Port) (f : HeadSt → HeadSt) : (c.modHd h f).sets = c.sets := rfl
@[simp] theorem Chip.modHd_meas (h : Port) (f : HeadSt → HeadSt) : (c.modHd h f).meas = c.meas := rfl
@[simp] theorem Chip.modHd_exch (h : Port) (f : HeadSt → HeadSt) : (c.modHd h f).exch = c.exch := rfl
@[simp] theorem Chip.modHd_groups (h : Port) (f : HeadSt → HeadSt) : (c.modHd h f).groups = c.groups := rfl
@[simp] theorem Chip.modHd_servos (h : Port) (f : HeadSt → HeadSt) : (c.modHd h f).servos = c.servos := rfl
@[simp] theorem Chip.modHd_beams (h : Port) (f : HeadSt → HeadSt) : (c.modHd h f).beams = c.beams := rfl
@[simp] theorem Chip.modHd_assay (h : Port) (f : HeadSt → HeadSt) : (c.modHd h f).assay = c.assay := rfl
@[simp] theorem Chip.modHd_mem (h : Port) (f : HeadSt → HeadSt) : (c.modHd h f).mem = c.mem := rfl
@[simp] theorem Chip.modHd_sluice (h : Port) (f : HeadSt → HeadSt) : (c.modHd h f).sluice = c.sluice := rfl
@[simp] theorem Chip.modHd_rs (h : Port) (f : HeadSt → HeadSt) : (c.modHd h f).rs = c.rs := rfl
@[simp] theorem Chip.modHd_images (h : Port) (f : HeadSt → HeadSt) : (c.modHd h f).images = c.images := rfl
@[simp] theorem Chip.modHd_host (h : Port) (f : HeadSt → HeadSt) : (c.modHd h f).host = c.host := rfl
@[simp] theorem Chip.modHd_lib (h : Port) (f : HeadSt → HeadSt) : (c.modHd h f).lib = c.lib := rfl
@[simp] theorem Chip.modHd_peer (h : Port) (f : HeadSt → HeadSt) : (c.modHd h f).peer = c.peer := rfl
@[simp] theorem Chip.modHd_log (h : Port) (f : HeadSt → HeadSt) : (c.modHd h f).log = c.log := rfl
@[simp] theorem Chip.modHd_stripe (h : Port) (f : HeadSt → HeadSt) : (c.modHd h f).stripe = c.stripe := rfl
@[simp] theorem Chip.modHd_consumed (h : Port) (f : HeadSt → HeadSt) : (c.modHd h f).consumed = c.consumed := rfl
@[simp] theorem Chip.modHd_verified (h : Port) (f : HeadSt → HeadSt) : (c.modHd h f).verified = c.verified := rfl
@[simp] theorem Chip.modHd_spinDem (h : Port) (f : HeadSt → HeadSt) : (c.modHd h f).spinDem = c.spinDem := rfl

@[simp] theorem Chip.modBm_tb (h : Port) (b : BeamNo) (f : BeamSt → BeamSt) : (c.modBm h b f).tb = c.tb := rfl
@[simp] theorem Chip.modBm_freeCt (h : Port) (b : BeamNo) (f : BeamSt → BeamSt) : (c.modBm h b f).freeCt = c.freeCt := rfl
@[simp] theorem Chip.modBm_reg (h : Port) (b : BeamNo) (f : BeamSt → BeamSt) : (c.modBm h b f).reg = c.reg := rfl
@[simp] theorem Chip.modBm_commits (h : Port) (b : BeamNo) (f : BeamSt → BeamSt) : (c.modBm h b f).commits = c.commits := rfl
@[simp] theorem Chip.modBm_cmdPages (h : Port) (b : BeamNo) (f : BeamSt → BeamSt) : (c.modBm h b f).cmdPages = c.cmdPages := rfl
@[simp] theorem Chip.modBm_rqHost (h : Port) (b : BeamNo) (f : BeamSt → BeamSt) : (c.modBm h b f).rqHost = c.rqHost := rfl
@[simp] theorem Chip.modBm_rqMgmt (h : Port) (b : BeamNo) (f : BeamSt → BeamSt) : (c.modBm h b f).rqMgmt = c.rqMgmt := rfl
@[simp] theorem Chip.modBm_rqI3c (h : Port) (b : BeamNo) (f : BeamSt → BeamSt) : (c.modBm h b f).rqI3c = c.rqI3c := rfl
@[simp] theorem Chip.modBm_isl (h : Port) (b : BeamNo) (f : BeamSt → BeamSt) : (c.modBm h b f).isl = c.isl := rfl
@[simp] theorem Chip.modBm_pins (h : Port) (b : BeamNo) (f : BeamSt → BeamSt) : (c.modBm h b f).pins = c.pins := rfl
@[simp] theorem Chip.modBm_mgmt (h : Port) (b : BeamNo) (f : BeamSt → BeamSt) : (c.modBm h b f).mgmt = c.mgmt := rfl
@[simp] theorem Chip.modBm_framesRunning (h : Port) (b : BeamNo) (f : BeamSt → BeamSt) : (c.modBm h b f).framesRunning = c.framesRunning := rfl
@[simp] theorem Chip.modBm_frameNum (h : Port) (b : BeamNo) (f : BeamSt → BeamSt) : (c.modBm h b f).frameNum = c.frameNum := rfl
@[simp] theorem Chip.modBm_frameStart (h : Port) (b : BeamNo) (f : BeamSt → BeamSt) : (c.modBm h b f).frameStart = c.frameStart := rfl
@[simp] theorem Chip.modBm_x16 (h : Port) (b : BeamNo) (f : BeamSt → BeamSt) : (c.modBm h b f).x16 = c.x16 := rfl
@[simp] theorem Chip.modBm_col (h : Port) (b : BeamNo) (f : BeamSt → BeamSt) : (c.modBm h b f).col = c.col := rfl
@[simp] theorem Chip.modBm_halls (h : Port) (b : BeamNo) (f : BeamSt → BeamSt) : (c.modBm h b f).halls = c.halls := rfl
@[simp] theorem Chip.modBm_axes (h : Port) (b : BeamNo) (f : BeamSt → BeamSt) : (c.modBm h b f).axes = c.axes := rfl
@[simp] theorem Chip.modBm_spins (h : Port) (b : BeamNo) (f : BeamSt → BeamSt) : (c.modBm h b f).spins = c.spins := rfl
@[simp] theorem Chip.modBm_engs (h : Port) (b : BeamNo) (f : BeamSt → BeamSt) : (c.modBm h b f).engs = c.engs := rfl
@[simp] theorem Chip.modBm_traces (h : Port) (b : BeamNo) (f : BeamSt → BeamSt) : (c.modBm h b f).traces = c.traces := rfl
@[simp] theorem Chip.modBm_sets (h : Port) (b : BeamNo) (f : BeamSt → BeamSt) : (c.modBm h b f).sets = c.sets := rfl
@[simp] theorem Chip.modBm_meas (h : Port) (b : BeamNo) (f : BeamSt → BeamSt) : (c.modBm h b f).meas = c.meas := rfl
@[simp] theorem Chip.modBm_exch (h : Port) (b : BeamNo) (f : BeamSt → BeamSt) : (c.modBm h b f).exch = c.exch := rfl
@[simp] theorem Chip.modBm_groups (h : Port) (b : BeamNo) (f : BeamSt → BeamSt) : (c.modBm h b f).groups = c.groups := rfl
@[simp] theorem Chip.modBm_heads (h : Port) (b : BeamNo) (f : BeamSt → BeamSt) : (c.modBm h b f).heads = c.heads := rfl
@[simp] theorem Chip.modBm_servos (h : Port) (b : BeamNo) (f : BeamSt → BeamSt) : (c.modBm h b f).servos = c.servos := rfl
@[simp] theorem Chip.modBm_assay (h : Port) (b : BeamNo) (f : BeamSt → BeamSt) : (c.modBm h b f).assay = c.assay := rfl
@[simp] theorem Chip.modBm_mem (h : Port) (b : BeamNo) (f : BeamSt → BeamSt) : (c.modBm h b f).mem = c.mem := rfl
@[simp] theorem Chip.modBm_sluice (h : Port) (b : BeamNo) (f : BeamSt → BeamSt) : (c.modBm h b f).sluice = c.sluice := rfl
@[simp] theorem Chip.modBm_rs (h : Port) (b : BeamNo) (f : BeamSt → BeamSt) : (c.modBm h b f).rs = c.rs := rfl
@[simp] theorem Chip.modBm_images (h : Port) (b : BeamNo) (f : BeamSt → BeamSt) : (c.modBm h b f).images = c.images := rfl
@[simp] theorem Chip.modBm_host (h : Port) (b : BeamNo) (f : BeamSt → BeamSt) : (c.modBm h b f).host = c.host := rfl
@[simp] theorem Chip.modBm_lib (h : Port) (b : BeamNo) (f : BeamSt → BeamSt) : (c.modBm h b f).lib = c.lib := rfl
@[simp] theorem Chip.modBm_peer (h : Port) (b : BeamNo) (f : BeamSt → BeamSt) : (c.modBm h b f).peer = c.peer := rfl
@[simp] theorem Chip.modBm_log (h : Port) (b : BeamNo) (f : BeamSt → BeamSt) : (c.modBm h b f).log = c.log := rfl
@[simp] theorem Chip.modBm_stripe (h : Port) (b : BeamNo) (f : BeamSt → BeamSt) : (c.modBm h b f).stripe = c.stripe := rfl
@[simp] theorem Chip.modBm_consumed (h : Port) (b : BeamNo) (f : BeamSt → BeamSt) : (c.modBm h b f).consumed = c.consumed := rfl
@[simp] theorem Chip.modBm_verified (h : Port) (b : BeamNo) (f : BeamSt → BeamSt) : (c.modBm h b f).verified = c.verified := rfl
@[simp] theorem Chip.modBm_spinDem (h : Port) (b : BeamNo) (f : BeamSt → BeamSt) : (c.modBm h b f).spinDem = c.spinDem := rfl

@[simp] theorem Chip.modSv_tb (h : Port) (f : ServoSt → ServoSt) : (c.modSv h f).tb = c.tb := rfl
@[simp] theorem Chip.modSv_freeCt (h : Port) (f : ServoSt → ServoSt) : (c.modSv h f).freeCt = c.freeCt := rfl
@[simp] theorem Chip.modSv_reg (h : Port) (f : ServoSt → ServoSt) : (c.modSv h f).reg = c.reg := rfl
@[simp] theorem Chip.modSv_commits (h : Port) (f : ServoSt → ServoSt) : (c.modSv h f).commits = c.commits := rfl
@[simp] theorem Chip.modSv_cmdPages (h : Port) (f : ServoSt → ServoSt) : (c.modSv h f).cmdPages = c.cmdPages := rfl
@[simp] theorem Chip.modSv_rqHost (h : Port) (f : ServoSt → ServoSt) : (c.modSv h f).rqHost = c.rqHost := rfl
@[simp] theorem Chip.modSv_rqMgmt (h : Port) (f : ServoSt → ServoSt) : (c.modSv h f).rqMgmt = c.rqMgmt := rfl
@[simp] theorem Chip.modSv_rqI3c (h : Port) (f : ServoSt → ServoSt) : (c.modSv h f).rqI3c = c.rqI3c := rfl
@[simp] theorem Chip.modSv_isl (h : Port) (f : ServoSt → ServoSt) : (c.modSv h f).isl = c.isl := rfl
@[simp] theorem Chip.modSv_pins (h : Port) (f : ServoSt → ServoSt) : (c.modSv h f).pins = c.pins := rfl
@[simp] theorem Chip.modSv_mgmt (h : Port) (f : ServoSt → ServoSt) : (c.modSv h f).mgmt = c.mgmt := rfl
@[simp] theorem Chip.modSv_framesRunning (h : Port) (f : ServoSt → ServoSt) : (c.modSv h f).framesRunning = c.framesRunning := rfl
@[simp] theorem Chip.modSv_frameNum (h : Port) (f : ServoSt → ServoSt) : (c.modSv h f).frameNum = c.frameNum := rfl
@[simp] theorem Chip.modSv_frameStart (h : Port) (f : ServoSt → ServoSt) : (c.modSv h f).frameStart = c.frameStart := rfl
@[simp] theorem Chip.modSv_x16 (h : Port) (f : ServoSt → ServoSt) : (c.modSv h f).x16 = c.x16 := rfl
@[simp] theorem Chip.modSv_col (h : Port) (f : ServoSt → ServoSt) : (c.modSv h f).col = c.col := rfl
@[simp] theorem Chip.modSv_halls (h : Port) (f : ServoSt → ServoSt) : (c.modSv h f).halls = c.halls := rfl
@[simp] theorem Chip.modSv_axes (h : Port) (f : ServoSt → ServoSt) : (c.modSv h f).axes = c.axes := rfl
@[simp] theorem Chip.modSv_spins (h : Port) (f : ServoSt → ServoSt) : (c.modSv h f).spins = c.spins := rfl
@[simp] theorem Chip.modSv_engs (h : Port) (f : ServoSt → ServoSt) : (c.modSv h f).engs = c.engs := rfl
@[simp] theorem Chip.modSv_traces (h : Port) (f : ServoSt → ServoSt) : (c.modSv h f).traces = c.traces := rfl
@[simp] theorem Chip.modSv_sets (h : Port) (f : ServoSt → ServoSt) : (c.modSv h f).sets = c.sets := rfl
@[simp] theorem Chip.modSv_meas (h : Port) (f : ServoSt → ServoSt) : (c.modSv h f).meas = c.meas := rfl
@[simp] theorem Chip.modSv_exch (h : Port) (f : ServoSt → ServoSt) : (c.modSv h f).exch = c.exch := rfl
@[simp] theorem Chip.modSv_groups (h : Port) (f : ServoSt → ServoSt) : (c.modSv h f).groups = c.groups := rfl
@[simp] theorem Chip.modSv_heads (h : Port) (f : ServoSt → ServoSt) : (c.modSv h f).heads = c.heads := rfl
@[simp] theorem Chip.modSv_beams (h : Port) (f : ServoSt → ServoSt) : (c.modSv h f).beams = c.beams := rfl
@[simp] theorem Chip.modSv_assay (h : Port) (f : ServoSt → ServoSt) : (c.modSv h f).assay = c.assay := rfl
@[simp] theorem Chip.modSv_mem (h : Port) (f : ServoSt → ServoSt) : (c.modSv h f).mem = c.mem := rfl
@[simp] theorem Chip.modSv_sluice (h : Port) (f : ServoSt → ServoSt) : (c.modSv h f).sluice = c.sluice := rfl
@[simp] theorem Chip.modSv_rs (h : Port) (f : ServoSt → ServoSt) : (c.modSv h f).rs = c.rs := rfl
@[simp] theorem Chip.modSv_images (h : Port) (f : ServoSt → ServoSt) : (c.modSv h f).images = c.images := rfl
@[simp] theorem Chip.modSv_host (h : Port) (f : ServoSt → ServoSt) : (c.modSv h f).host = c.host := rfl
@[simp] theorem Chip.modSv_lib (h : Port) (f : ServoSt → ServoSt) : (c.modSv h f).lib = c.lib := rfl
@[simp] theorem Chip.modSv_peer (h : Port) (f : ServoSt → ServoSt) : (c.modSv h f).peer = c.peer := rfl
@[simp] theorem Chip.modSv_log (h : Port) (f : ServoSt → ServoSt) : (c.modSv h f).log = c.log := rfl
@[simp] theorem Chip.modSv_stripe (h : Port) (f : ServoSt → ServoSt) : (c.modSv h f).stripe = c.stripe := rfl
@[simp] theorem Chip.modSv_consumed (h : Port) (f : ServoSt → ServoSt) : (c.modSv h f).consumed = c.consumed := rfl
@[simp] theorem Chip.modSv_verified (h : Port) (f : ServoSt → ServoSt) : (c.modSv h f).verified = c.verified := rfl
@[simp] theorem Chip.modSv_spinDem (h : Port) (f : ServoSt → ServoSt) : (c.modSv h f).spinDem = c.spinDem := rfl

@[simp] theorem Chip.modDm_tb (h : Port) (b : BeamNo) (f : Demod → Demod) : (c.modDm h b f).tb = c.tb := rfl
@[simp] theorem Chip.modDm_freeCt (h : Port) (b : BeamNo) (f : Demod → Demod) : (c.modDm h b f).freeCt = c.freeCt := rfl
@[simp] theorem Chip.modDm_reg (h : Port) (b : BeamNo) (f : Demod → Demod) : (c.modDm h b f).reg = c.reg := rfl
@[simp] theorem Chip.modDm_commits (h : Port) (b : BeamNo) (f : Demod → Demod) : (c.modDm h b f).commits = c.commits := rfl
@[simp] theorem Chip.modDm_cmdPages (h : Port) (b : BeamNo) (f : Demod → Demod) : (c.modDm h b f).cmdPages = c.cmdPages := rfl
@[simp] theorem Chip.modDm_rqHost (h : Port) (b : BeamNo) (f : Demod → Demod) : (c.modDm h b f).rqHost = c.rqHost := rfl
@[simp] theorem Chip.modDm_rqMgmt (h : Port) (b : BeamNo) (f : Demod → Demod) : (c.modDm h b f).rqMgmt = c.rqMgmt := rfl
@[simp] theorem Chip.modDm_rqI3c (h : Port) (b : BeamNo) (f : Demod → Demod) : (c.modDm h b f).rqI3c = c.rqI3c := rfl
@[simp] theorem Chip.modDm_isl (h : Port) (b : BeamNo) (f : Demod → Demod) : (c.modDm h b f).isl = c.isl := rfl
@[simp] theorem Chip.modDm_pins (h : Port) (b : BeamNo) (f : Demod → Demod) : (c.modDm h b f).pins = c.pins := rfl
@[simp] theorem Chip.modDm_mgmt (h : Port) (b : BeamNo) (f : Demod → Demod) : (c.modDm h b f).mgmt = c.mgmt := rfl
@[simp] theorem Chip.modDm_framesRunning (h : Port) (b : BeamNo) (f : Demod → Demod) : (c.modDm h b f).framesRunning = c.framesRunning := rfl
@[simp] theorem Chip.modDm_frameNum (h : Port) (b : BeamNo) (f : Demod → Demod) : (c.modDm h b f).frameNum = c.frameNum := rfl
@[simp] theorem Chip.modDm_frameStart (h : Port) (b : BeamNo) (f : Demod → Demod) : (c.modDm h b f).frameStart = c.frameStart := rfl
@[simp] theorem Chip.modDm_x16 (h : Port) (b : BeamNo) (f : Demod → Demod) : (c.modDm h b f).x16 = c.x16 := rfl
@[simp] theorem Chip.modDm_col (h : Port) (b : BeamNo) (f : Demod → Demod) : (c.modDm h b f).col = c.col := rfl
@[simp] theorem Chip.modDm_halls (h : Port) (b : BeamNo) (f : Demod → Demod) : (c.modDm h b f).halls = c.halls := rfl
@[simp] theorem Chip.modDm_axes (h : Port) (b : BeamNo) (f : Demod → Demod) : (c.modDm h b f).axes = c.axes := rfl
@[simp] theorem Chip.modDm_spins (h : Port) (b : BeamNo) (f : Demod → Demod) : (c.modDm h b f).spins = c.spins := rfl
@[simp] theorem Chip.modDm_engs (h : Port) (b : BeamNo) (f : Demod → Demod) : (c.modDm h b f).engs = c.engs := rfl
@[simp] theorem Chip.modDm_traces (h : Port) (b : BeamNo) (f : Demod → Demod) : (c.modDm h b f).traces = c.traces := rfl
@[simp] theorem Chip.modDm_sets (h : Port) (b : BeamNo) (f : Demod → Demod) : (c.modDm h b f).sets = c.sets := rfl
@[simp] theorem Chip.modDm_meas (h : Port) (b : BeamNo) (f : Demod → Demod) : (c.modDm h b f).meas = c.meas := rfl
@[simp] theorem Chip.modDm_exch (h : Port) (b : BeamNo) (f : Demod → Demod) : (c.modDm h b f).exch = c.exch := rfl
@[simp] theorem Chip.modDm_groups (h : Port) (b : BeamNo) (f : Demod → Demod) : (c.modDm h b f).groups = c.groups := rfl
@[simp] theorem Chip.modDm_heads (h : Port) (b : BeamNo) (f : Demod → Demod) : (c.modDm h b f).heads = c.heads := rfl
@[simp] theorem Chip.modDm_beams (h : Port) (b : BeamNo) (f : Demod → Demod) : (c.modDm h b f).beams = c.beams := rfl
@[simp] theorem Chip.modDm_assay (h : Port) (b : BeamNo) (f : Demod → Demod) : (c.modDm h b f).assay = c.assay := rfl
@[simp] theorem Chip.modDm_mem (h : Port) (b : BeamNo) (f : Demod → Demod) : (c.modDm h b f).mem = c.mem := rfl
@[simp] theorem Chip.modDm_sluice (h : Port) (b : BeamNo) (f : Demod → Demod) : (c.modDm h b f).sluice = c.sluice := rfl
@[simp] theorem Chip.modDm_rs (h : Port) (b : BeamNo) (f : Demod → Demod) : (c.modDm h b f).rs = c.rs := rfl
@[simp] theorem Chip.modDm_images (h : Port) (b : BeamNo) (f : Demod → Demod) : (c.modDm h b f).images = c.images := rfl
@[simp] theorem Chip.modDm_host (h : Port) (b : BeamNo) (f : Demod → Demod) : (c.modDm h b f).host = c.host := rfl
@[simp] theorem Chip.modDm_lib (h : Port) (b : BeamNo) (f : Demod → Demod) : (c.modDm h b f).lib = c.lib := rfl
@[simp] theorem Chip.modDm_peer (h : Port) (b : BeamNo) (f : Demod → Demod) : (c.modDm h b f).peer = c.peer := rfl
@[simp] theorem Chip.modDm_log (h : Port) (b : BeamNo) (f : Demod → Demod) : (c.modDm h b f).log = c.log := rfl
@[simp] theorem Chip.modDm_stripe (h : Port) (b : BeamNo) (f : Demod → Demod) : (c.modDm h b f).stripe = c.stripe := rfl
@[simp] theorem Chip.modDm_consumed (h : Port) (b : BeamNo) (f : Demod → Demod) : (c.modDm h b f).consumed = c.consumed := rfl
@[simp] theorem Chip.modDm_verified (h : Port) (b : BeamNo) (f : Demod → Demod) : (c.modDm h b f).verified = c.verified := rfl
@[simp] theorem Chip.modDm_spinDem (h : Port) (b : BeamNo) (f : Demod → Demod) : (c.modDm h b f).spinDem = c.spinDem := rfl

@[simp] theorem Chip.modSp_tb (n : Spin) (f : SpinSt → SpinSt) : (c.modSp n f).tb = c.tb := rfl
@[simp] theorem Chip.modSp_freeCt (n : Spin) (f : SpinSt → SpinSt) : (c.modSp n f).freeCt = c.freeCt := rfl
@[simp] theorem Chip.modSp_reg (n : Spin) (f : SpinSt → SpinSt) : (c.modSp n f).reg = c.reg := rfl
@[simp] theorem Chip.modSp_commits (n : Spin) (f : SpinSt → SpinSt) : (c.modSp n f).commits = c.commits := rfl
@[simp] theorem Chip.modSp_cmdPages (n : Spin) (f : SpinSt → SpinSt) : (c.modSp n f).cmdPages = c.cmdPages := rfl
@[simp] theorem Chip.modSp_rqHost (n : Spin) (f : SpinSt → SpinSt) : (c.modSp n f).rqHost = c.rqHost := rfl
@[simp] theorem Chip.modSp_rqMgmt (n : Spin) (f : SpinSt → SpinSt) : (c.modSp n f).rqMgmt = c.rqMgmt := rfl
@[simp] theorem Chip.modSp_rqI3c (n : Spin) (f : SpinSt → SpinSt) : (c.modSp n f).rqI3c = c.rqI3c := rfl
@[simp] theorem Chip.modSp_isl (n : Spin) (f : SpinSt → SpinSt) : (c.modSp n f).isl = c.isl := rfl
@[simp] theorem Chip.modSp_pins (n : Spin) (f : SpinSt → SpinSt) : (c.modSp n f).pins = c.pins := rfl
@[simp] theorem Chip.modSp_mgmt (n : Spin) (f : SpinSt → SpinSt) : (c.modSp n f).mgmt = c.mgmt := rfl
@[simp] theorem Chip.modSp_framesRunning (n : Spin) (f : SpinSt → SpinSt) : (c.modSp n f).framesRunning = c.framesRunning := rfl
@[simp] theorem Chip.modSp_frameNum (n : Spin) (f : SpinSt → SpinSt) : (c.modSp n f).frameNum = c.frameNum := rfl
@[simp] theorem Chip.modSp_frameStart (n : Spin) (f : SpinSt → SpinSt) : (c.modSp n f).frameStart = c.frameStart := rfl
@[simp] theorem Chip.modSp_x16 (n : Spin) (f : SpinSt → SpinSt) : (c.modSp n f).x16 = c.x16 := rfl
@[simp] theorem Chip.modSp_col (n : Spin) (f : SpinSt → SpinSt) : (c.modSp n f).col = c.col := rfl
@[simp] theorem Chip.modSp_halls (n : Spin) (f : SpinSt → SpinSt) : (c.modSp n f).halls = c.halls := rfl
@[simp] theorem Chip.modSp_axes (n : Spin) (f : SpinSt → SpinSt) : (c.modSp n f).axes = c.axes := rfl
@[simp] theorem Chip.modSp_engs (n : Spin) (f : SpinSt → SpinSt) : (c.modSp n f).engs = c.engs := rfl
@[simp] theorem Chip.modSp_traces (n : Spin) (f : SpinSt → SpinSt) : (c.modSp n f).traces = c.traces := rfl
@[simp] theorem Chip.modSp_sets (n : Spin) (f : SpinSt → SpinSt) : (c.modSp n f).sets = c.sets := rfl
@[simp] theorem Chip.modSp_meas (n : Spin) (f : SpinSt → SpinSt) : (c.modSp n f).meas = c.meas := rfl
@[simp] theorem Chip.modSp_exch (n : Spin) (f : SpinSt → SpinSt) : (c.modSp n f).exch = c.exch := rfl
@[simp] theorem Chip.modSp_groups (n : Spin) (f : SpinSt → SpinSt) : (c.modSp n f).groups = c.groups := rfl
@[simp] theorem Chip.modSp_heads (n : Spin) (f : SpinSt → SpinSt) : (c.modSp n f).heads = c.heads := rfl
@[simp] theorem Chip.modSp_servos (n : Spin) (f : SpinSt → SpinSt) : (c.modSp n f).servos = c.servos := rfl
@[simp] theorem Chip.modSp_beams (n : Spin) (f : SpinSt → SpinSt) : (c.modSp n f).beams = c.beams := rfl
@[simp] theorem Chip.modSp_assay (n : Spin) (f : SpinSt → SpinSt) : (c.modSp n f).assay = c.assay := rfl
@[simp] theorem Chip.modSp_mem (n : Spin) (f : SpinSt → SpinSt) : (c.modSp n f).mem = c.mem := rfl
@[simp] theorem Chip.modSp_sluice (n : Spin) (f : SpinSt → SpinSt) : (c.modSp n f).sluice = c.sluice := rfl
@[simp] theorem Chip.modSp_rs (n : Spin) (f : SpinSt → SpinSt) : (c.modSp n f).rs = c.rs := rfl
@[simp] theorem Chip.modSp_images (n : Spin) (f : SpinSt → SpinSt) : (c.modSp n f).images = c.images := rfl
@[simp] theorem Chip.modSp_host (n : Spin) (f : SpinSt → SpinSt) : (c.modSp n f).host = c.host := rfl
@[simp] theorem Chip.modSp_lib (n : Spin) (f : SpinSt → SpinSt) : (c.modSp n f).lib = c.lib := rfl
@[simp] theorem Chip.modSp_peer (n : Spin) (f : SpinSt → SpinSt) : (c.modSp n f).peer = c.peer := rfl
@[simp] theorem Chip.modSp_log (n : Spin) (f : SpinSt → SpinSt) : (c.modSp n f).log = c.log := rfl
@[simp] theorem Chip.modSp_stripe (n : Spin) (f : SpinSt → SpinSt) : (c.modSp n f).stripe = c.stripe := rfl
@[simp] theorem Chip.modSp_consumed (n : Spin) (f : SpinSt → SpinSt) : (c.modSp n f).consumed = c.consumed := rfl
@[simp] theorem Chip.modSp_verified (n : Spin) (f : SpinSt → SpinSt) : (c.modSp n f).verified = c.verified := rfl
@[simp] theorem Chip.modSp_spinDem (n : Spin) (f : SpinSt → SpinSt) : (c.modSp n f).spinDem = c.spinDem := rfl

@[simp] theorem Chip.modAx_tb (a : Axis) (f : AxisSt → AxisSt) : (c.modAx a f).tb = c.tb := rfl
@[simp] theorem Chip.modAx_freeCt (a : Axis) (f : AxisSt → AxisSt) : (c.modAx a f).freeCt = c.freeCt := rfl
@[simp] theorem Chip.modAx_reg (a : Axis) (f : AxisSt → AxisSt) : (c.modAx a f).reg = c.reg := rfl
@[simp] theorem Chip.modAx_commits (a : Axis) (f : AxisSt → AxisSt) : (c.modAx a f).commits = c.commits := rfl
@[simp] theorem Chip.modAx_cmdPages (a : Axis) (f : AxisSt → AxisSt) : (c.modAx a f).cmdPages = c.cmdPages := rfl
@[simp] theorem Chip.modAx_rqHost (a : Axis) (f : AxisSt → AxisSt) : (c.modAx a f).rqHost = c.rqHost := rfl
@[simp] theorem Chip.modAx_rqMgmt (a : Axis) (f : AxisSt → AxisSt) : (c.modAx a f).rqMgmt = c.rqMgmt := rfl
@[simp] theorem Chip.modAx_rqI3c (a : Axis) (f : AxisSt → AxisSt) : (c.modAx a f).rqI3c = c.rqI3c := rfl
@[simp] theorem Chip.modAx_isl (a : Axis) (f : AxisSt → AxisSt) : (c.modAx a f).isl = c.isl := rfl
@[simp] theorem Chip.modAx_pins (a : Axis) (f : AxisSt → AxisSt) : (c.modAx a f).pins = c.pins := rfl
@[simp] theorem Chip.modAx_mgmt (a : Axis) (f : AxisSt → AxisSt) : (c.modAx a f).mgmt = c.mgmt := rfl
@[simp] theorem Chip.modAx_framesRunning (a : Axis) (f : AxisSt → AxisSt) : (c.modAx a f).framesRunning = c.framesRunning := rfl
@[simp] theorem Chip.modAx_frameNum (a : Axis) (f : AxisSt → AxisSt) : (c.modAx a f).frameNum = c.frameNum := rfl
@[simp] theorem Chip.modAx_frameStart (a : Axis) (f : AxisSt → AxisSt) : (c.modAx a f).frameStart = c.frameStart := rfl
@[simp] theorem Chip.modAx_x16 (a : Axis) (f : AxisSt → AxisSt) : (c.modAx a f).x16 = c.x16 := rfl
@[simp] theorem Chip.modAx_col (a : Axis) (f : AxisSt → AxisSt) : (c.modAx a f).col = c.col := rfl
@[simp] theorem Chip.modAx_halls (a : Axis) (f : AxisSt → AxisSt) : (c.modAx a f).halls = c.halls := rfl
@[simp] theorem Chip.modAx_spins (a : Axis) (f : AxisSt → AxisSt) : (c.modAx a f).spins = c.spins := rfl
@[simp] theorem Chip.modAx_engs (a : Axis) (f : AxisSt → AxisSt) : (c.modAx a f).engs = c.engs := rfl
@[simp] theorem Chip.modAx_traces (a : Axis) (f : AxisSt → AxisSt) : (c.modAx a f).traces = c.traces := rfl
@[simp] theorem Chip.modAx_sets (a : Axis) (f : AxisSt → AxisSt) : (c.modAx a f).sets = c.sets := rfl
@[simp] theorem Chip.modAx_meas (a : Axis) (f : AxisSt → AxisSt) : (c.modAx a f).meas = c.meas := rfl
@[simp] theorem Chip.modAx_exch (a : Axis) (f : AxisSt → AxisSt) : (c.modAx a f).exch = c.exch := rfl
@[simp] theorem Chip.modAx_groups (a : Axis) (f : AxisSt → AxisSt) : (c.modAx a f).groups = c.groups := rfl
@[simp] theorem Chip.modAx_heads (a : Axis) (f : AxisSt → AxisSt) : (c.modAx a f).heads = c.heads := rfl
@[simp] theorem Chip.modAx_servos (a : Axis) (f : AxisSt → AxisSt) : (c.modAx a f).servos = c.servos := rfl
@[simp] theorem Chip.modAx_beams (a : Axis) (f : AxisSt → AxisSt) : (c.modAx a f).beams = c.beams := rfl
@[simp] theorem Chip.modAx_assay (a : Axis) (f : AxisSt → AxisSt) : (c.modAx a f).assay = c.assay := rfl
@[simp] theorem Chip.modAx_mem (a : Axis) (f : AxisSt → AxisSt) : (c.modAx a f).mem = c.mem := rfl
@[simp] theorem Chip.modAx_sluice (a : Axis) (f : AxisSt → AxisSt) : (c.modAx a f).sluice = c.sluice := rfl
@[simp] theorem Chip.modAx_rs (a : Axis) (f : AxisSt → AxisSt) : (c.modAx a f).rs = c.rs := rfl
@[simp] theorem Chip.modAx_images (a : Axis) (f : AxisSt → AxisSt) : (c.modAx a f).images = c.images := rfl
@[simp] theorem Chip.modAx_host (a : Axis) (f : AxisSt → AxisSt) : (c.modAx a f).host = c.host := rfl
@[simp] theorem Chip.modAx_lib (a : Axis) (f : AxisSt → AxisSt) : (c.modAx a f).lib = c.lib := rfl
@[simp] theorem Chip.modAx_peer (a : Axis) (f : AxisSt → AxisSt) : (c.modAx a f).peer = c.peer := rfl
@[simp] theorem Chip.modAx_log (a : Axis) (f : AxisSt → AxisSt) : (c.modAx a f).log = c.log := rfl
@[simp] theorem Chip.modAx_stripe (a : Axis) (f : AxisSt → AxisSt) : (c.modAx a f).stripe = c.stripe := rfl
@[simp] theorem Chip.modAx_consumed (a : Axis) (f : AxisSt → AxisSt) : (c.modAx a f).consumed = c.consumed := rfl
@[simp] theorem Chip.modAx_verified (a : Axis) (f : AxisSt → AxisSt) : (c.modAx a f).verified = c.verified := rfl
@[simp] theorem Chip.modAx_spinDem (a : Axis) (f : AxisSt → AxisSt) : (c.modAx a f).spinDem = c.spinDem := rfl

@[simp] theorem Chip.modEn_tb (e : Eng) (f : EngSt → EngSt) : (c.modEn e f).tb = c.tb := rfl
@[simp] theorem Chip.modEn_freeCt (e : Eng) (f : EngSt → EngSt) : (c.modEn e f).freeCt = c.freeCt := rfl
@[simp] theorem Chip.modEn_reg (e : Eng) (f : EngSt → EngSt) : (c.modEn e f).reg = c.reg := rfl
@[simp] theorem Chip.modEn_commits (e : Eng) (f : EngSt → EngSt) : (c.modEn e f).commits = c.commits := rfl
@[simp] theorem Chip.modEn_cmdPages (e : Eng) (f : EngSt → EngSt) : (c.modEn e f).cmdPages = c.cmdPages := rfl
@[simp] theorem Chip.modEn_rqHost (e : Eng) (f : EngSt → EngSt) : (c.modEn e f).rqHost = c.rqHost := rfl
@[simp] theorem Chip.modEn_rqMgmt (e : Eng) (f : EngSt → EngSt) : (c.modEn e f).rqMgmt = c.rqMgmt := rfl
@[simp] theorem Chip.modEn_rqI3c (e : Eng) (f : EngSt → EngSt) : (c.modEn e f).rqI3c = c.rqI3c := rfl
@[simp] theorem Chip.modEn_isl (e : Eng) (f : EngSt → EngSt) : (c.modEn e f).isl = c.isl := rfl
@[simp] theorem Chip.modEn_pins (e : Eng) (f : EngSt → EngSt) : (c.modEn e f).pins = c.pins := rfl
@[simp] theorem Chip.modEn_mgmt (e : Eng) (f : EngSt → EngSt) : (c.modEn e f).mgmt = c.mgmt := rfl
@[simp] theorem Chip.modEn_framesRunning (e : Eng) (f : EngSt → EngSt) : (c.modEn e f).framesRunning = c.framesRunning := rfl
@[simp] theorem Chip.modEn_frameNum (e : Eng) (f : EngSt → EngSt) : (c.modEn e f).frameNum = c.frameNum := rfl
@[simp] theorem Chip.modEn_frameStart (e : Eng) (f : EngSt → EngSt) : (c.modEn e f).frameStart = c.frameStart := rfl
@[simp] theorem Chip.modEn_x16 (e : Eng) (f : EngSt → EngSt) : (c.modEn e f).x16 = c.x16 := rfl
@[simp] theorem Chip.modEn_col (e : Eng) (f : EngSt → EngSt) : (c.modEn e f).col = c.col := rfl
@[simp] theorem Chip.modEn_halls (e : Eng) (f : EngSt → EngSt) : (c.modEn e f).halls = c.halls := rfl
@[simp] theorem Chip.modEn_axes (e : Eng) (f : EngSt → EngSt) : (c.modEn e f).axes = c.axes := rfl
@[simp] theorem Chip.modEn_spins (e : Eng) (f : EngSt → EngSt) : (c.modEn e f).spins = c.spins := rfl
@[simp] theorem Chip.modEn_traces (e : Eng) (f : EngSt → EngSt) : (c.modEn e f).traces = c.traces := rfl
@[simp] theorem Chip.modEn_sets (e : Eng) (f : EngSt → EngSt) : (c.modEn e f).sets = c.sets := rfl
@[simp] theorem Chip.modEn_meas (e : Eng) (f : EngSt → EngSt) : (c.modEn e f).meas = c.meas := rfl
@[simp] theorem Chip.modEn_exch (e : Eng) (f : EngSt → EngSt) : (c.modEn e f).exch = c.exch := rfl
@[simp] theorem Chip.modEn_groups (e : Eng) (f : EngSt → EngSt) : (c.modEn e f).groups = c.groups := rfl
@[simp] theorem Chip.modEn_heads (e : Eng) (f : EngSt → EngSt) : (c.modEn e f).heads = c.heads := rfl
@[simp] theorem Chip.modEn_servos (e : Eng) (f : EngSt → EngSt) : (c.modEn e f).servos = c.servos := rfl
@[simp] theorem Chip.modEn_beams (e : Eng) (f : EngSt → EngSt) : (c.modEn e f).beams = c.beams := rfl
@[simp] theorem Chip.modEn_assay (e : Eng) (f : EngSt → EngSt) : (c.modEn e f).assay = c.assay := rfl
@[simp] theorem Chip.modEn_mem (e : Eng) (f : EngSt → EngSt) : (c.modEn e f).mem = c.mem := rfl
@[simp] theorem Chip.modEn_sluice (e : Eng) (f : EngSt → EngSt) : (c.modEn e f).sluice = c.sluice := rfl
@[simp] theorem Chip.modEn_rs (e : Eng) (f : EngSt → EngSt) : (c.modEn e f).rs = c.rs := rfl
@[simp] theorem Chip.modEn_images (e : Eng) (f : EngSt → EngSt) : (c.modEn e f).images = c.images := rfl
@[simp] theorem Chip.modEn_host (e : Eng) (f : EngSt → EngSt) : (c.modEn e f).host = c.host := rfl
@[simp] theorem Chip.modEn_lib (e : Eng) (f : EngSt → EngSt) : (c.modEn e f).lib = c.lib := rfl
@[simp] theorem Chip.modEn_peer (e : Eng) (f : EngSt → EngSt) : (c.modEn e f).peer = c.peer := rfl
@[simp] theorem Chip.modEn_log (e : Eng) (f : EngSt → EngSt) : (c.modEn e f).log = c.log := rfl
@[simp] theorem Chip.modEn_stripe (e : Eng) (f : EngSt → EngSt) : (c.modEn e f).stripe = c.stripe := rfl
@[simp] theorem Chip.modEn_consumed (e : Eng) (f : EngSt → EngSt) : (c.modEn e f).consumed = c.consumed := rfl
@[simp] theorem Chip.modEn_verified (e : Eng) (f : EngSt → EngSt) : (c.modEn e f).verified = c.verified := rfl
@[simp] theorem Chip.modEn_spinDem (e : Eng) (f : EngSt → EngSt) : (c.modEn e f).spinDem = c.spinDem := rfl

@[simp] theorem Chip.modTr_tb (t : Eng) (f : TraceSt → TraceSt) : (c.modTr t f).tb = c.tb := rfl
@[simp] theorem Chip.modTr_freeCt (t : Eng) (f : TraceSt → TraceSt) : (c.modTr t f).freeCt = c.freeCt := rfl
@[simp] theorem Chip.modTr_reg (t : Eng) (f : TraceSt → TraceSt) : (c.modTr t f).reg = c.reg := rfl
@[simp] theorem Chip.modTr_commits (t : Eng) (f : TraceSt → TraceSt) : (c.modTr t f).commits = c.commits := rfl
@[simp] theorem Chip.modTr_cmdPages (t : Eng) (f : TraceSt → TraceSt) : (c.modTr t f).cmdPages = c.cmdPages := rfl
@[simp] theorem Chip.modTr_rqHost (t : Eng) (f : TraceSt → TraceSt) : (c.modTr t f).rqHost = c.rqHost := rfl
@[simp] theorem Chip.modTr_rqMgmt (t : Eng) (f : TraceSt → TraceSt) : (c.modTr t f).rqMgmt = c.rqMgmt := rfl
@[simp] theorem Chip.modTr_rqI3c (t : Eng) (f : TraceSt → TraceSt) : (c.modTr t f).rqI3c = c.rqI3c := rfl
@[simp] theorem Chip.modTr_isl (t : Eng) (f : TraceSt → TraceSt) : (c.modTr t f).isl = c.isl := rfl
@[simp] theorem Chip.modTr_pins (t : Eng) (f : TraceSt → TraceSt) : (c.modTr t f).pins = c.pins := rfl
@[simp] theorem Chip.modTr_mgmt (t : Eng) (f : TraceSt → TraceSt) : (c.modTr t f).mgmt = c.mgmt := rfl
@[simp] theorem Chip.modTr_framesRunning (t : Eng) (f : TraceSt → TraceSt) : (c.modTr t f).framesRunning = c.framesRunning := rfl
@[simp] theorem Chip.modTr_frameNum (t : Eng) (f : TraceSt → TraceSt) : (c.modTr t f).frameNum = c.frameNum := rfl
@[simp] theorem Chip.modTr_frameStart (t : Eng) (f : TraceSt → TraceSt) : (c.modTr t f).frameStart = c.frameStart := rfl
@[simp] theorem Chip.modTr_x16 (t : Eng) (f : TraceSt → TraceSt) : (c.modTr t f).x16 = c.x16 := rfl
@[simp] theorem Chip.modTr_col (t : Eng) (f : TraceSt → TraceSt) : (c.modTr t f).col = c.col := rfl
@[simp] theorem Chip.modTr_halls (t : Eng) (f : TraceSt → TraceSt) : (c.modTr t f).halls = c.halls := rfl
@[simp] theorem Chip.modTr_axes (t : Eng) (f : TraceSt → TraceSt) : (c.modTr t f).axes = c.axes := rfl
@[simp] theorem Chip.modTr_spins (t : Eng) (f : TraceSt → TraceSt) : (c.modTr t f).spins = c.spins := rfl
@[simp] theorem Chip.modTr_engs (t : Eng) (f : TraceSt → TraceSt) : (c.modTr t f).engs = c.engs := rfl
@[simp] theorem Chip.modTr_sets (t : Eng) (f : TraceSt → TraceSt) : (c.modTr t f).sets = c.sets := rfl
@[simp] theorem Chip.modTr_meas (t : Eng) (f : TraceSt → TraceSt) : (c.modTr t f).meas = c.meas := rfl
@[simp] theorem Chip.modTr_exch (t : Eng) (f : TraceSt → TraceSt) : (c.modTr t f).exch = c.exch := rfl
@[simp] theorem Chip.modTr_groups (t : Eng) (f : TraceSt → TraceSt) : (c.modTr t f).groups = c.groups := rfl
@[simp] theorem Chip.modTr_heads (t : Eng) (f : TraceSt → TraceSt) : (c.modTr t f).heads = c.heads := rfl
@[simp] theorem Chip.modTr_servos (t : Eng) (f : TraceSt → TraceSt) : (c.modTr t f).servos = c.servos := rfl
@[simp] theorem Chip.modTr_beams (t : Eng) (f : TraceSt → TraceSt) : (c.modTr t f).beams = c.beams := rfl
@[simp] theorem Chip.modTr_assay (t : Eng) (f : TraceSt → TraceSt) : (c.modTr t f).assay = c.assay := rfl
@[simp] theorem Chip.modTr_mem (t : Eng) (f : TraceSt → TraceSt) : (c.modTr t f).mem = c.mem := rfl
@[simp] theorem Chip.modTr_sluice (t : Eng) (f : TraceSt → TraceSt) : (c.modTr t f).sluice = c.sluice := rfl
@[simp] theorem Chip.modTr_rs (t : Eng) (f : TraceSt → TraceSt) : (c.modTr t f).rs = c.rs := rfl
@[simp] theorem Chip.modTr_images (t : Eng) (f : TraceSt → TraceSt) : (c.modTr t f).images = c.images := rfl
@[simp] theorem Chip.modTr_host (t : Eng) (f : TraceSt → TraceSt) : (c.modTr t f).host = c.host := rfl
@[simp] theorem Chip.modTr_lib (t : Eng) (f : TraceSt → TraceSt) : (c.modTr t f).lib = c.lib := rfl
@[simp] theorem Chip.modTr_peer (t : Eng) (f : TraceSt → TraceSt) : (c.modTr t f).peer = c.peer := rfl
@[simp] theorem Chip.modTr_log (t : Eng) (f : TraceSt → TraceSt) : (c.modTr t f).log = c.log := rfl
@[simp] theorem Chip.modTr_stripe (t : Eng) (f : TraceSt → TraceSt) : (c.modTr t f).stripe = c.stripe := rfl
@[simp] theorem Chip.modTr_consumed (t : Eng) (f : TraceSt → TraceSt) : (c.modTr t f).consumed = c.consumed := rfl
@[simp] theorem Chip.modTr_verified (t : Eng) (f : TraceSt → TraceSt) : (c.modTr t f).verified = c.verified := rfl
@[simp] theorem Chip.modTr_spinDem (t : Eng) (f : TraceSt → TraceSt) : (c.modTr t f).spinDem = c.spinDem := rfl

@[simp] theorem Chip.modHall_tb (n : HallNo) (f : HallUnit → HallUnit) : (c.modHall n f).tb = c.tb := rfl
@[simp] theorem Chip.modHall_freeCt (n : HallNo) (f : HallUnit → HallUnit) : (c.modHall n f).freeCt = c.freeCt := rfl
@[simp] theorem Chip.modHall_reg (n : HallNo) (f : HallUnit → HallUnit) : (c.modHall n f).reg = c.reg := rfl
@[simp] theorem Chip.modHall_commits (n : HallNo) (f : HallUnit → HallUnit) : (c.modHall n f).commits = c.commits := rfl
@[simp] theorem Chip.modHall_cmdPages (n : HallNo) (f : HallUnit → HallUnit) : (c.modHall n f).cmdPages = c.cmdPages := rfl
@[simp] theorem Chip.modHall_rqHost (n : HallNo) (f : HallUnit → HallUnit) : (c.modHall n f).rqHost = c.rqHost := rfl
@[simp] theorem Chip.modHall_rqMgmt (n : HallNo) (f : HallUnit → HallUnit) : (c.modHall n f).rqMgmt = c.rqMgmt := rfl
@[simp] theorem Chip.modHall_rqI3c (n : HallNo) (f : HallUnit → HallUnit) : (c.modHall n f).rqI3c = c.rqI3c := rfl
@[simp] theorem Chip.modHall_isl (n : HallNo) (f : HallUnit → HallUnit) : (c.modHall n f).isl = c.isl := rfl
@[simp] theorem Chip.modHall_pins (n : HallNo) (f : HallUnit → HallUnit) : (c.modHall n f).pins = c.pins := rfl
@[simp] theorem Chip.modHall_mgmt (n : HallNo) (f : HallUnit → HallUnit) : (c.modHall n f).mgmt = c.mgmt := rfl
@[simp] theorem Chip.modHall_framesRunning (n : HallNo) (f : HallUnit → HallUnit) : (c.modHall n f).framesRunning = c.framesRunning := rfl
@[simp] theorem Chip.modHall_frameNum (n : HallNo) (f : HallUnit → HallUnit) : (c.modHall n f).frameNum = c.frameNum := rfl
@[simp] theorem Chip.modHall_frameStart (n : HallNo) (f : HallUnit → HallUnit) : (c.modHall n f).frameStart = c.frameStart := rfl
@[simp] theorem Chip.modHall_x16 (n : HallNo) (f : HallUnit → HallUnit) : (c.modHall n f).x16 = c.x16 := rfl
@[simp] theorem Chip.modHall_col (n : HallNo) (f : HallUnit → HallUnit) : (c.modHall n f).col = c.col := rfl
@[simp] theorem Chip.modHall_axes (n : HallNo) (f : HallUnit → HallUnit) : (c.modHall n f).axes = c.axes := rfl
@[simp] theorem Chip.modHall_spins (n : HallNo) (f : HallUnit → HallUnit) : (c.modHall n f).spins = c.spins := rfl
@[simp] theorem Chip.modHall_engs (n : HallNo) (f : HallUnit → HallUnit) : (c.modHall n f).engs = c.engs := rfl
@[simp] theorem Chip.modHall_traces (n : HallNo) (f : HallUnit → HallUnit) : (c.modHall n f).traces = c.traces := rfl
@[simp] theorem Chip.modHall_sets (n : HallNo) (f : HallUnit → HallUnit) : (c.modHall n f).sets = c.sets := rfl
@[simp] theorem Chip.modHall_meas (n : HallNo) (f : HallUnit → HallUnit) : (c.modHall n f).meas = c.meas := rfl
@[simp] theorem Chip.modHall_exch (n : HallNo) (f : HallUnit → HallUnit) : (c.modHall n f).exch = c.exch := rfl
@[simp] theorem Chip.modHall_groups (n : HallNo) (f : HallUnit → HallUnit) : (c.modHall n f).groups = c.groups := rfl
@[simp] theorem Chip.modHall_heads (n : HallNo) (f : HallUnit → HallUnit) : (c.modHall n f).heads = c.heads := rfl
@[simp] theorem Chip.modHall_servos (n : HallNo) (f : HallUnit → HallUnit) : (c.modHall n f).servos = c.servos := rfl
@[simp] theorem Chip.modHall_beams (n : HallNo) (f : HallUnit → HallUnit) : (c.modHall n f).beams = c.beams := rfl
@[simp] theorem Chip.modHall_assay (n : HallNo) (f : HallUnit → HallUnit) : (c.modHall n f).assay = c.assay := rfl
@[simp] theorem Chip.modHall_mem (n : HallNo) (f : HallUnit → HallUnit) : (c.modHall n f).mem = c.mem := rfl
@[simp] theorem Chip.modHall_sluice (n : HallNo) (f : HallUnit → HallUnit) : (c.modHall n f).sluice = c.sluice := rfl
@[simp] theorem Chip.modHall_rs (n : HallNo) (f : HallUnit → HallUnit) : (c.modHall n f).rs = c.rs := rfl
@[simp] theorem Chip.modHall_images (n : HallNo) (f : HallUnit → HallUnit) : (c.modHall n f).images = c.images := rfl
@[simp] theorem Chip.modHall_host (n : HallNo) (f : HallUnit → HallUnit) : (c.modHall n f).host = c.host := rfl
@[simp] theorem Chip.modHall_lib (n : HallNo) (f : HallUnit → HallUnit) : (c.modHall n f).lib = c.lib := rfl
@[simp] theorem Chip.modHall_peer (n : HallNo) (f : HallUnit → HallUnit) : (c.modHall n f).peer = c.peer := rfl
@[simp] theorem Chip.modHall_log (n : HallNo) (f : HallUnit → HallUnit) : (c.modHall n f).log = c.log := rfl
@[simp] theorem Chip.modHall_stripe (n : HallNo) (f : HallUnit → HallUnit) : (c.modHall n f).stripe = c.stripe := rfl
@[simp] theorem Chip.modHall_consumed (n : HallNo) (f : HallUnit → HallUnit) : (c.modHall n f).consumed = c.consumed := rfl
@[simp] theorem Chip.modHall_verified (n : HallNo) (f : HallUnit → HallUnit) : (c.modHall n f).verified = c.verified := rfl
@[simp] theorem Chip.modHall_spinDem (n : HallNo) (f : HallUnit → HallUnit) : (c.modHall n f).spinDem = c.spinDem := rfl

@[simp] theorem Chip.modMgmt_tb (f : MgmtState → MgmtState) : (c.modMgmt f).tb = c.tb := rfl
@[simp] theorem Chip.modMgmt_freeCt (f : MgmtState → MgmtState) : (c.modMgmt f).freeCt = c.freeCt := rfl
@[simp] theorem Chip.modMgmt_reg (f : MgmtState → MgmtState) : (c.modMgmt f).reg = c.reg := rfl
@[simp] theorem Chip.modMgmt_commits (f : MgmtState → MgmtState) : (c.modMgmt f).commits = c.commits := rfl
@[simp] theorem Chip.modMgmt_cmdPages (f : MgmtState → MgmtState) : (c.modMgmt f).cmdPages = c.cmdPages := rfl
@[simp] theorem Chip.modMgmt_rqHost (f : MgmtState → MgmtState) : (c.modMgmt f).rqHost = c.rqHost := rfl
@[simp] theorem Chip.modMgmt_rqMgmt (f : MgmtState → MgmtState) : (c.modMgmt f).rqMgmt = c.rqMgmt := rfl
@[simp] theorem Chip.modMgmt_rqI3c (f : MgmtState → MgmtState) : (c.modMgmt f).rqI3c = c.rqI3c := rfl
@[simp] theorem Chip.modMgmt_isl (f : MgmtState → MgmtState) : (c.modMgmt f).isl = c.isl := rfl
@[simp] theorem Chip.modMgmt_pins (f : MgmtState → MgmtState) : (c.modMgmt f).pins = c.pins := rfl
@[simp] theorem Chip.modMgmt_framesRunning (f : MgmtState → MgmtState) : (c.modMgmt f).framesRunning = c.framesRunning := rfl
@[simp] theorem Chip.modMgmt_frameNum (f : MgmtState → MgmtState) : (c.modMgmt f).frameNum = c.frameNum := rfl
@[simp] theorem Chip.modMgmt_frameStart (f : MgmtState → MgmtState) : (c.modMgmt f).frameStart = c.frameStart := rfl
@[simp] theorem Chip.modMgmt_x16 (f : MgmtState → MgmtState) : (c.modMgmt f).x16 = c.x16 := rfl
@[simp] theorem Chip.modMgmt_col (f : MgmtState → MgmtState) : (c.modMgmt f).col = c.col := rfl
@[simp] theorem Chip.modMgmt_halls (f : MgmtState → MgmtState) : (c.modMgmt f).halls = c.halls := rfl
@[simp] theorem Chip.modMgmt_axes (f : MgmtState → MgmtState) : (c.modMgmt f).axes = c.axes := rfl
@[simp] theorem Chip.modMgmt_spins (f : MgmtState → MgmtState) : (c.modMgmt f).spins = c.spins := rfl
@[simp] theorem Chip.modMgmt_engs (f : MgmtState → MgmtState) : (c.modMgmt f).engs = c.engs := rfl
@[simp] theorem Chip.modMgmt_traces (f : MgmtState → MgmtState) : (c.modMgmt f).traces = c.traces := rfl
@[simp] theorem Chip.modMgmt_sets (f : MgmtState → MgmtState) : (c.modMgmt f).sets = c.sets := rfl
@[simp] theorem Chip.modMgmt_meas (f : MgmtState → MgmtState) : (c.modMgmt f).meas = c.meas := rfl
@[simp] theorem Chip.modMgmt_exch (f : MgmtState → MgmtState) : (c.modMgmt f).exch = c.exch := rfl
@[simp] theorem Chip.modMgmt_groups (f : MgmtState → MgmtState) : (c.modMgmt f).groups = c.groups := rfl
@[simp] theorem Chip.modMgmt_heads (f : MgmtState → MgmtState) : (c.modMgmt f).heads = c.heads := rfl
@[simp] theorem Chip.modMgmt_servos (f : MgmtState → MgmtState) : (c.modMgmt f).servos = c.servos := rfl
@[simp] theorem Chip.modMgmt_beams (f : MgmtState → MgmtState) : (c.modMgmt f).beams = c.beams := rfl
@[simp] theorem Chip.modMgmt_assay (f : MgmtState → MgmtState) : (c.modMgmt f).assay = c.assay := rfl
@[simp] theorem Chip.modMgmt_mem (f : MgmtState → MgmtState) : (c.modMgmt f).mem = c.mem := rfl
@[simp] theorem Chip.modMgmt_sluice (f : MgmtState → MgmtState) : (c.modMgmt f).sluice = c.sluice := rfl
@[simp] theorem Chip.modMgmt_rs (f : MgmtState → MgmtState) : (c.modMgmt f).rs = c.rs := rfl
@[simp] theorem Chip.modMgmt_images (f : MgmtState → MgmtState) : (c.modMgmt f).images = c.images := rfl
@[simp] theorem Chip.modMgmt_host (f : MgmtState → MgmtState) : (c.modMgmt f).host = c.host := rfl
@[simp] theorem Chip.modMgmt_lib (f : MgmtState → MgmtState) : (c.modMgmt f).lib = c.lib := rfl
@[simp] theorem Chip.modMgmt_peer (f : MgmtState → MgmtState) : (c.modMgmt f).peer = c.peer := rfl
@[simp] theorem Chip.modMgmt_log (f : MgmtState → MgmtState) : (c.modMgmt f).log = c.log := rfl
@[simp] theorem Chip.modMgmt_stripe (f : MgmtState → MgmtState) : (c.modMgmt f).stripe = c.stripe := rfl
@[simp] theorem Chip.modMgmt_consumed (f : MgmtState → MgmtState) : (c.modMgmt f).consumed = c.consumed := rfl
@[simp] theorem Chip.modMgmt_verified (f : MgmtState → MgmtState) : (c.modMgmt f).verified = c.verified := rfl
@[simp] theorem Chip.modMgmt_spinDem (f : MgmtState → MgmtState) : (c.modMgmt f).spinDem = c.spinDem := rfl

@[simp] theorem Chip.modMem_tb (f : MemSt → MemSt) : (c.modMem f).tb = c.tb := rfl
@[simp] theorem Chip.modMem_freeCt (f : MemSt → MemSt) : (c.modMem f).freeCt = c.freeCt := rfl
@[simp] theorem Chip.modMem_reg (f : MemSt → MemSt) : (c.modMem f).reg = c.reg := rfl
@[simp] theorem Chip.modMem_commits (f : MemSt → MemSt) : (c.modMem f).commits = c.commits := rfl
@[simp] theorem Chip.modMem_cmdPages (f : MemSt → MemSt) : (c.modMem f).cmdPages = c.cmdPages := rfl
@[simp] theorem Chip.modMem_rqHost (f : MemSt → MemSt) : (c.modMem f).rqHost = c.rqHost := rfl
@[simp] theorem Chip.modMem_rqMgmt (f : MemSt → MemSt) : (c.modMem f).rqMgmt = c.rqMgmt := rfl
@[simp] theorem Chip.modMem_rqI3c (f : MemSt → MemSt) : (c.modMem f).rqI3c = c.rqI3c := rfl
@[simp] theorem Chip.modMem_isl (f : MemSt → MemSt) : (c.modMem f).isl = c.isl := rfl
@[simp] theorem Chip.modMem_pins (f : MemSt → MemSt) : (c.modMem f).pins = c.pins := rfl
@[simp] theorem Chip.modMem_mgmt (f : MemSt → MemSt) : (c.modMem f).mgmt = c.mgmt := rfl
@[simp] theorem Chip.modMem_framesRunning (f : MemSt → MemSt) : (c.modMem f).framesRunning = c.framesRunning := rfl
@[simp] theorem Chip.modMem_frameNum (f : MemSt → MemSt) : (c.modMem f).frameNum = c.frameNum := rfl
@[simp] theorem Chip.modMem_frameStart (f : MemSt → MemSt) : (c.modMem f).frameStart = c.frameStart := rfl
@[simp] theorem Chip.modMem_x16 (f : MemSt → MemSt) : (c.modMem f).x16 = c.x16 := rfl
@[simp] theorem Chip.modMem_col (f : MemSt → MemSt) : (c.modMem f).col = c.col := rfl
@[simp] theorem Chip.modMem_halls (f : MemSt → MemSt) : (c.modMem f).halls = c.halls := rfl
@[simp] theorem Chip.modMem_axes (f : MemSt → MemSt) : (c.modMem f).axes = c.axes := rfl
@[simp] theorem Chip.modMem_spins (f : MemSt → MemSt) : (c.modMem f).spins = c.spins := rfl
@[simp] theorem Chip.modMem_engs (f : MemSt → MemSt) : (c.modMem f).engs = c.engs := rfl
@[simp] theorem Chip.modMem_traces (f : MemSt → MemSt) : (c.modMem f).traces = c.traces := rfl
@[simp] theorem Chip.modMem_sets (f : MemSt → MemSt) : (c.modMem f).sets = c.sets := rfl
@[simp] theorem Chip.modMem_meas (f : MemSt → MemSt) : (c.modMem f).meas = c.meas := rfl
@[simp] theorem Chip.modMem_exch (f : MemSt → MemSt) : (c.modMem f).exch = c.exch := rfl
@[simp] theorem Chip.modMem_groups (f : MemSt → MemSt) : (c.modMem f).groups = c.groups := rfl
@[simp] theorem Chip.modMem_heads (f : MemSt → MemSt) : (c.modMem f).heads = c.heads := rfl
@[simp] theorem Chip.modMem_servos (f : MemSt → MemSt) : (c.modMem f).servos = c.servos := rfl
@[simp] theorem Chip.modMem_beams (f : MemSt → MemSt) : (c.modMem f).beams = c.beams := rfl
@[simp] theorem Chip.modMem_assay (f : MemSt → MemSt) : (c.modMem f).assay = c.assay := rfl
@[simp] theorem Chip.modMem_sluice (f : MemSt → MemSt) : (c.modMem f).sluice = c.sluice := rfl
@[simp] theorem Chip.modMem_rs (f : MemSt → MemSt) : (c.modMem f).rs = c.rs := rfl
@[simp] theorem Chip.modMem_images (f : MemSt → MemSt) : (c.modMem f).images = c.images := rfl
@[simp] theorem Chip.modMem_host (f : MemSt → MemSt) : (c.modMem f).host = c.host := rfl
@[simp] theorem Chip.modMem_lib (f : MemSt → MemSt) : (c.modMem f).lib = c.lib := rfl
@[simp] theorem Chip.modMem_peer (f : MemSt → MemSt) : (c.modMem f).peer = c.peer := rfl
@[simp] theorem Chip.modMem_log (f : MemSt → MemSt) : (c.modMem f).log = c.log := rfl
@[simp] theorem Chip.modMem_stripe (f : MemSt → MemSt) : (c.modMem f).stripe = c.stripe := rfl
@[simp] theorem Chip.modMem_consumed (f : MemSt → MemSt) : (c.modMem f).consumed = c.consumed := rfl
@[simp] theorem Chip.modMem_verified (f : MemSt → MemSt) : (c.modMem f).verified = c.verified := rfl
@[simp] theorem Chip.modMem_spinDem (f : MemSt → MemSt) : (c.modMem f).spinDem = c.spinDem := rfl

@[simp] theorem Chip.modAssay_tb (f : AssaySt → AssaySt) : (c.modAssay f).tb = c.tb := rfl
@[simp] theorem Chip.modAssay_freeCt (f : AssaySt → AssaySt) : (c.modAssay f).freeCt = c.freeCt := rfl
@[simp] theorem Chip.modAssay_reg (f : AssaySt → AssaySt) : (c.modAssay f).reg = c.reg := rfl
@[simp] theorem Chip.modAssay_commits (f : AssaySt → AssaySt) : (c.modAssay f).commits = c.commits := rfl
@[simp] theorem Chip.modAssay_cmdPages (f : AssaySt → AssaySt) : (c.modAssay f).cmdPages = c.cmdPages := rfl
@[simp] theorem Chip.modAssay_rqHost (f : AssaySt → AssaySt) : (c.modAssay f).rqHost = c.rqHost := rfl
@[simp] theorem Chip.modAssay_rqMgmt (f : AssaySt → AssaySt) : (c.modAssay f).rqMgmt = c.rqMgmt := rfl
@[simp] theorem Chip.modAssay_rqI3c (f : AssaySt → AssaySt) : (c.modAssay f).rqI3c = c.rqI3c := rfl
@[simp] theorem Chip.modAssay_isl (f : AssaySt → AssaySt) : (c.modAssay f).isl = c.isl := rfl
@[simp] theorem Chip.modAssay_pins (f : AssaySt → AssaySt) : (c.modAssay f).pins = c.pins := rfl
@[simp] theorem Chip.modAssay_mgmt (f : AssaySt → AssaySt) : (c.modAssay f).mgmt = c.mgmt := rfl
@[simp] theorem Chip.modAssay_framesRunning (f : AssaySt → AssaySt) : (c.modAssay f).framesRunning = c.framesRunning := rfl
@[simp] theorem Chip.modAssay_frameNum (f : AssaySt → AssaySt) : (c.modAssay f).frameNum = c.frameNum := rfl
@[simp] theorem Chip.modAssay_frameStart (f : AssaySt → AssaySt) : (c.modAssay f).frameStart = c.frameStart := rfl
@[simp] theorem Chip.modAssay_x16 (f : AssaySt → AssaySt) : (c.modAssay f).x16 = c.x16 := rfl
@[simp] theorem Chip.modAssay_col (f : AssaySt → AssaySt) : (c.modAssay f).col = c.col := rfl
@[simp] theorem Chip.modAssay_halls (f : AssaySt → AssaySt) : (c.modAssay f).halls = c.halls := rfl
@[simp] theorem Chip.modAssay_axes (f : AssaySt → AssaySt) : (c.modAssay f).axes = c.axes := rfl
@[simp] theorem Chip.modAssay_spins (f : AssaySt → AssaySt) : (c.modAssay f).spins = c.spins := rfl
@[simp] theorem Chip.modAssay_engs (f : AssaySt → AssaySt) : (c.modAssay f).engs = c.engs := rfl
@[simp] theorem Chip.modAssay_traces (f : AssaySt → AssaySt) : (c.modAssay f).traces = c.traces := rfl
@[simp] theorem Chip.modAssay_sets (f : AssaySt → AssaySt) : (c.modAssay f).sets = c.sets := rfl
@[simp] theorem Chip.modAssay_meas (f : AssaySt → AssaySt) : (c.modAssay f).meas = c.meas := rfl
@[simp] theorem Chip.modAssay_exch (f : AssaySt → AssaySt) : (c.modAssay f).exch = c.exch := rfl
@[simp] theorem Chip.modAssay_groups (f : AssaySt → AssaySt) : (c.modAssay f).groups = c.groups := rfl
@[simp] theorem Chip.modAssay_heads (f : AssaySt → AssaySt) : (c.modAssay f).heads = c.heads := rfl
@[simp] theorem Chip.modAssay_servos (f : AssaySt → AssaySt) : (c.modAssay f).servos = c.servos := rfl
@[simp] theorem Chip.modAssay_beams (f : AssaySt → AssaySt) : (c.modAssay f).beams = c.beams := rfl
@[simp] theorem Chip.modAssay_mem (f : AssaySt → AssaySt) : (c.modAssay f).mem = c.mem := rfl
@[simp] theorem Chip.modAssay_sluice (f : AssaySt → AssaySt) : (c.modAssay f).sluice = c.sluice := rfl
@[simp] theorem Chip.modAssay_rs (f : AssaySt → AssaySt) : (c.modAssay f).rs = c.rs := rfl
@[simp] theorem Chip.modAssay_images (f : AssaySt → AssaySt) : (c.modAssay f).images = c.images := rfl
@[simp] theorem Chip.modAssay_host (f : AssaySt → AssaySt) : (c.modAssay f).host = c.host := rfl
@[simp] theorem Chip.modAssay_lib (f : AssaySt → AssaySt) : (c.modAssay f).lib = c.lib := rfl
@[simp] theorem Chip.modAssay_peer (f : AssaySt → AssaySt) : (c.modAssay f).peer = c.peer := rfl
@[simp] theorem Chip.modAssay_log (f : AssaySt → AssaySt) : (c.modAssay f).log = c.log := rfl
@[simp] theorem Chip.modAssay_stripe (f : AssaySt → AssaySt) : (c.modAssay f).stripe = c.stripe := rfl
@[simp] theorem Chip.modAssay_consumed (f : AssaySt → AssaySt) : (c.modAssay f).consumed = c.consumed := rfl
@[simp] theorem Chip.modAssay_verified (f : AssaySt → AssaySt) : (c.modAssay f).verified = c.verified := rfl
@[simp] theorem Chip.modAssay_spinDem (f : AssaySt → AssaySt) : (c.modAssay f).spinDem = c.spinDem := rfl

@[simp] theorem Chip.modSluice_tb (f : SluiceSt → SluiceSt) : (c.modSluice f).tb = c.tb := rfl
@[simp] theorem Chip.modSluice_freeCt (f : SluiceSt → SluiceSt) : (c.modSluice f).freeCt = c.freeCt := rfl
@[simp] theorem Chip.modSluice_reg (f : SluiceSt → SluiceSt) : (c.modSluice f).reg = c.reg := rfl
@[simp] theorem Chip.modSluice_commits (f : SluiceSt → SluiceSt) : (c.modSluice f).commits = c.commits := rfl
@[simp] theorem Chip.modSluice_cmdPages (f : SluiceSt → SluiceSt) : (c.modSluice f).cmdPages = c.cmdPages := rfl
@[simp] theorem Chip.modSluice_rqHost (f : SluiceSt → SluiceSt) : (c.modSluice f).rqHost = c.rqHost := rfl
@[simp] theorem Chip.modSluice_rqMgmt (f : SluiceSt → SluiceSt) : (c.modSluice f).rqMgmt = c.rqMgmt := rfl
@[simp] theorem Chip.modSluice_rqI3c (f : SluiceSt → SluiceSt) : (c.modSluice f).rqI3c = c.rqI3c := rfl
@[simp] theorem Chip.modSluice_isl (f : SluiceSt → SluiceSt) : (c.modSluice f).isl = c.isl := rfl
@[simp] theorem Chip.modSluice_pins (f : SluiceSt → SluiceSt) : (c.modSluice f).pins = c.pins := rfl
@[simp] theorem Chip.modSluice_mgmt (f : SluiceSt → SluiceSt) : (c.modSluice f).mgmt = c.mgmt := rfl
@[simp] theorem Chip.modSluice_framesRunning (f : SluiceSt → SluiceSt) : (c.modSluice f).framesRunning = c.framesRunning := rfl
@[simp] theorem Chip.modSluice_frameNum (f : SluiceSt → SluiceSt) : (c.modSluice f).frameNum = c.frameNum := rfl
@[simp] theorem Chip.modSluice_frameStart (f : SluiceSt → SluiceSt) : (c.modSluice f).frameStart = c.frameStart := rfl
@[simp] theorem Chip.modSluice_x16 (f : SluiceSt → SluiceSt) : (c.modSluice f).x16 = c.x16 := rfl
@[simp] theorem Chip.modSluice_col (f : SluiceSt → SluiceSt) : (c.modSluice f).col = c.col := rfl
@[simp] theorem Chip.modSluice_halls (f : SluiceSt → SluiceSt) : (c.modSluice f).halls = c.halls := rfl
@[simp] theorem Chip.modSluice_axes (f : SluiceSt → SluiceSt) : (c.modSluice f).axes = c.axes := rfl
@[simp] theorem Chip.modSluice_spins (f : SluiceSt → SluiceSt) : (c.modSluice f).spins = c.spins := rfl
@[simp] theorem Chip.modSluice_engs (f : SluiceSt → SluiceSt) : (c.modSluice f).engs = c.engs := rfl
@[simp] theorem Chip.modSluice_traces (f : SluiceSt → SluiceSt) : (c.modSluice f).traces = c.traces := rfl
@[simp] theorem Chip.modSluice_sets (f : SluiceSt → SluiceSt) : (c.modSluice f).sets = c.sets := rfl
@[simp] theorem Chip.modSluice_meas (f : SluiceSt → SluiceSt) : (c.modSluice f).meas = c.meas := rfl
@[simp] theorem Chip.modSluice_exch (f : SluiceSt → SluiceSt) : (c.modSluice f).exch = c.exch := rfl
@[simp] theorem Chip.modSluice_groups (f : SluiceSt → SluiceSt) : (c.modSluice f).groups = c.groups := rfl
@[simp] theorem Chip.modSluice_heads (f : SluiceSt → SluiceSt) : (c.modSluice f).heads = c.heads := rfl
@[simp] theorem Chip.modSluice_servos (f : SluiceSt → SluiceSt) : (c.modSluice f).servos = c.servos := rfl
@[simp] theorem Chip.modSluice_beams (f : SluiceSt → SluiceSt) : (c.modSluice f).beams = c.beams := rfl
@[simp] theorem Chip.modSluice_assay (f : SluiceSt → SluiceSt) : (c.modSluice f).assay = c.assay := rfl
@[simp] theorem Chip.modSluice_mem (f : SluiceSt → SluiceSt) : (c.modSluice f).mem = c.mem := rfl
@[simp] theorem Chip.modSluice_rs (f : SluiceSt → SluiceSt) : (c.modSluice f).rs = c.rs := rfl
@[simp] theorem Chip.modSluice_images (f : SluiceSt → SluiceSt) : (c.modSluice f).images = c.images := rfl
@[simp] theorem Chip.modSluice_host (f : SluiceSt → SluiceSt) : (c.modSluice f).host = c.host := rfl
@[simp] theorem Chip.modSluice_lib (f : SluiceSt → SluiceSt) : (c.modSluice f).lib = c.lib := rfl
@[simp] theorem Chip.modSluice_peer (f : SluiceSt → SluiceSt) : (c.modSluice f).peer = c.peer := rfl
@[simp] theorem Chip.modSluice_log (f : SluiceSt → SluiceSt) : (c.modSluice f).log = c.log := rfl
@[simp] theorem Chip.modSluice_stripe (f : SluiceSt → SluiceSt) : (c.modSluice f).stripe = c.stripe := rfl
@[simp] theorem Chip.modSluice_consumed (f : SluiceSt → SluiceSt) : (c.modSluice f).consumed = c.consumed := rfl
@[simp] theorem Chip.modSluice_verified (f : SluiceSt → SluiceSt) : (c.modSluice f).verified = c.verified := rfl
@[simp] theorem Chip.modSluice_spinDem (f : SluiceSt → SluiceSt) : (c.modSluice f).spinDem = c.spinDem := rfl

@[simp] theorem Chip.modBatch_tb (id : Nat) (f : Batch → Batch) : (c.modBatch id f).tb = c.tb := rfl
@[simp] theorem Chip.modBatch_freeCt (id : Nat) (f : Batch → Batch) : (c.modBatch id f).freeCt = c.freeCt := rfl
@[simp] theorem Chip.modBatch_reg (id : Nat) (f : Batch → Batch) : (c.modBatch id f).reg = c.reg := rfl
@[simp] theorem Chip.modBatch_commits (id : Nat) (f : Batch → Batch) : (c.modBatch id f).commits = c.commits := rfl
@[simp] theorem Chip.modBatch_cmdPages (id : Nat) (f : Batch → Batch) : (c.modBatch id f).cmdPages = c.cmdPages := rfl
@[simp] theorem Chip.modBatch_rqHost (id : Nat) (f : Batch → Batch) : (c.modBatch id f).rqHost = c.rqHost := rfl
@[simp] theorem Chip.modBatch_rqMgmt (id : Nat) (f : Batch → Batch) : (c.modBatch id f).rqMgmt = c.rqMgmt := rfl
@[simp] theorem Chip.modBatch_rqI3c (id : Nat) (f : Batch → Batch) : (c.modBatch id f).rqI3c = c.rqI3c := rfl
@[simp] theorem Chip.modBatch_isl (id : Nat) (f : Batch → Batch) : (c.modBatch id f).isl = c.isl := rfl
@[simp] theorem Chip.modBatch_pins (id : Nat) (f : Batch → Batch) : (c.modBatch id f).pins = c.pins := rfl
@[simp] theorem Chip.modBatch_mgmt (id : Nat) (f : Batch → Batch) : (c.modBatch id f).mgmt = c.mgmt := rfl
@[simp] theorem Chip.modBatch_framesRunning (id : Nat) (f : Batch → Batch) : (c.modBatch id f).framesRunning = c.framesRunning := rfl
@[simp] theorem Chip.modBatch_frameNum (id : Nat) (f : Batch → Batch) : (c.modBatch id f).frameNum = c.frameNum := rfl
@[simp] theorem Chip.modBatch_frameStart (id : Nat) (f : Batch → Batch) : (c.modBatch id f).frameStart = c.frameStart := rfl
@[simp] theorem Chip.modBatch_x16 (id : Nat) (f : Batch → Batch) : (c.modBatch id f).x16 = c.x16 := rfl
@[simp] theorem Chip.modBatch_col (id : Nat) (f : Batch → Batch) : (c.modBatch id f).col = c.col := rfl
@[simp] theorem Chip.modBatch_halls (id : Nat) (f : Batch → Batch) : (c.modBatch id f).halls = c.halls := rfl
@[simp] theorem Chip.modBatch_axes (id : Nat) (f : Batch → Batch) : (c.modBatch id f).axes = c.axes := rfl
@[simp] theorem Chip.modBatch_spins (id : Nat) (f : Batch → Batch) : (c.modBatch id f).spins = c.spins := rfl
@[simp] theorem Chip.modBatch_engs (id : Nat) (f : Batch → Batch) : (c.modBatch id f).engs = c.engs := rfl
@[simp] theorem Chip.modBatch_traces (id : Nat) (f : Batch → Batch) : (c.modBatch id f).traces = c.traces := rfl
@[simp] theorem Chip.modBatch_sets (id : Nat) (f : Batch → Batch) : (c.modBatch id f).sets = c.sets := rfl
@[simp] theorem Chip.modBatch_meas (id : Nat) (f : Batch → Batch) : (c.modBatch id f).meas = c.meas := rfl
@[simp] theorem Chip.modBatch_exch (id : Nat) (f : Batch → Batch) : (c.modBatch id f).exch = c.exch := rfl
@[simp] theorem Chip.modBatch_groups (id : Nat) (f : Batch → Batch) : (c.modBatch id f).groups = c.groups := rfl
@[simp] theorem Chip.modBatch_heads (id : Nat) (f : Batch → Batch) : (c.modBatch id f).heads = c.heads := rfl
@[simp] theorem Chip.modBatch_servos (id : Nat) (f : Batch → Batch) : (c.modBatch id f).servos = c.servos := rfl
@[simp] theorem Chip.modBatch_beams (id : Nat) (f : Batch → Batch) : (c.modBatch id f).beams = c.beams := rfl
@[simp] theorem Chip.modBatch_assay (id : Nat) (f : Batch → Batch) : (c.modBatch id f).assay = c.assay := rfl
@[simp] theorem Chip.modBatch_mem (id : Nat) (f : Batch → Batch) : (c.modBatch id f).mem = c.mem := rfl
@[simp] theorem Chip.modBatch_rs (id : Nat) (f : Batch → Batch) : (c.modBatch id f).rs = c.rs := rfl
@[simp] theorem Chip.modBatch_images (id : Nat) (f : Batch → Batch) : (c.modBatch id f).images = c.images := rfl
@[simp] theorem Chip.modBatch_host (id : Nat) (f : Batch → Batch) : (c.modBatch id f).host = c.host := rfl
@[simp] theorem Chip.modBatch_lib (id : Nat) (f : Batch → Batch) : (c.modBatch id f).lib = c.lib := rfl
@[simp] theorem Chip.modBatch_peer (id : Nat) (f : Batch → Batch) : (c.modBatch id f).peer = c.peer := rfl
@[simp] theorem Chip.modBatch_log (id : Nat) (f : Batch → Batch) : (c.modBatch id f).log = c.log := rfl
@[simp] theorem Chip.modBatch_stripe (id : Nat) (f : Batch → Batch) : (c.modBatch id f).stripe = c.stripe := rfl
@[simp] theorem Chip.modBatch_consumed (id : Nat) (f : Batch → Batch) : (c.modBatch id f).consumed = c.consumed := rfl
@[simp] theorem Chip.modBatch_verified (id : Nat) (f : Batch → Batch) : (c.modBatch id f).verified = c.verified := rfl
@[simp] theorem Chip.modBatch_spinDem (id : Nat) (f : Batch → Batch) : (c.modBatch id f).spinDem = c.spinDem := rfl

@[simp] theorem Chip.modHost_tb (f : HostSt → HostSt) : (c.modHost f).tb = c.tb := rfl
@[simp] theorem Chip.modHost_freeCt (f : HostSt → HostSt) : (c.modHost f).freeCt = c.freeCt := rfl
@[simp] theorem Chip.modHost_reg (f : HostSt → HostSt) : (c.modHost f).reg = c.reg := rfl
@[simp] theorem Chip.modHost_commits (f : HostSt → HostSt) : (c.modHost f).commits = c.commits := rfl
@[simp] theorem Chip.modHost_cmdPages (f : HostSt → HostSt) : (c.modHost f).cmdPages = c.cmdPages := rfl
@[simp] theorem Chip.modHost_rqHost (f : HostSt → HostSt) : (c.modHost f).rqHost = c.rqHost := rfl
@[simp] theorem Chip.modHost_rqMgmt (f : HostSt → HostSt) : (c.modHost f).rqMgmt = c.rqMgmt := rfl
@[simp] theorem Chip.modHost_rqI3c (f : HostSt → HostSt) : (c.modHost f).rqI3c = c.rqI3c := rfl
@[simp] theorem Chip.modHost_isl (f : HostSt → HostSt) : (c.modHost f).isl = c.isl := rfl
@[simp] theorem Chip.modHost_pins (f : HostSt → HostSt) : (c.modHost f).pins = c.pins := rfl
@[simp] theorem Chip.modHost_mgmt (f : HostSt → HostSt) : (c.modHost f).mgmt = c.mgmt := rfl
@[simp] theorem Chip.modHost_framesRunning (f : HostSt → HostSt) : (c.modHost f).framesRunning = c.framesRunning := rfl
@[simp] theorem Chip.modHost_frameNum (f : HostSt → HostSt) : (c.modHost f).frameNum = c.frameNum := rfl
@[simp] theorem Chip.modHost_frameStart (f : HostSt → HostSt) : (c.modHost f).frameStart = c.frameStart := rfl
@[simp] theorem Chip.modHost_x16 (f : HostSt → HostSt) : (c.modHost f).x16 = c.x16 := rfl
@[simp] theorem Chip.modHost_col (f : HostSt → HostSt) : (c.modHost f).col = c.col := rfl
@[simp] theorem Chip.modHost_halls (f : HostSt → HostSt) : (c.modHost f).halls = c.halls := rfl
@[simp] theorem Chip.modHost_axes (f : HostSt → HostSt) : (c.modHost f).axes = c.axes := rfl
@[simp] theorem Chip.modHost_spins (f : HostSt → HostSt) : (c.modHost f).spins = c.spins := rfl
@[simp] theorem Chip.modHost_engs (f : HostSt → HostSt) : (c.modHost f).engs = c.engs := rfl
@[simp] theorem Chip.modHost_traces (f : HostSt → HostSt) : (c.modHost f).traces = c.traces := rfl
@[simp] theorem Chip.modHost_sets (f : HostSt → HostSt) : (c.modHost f).sets = c.sets := rfl
@[simp] theorem Chip.modHost_meas (f : HostSt → HostSt) : (c.modHost f).meas = c.meas := rfl
@[simp] theorem Chip.modHost_exch (f : HostSt → HostSt) : (c.modHost f).exch = c.exch := rfl
@[simp] theorem Chip.modHost_groups (f : HostSt → HostSt) : (c.modHost f).groups = c.groups := rfl
@[simp] theorem Chip.modHost_heads (f : HostSt → HostSt) : (c.modHost f).heads = c.heads := rfl
@[simp] theorem Chip.modHost_servos (f : HostSt → HostSt) : (c.modHost f).servos = c.servos := rfl
@[simp] theorem Chip.modHost_beams (f : HostSt → HostSt) : (c.modHost f).beams = c.beams := rfl
@[simp] theorem Chip.modHost_assay (f : HostSt → HostSt) : (c.modHost f).assay = c.assay := rfl
@[simp] theorem Chip.modHost_mem (f : HostSt → HostSt) : (c.modHost f).mem = c.mem := rfl
@[simp] theorem Chip.modHost_sluice (f : HostSt → HostSt) : (c.modHost f).sluice = c.sluice := rfl
@[simp] theorem Chip.modHost_rs (f : HostSt → HostSt) : (c.modHost f).rs = c.rs := rfl
@[simp] theorem Chip.modHost_images (f : HostSt → HostSt) : (c.modHost f).images = c.images := rfl
@[simp] theorem Chip.modHost_lib (f : HostSt → HostSt) : (c.modHost f).lib = c.lib := rfl
@[simp] theorem Chip.modHost_peer (f : HostSt → HostSt) : (c.modHost f).peer = c.peer := rfl
@[simp] theorem Chip.modHost_log (f : HostSt → HostSt) : (c.modHost f).log = c.log := rfl
@[simp] theorem Chip.modHost_stripe (f : HostSt → HostSt) : (c.modHost f).stripe = c.stripe := rfl
@[simp] theorem Chip.modHost_consumed (f : HostSt → HostSt) : (c.modHost f).consumed = c.consumed := rfl
@[simp] theorem Chip.modHost_verified (f : HostSt → HostSt) : (c.modHost f).verified = c.verified := rfl
@[simp] theorem Chip.modHost_spinDem (f : HostSt → HostSt) : (c.modHost f).spinDem = c.spinDem := rfl

@[simp] theorem Chip.modNs_tb (nsid : Nat) (f : NsSt → NsSt) : (c.modNs nsid f).tb = c.tb := rfl
@[simp] theorem Chip.modNs_freeCt (nsid : Nat) (f : NsSt → NsSt) : (c.modNs nsid f).freeCt = c.freeCt := rfl
@[simp] theorem Chip.modNs_reg (nsid : Nat) (f : NsSt → NsSt) : (c.modNs nsid f).reg = c.reg := rfl
@[simp] theorem Chip.modNs_commits (nsid : Nat) (f : NsSt → NsSt) : (c.modNs nsid f).commits = c.commits := rfl
@[simp] theorem Chip.modNs_cmdPages (nsid : Nat) (f : NsSt → NsSt) : (c.modNs nsid f).cmdPages = c.cmdPages := rfl
@[simp] theorem Chip.modNs_rqHost (nsid : Nat) (f : NsSt → NsSt) : (c.modNs nsid f).rqHost = c.rqHost := rfl
@[simp] theorem Chip.modNs_rqMgmt (nsid : Nat) (f : NsSt → NsSt) : (c.modNs nsid f).rqMgmt = c.rqMgmt := rfl
@[simp] theorem Chip.modNs_rqI3c (nsid : Nat) (f : NsSt → NsSt) : (c.modNs nsid f).rqI3c = c.rqI3c := rfl
@[simp] theorem Chip.modNs_isl (nsid : Nat) (f : NsSt → NsSt) : (c.modNs nsid f).isl = c.isl := rfl
@[simp] theorem Chip.modNs_pins (nsid : Nat) (f : NsSt → NsSt) : (c.modNs nsid f).pins = c.pins := rfl
@[simp] theorem Chip.modNs_mgmt (nsid : Nat) (f : NsSt → NsSt) : (c.modNs nsid f).mgmt = c.mgmt := rfl
@[simp] theorem Chip.modNs_framesRunning (nsid : Nat) (f : NsSt → NsSt) : (c.modNs nsid f).framesRunning = c.framesRunning := rfl
@[simp] theorem Chip.modNs_frameNum (nsid : Nat) (f : NsSt → NsSt) : (c.modNs nsid f).frameNum = c.frameNum := rfl
@[simp] theorem Chip.modNs_frameStart (nsid : Nat) (f : NsSt → NsSt) : (c.modNs nsid f).frameStart = c.frameStart := rfl
@[simp] theorem Chip.modNs_x16 (nsid : Nat) (f : NsSt → NsSt) : (c.modNs nsid f).x16 = c.x16 := rfl
@[simp] theorem Chip.modNs_col (nsid : Nat) (f : NsSt → NsSt) : (c.modNs nsid f).col = c.col := rfl
@[simp] theorem Chip.modNs_halls (nsid : Nat) (f : NsSt → NsSt) : (c.modNs nsid f).halls = c.halls := rfl
@[simp] theorem Chip.modNs_axes (nsid : Nat) (f : NsSt → NsSt) : (c.modNs nsid f).axes = c.axes := rfl
@[simp] theorem Chip.modNs_spins (nsid : Nat) (f : NsSt → NsSt) : (c.modNs nsid f).spins = c.spins := rfl
@[simp] theorem Chip.modNs_engs (nsid : Nat) (f : NsSt → NsSt) : (c.modNs nsid f).engs = c.engs := rfl
@[simp] theorem Chip.modNs_traces (nsid : Nat) (f : NsSt → NsSt) : (c.modNs nsid f).traces = c.traces := rfl
@[simp] theorem Chip.modNs_sets (nsid : Nat) (f : NsSt → NsSt) : (c.modNs nsid f).sets = c.sets := rfl
@[simp] theorem Chip.modNs_meas (nsid : Nat) (f : NsSt → NsSt) : (c.modNs nsid f).meas = c.meas := rfl
@[simp] theorem Chip.modNs_exch (nsid : Nat) (f : NsSt → NsSt) : (c.modNs nsid f).exch = c.exch := rfl
@[simp] theorem Chip.modNs_groups (nsid : Nat) (f : NsSt → NsSt) : (c.modNs nsid f).groups = c.groups := rfl
@[simp] theorem Chip.modNs_heads (nsid : Nat) (f : NsSt → NsSt) : (c.modNs nsid f).heads = c.heads := rfl
@[simp] theorem Chip.modNs_servos (nsid : Nat) (f : NsSt → NsSt) : (c.modNs nsid f).servos = c.servos := rfl
@[simp] theorem Chip.modNs_beams (nsid : Nat) (f : NsSt → NsSt) : (c.modNs nsid f).beams = c.beams := rfl
@[simp] theorem Chip.modNs_assay (nsid : Nat) (f : NsSt → NsSt) : (c.modNs nsid f).assay = c.assay := rfl
@[simp] theorem Chip.modNs_mem (nsid : Nat) (f : NsSt → NsSt) : (c.modNs nsid f).mem = c.mem := rfl
@[simp] theorem Chip.modNs_sluice (nsid : Nat) (f : NsSt → NsSt) : (c.modNs nsid f).sluice = c.sluice := rfl
@[simp] theorem Chip.modNs_rs (nsid : Nat) (f : NsSt → NsSt) : (c.modNs nsid f).rs = c.rs := rfl
@[simp] theorem Chip.modNs_images (nsid : Nat) (f : NsSt → NsSt) : (c.modNs nsid f).images = c.images := rfl
@[simp] theorem Chip.modNs_lib (nsid : Nat) (f : NsSt → NsSt) : (c.modNs nsid f).lib = c.lib := rfl
@[simp] theorem Chip.modNs_peer (nsid : Nat) (f : NsSt → NsSt) : (c.modNs nsid f).peer = c.peer := rfl
@[simp] theorem Chip.modNs_log (nsid : Nat) (f : NsSt → NsSt) : (c.modNs nsid f).log = c.log := rfl
@[simp] theorem Chip.modNs_stripe (nsid : Nat) (f : NsSt → NsSt) : (c.modNs nsid f).stripe = c.stripe := rfl
@[simp] theorem Chip.modNs_consumed (nsid : Nat) (f : NsSt → NsSt) : (c.modNs nsid f).consumed = c.consumed := rfl
@[simp] theorem Chip.modNs_verified (nsid : Nat) (f : NsSt → NsSt) : (c.modNs nsid f).verified = c.verified := rfl
@[simp] theorem Chip.modNs_spinDem (nsid : Nat) (f : NsSt → NsSt) : (c.modNs nsid f).spinDem = c.spinDem := rfl

@[simp] theorem Chip.modLog_tb (f : LogSt → LogSt) : (c.modLog f).tb = c.tb := rfl
@[simp] theorem Chip.modLog_freeCt (f : LogSt → LogSt) : (c.modLog f).freeCt = c.freeCt := rfl
@[simp] theorem Chip.modLog_reg (f : LogSt → LogSt) : (c.modLog f).reg = c.reg := rfl
@[simp] theorem Chip.modLog_commits (f : LogSt → LogSt) : (c.modLog f).commits = c.commits := rfl
@[simp] theorem Chip.modLog_cmdPages (f : LogSt → LogSt) : (c.modLog f).cmdPages = c.cmdPages := rfl
@[simp] theorem Chip.modLog_rqHost (f : LogSt → LogSt) : (c.modLog f).rqHost = c.rqHost := rfl
@[simp] theorem Chip.modLog_rqMgmt (f : LogSt → LogSt) : (c.modLog f).rqMgmt = c.rqMgmt := rfl
@[simp] theorem Chip.modLog_rqI3c (f : LogSt → LogSt) : (c.modLog f).rqI3c = c.rqI3c := rfl
@[simp] theorem Chip.modLog_isl (f : LogSt → LogSt) : (c.modLog f).isl = c.isl := rfl
@[simp] theorem Chip.modLog_pins (f : LogSt → LogSt) : (c.modLog f).pins = c.pins := rfl
@[simp] theorem Chip.modLog_mgmt (f : LogSt → LogSt) : (c.modLog f).mgmt = c.mgmt := rfl
@[simp] theorem Chip.modLog_framesRunning (f : LogSt → LogSt) : (c.modLog f).framesRunning = c.framesRunning := rfl
@[simp] theorem Chip.modLog_frameNum (f : LogSt → LogSt) : (c.modLog f).frameNum = c.frameNum := rfl
@[simp] theorem Chip.modLog_frameStart (f : LogSt → LogSt) : (c.modLog f).frameStart = c.frameStart := rfl
@[simp] theorem Chip.modLog_x16 (f : LogSt → LogSt) : (c.modLog f).x16 = c.x16 := rfl
@[simp] theorem Chip.modLog_col (f : LogSt → LogSt) : (c.modLog f).col = c.col := rfl
@[simp] theorem Chip.modLog_halls (f : LogSt → LogSt) : (c.modLog f).halls = c.halls := rfl
@[simp] theorem Chip.modLog_axes (f : LogSt → LogSt) : (c.modLog f).axes = c.axes := rfl
@[simp] theorem Chip.modLog_spins (f : LogSt → LogSt) : (c.modLog f).spins = c.spins := rfl
@[simp] theorem Chip.modLog_engs (f : LogSt → LogSt) : (c.modLog f).engs = c.engs := rfl
@[simp] theorem Chip.modLog_traces (f : LogSt → LogSt) : (c.modLog f).traces = c.traces := rfl
@[simp] theorem Chip.modLog_sets (f : LogSt → LogSt) : (c.modLog f).sets = c.sets := rfl
@[simp] theorem Chip.modLog_meas (f : LogSt → LogSt) : (c.modLog f).meas = c.meas := rfl
@[simp] theorem Chip.modLog_exch (f : LogSt → LogSt) : (c.modLog f).exch = c.exch := rfl
@[simp] theorem Chip.modLog_groups (f : LogSt → LogSt) : (c.modLog f).groups = c.groups := rfl
@[simp] theorem Chip.modLog_heads (f : LogSt → LogSt) : (c.modLog f).heads = c.heads := rfl
@[simp] theorem Chip.modLog_servos (f : LogSt → LogSt) : (c.modLog f).servos = c.servos := rfl
@[simp] theorem Chip.modLog_beams (f : LogSt → LogSt) : (c.modLog f).beams = c.beams := rfl
@[simp] theorem Chip.modLog_assay (f : LogSt → LogSt) : (c.modLog f).assay = c.assay := rfl
@[simp] theorem Chip.modLog_mem (f : LogSt → LogSt) : (c.modLog f).mem = c.mem := rfl
@[simp] theorem Chip.modLog_sluice (f : LogSt → LogSt) : (c.modLog f).sluice = c.sluice := rfl
@[simp] theorem Chip.modLog_rs (f : LogSt → LogSt) : (c.modLog f).rs = c.rs := rfl
@[simp] theorem Chip.modLog_images (f : LogSt → LogSt) : (c.modLog f).images = c.images := rfl
@[simp] theorem Chip.modLog_host (f : LogSt → LogSt) : (c.modLog f).host = c.host := rfl
@[simp] theorem Chip.modLog_lib (f : LogSt → LogSt) : (c.modLog f).lib = c.lib := rfl
@[simp] theorem Chip.modLog_peer (f : LogSt → LogSt) : (c.modLog f).peer = c.peer := rfl
@[simp] theorem Chip.modLog_stripe (f : LogSt → LogSt) : (c.modLog f).stripe = c.stripe := rfl
@[simp] theorem Chip.modLog_consumed (f : LogSt → LogSt) : (c.modLog f).consumed = c.consumed := rfl
@[simp] theorem Chip.modLog_verified (f : LogSt → LogSt) : (c.modLog f).verified = c.verified := rfl
@[simp] theorem Chip.modLog_spinDem (f : LogSt → LogSt) : (c.modLog f).spinDem = c.spinDem := rfl

@[simp] theorem Chip.modLib_tb (f : LibSt → LibSt) : (c.modLib f).tb = c.tb := rfl
@[simp] theorem Chip.modLib_freeCt (f : LibSt → LibSt) : (c.modLib f).freeCt = c.freeCt := rfl
@[simp] theorem Chip.modLib_reg (f : LibSt → LibSt) : (c.modLib f).reg = c.reg := rfl
@[simp] theorem Chip.modLib_commits (f : LibSt → LibSt) : (c.modLib f).commits = c.commits := rfl
@[simp] theorem Chip.modLib_cmdPages (f : LibSt → LibSt) : (c.modLib f).cmdPages = c.cmdPages := rfl
@[simp] theorem Chip.modLib_rqHost (f : LibSt → LibSt) : (c.modLib f).rqHost = c.rqHost := rfl
@[simp] theorem Chip.modLib_rqMgmt (f : LibSt → LibSt) : (c.modLib f).rqMgmt = c.rqMgmt := rfl
@[simp] theorem Chip.modLib_rqI3c (f : LibSt → LibSt) : (c.modLib f).rqI3c = c.rqI3c := rfl
@[simp] theorem Chip.modLib_isl (f : LibSt → LibSt) : (c.modLib f).isl = c.isl := rfl
@[simp] theorem Chip.modLib_pins (f : LibSt → LibSt) : (c.modLib f).pins = c.pins := rfl
@[simp] theorem Chip.modLib_mgmt (f : LibSt → LibSt) : (c.modLib f).mgmt = c.mgmt := rfl
@[simp] theorem Chip.modLib_framesRunning (f : LibSt → LibSt) : (c.modLib f).framesRunning = c.framesRunning := rfl
@[simp] theorem Chip.modLib_frameNum (f : LibSt → LibSt) : (c.modLib f).frameNum = c.frameNum := rfl
@[simp] theorem Chip.modLib_frameStart (f : LibSt → LibSt) : (c.modLib f).frameStart = c.frameStart := rfl
@[simp] theorem Chip.modLib_x16 (f : LibSt → LibSt) : (c.modLib f).x16 = c.x16 := rfl
@[simp] theorem Chip.modLib_col (f : LibSt → LibSt) : (c.modLib f).col = c.col := rfl
@[simp] theorem Chip.modLib_halls (f : LibSt → LibSt) : (c.modLib f).halls = c.halls := rfl
@[simp] theorem Chip.modLib_axes (f : LibSt → LibSt) : (c.modLib f).axes = c.axes := rfl
@[simp] theorem Chip.modLib_spins (f : LibSt → LibSt) : (c.modLib f).spins = c.spins := rfl
@[simp] theorem Chip.modLib_engs (f : LibSt → LibSt) : (c.modLib f).engs = c.engs := rfl
@[simp] theorem Chip.modLib_traces (f : LibSt → LibSt) : (c.modLib f).traces = c.traces := rfl
@[simp] theorem Chip.modLib_sets (f : LibSt → LibSt) : (c.modLib f).sets = c.sets := rfl
@[simp] theorem Chip.modLib_meas (f : LibSt → LibSt) : (c.modLib f).meas = c.meas := rfl
@[simp] theorem Chip.modLib_exch (f : LibSt → LibSt) : (c.modLib f).exch = c.exch := rfl
@[simp] theorem Chip.modLib_groups (f : LibSt → LibSt) : (c.modLib f).groups = c.groups := rfl
@[simp] theorem Chip.modLib_heads (f : LibSt → LibSt) : (c.modLib f).heads = c.heads := rfl
@[simp] theorem Chip.modLib_servos (f : LibSt → LibSt) : (c.modLib f).servos = c.servos := rfl
@[simp] theorem Chip.modLib_beams (f : LibSt → LibSt) : (c.modLib f).beams = c.beams := rfl
@[simp] theorem Chip.modLib_assay (f : LibSt → LibSt) : (c.modLib f).assay = c.assay := rfl
@[simp] theorem Chip.modLib_mem (f : LibSt → LibSt) : (c.modLib f).mem = c.mem := rfl
@[simp] theorem Chip.modLib_sluice (f : LibSt → LibSt) : (c.modLib f).sluice = c.sluice := rfl
@[simp] theorem Chip.modLib_rs (f : LibSt → LibSt) : (c.modLib f).rs = c.rs := rfl
@[simp] theorem Chip.modLib_images (f : LibSt → LibSt) : (c.modLib f).images = c.images := rfl
@[simp] theorem Chip.modLib_host (f : LibSt → LibSt) : (c.modLib f).host = c.host := rfl
@[simp] theorem Chip.modLib_peer (f : LibSt → LibSt) : (c.modLib f).peer = c.peer := rfl
@[simp] theorem Chip.modLib_log (f : LibSt → LibSt) : (c.modLib f).log = c.log := rfl
@[simp] theorem Chip.modLib_stripe (f : LibSt → LibSt) : (c.modLib f).stripe = c.stripe := rfl
@[simp] theorem Chip.modLib_consumed (f : LibSt → LibSt) : (c.modLib f).consumed = c.consumed := rfl
@[simp] theorem Chip.modLib_verified (f : LibSt → LibSt) : (c.modLib f).verified = c.verified := rfl
@[simp] theorem Chip.modLib_spinDem (f : LibSt → LibSt) : (c.modLib f).spinDem = c.spinDem := rfl

@[simp] theorem Chip.modInv_tb (slot : Nat) (f : InvRec → InvRec) : (c.modInv slot f).tb = c.tb := rfl
@[simp] theorem Chip.modInv_freeCt (slot : Nat) (f : InvRec → InvRec) : (c.modInv slot f).freeCt = c.freeCt := rfl
@[simp] theorem Chip.modInv_reg (slot : Nat) (f : InvRec → InvRec) : (c.modInv slot f).reg = c.reg := rfl
@[simp] theorem Chip.modInv_commits (slot : Nat) (f : InvRec → InvRec) : (c.modInv slot f).commits = c.commits := rfl
@[simp] theorem Chip.modInv_cmdPages (slot : Nat) (f : InvRec → InvRec) : (c.modInv slot f).cmdPages = c.cmdPages := rfl
@[simp] theorem Chip.modInv_rqHost (slot : Nat) (f : InvRec → InvRec) : (c.modInv slot f).rqHost = c.rqHost := rfl
@[simp] theorem Chip.modInv_rqMgmt (slot : Nat) (f : InvRec → InvRec) : (c.modInv slot f).rqMgmt = c.rqMgmt := rfl
@[simp] theorem Chip.modInv_rqI3c (slot : Nat) (f : InvRec → InvRec) : (c.modInv slot f).rqI3c = c.rqI3c := rfl
@[simp] theorem Chip.modInv_isl (slot : Nat) (f : InvRec → InvRec) : (c.modInv slot f).isl = c.isl := rfl
@[simp] theorem Chip.modInv_pins (slot : Nat) (f : InvRec → InvRec) : (c.modInv slot f).pins = c.pins := rfl
@[simp] theorem Chip.modInv_mgmt (slot : Nat) (f : InvRec → InvRec) : (c.modInv slot f).mgmt = c.mgmt := rfl
@[simp] theorem Chip.modInv_framesRunning (slot : Nat) (f : InvRec → InvRec) : (c.modInv slot f).framesRunning = c.framesRunning := rfl
@[simp] theorem Chip.modInv_frameNum (slot : Nat) (f : InvRec → InvRec) : (c.modInv slot f).frameNum = c.frameNum := rfl
@[simp] theorem Chip.modInv_frameStart (slot : Nat) (f : InvRec → InvRec) : (c.modInv slot f).frameStart = c.frameStart := rfl
@[simp] theorem Chip.modInv_x16 (slot : Nat) (f : InvRec → InvRec) : (c.modInv slot f).x16 = c.x16 := rfl
@[simp] theorem Chip.modInv_col (slot : Nat) (f : InvRec → InvRec) : (c.modInv slot f).col = c.col := rfl
@[simp] theorem Chip.modInv_halls (slot : Nat) (f : InvRec → InvRec) : (c.modInv slot f).halls = c.halls := rfl
@[simp] theorem Chip.modInv_axes (slot : Nat) (f : InvRec → InvRec) : (c.modInv slot f).axes = c.axes := rfl
@[simp] theorem Chip.modInv_spins (slot : Nat) (f : InvRec → InvRec) : (c.modInv slot f).spins = c.spins := rfl
@[simp] theorem Chip.modInv_engs (slot : Nat) (f : InvRec → InvRec) : (c.modInv slot f).engs = c.engs := rfl
@[simp] theorem Chip.modInv_traces (slot : Nat) (f : InvRec → InvRec) : (c.modInv slot f).traces = c.traces := rfl
@[simp] theorem Chip.modInv_sets (slot : Nat) (f : InvRec → InvRec) : (c.modInv slot f).sets = c.sets := rfl
@[simp] theorem Chip.modInv_meas (slot : Nat) (f : InvRec → InvRec) : (c.modInv slot f).meas = c.meas := rfl
@[simp] theorem Chip.modInv_exch (slot : Nat) (f : InvRec → InvRec) : (c.modInv slot f).exch = c.exch := rfl
@[simp] theorem Chip.modInv_groups (slot : Nat) (f : InvRec → InvRec) : (c.modInv slot f).groups = c.groups := rfl
@[simp] theorem Chip.modInv_heads (slot : Nat) (f : InvRec → InvRec) : (c.modInv slot f).heads = c.heads := rfl
@[simp] theorem Chip.modInv_servos (slot : Nat) (f : InvRec → InvRec) : (c.modInv slot f).servos = c.servos := rfl
@[simp] theorem Chip.modInv_beams (slot : Nat) (f : InvRec → InvRec) : (c.modInv slot f).beams = c.beams := rfl
@[simp] theorem Chip.modInv_assay (slot : Nat) (f : InvRec → InvRec) : (c.modInv slot f).assay = c.assay := rfl
@[simp] theorem Chip.modInv_mem (slot : Nat) (f : InvRec → InvRec) : (c.modInv slot f).mem = c.mem := rfl
@[simp] theorem Chip.modInv_sluice (slot : Nat) (f : InvRec → InvRec) : (c.modInv slot f).sluice = c.sluice := rfl
@[simp] theorem Chip.modInv_rs (slot : Nat) (f : InvRec → InvRec) : (c.modInv slot f).rs = c.rs := rfl
@[simp] theorem Chip.modInv_images (slot : Nat) (f : InvRec → InvRec) : (c.modInv slot f).images = c.images := rfl
@[simp] theorem Chip.modInv_host (slot : Nat) (f : InvRec → InvRec) : (c.modInv slot f).host = c.host := rfl
@[simp] theorem Chip.modInv_peer (slot : Nat) (f : InvRec → InvRec) : (c.modInv slot f).peer = c.peer := rfl
@[simp] theorem Chip.modInv_log (slot : Nat) (f : InvRec → InvRec) : (c.modInv slot f).log = c.log := rfl
@[simp] theorem Chip.modInv_stripe (slot : Nat) (f : InvRec → InvRec) : (c.modInv slot f).stripe = c.stripe := rfl
@[simp] theorem Chip.modInv_consumed (slot : Nat) (f : InvRec → InvRec) : (c.modInv slot f).consumed = c.consumed := rfl
@[simp] theorem Chip.modInv_verified (slot : Nat) (f : InvRec → InvRec) : (c.modInv slot f).verified = c.verified := rfl
@[simp] theorem Chip.modInv_spinDem (slot : Nat) (f : InvRec → InvRec) : (c.modInv slot f).spinDem = c.spinDem := rfl

@[simp] theorem Chip.modSurf_tb (disc side : Nat) (f : Surface → Surface) : (c.modSurf disc side f).tb = c.tb := rfl
@[simp] theorem Chip.modSurf_freeCt (disc side : Nat) (f : Surface → Surface) : (c.modSurf disc side f).freeCt = c.freeCt := rfl
@[simp] theorem Chip.modSurf_reg (disc side : Nat) (f : Surface → Surface) : (c.modSurf disc side f).reg = c.reg := rfl
@[simp] theorem Chip.modSurf_commits (disc side : Nat) (f : Surface → Surface) : (c.modSurf disc side f).commits = c.commits := rfl
@[simp] theorem Chip.modSurf_cmdPages (disc side : Nat) (f : Surface → Surface) : (c.modSurf disc side f).cmdPages = c.cmdPages := rfl
@[simp] theorem Chip.modSurf_rqHost (disc side : Nat) (f : Surface → Surface) : (c.modSurf disc side f).rqHost = c.rqHost := rfl
@[simp] theorem Chip.modSurf_rqMgmt (disc side : Nat) (f : Surface → Surface) : (c.modSurf disc side f).rqMgmt = c.rqMgmt := rfl
@[simp] theorem Chip.modSurf_rqI3c (disc side : Nat) (f : Surface → Surface) : (c.modSurf disc side f).rqI3c = c.rqI3c := rfl
@[simp] theorem Chip.modSurf_isl (disc side : Nat) (f : Surface → Surface) : (c.modSurf disc side f).isl = c.isl := rfl
@[simp] theorem Chip.modSurf_pins (disc side : Nat) (f : Surface → Surface) : (c.modSurf disc side f).pins = c.pins := rfl
@[simp] theorem Chip.modSurf_mgmt (disc side : Nat) (f : Surface → Surface) : (c.modSurf disc side f).mgmt = c.mgmt := rfl
@[simp] theorem Chip.modSurf_framesRunning (disc side : Nat) (f : Surface → Surface) : (c.modSurf disc side f).framesRunning = c.framesRunning := rfl
@[simp] theorem Chip.modSurf_frameNum (disc side : Nat) (f : Surface → Surface) : (c.modSurf disc side f).frameNum = c.frameNum := rfl
@[simp] theorem Chip.modSurf_frameStart (disc side : Nat) (f : Surface → Surface) : (c.modSurf disc side f).frameStart = c.frameStart := rfl
@[simp] theorem Chip.modSurf_x16 (disc side : Nat) (f : Surface → Surface) : (c.modSurf disc side f).x16 = c.x16 := rfl
@[simp] theorem Chip.modSurf_col (disc side : Nat) (f : Surface → Surface) : (c.modSurf disc side f).col = c.col := rfl
@[simp] theorem Chip.modSurf_halls (disc side : Nat) (f : Surface → Surface) : (c.modSurf disc side f).halls = c.halls := rfl
@[simp] theorem Chip.modSurf_axes (disc side : Nat) (f : Surface → Surface) : (c.modSurf disc side f).axes = c.axes := rfl
@[simp] theorem Chip.modSurf_spins (disc side : Nat) (f : Surface → Surface) : (c.modSurf disc side f).spins = c.spins := rfl
@[simp] theorem Chip.modSurf_engs (disc side : Nat) (f : Surface → Surface) : (c.modSurf disc side f).engs = c.engs := rfl
@[simp] theorem Chip.modSurf_traces (disc side : Nat) (f : Surface → Surface) : (c.modSurf disc side f).traces = c.traces := rfl
@[simp] theorem Chip.modSurf_sets (disc side : Nat) (f : Surface → Surface) : (c.modSurf disc side f).sets = c.sets := rfl
@[simp] theorem Chip.modSurf_meas (disc side : Nat) (f : Surface → Surface) : (c.modSurf disc side f).meas = c.meas := rfl
@[simp] theorem Chip.modSurf_exch (disc side : Nat) (f : Surface → Surface) : (c.modSurf disc side f).exch = c.exch := rfl
@[simp] theorem Chip.modSurf_groups (disc side : Nat) (f : Surface → Surface) : (c.modSurf disc side f).groups = c.groups := rfl
@[simp] theorem Chip.modSurf_heads (disc side : Nat) (f : Surface → Surface) : (c.modSurf disc side f).heads = c.heads := rfl
@[simp] theorem Chip.modSurf_servos (disc side : Nat) (f : Surface → Surface) : (c.modSurf disc side f).servos = c.servos := rfl
@[simp] theorem Chip.modSurf_beams (disc side : Nat) (f : Surface → Surface) : (c.modSurf disc side f).beams = c.beams := rfl
@[simp] theorem Chip.modSurf_assay (disc side : Nat) (f : Surface → Surface) : (c.modSurf disc side f).assay = c.assay := rfl
@[simp] theorem Chip.modSurf_mem (disc side : Nat) (f : Surface → Surface) : (c.modSurf disc side f).mem = c.mem := rfl
@[simp] theorem Chip.modSurf_sluice (disc side : Nat) (f : Surface → Surface) : (c.modSurf disc side f).sluice = c.sluice := rfl
@[simp] theorem Chip.modSurf_rs (disc side : Nat) (f : Surface → Surface) : (c.modSurf disc side f).rs = c.rs := rfl
@[simp] theorem Chip.modSurf_images (disc side : Nat) (f : Surface → Surface) : (c.modSurf disc side f).images = c.images := rfl
@[simp] theorem Chip.modSurf_host (disc side : Nat) (f : Surface → Surface) : (c.modSurf disc side f).host = c.host := rfl
@[simp] theorem Chip.modSurf_peer (disc side : Nat) (f : Surface → Surface) : (c.modSurf disc side f).peer = c.peer := rfl
@[simp] theorem Chip.modSurf_log (disc side : Nat) (f : Surface → Surface) : (c.modSurf disc side f).log = c.log := rfl
@[simp] theorem Chip.modSurf_stripe (disc side : Nat) (f : Surface → Surface) : (c.modSurf disc side f).stripe = c.stripe := rfl
@[simp] theorem Chip.modSurf_consumed (disc side : Nat) (f : Surface → Surface) : (c.modSurf disc side f).consumed = c.consumed := rfl
@[simp] theorem Chip.modSurf_verified (disc side : Nat) (f : Surface → Surface) : (c.modSurf disc side f).verified = c.verified := rfl
@[simp] theorem Chip.modSurf_spinDem (disc side : Nat) (f : Surface → Surface) : (c.modSurf disc side f).spinDem = c.spinDem := rfl

@[simp] theorem Chip.modPeer_tb (f : PeerSt → PeerSt) : (c.modPeer f).tb = c.tb := rfl
@[simp] theorem Chip.modPeer_freeCt (f : PeerSt → PeerSt) : (c.modPeer f).freeCt = c.freeCt := rfl
@[simp] theorem Chip.modPeer_reg (f : PeerSt → PeerSt) : (c.modPeer f).reg = c.reg := rfl
@[simp] theorem Chip.modPeer_commits (f : PeerSt → PeerSt) : (c.modPeer f).commits = c.commits := rfl
@[simp] theorem Chip.modPeer_cmdPages (f : PeerSt → PeerSt) : (c.modPeer f).cmdPages = c.cmdPages := rfl
@[simp] theorem Chip.modPeer_rqHost (f : PeerSt → PeerSt) : (c.modPeer f).rqHost = c.rqHost := rfl
@[simp] theorem Chip.modPeer_rqMgmt (f : PeerSt → PeerSt) : (c.modPeer f).rqMgmt = c.rqMgmt := rfl
@[simp] theorem Chip.modPeer_rqI3c (f : PeerSt → PeerSt) : (c.modPeer f).rqI3c = c.rqI3c := rfl
@[simp] theorem Chip.modPeer_isl (f : PeerSt → PeerSt) : (c.modPeer f).isl = c.isl := rfl
@[simp] theorem Chip.modPeer_pins (f : PeerSt → PeerSt) : (c.modPeer f).pins = c.pins := rfl
@[simp] theorem Chip.modPeer_mgmt (f : PeerSt → PeerSt) : (c.modPeer f).mgmt = c.mgmt := rfl
@[simp] theorem Chip.modPeer_framesRunning (f : PeerSt → PeerSt) : (c.modPeer f).framesRunning = c.framesRunning := rfl
@[simp] theorem Chip.modPeer_frameNum (f : PeerSt → PeerSt) : (c.modPeer f).frameNum = c.frameNum := rfl
@[simp] theorem Chip.modPeer_frameStart (f : PeerSt → PeerSt) : (c.modPeer f).frameStart = c.frameStart := rfl
@[simp] theorem Chip.modPeer_x16 (f : PeerSt → PeerSt) : (c.modPeer f).x16 = c.x16 := rfl
@[simp] theorem Chip.modPeer_col (f : PeerSt → PeerSt) : (c.modPeer f).col = c.col := rfl
@[simp] theorem Chip.modPeer_halls (f : PeerSt → PeerSt) : (c.modPeer f).halls = c.halls := rfl
@[simp] theorem Chip.modPeer_axes (f : PeerSt → PeerSt) : (c.modPeer f).axes = c.axes := rfl
@[simp] theorem Chip.modPeer_spins (f : PeerSt → PeerSt) : (c.modPeer f).spins = c.spins := rfl
@[simp] theorem Chip.modPeer_engs (f : PeerSt → PeerSt) : (c.modPeer f).engs = c.engs := rfl
@[simp] theorem Chip.modPeer_traces (f : PeerSt → PeerSt) : (c.modPeer f).traces = c.traces := rfl
@[simp] theorem Chip.modPeer_sets (f : PeerSt → PeerSt) : (c.modPeer f).sets = c.sets := rfl
@[simp] theorem Chip.modPeer_meas (f : PeerSt → PeerSt) : (c.modPeer f).meas = c.meas := rfl
@[simp] theorem Chip.modPeer_exch (f : PeerSt → PeerSt) : (c.modPeer f).exch = c.exch := rfl
@[simp] theorem Chip.modPeer_groups (f : PeerSt → PeerSt) : (c.modPeer f).groups = c.groups := rfl
@[simp] theorem Chip.modPeer_heads (f : PeerSt → PeerSt) : (c.modPeer f).heads = c.heads := rfl
@[simp] theorem Chip.modPeer_servos (f : PeerSt → PeerSt) : (c.modPeer f).servos = c.servos := rfl
@[simp] theorem Chip.modPeer_beams (f : PeerSt → PeerSt) : (c.modPeer f).beams = c.beams := rfl
@[simp] theorem Chip.modPeer_assay (f : PeerSt → PeerSt) : (c.modPeer f).assay = c.assay := rfl
@[simp] theorem Chip.modPeer_mem (f : PeerSt → PeerSt) : (c.modPeer f).mem = c.mem := rfl
@[simp] theorem Chip.modPeer_sluice (f : PeerSt → PeerSt) : (c.modPeer f).sluice = c.sluice := rfl
@[simp] theorem Chip.modPeer_rs (f : PeerSt → PeerSt) : (c.modPeer f).rs = c.rs := rfl
@[simp] theorem Chip.modPeer_images (f : PeerSt → PeerSt) : (c.modPeer f).images = c.images := rfl
@[simp] theorem Chip.modPeer_host (f : PeerSt → PeerSt) : (c.modPeer f).host = c.host := rfl
@[simp] theorem Chip.modPeer_lib (f : PeerSt → PeerSt) : (c.modPeer f).lib = c.lib := rfl
@[simp] theorem Chip.modPeer_log (f : PeerSt → PeerSt) : (c.modPeer f).log = c.log := rfl
@[simp] theorem Chip.modPeer_stripe (f : PeerSt → PeerSt) : (c.modPeer f).stripe = c.stripe := rfl
@[simp] theorem Chip.modPeer_consumed (f : PeerSt → PeerSt) : (c.modPeer f).consumed = c.consumed := rfl
@[simp] theorem Chip.modPeer_verified (f : PeerSt → PeerSt) : (c.modPeer f).verified = c.verified := rfl
@[simp] theorem Chip.modPeer_spinDem (f : PeerSt → PeerSt) : (c.modPeer f).spinDem = c.spinDem := rfl

@[simp] theorem Chip.modChan_tb (m : Bool) (f : DaxChan → DaxChan) : (c.modChan m f).tb = c.tb := rfl
@[simp] theorem Chip.modChan_freeCt (m : Bool) (f : DaxChan → DaxChan) : (c.modChan m f).freeCt = c.freeCt := rfl
@[simp] theorem Chip.modChan_reg (m : Bool) (f : DaxChan → DaxChan) : (c.modChan m f).reg = c.reg := rfl
@[simp] theorem Chip.modChan_commits (m : Bool) (f : DaxChan → DaxChan) : (c.modChan m f).commits = c.commits := rfl
@[simp] theorem Chip.modChan_cmdPages (m : Bool) (f : DaxChan → DaxChan) : (c.modChan m f).cmdPages = c.cmdPages := rfl
@[simp] theorem Chip.modChan_rqHost (m : Bool) (f : DaxChan → DaxChan) : (c.modChan m f).rqHost = c.rqHost := rfl
@[simp] theorem Chip.modChan_rqMgmt (m : Bool) (f : DaxChan → DaxChan) : (c.modChan m f).rqMgmt = c.rqMgmt := rfl
@[simp] theorem Chip.modChan_rqI3c (m : Bool) (f : DaxChan → DaxChan) : (c.modChan m f).rqI3c = c.rqI3c := rfl
@[simp] theorem Chip.modChan_isl (m : Bool) (f : DaxChan → DaxChan) : (c.modChan m f).isl = c.isl := rfl
@[simp] theorem Chip.modChan_pins (m : Bool) (f : DaxChan → DaxChan) : (c.modChan m f).pins = c.pins := rfl
@[simp] theorem Chip.modChan_mgmt (m : Bool) (f : DaxChan → DaxChan) : (c.modChan m f).mgmt = c.mgmt := rfl
@[simp] theorem Chip.modChan_framesRunning (m : Bool) (f : DaxChan → DaxChan) : (c.modChan m f).framesRunning = c.framesRunning := rfl
@[simp] theorem Chip.modChan_frameNum (m : Bool) (f : DaxChan → DaxChan) : (c.modChan m f).frameNum = c.frameNum := rfl
@[simp] theorem Chip.modChan_frameStart (m : Bool) (f : DaxChan → DaxChan) : (c.modChan m f).frameStart = c.frameStart := rfl
@[simp] theorem Chip.modChan_x16 (m : Bool) (f : DaxChan → DaxChan) : (c.modChan m f).x16 = c.x16 := rfl
@[simp] theorem Chip.modChan_col (m : Bool) (f : DaxChan → DaxChan) : (c.modChan m f).col = c.col := rfl
@[simp] theorem Chip.modChan_halls (m : Bool) (f : DaxChan → DaxChan) : (c.modChan m f).halls = c.halls := rfl
@[simp] theorem Chip.modChan_axes (m : Bool) (f : DaxChan → DaxChan) : (c.modChan m f).axes = c.axes := rfl
@[simp] theorem Chip.modChan_spins (m : Bool) (f : DaxChan → DaxChan) : (c.modChan m f).spins = c.spins := rfl
@[simp] theorem Chip.modChan_engs (m : Bool) (f : DaxChan → DaxChan) : (c.modChan m f).engs = c.engs := rfl
@[simp] theorem Chip.modChan_traces (m : Bool) (f : DaxChan → DaxChan) : (c.modChan m f).traces = c.traces := rfl
@[simp] theorem Chip.modChan_sets (m : Bool) (f : DaxChan → DaxChan) : (c.modChan m f).sets = c.sets := rfl
@[simp] theorem Chip.modChan_meas (m : Bool) (f : DaxChan → DaxChan) : (c.modChan m f).meas = c.meas := rfl
@[simp] theorem Chip.modChan_exch (m : Bool) (f : DaxChan → DaxChan) : (c.modChan m f).exch = c.exch := rfl
@[simp] theorem Chip.modChan_groups (m : Bool) (f : DaxChan → DaxChan) : (c.modChan m f).groups = c.groups := rfl
@[simp] theorem Chip.modChan_heads (m : Bool) (f : DaxChan → DaxChan) : (c.modChan m f).heads = c.heads := rfl
@[simp] theorem Chip.modChan_servos (m : Bool) (f : DaxChan → DaxChan) : (c.modChan m f).servos = c.servos := rfl
@[simp] theorem Chip.modChan_beams (m : Bool) (f : DaxChan → DaxChan) : (c.modChan m f).beams = c.beams := rfl
@[simp] theorem Chip.modChan_assay (m : Bool) (f : DaxChan → DaxChan) : (c.modChan m f).assay = c.assay := rfl
@[simp] theorem Chip.modChan_mem (m : Bool) (f : DaxChan → DaxChan) : (c.modChan m f).mem = c.mem := rfl
@[simp] theorem Chip.modChan_sluice (m : Bool) (f : DaxChan → DaxChan) : (c.modChan m f).sluice = c.sluice := rfl
@[simp] theorem Chip.modChan_rs (m : Bool) (f : DaxChan → DaxChan) : (c.modChan m f).rs = c.rs := rfl
@[simp] theorem Chip.modChan_images (m : Bool) (f : DaxChan → DaxChan) : (c.modChan m f).images = c.images := rfl
@[simp] theorem Chip.modChan_host (m : Bool) (f : DaxChan → DaxChan) : (c.modChan m f).host = c.host := rfl
@[simp] theorem Chip.modChan_lib (m : Bool) (f : DaxChan → DaxChan) : (c.modChan m f).lib = c.lib := rfl
@[simp] theorem Chip.modChan_log (m : Bool) (f : DaxChan → DaxChan) : (c.modChan m f).log = c.log := rfl
@[simp] theorem Chip.modChan_stripe (m : Bool) (f : DaxChan → DaxChan) : (c.modChan m f).stripe = c.stripe := rfl
@[simp] theorem Chip.modChan_consumed (m : Bool) (f : DaxChan → DaxChan) : (c.modChan m f).consumed = c.consumed := rfl
@[simp] theorem Chip.modChan_verified (m : Bool) (f : DaxChan → DaxChan) : (c.modChan m f).verified = c.verified := rfl
@[simp] theorem Chip.modChan_spinDem (m : Bool) (f : DaxChan → DaxChan) : (c.modChan m f).spinDem = c.spinDem := rfl

/-! ## The unit itself, and the others of its kind -/

/-- An element by its number. -/
theorem vec_get {α : Type} {n : Nat} (v : Vector α n) (i : Fin n) : v.get i = v[i.val] := rfl


@[simp] theorem Chip.hd_modHd (h : Port) (f : HeadSt → HeadSt) : (c.modHd h f).hd h = f (c.hd h) := by
  simp [Chip.hd, Chip.modHd, vec_get]
theorem Chip.hd_modHd_ne (h j : Port) (f : HeadSt → HeadSt) (h' : j ≠ h) : (c.modHd h f).hd j = c.hd j := by
  have w : h.val ≠ j.val := fun w => h' (Fin.ext w.symm)
  simp [Chip.hd, Chip.modHd, vec_get, w]

@[simp] theorem Chip.sv_modSv (h : Port) (f : ServoSt → ServoSt) : (c.modSv h f).sv h = f (c.sv h) := by
  simp [Chip.sv, Chip.modSv, vec_get]
theorem Chip.sv_modSv_ne (h j : Port) (f : ServoSt → ServoSt) (h' : j ≠ h) : (c.modSv h f).sv j = c.sv j := by
  have w : h.val ≠ j.val := fun w => h' (Fin.ext w.symm)
  simp [Chip.sv, Chip.modSv, vec_get, w]

@[simp] theorem Chip.sp_modSp (n : Spin) (f : SpinSt → SpinSt) : (c.modSp n f).sp n = f (c.sp n) := by
  simp [Chip.sp, Chip.modSp, vec_get]
theorem Chip.sp_modSp_ne (n j : Spin) (f : SpinSt → SpinSt) (h' : j ≠ n) : (c.modSp n f).sp j = c.sp j := by
  have w : n.val ≠ j.val := fun w => h' (Fin.ext w.symm)
  simp [Chip.sp, Chip.modSp, vec_get, w]

@[simp] theorem Chip.ax_modAx (a : Axis) (f : AxisSt → AxisSt) : (c.modAx a f).ax a = f (c.ax a) := by
  simp [Chip.ax, Chip.modAx, vec_get]
theorem Chip.ax_modAx_ne (a j : Axis) (f : AxisSt → AxisSt) (h' : j ≠ a) : (c.modAx a f).ax j = c.ax j := by
  have w : a.val ≠ j.val := fun w => h' (Fin.ext w.symm)
  simp [Chip.ax, Chip.modAx, vec_get, w]

@[simp] theorem Chip.en_modEn (e : Eng) (f : EngSt → EngSt) : (c.modEn e f).en e = f (c.en e) := by
  simp [Chip.en, Chip.modEn, vec_get]
theorem Chip.en_modEn_ne (e j : Eng) (f : EngSt → EngSt) (h' : j ≠ e) : (c.modEn e f).en j = c.en j := by
  have w : e.val ≠ j.val := fun w => h' (Fin.ext w.symm)
  simp [Chip.en, Chip.modEn, vec_get, w]

@[simp] theorem Chip.tr_modTr (t : Eng) (f : TraceSt → TraceSt) : (c.modTr t f).tr t = f (c.tr t) := by
  simp [Chip.tr, Chip.modTr, vec_get]
theorem Chip.tr_modTr_ne (t j : Eng) (f : TraceSt → TraceSt) (h' : j ≠ t) : (c.modTr t f).tr j = c.tr j := by
  have w : t.val ≠ j.val := fun w => h' (Fin.ext w.symm)
  simp [Chip.tr, Chip.modTr, vec_get, w]

@[simp] theorem Chip.bm_modBm (h : Port) (b : BeamNo) (f : BeamSt → BeamSt) : (c.modBm h b f).bm h b = f (c.bm h b) := by
  simp [Chip.bm, Chip.modBm, vec_get]
theorem Chip.bm_modBm_ne (h k : Port) (b d : BeamNo) (f : BeamSt → BeamSt) (e : (beamIx k d).val ≠ (beamIx h b).val) :
    (c.modBm h b f).bm k d = c.bm k d := by
  simp [Chip.bm, Chip.modBm, vec_get, Ne.symm e]
@[simp] theorem Chip.mgmt_modMgmt (f : MgmtState → MgmtState) : (c.modMgmt f).mgmt = f c.mgmt := rfl
@[simp] theorem Chip.mem_modMem (f : MemSt → MemSt) : (c.modMem f).mem = f c.mem := rfl
@[simp] theorem Chip.assay_modAssay (f : AssaySt → AssaySt) : (c.modAssay f).assay = f c.assay := rfl
@[simp] theorem Chip.sluice_modSluice (f : SluiceSt → SluiceSt) : (c.modSluice f).sluice = f c.sluice := rfl
@[simp] theorem Chip.host_modHost (f : HostSt → HostSt) : (c.modHost f).host = f c.host := rfl
@[simp] theorem Chip.log_modLog (f : LogSt → LogSt) : (c.modLog f).log = f c.log := rfl
@[simp] theorem Chip.lib_modLib (f : LibSt → LibSt) : (c.modLib f).lib = f c.lib := rfl
@[simp] theorem Chip.peer_modPeer (f : PeerSt → PeerSt) : (c.modPeer f).peer = f c.peer := rfl

end Sys2Proof.Machine
end

