-- ==== Sys2Proof/Laws/Interlock.lean ====
section
/-!
SUPPORT. The laser interlock: where it already holds it changes nothing, which changes keep it, and how a command's effect
is read off its meaning.
-/
namespace Sys2Proof.Machine

/-- The fields that the conditions of R271 read. -/
def laserFields : List Fld :=
  [Reg.HDR.PAGE_CTL_EN, Reg.CLK.HEAD_GATE_GATE, Reg.HEAD.LINK_STAT_STATE, Reg.HEAD.LASER_CTL_WHY_ABSENT,
    Reg.HEAD.LASER_CTL_ARM, Reg.FAULT.QUENCH_HEAD_PORTS]

/-- Field `f`, repetition `i`, stands elsewhere than every field of R271. -/
def Fld.LaserFree (f : Fld) (i : Nat) : Bool :=
  f.Fits i && laserFields.all fun g => decide ((f.off + i * f.stride) / 4 ≠ g.off / 4) || decide (f.lo ≠ g.lo)

/-- Where the interlock holds it changes nothing. -/
theorem Chip.interlock_eq {c : Chip} (h : c.Interlocked) : c.interlock = c := by
  unfold Chip.interlock
  generalize allPorts = l
  induction l with
  | nil => rfl
  | cons p r ih =>
    rw [List.foldl_cons]
    have : (c.killHigh p && !c.laserOk p) = false := by
      cases hk : c.killHigh p with
      | false => rfl
      | true => simp [h p hk]
    rw [this]; exact ih

/-- The interlock reads the registers, the scrubs of the head islands and the lines only. -/
theorem Chip.Interlocked.congr {c d : Chip} (h : c.Interlocked)
    (hr : ∀ g ∈ laserFields, ∀ p, d.rd p g = c.rd p g) (hi : d.isl.scrubHead = c.isl.scrubHead)
    (hp : d.pins.killHigh = c.pins.killHigh) : d.Interlocked := by
  intro q hq
  have hk : c.killHigh q = true := by simpa [Chip.killHigh, hp] using hq
  have := h q hk
  simpa [Chip.laserOk, Chip.enabled, Chip.headGated, Chip.linkState, Chip.laserArmed, Chip.headQuenched, Chip.flag, hi,
    hr _ (show Reg.HDR.PAGE_CTL_EN ∈ laserFields by simp [laserFields]),
    hr _ (show Reg.CLK.HEAD_GATE_GATE ∈ laserFields by simp [laserFields]),
    hr _ (show Reg.HEAD.LINK_STAT_STATE ∈ laserFields by simp [laserFields]),
    hr _ (show Reg.HEAD.LASER_CTL_WHY_ABSENT ∈ laserFields by simp [laserFields]),
    hr _ (show Reg.HEAD.LASER_CTL_ARM ∈ laserFields by simp [laserFields]),
    hr _ (show Reg.FAULT.QUENCH_HEAD_PORTS ∈ laserFields by simp [laserFields])] using this

theorem laserFields_fit : ∀ g ∈ laserFields, g.Fits 0 = true := by decide

/-- A change of fields that R271 does not read keeps the interlock. -/
theorem Chip.Interlocked.keep {c d : Chip} {l : List (Page × Fld × Nat)} (h : c.Interlocked) (hs : c.SameRegs d l)
    (hl : ∀ e ∈ l, e.2.1.LaserFree e.2.2 = true) (hi : d.isl.scrubHead = c.isl.scrubHead)
    (hp : d.pins.killHigh = c.pins.killHigh) : d.Interlocked := by
  refine h.congr (fun g hg p => (hs p g 0 fun e he => ?_).1) hi hp
  have := hl e he
  simp only [Fld.LaserFree, Bool.and_eq_true, List.all_eq_true, Bool.or_eq_true, decide_eq_true_eq] at this
  refine fieldKey_ne_place this.1 (laserFields_fit g hg) ?_
  simpa using this.2 g hg


/-- The fields of a HEAD page that LASER_KILL_N and the stop of the servo sequencer write. -/
def laserTouched : List Fld :=
  [Reg.HEAD.LASER_CTL_ARM, Reg.HEAD.LASER_CTL_KILL, Reg.HEAD.LASER_CTL_WHY_LINK, Reg.HEAD.LASER_CTL_WHY_QUENCH,
    Reg.HEAD.SRV_RESULT_RESULT, Reg.HEAD.SRV_RESULT_FRAMES, Reg.HDR.INT_STAT_BLOCK, Reg.HEAD.SRV_STAT_STATE,
    Reg.HEAD.SRV_STAT_FOCUS_LOCK, Reg.HEAD.SRV_STAT_TRACK_LOCK, Reg.HEAD.SRV_STAT_ROT_LOCK, Reg.HEAD.SRV_STAT_COUNT_LOCK,
    Reg.HEAD.SRV_STAT_WINH]

/-- These fields of all 16 HEAD pages. -/
def laserRegs : List (Page × Fld × Nat) := allPorts.flatMap fun h => laserTouched.map fun f => (.head h, f, 0)

theorem mem_laserRegs (h : Port) {f : Fld} (hf : f ∈ laserTouched) : ((.head h, f, 0) : Page × Fld × Nat) ∈ laserRegs := by
  unfold laserRegs
  exact List.mem_flatMap.2 ⟨h, by simp [allPorts], List.mem_map.2 ⟨f, hf, rfl⟩⟩

/-- What the laser interlock may touch: those fields, the lines, and the servo sequencers. -/
def Chip.LaserStep (c d : Chip) : Prop :=
  c.SameBut d [.reg, .pins, .servos] ∧ c.SameRegs d laserRegs ∧ d.pins = { c.pins with killHigh := d.pins.killHigh }

theorem Chip.LaserStep.rfl' (c : Chip) : c.LaserStep c := ⟨Chip.SameBut.rfl' _ _, Chip.SameRegs.rfl' _ _, rfl⟩

theorem Chip.LaserStep.trans {a b c : Chip} (h : a.LaserStep b) (k : b.LaserStep c) : a.LaserStep c :=
  ⟨h.1.trans k.1, h.2.1.trans k.2.1, by rw [k.2.2, h.2.2]⟩

/-- A register of another page than HEAD reads as before. -/
theorem Chip.LaserStep.rdI {c d : Chip} (h : c.LaserStep d) {p : Page} {f : Fld} {i : Nat} (hp : ∀ q, p ≠ .head q)
    (hf : f.Fits i = true) : d.rdI p f i = c.rdI p f i ∧ d.shI p f i = c.shI p f i := by
  refine h.2.1 p f i fun e he => ?_
  unfold laserRegs at he
  obtain ⟨q, _, he⟩ := List.mem_flatMap.1 he
  obtain ⟨g, hg, rfl⟩ := List.mem_map.1 he
  refine fieldKey_ne_page (Ne.symm (hp q)) ?_ hf
  exact (by decide : ∀ g ∈ laserTouched, g.Fits 0 = true) g hg

theorem Chip.LaserStep.rd {c d : Chip} (h : c.LaserStep d) {p : Page} {f : Fld} (hp : ∀ q, p ≠ .head q)
    (hf : f.Fits 0 = true) : d.rd p f = c.rd p f := (h.rdI hp hf).1

/-- A field of a HEAD page at another place than those reads as before. -/
theorem Chip.LaserStep.rd_head {c d : Chip} (h : c.LaserStep d) {p : Page} {f : Fld}
    (hf : laserTouched.all (fun g => g.Apart f) = true) : d.rd p f = c.rd p f := by
  refine (h.2.1 p f 0 fun e he => ?_).1
  unfold laserRegs at he
  obtain ⟨q, _, he⟩ := List.mem_flatMap.1 he
  obtain ⟨g, hg, rfl⟩ := List.mem_map.1 he
  exact fieldKey_ne_apart (List.all_eq_true.1 hf g hg)

theorem Chip.LaserStep.put {a b : Chip} (h : a.LaserStep b) (p : Port) (f : Fld) (v : Nat) (hf : f ∈ laserTouched) :
    a.LaserStep (b.put (.head p) f v) :=
  h.trans ⟨fun q hq => by cases q <;> first | rfl | simp at hq, (Chip.SameRegs.rfl' b _).put _ _ _ (mem_laserRegs p hf), rfl⟩

theorem Chip.LaserStep.modSv {a b : Chip} (h : a.LaserStep b) (p : Port) (f : ServoSt → ServoSt) :
    a.LaserStep (b.modSv p f) :=
  h.trans ⟨fun q hq => by cases q <;> first | rfl | simp at hq, Chip.SameRegs.rfl' _ _, rfl⟩

theorem Chip.LaserStep.kill {a b : Chip} (h : a.LaserStep b) (n : Nat) :
    a.LaserStep { b with pins := { b.pins with killHigh := n } } :=
  h.trans ⟨fun q hq => by cases q <;> first | rfl | simp at hq, Chip.SameRegs.rfl' _ _, rfl⟩

theorem Chip.LaserStep.srvAbort {a b : Chip} (h : a.LaserStep b) (p : Port) : a.LaserStep (b.srvAbort p) := by
  have e : a.LaserStep (b.srvEnd p 7) := by
    unfold Chip.srvEnd; simp only; split
    · exact h
    · exact (((h.put p _ _ (by simp [laserTouched])).put p _ _ (by simp [laserTouched])).put p _ _ (by simp [laserTouched])).modSv p _
  unfold Chip.srvAbort Chip.srvIdle Chip.srvEnter Chip.srvGates
  simp only [Bool.false_eq_true, if_false]
  refine Chip.LaserStep.put ?_ p _ _ (by simp [laserTouched])
  refine Chip.LaserStep.modSv ?_ p _
  refine Chip.LaserStep.modSv ?_ p _
  refine Chip.LaserStep.put ?_ p _ _ (by simp [laserTouched])
  refine Chip.LaserStep.modSv ?_ p _
  exact (((e.put p _ _ (by simp [laserTouched])).put p _ _ (by simp [laserTouched])).put p _ _ (by simp [laserTouched])).put p _ _ (by simp [laserTouched])

theorem Chip.LaserStep.killShow {a b : Chip} (h : a.LaserStep b) (p : Port) (ok : Bool) : a.LaserStep (b.killShow p ok) := by
  unfold Chip.killShow Chip.putB
  exact ((h.put p _ _ (by simp [laserTouched])).put p _ _ (by simp [laserTouched])).put p _ _ (by simp [laserTouched])

theorem Chip.LaserStep.killEdge {a b : Chip} (h : a.LaserStep b) (p : Port) (was ok : Bool) :
    a.LaserStep (b.killEdge p was ok) := by
  unfold Chip.killEdge
  split
  · exact (h.srvAbort p).modSv p _
  · split
    · exact h.modSv p _
    · exact h

theorem Chip.LaserStep.killArm {a b : Chip} (h : a.LaserStep b) (p : Port) (fall : Bool) : a.LaserStep (b.killArm p fall) := by
  unfold Chip.killArm
  split
  · exact h.put p _ _ (by simp [laserTouched])
  · exact h

/-- Setting LASER_KILL_N anew touches no more than the interlock may. -/
theorem Chip.LaserStep.updKill (c : Chip) (p : Port) : c.LaserStep (c.updKill p) := by
  unfold Chip.updKill
  exact ((((Chip.LaserStep.rfl' c).killArm p _).kill _).killEdge p _ _).killShow p _

theorem testBit_setBit (n i j : Nat) (b : Bool) : (setBit n i b).testBit j = if i = j then b else n.testBit j := by
  unfold setBit
  split
  · rename_i h
    by_cases e : i = j
    · subst e; simp [h]
    · simp [e]
  · rename_i h
    rw [Nat.testBit_xor, Nat.testBit_two_pow]
    by_cases e : i = j
    · subst e; revert h; cases n.testBit i <;> cases b <;> simp
    · simp [e]

theorem Chip.srvEnd_pins (c : Chip) (p : Port) (r : Nat) : (c.srvEnd p r).pins = c.pins := by
  unfold Chip.srvEnd; simp only; split <;> rfl

theorem Chip.srvAbort_pins (c : Chip) (p : Port) : (c.srvAbort p).pins = c.pins := by
  unfold Chip.srvAbort Chip.srvIdle Chip.srvEnter Chip.srvGates
  simp only [Bool.false_eq_true, if_false, Chip.put_pins, Chip.modSv_pins, Chip.srvEnd_pins]

theorem Chip.killEdge_pins (c : Chip) (p : Port) (was ok : Bool) : (c.killEdge p was ok).pins = c.pins := by
  unfold Chip.killEdge
  split
  · rw [Chip.modSv_pins, Chip.srvAbort_pins]
  · split
    · exact Chip.modSv_pins ..
    · rfl

theorem Chip.killArm_pins (c : Chip) (p : Port) (fall : Bool) : (c.killArm p fall).pins = c.pins := by
  unfold Chip.killArm; split <;> rfl

/-- Setting LASER_KILL_N of a port anew drives that line as R271 says and no other. -/
theorem Chip.killHigh_updKill (c : Chip) (p q : Port) :
    (c.updKill p).killHigh q = if p = q then c.laserOk p else c.killHigh q := by
  have e : (c.updKill p).pins.killHigh = setBit c.pins.killHigh p.val (c.laserOk p) := by
    unfold Chip.updKill Chip.killShow
    simp only [Chip.putB_pins, Chip.killEdge_pins, Chip.setKill, Chip.killArm_pins]
  unfold Chip.killHigh bit
  rw [e, testBit_setBit]
  by_cases h : p = q
  · subst h; simp
  · have : p.val ≠ q.val := fun k => h (Fin.ext k)
    simp [h, this]

/-- The interlock touches registers of HEAD pages, the lines and the servo sequencers only. -/
theorem Chip.interlock_step (c : Chip) : c.LaserStep c.interlock := by
  unfold Chip.interlock
  generalize allPorts = l
  induction l generalizing c with
  | nil => exact Chip.LaserStep.rfl' c
  | cons p r ih =>
    rw [List.foldl_cons]
    split
    · exact (Chip.LaserStep.updKill c p).trans (ih _)
    · exact ih c

/-- No command stops the block, each leaves the queue as it was, and after each the interlock has been applied. -/
theorem exec_next (i : Instr) (s : State) : ∃ c : Chip, exec i s = .next { s with chip := c.interlock } := by
  cases i <;> exact ⟨_, rfl⟩

/-- How a command completes whatever the interlock does: `P` rests on what the interlock leaves alone. -/
theorem completes_any {i : Instr} {s : State} {c : Chip} {P : Chip → Prop} (he : exec i s = .next { s with chip := c.interlock })
    (hp : ∀ d, c.LaserStep d → P d) : Completes i s P :=
  ⟨_, he, rfl, hp _ (Chip.interlock_step _)⟩

/-- How a command completes: its meaning's effect `d` on the block, where that keeps the interlock. -/
theorem completes_of {i : Instr} {s : State} {c : Chip} {P : Chip → Prop} (he : exec i s = .next { s with chip := c.interlock })
    {d : Chip} (hd : c = d) (hi : d.Interlocked) (hp : P d) : Completes i s P := by
  subst hd
  refine ⟨_, he, rfl, ?_⟩
  show P c.interlock
  rw [Chip.interlock_eq hi]; exact hp

/-- As `completes_of`, the interlock kept because only fields that R271 does not read may change. -/
theorem completes_of_same {i : Instr} {s : State} {c : Chip} {P : Chip → Prop} (l : List (Page × Fld × Nat))
    (he : exec i s = .next { s with chip := c.interlock }) {d : Chip} (hd : c = d) (hI : s.chip.Interlocked)
    (hs : s.chip.SameRegs d l) (hl : ∀ e ∈ l, e.2.1.LaserFree e.2.2 = true) (h1 : d.isl.scrubHead = s.chip.isl.scrubHead)
    (h2 : d.pins.killHigh = s.chip.pins.killHigh) (hp : s.chip.SameRegs d l → P d) : Completes i s P :=
  completes_of he hd (hI.keep hs hl h1 h2) (hp hs)

end Sys2Proof.Machine
end

