-- ==== Sys2Proof/Laws/Host.lean ====
section
/-!
SUPPORT. What the operations over controllers, completions, events, logs and Daxlink frames may change: the host side, the logs,
the Daxlink, the hallmark units, and registers of the pages CMD, HOST and HALL; all else they leave alone.
-/
namespace Sys2Proof.Machine

/-- The pages whose registers the host side's operations write. -/
def hostPages : Page → Bool
  | .cmd | .host | .hall _ => true
  | _ => false

/-- What the host side's operations may change. -/
def Chip.HostStep (c d : Chip) : Prop :=
  c.SameBut d [.reg, .host, .log, .peer, .halls, .freeCt] ∧ c.reg.SamePages hostPages d.reg

theorem Chip.HostStep.rfl' (c : Chip) : c.HostStep c := ⟨Chip.SameBut.rfl' _ _, RegFile.SamePages.rfl' _ _⟩

theorem Chip.HostStep.trans {a b c : Chip} (h : a.HostStep b) (k : b.HostStep c) : a.HostStep c :=
  ⟨h.1.trans k.1, h.2.trans k.2⟩

/-- A chain of such steps over a list is one. -/
theorem Chip.HostStep.foldl {α : Type} {g : Chip → α → Chip} (hg : ∀ (c : Chip) (x : α), c.HostStep (g c x)) (l : List α) (c : Chip) :
    c.HostStep (l.foldl g c) := by
  induction l generalizing c with
  | nil => exact Chip.HostStep.rfl' c
  | cons x r ih => exact (hg c x).trans (ih _)

theorem Chip.HostStep.put (c : Chip) (p : Page) (f : Fld) (v : Nat) (hp : hostPages p = true) (hf : f.Fits 0 = true) :
    c.HostStep (c.put p f v) :=
  ⟨fun q hq => by cases q <;> first | rfl | simp at hq, RegFile.SamePages.putI _ _ _ _ (RegFile.SamePages.rfl' _ _) hp hf⟩

theorem Chip.HostStep.stat (c : Chip) (p : Page) (f : Fld) (v : Nat) (hp : hostPages p = true) (hf : f.Fits 0 = true) :
    c.HostStep (c.stat p f v) := by
  unfold Chip.stat
  split
  · exact Chip.HostStep.rfl' c
  · exact (Chip.HostStep.put c p f v hp hf).trans (Chip.HostStep.put _ p _ _ hp (by decide))

theorem Chip.HostStep.statAdd (c : Chip) (p : Page) (f : Fld) (n : Nat) (hp : hostPages p = true) (hf : f.Fits 0 = true) :
    c.HostStep (c.statAdd p f n) := Chip.HostStep.stat c p f _ hp hf

theorem Chip.HostStep.modHost (c : Chip) (f : HostSt → HostSt) : c.HostStep (c.modHost f) :=
  ⟨fun q hq => by cases q <;> first | rfl | simp at hq, RegFile.SamePages.rfl' _ _⟩

theorem Chip.HostStep.modLog (c : Chip) (f : LogSt → LogSt) : c.HostStep (c.modLog f) :=
  ⟨fun q hq => by cases q <;> first | rfl | simp at hq, RegFile.SamePages.rfl' _ _⟩

theorem Chip.HostStep.modChan (c : Chip) (m : Bool) (f : DaxChan → DaxChan) : c.HostStep (c.modChan m f) :=
  ⟨fun q hq => by cases q <;> first | rfl | simp at hq, RegFile.SamePages.rfl' _ _⟩

theorem Chip.HostStep.free (c : Chip) (w : Nat) : c.HostStep (c.free w).2 :=
  ⟨fun q hq => by cases q <;> first | rfl | simp at hq, RegFile.SamePages.rfl' _ _⟩

theorem Chip.HostStep.modHall (c : Chip) (n : HallNo) (f : HallUnit → HallUnit) : c.HostStep (c.modHall n f) :=
  ⟨fun q hq => by cases q <;> first | rfl | simp at hq, RegFile.SamePages.rfl' _ _⟩

theorem Chip.HostStep.modCtl (c : Chip) (n : Nat) (f : CtrlSt → CtrlSt) : c.HostStep (c.modCtl n f) := by
  unfold Chip.modCtl
  split
  · exact Chip.HostStep.modHost c _
  · exact Chip.HostStep.rfl' c

theorem Chip.HostStep.modCmd (c : Chip) (n : Nat) (f : Cmd → Cmd) : c.HostStep (c.modCmd n f) := by
  unfold Chip.modCmd
  split
  · exact Chip.HostStep.modHost c _
  · exact Chip.HostStep.rfl' c

theorem Chip.HostStep.setPhase (c : Chip) (n : Nat) (p : CmdPhase) : c.HostStep (c.setPhase n p) := Chip.HostStep.modCmd c n _

theorem Chip.HostStep.updInflight (c : Chip) : c.HostStep c.updInflight := by
  unfold Chip.updInflight
  simp only
  split
  · exact (Chip.HostStep.stat c .cmd _ _ rfl (by decide)).trans (Chip.HostStep.stat _ .cmd _ _ rfl (by decide))
  · exact Chip.HostStep.stat c .cmd _ _ rfl (by decide)

theorem Chip.HostStep.updFunc (c : Chip) : c.HostStep c.updFunc := by
  unfold Chip.updFunc
  exact (Chip.HostStep.stat c .host _ _ rfl (by decide)).trans (Chip.HostStep.stat _ .host _ _ rfl (by decide))

theorem Chip.HostStep.hallMessage (c : Chip) (n : HallNo) (v : Nat) (k : Option Bool) : c.HostStep (c.hallMessage n v k) := by
  have e : ∀ (c : Chip) (b : Bool), c.HostStep (if b then c.inc (.hall n) Reg.HALL.HALL_COUNT_OK else c.inc (.hall n) Reg.HALL.HALL_COUNT_FAIL) := by
    intro c b
    cases b
    · exact Chip.HostStep.put c (.hall n) _ _ rfl (by decide)
    · exact Chip.HostStep.put c (.hall n) _ _ rfl (by decide)
  unfold Chip.hallMessage
  simp only
  have h3 := ((Chip.HostStep.put c (.hall n) Reg.HALL.LAST_LO_VALUE v rfl (by decide)).trans
    (Chip.HostStep.put _ (.hall n) Reg.HALL.LAST_HI_VALUE (v / 2 ^ 32) rfl (by decide))).trans
    (Chip.HostStep.stat _ (.hall n) Reg.HALL.HALL_STAT_DIR (b2n k.isSome) rfl (by decide))
  split
  · exact (h3.trans (e _ _)).trans (Chip.HostStep.modHall _ n _)
  · exact h3.trans (e _ _)

theorem Chip.HostStep.hallOut (c : Chip) (m : Bool) : c.HostStep (c.hallOut m) :=
  (Chip.HostStep.free c 64).trans (Chip.HostStep.hallMessage _ _ _ _)

theorem Chip.HostStep.daxDrain (m : Bool) (n : Nat) (c : Chip) : c.HostStep (Chip.daxDrain m n c) := by
  induction n generalizing c with
  | zero => exact Chip.HostStep.rfl' c
  | succ n ih =>
    unfold Chip.daxDrain
    simp only
    split
    · exact Chip.HostStep.rfl' c
    · split
      · exact Chip.HostStep.rfl' c
      · exact ((Chip.HostStep.modChan c m _).trans (Chip.HostStep.hallOut _ m)).trans (ih _)

theorem Chip.HostStep.daxSend (c : Chip) (m : Bool) (t : Nat) (a : List Nat) : c.HostStep (c.daxSend m t a) := by
  unfold Chip.daxSend
  split
  · exact Chip.HostStep.rfl' c
  · exact (Chip.HostStep.modChan c m _).trans (Chip.HostStep.daxDrain m _ _)

theorem Chip.HostStep.deliverCpl (c : Chip) (k : Cpl) : c.HostStep (c.deliverCpl k) := by
  unfold Chip.deliverCpl
  simp only
  split
  · exact Chip.HostStep.rfl' c
  · split
    · exact Chip.HostStep.rfl' c
    · split
      · exact Chip.HostStep.modCtl c _ _
      · exact Chip.HostStep.modHost c _

theorem Chip.HostStep.ite {a b c : Chip} (p : Prop) [Decidable p] (h : a.HostStep b) (k : a.HostStep c) :
    a.HostStep (if p then b else c) := by split <;> assumption

theorem Chip.HostStep.countStatus (c : Chip) (k : Cpl) : c.HostStep (c.countStatus k) := by
  unfold Chip.countStatus
  simp only
  have h1 : ∀ c : Chip, c.HostStep (if k.sct = 2 ∧ k.sc = 0x81 then c.statAdd .cmd Reg.CMD.STATUS_COUNT_URE 1 else c) := fun c =>
    Chip.HostStep.ite _ (Chip.HostStep.statAdd c .cmd _ _ rfl (by decide)) (Chip.HostStep.rfl' c)
  have h2 : ∀ c : Chip, c.HostStep (if k.sct = 0 ∧ k.sc = 0x21 then c.statAdd .cmd Reg.CMD.STATUS_COUNT_INTERRUPTED 1 else c) := fun c =>
    Chip.HostStep.ite _ (Chip.HostStep.statAdd c .cmd _ _ rfl (by decide)) (Chip.HostStep.rfl' c)
  have h := (h1 c).trans (h2 _)
  split
  · exact h
  · exact h.trans (Chip.HostStep.modCtl _ _ _)

/-- A command's completion changes the host side only. -/
theorem Chip.HostStep.complete (c : Chip) (slot : Nat) (f : Cpl → Cpl) : c.HostStep (c.complete slot f) := by
  unfold Chip.complete
  split
  · exact Chip.HostStep.rfl' c
  · have h := Chip.HostStep.modHost c fun h => { h with slots := assocDel slot h.slots }
    refine Chip.HostStep.trans ?_ (Chip.HostStep.updInflight _)
    refine h.trans ?_
    refine Chip.HostStep.ite _ (Chip.HostStep.rfl' _) (Chip.HostStep.ite _ (Chip.HostStep.daxSend _ _ _ _)
      (Chip.HostStep.ite _ (Chip.HostStep.modHost _ _) ?_))
    exact (Chip.HostStep.countStatus _ _).trans (Chip.HostStep.deliverCpl _ _)

theorem Chip.HostStep.fail (c : Chip) (slot sct sc : Nat) (dnr : Bool) : c.HostStep (c.fail slot sct sc dnr) :=
  Chip.HostStep.complete c slot _

theorem Chip.HostStep.interrupted (c : Chip) (slot : Nat) : c.HostStep (c.interrupted slot) := Chip.HostStep.complete c slot _

theorem Chip.HostStep.serveEvent (c : Chip) (n : Nat) : c.HostStep (c.serveEvent n) := by
  unfold Chip.serveEvent
  split
  · exact (Chip.HostStep.modCtl c n _).trans (Chip.HostStep.complete _ _ _)
  · exact Chip.HostStep.rfl' c

theorem Chip.HostStep.postEvent (c : Chip) (n kind bits typ info log : Nat) : c.HostStep (c.postEvent n kind bits typ info log) := by
  unfold Chip.postEvent
  exact Chip.HostStep.ite _ (Chip.HostStep.rfl' c) ((Chip.HostStep.modCtl c n _).trans (Chip.HostStep.serveEvent _ n))

theorem Chip.HostStep.postAll (c : Chip) (kind bits typ info log : Nat) : c.HostStep (c.postAll kind bits typ info log) :=
  Chip.HostStep.foldl (fun c n => Chip.HostStep.postEvent c n kind bits typ info log) _ c

theorem Chip.HostStep.logEvent (c : Chip) (code unit arg : Nat) : c.HostStep (c.logEvent code unit arg) :=
  (Chip.HostStep.modLog c _).trans (Chip.HostStep.postAll _ _ _ _ _ _)

theorem Chip.HostStep.logEv (c : Chip) (code unit : Nat) : c.HostStep (c.logEv code unit) :=
  (Chip.HostStep.free c 64).trans (Chip.HostStep.logEvent _ _ _ _)

theorem Chip.HostStep.logEv0 (c : Chip) (code : Nat) : c.HostStep (c.logEv0 code) :=
  (Chip.HostStep.free c 16).trans (Chip.HostStep.logEv _ _ _)

theorem Chip.HostStep.updWarning (c : Chip) : c.HostStep c.updWarning := by
  unfold Chip.updWarning
  simp only
  have h := Chip.HostStep.ite (a := c) (c.onePackage = true) (Chip.HostStep.modLog c fun l => { l with unreliable := true })
    (Chip.HostStep.rfl' c)
  refine h.trans (Chip.HostStep.ite _ (Chip.HostStep.rfl' _) ?_)
  exact (Chip.HostStep.modLog _ _).trans (Chip.HostStep.postAll _ _ _ _ _ _)

theorem Chip.HostStep.lostRange (c : Chip) (a b d e : Nat) : c.HostStep (c.lostRange a b d e) :=
  ((Chip.HostStep.modLog c _).trans (Chip.HostStep.modLog _ _)).trans (Chip.HostStep.updWarning _)

end Sys2Proof.Machine
end

