-- ==== Sys2Proof/Laws/Memory.lean ====
section
/-!
SUPPORT. Keyed lists and the words of buffer memory: a word just stored is read back, every other word is left alone, and a store
keeps the canonical form.
-/
namespace Sys2Proof.Machine

theorem assocGet_set_same {α : Type} (k : Nat) (v : α) (l : List (Nat × α)) : assocGet k (assocSet k v l) = some v := by
  induction l with
  | nil => simp [assocSet, assocGet]
  | cons e r ih =>
    obtain ⟨j, w⟩ := e
    simp only [assocSet]
    split
    · simp [assocGet]
    · split
      · simp [assocGet]
      · simp only [assocGet]; rw [if_neg (by omega)]; exact ih

theorem assocGet_set_ne {α : Type} (k j : Nat) (v : α) (l : List (Nat × α)) (h : j ≠ k) :
    assocGet j (assocSet k v l) = assocGet j l := by
  induction l with
  | nil => simp [assocSet, assocGet, h]
  | cons e r ih =>
    obtain ⟨i, w⟩ := e
    simp only [assocSet]
    split
    · subst_vars; simp [assocGet, h]
    · split
      · simp [assocGet, h]
      · simp only [assocGet]; rw [ih]

theorem assocGet_del_ne {α : Type} (k j : Nat) (l : List (Nat × α)) (h : j ≠ k) : assocGet j (assocDel k l) = assocGet j l := by
  induction l with
  | nil => rfl
  | cons e r ih =>
    obtain ⟨i, w⟩ := e
    simp only [assocDel, List.filter_cons] at ih ⊢
    by_cases hi : i = k
    · subst hi; simp [assocGet, h]; exact ih
    · rw [if_pos (by simpa using hi)]
      simp only [assocGet, ih]

theorem assocGet_del_same {α : Type} (k : Nat) (l : List (Nat × α)) : assocGet k (assocDel k l) = none := by
  induction l with
  | nil => rfl
  | cons e r ih =>
    obtain ⟨i, w⟩ := e
    simp only [assocDel, List.filter_cons] at ih ⊢
    by_cases hi : i = k
    · simp [hi]; exact ih
    · rw [if_pos (by simpa using hi)]
      simp only [assocGet, if_neg (fun c => hi (Eq.symm c)), ih]

/-- Where an entry of `assocSet` comes from. -/
theorem mem_assocSet {α : Type} {k : Nat} {v : α} {l : List (Nat × α)} {e : Nat × α} (h : e ∈ assocSet k v l) :
    e = (k, v) ∨ e ∈ l := by
  induction l with
  | nil => simpa [assocSet] using h
  | cons x r ih =>
    obtain ⟨j, w⟩ := x
    simp only [assocSet] at h
    split at h
    · rcases List.mem_cons.mp h with h | h
      · exact .inl h
      · exact .inr (.tail _ h)
    · split at h
      · rcases List.mem_cons.mp h with h | h
        · exact .inl h
        · exact .inr h
      · rcases List.mem_cons.mp h with h | h
        · exact .inr (by simp [h])
        · rcases ih h with h | h
          · exact .inl h
          · exact .inr (.tail _ h)

theorem assocSet_sorted {α : Type} (k : Nat) (v : α) {l : List (Nat × α)} (h : (l.map (·.1)).Pairwise (· < ·)) :
    ((assocSet k v l).map (·.1)).Pairwise (· < ·) := by
  induction l with
  | nil => simp [assocSet]
  | cons e r ih =>
    obtain ⟨j, w⟩ := e
    simp only [List.map_cons, List.pairwise_cons] at h
    simp only [assocSet]
    split
    · subst_vars; simpa using h
    · split
      · simp only [List.map_cons, List.pairwise_cons, List.mem_cons, forall_eq_or_imp]
        exact ⟨⟨by assumption, fun a ha => Nat.lt_trans (by assumption) (h.1 a ha)⟩, h⟩
      · simp only [List.map_cons, List.pairwise_cons]
        refine ⟨fun a ha => ?_, ih h.2⟩
        obtain ⟨x, hx, rfl⟩ := List.mem_map.mp ha
        rcases mem_assocSet hx with rfl | hx
        · show j < k; omega
        · exact h.1 _ (List.mem_map.mpr ⟨x, hx, rfl⟩)

theorem assocDel_sorted {α : Type} (k : Nat) {l : List (Nat × α)} (h : (l.map (·.1)).Pairwise (· < ·)) :
    ((assocDel k l).map (·.1)).Pairwise (· < ·) :=
  h.sublist (List.filter_sublist.map _)

/-- A word just stored is what its address reads as. -/
@[simp] theorem MemSt.raw_setRaw_same (m : MemSt) (a : Nat) (w : BitVec 144) : (m.setRaw a w).raw a = w := by
  unfold MemSt.raw MemSt.setRaw
  by_cases h : w = eccWord a 0
  · simp only [h, if_true, assocGet_del_same, Option.getD_none]
  · simp only [h, if_false, assocGet_set_same, Option.getD_some]

/-- A store leaves every other word alone. -/
theorem MemSt.raw_setRaw_ne (m : MemSt) (a b : Nat) (w : BitVec 144) (h : b ≠ a) : (m.setRaw a w).raw b = m.raw b := by
  unfold MemSt.raw MemSt.setRaw
  by_cases e : w = eccWord a 0
  · simp only [e, if_true, assocGet_del_ne a b _ h]
  · simp only [e, if_false, assocGet_set_ne a b _ _ h]

/-- A store keeps the canonical form. -/
theorem MemSt.wf_setRaw (m : MemSt) (a : Nat) (w : BitVec 144) (h : m.wf) : (m.setRaw a w).wf := by
  obtain ⟨h1, h2⟩ := h
  unfold MemSt.wf MemSt.setRaw
  by_cases e : w = eccWord a 0
  · simp only [e, if_true]
    exact ⟨assocDel_sorted a h1, fun x hx => h2 x (List.mem_filter.mp hx).1⟩
  · simp only [e, if_false]
    refine ⟨assocSet_sorted a w h1, fun x hx => ?_⟩
    rcases mem_assocSet hx with rfl | hx
    · exact e
    · exact h2 x hx

/-- Memory after reset, with nothing listed, has the canonical form. -/
theorem reset_memory_wf : State.reset.chip.mem.wf := ⟨List.Pairwise.nil, fun _ h => nomatch h⟩

end Sys2Proof.Machine
end

