-- ==== Sys2Proof/WellFormed.lean ====
section
/-!
DEFINITION. What the outside can put into a command: the sizes and ranges that the spec gives the payloads whose Lean types are
wider. The machine checks none of it itself; a command that is not well formed stands for no event of the hardware (log 155).
-/
namespace Sys2Proof

/-- Training fails at one of the steps of R266, or at none (0). -/
def OpuAnswer.wf (a : OpuAnswer) : Bool := decide (a.failStep ≤ 6)

/-- A frame has 600 octets on each lane (R248, where all blocks are present), in 75 blocks. -/
def Uplink.wf (u : Uplink) : Bool := !u.complete || (decide (u.lane0.length = 600) && decide (u.lane1.length = 600))

/-- A sector payload has 4,160 bytes (R206). -/
def Decode.wf (d : Decode) : Bool := decide (d.payload.length = 4160)
/-- A sector payload has 4,160 bytes (R206). -/
def MediaSector.wf (d : MediaSector) : Bool := decide (d.payload.length = 4160)
/-- A control slot belongs to a layer, and to one of the 256 places of a zone (R197, R228). -/
def CtrlRead.wf (k : CtrlRead) : Bool := decide (k.layer < 8) && decide (k.ix < 256)
/-- What one side of a disc yields. -/
def SideFound.wf (f : SideFound) : Bool := f.pressed.all MediaSector.wf && f.ctrl.all CtrlRead.wf
/-- A step of a mount. -/
def MountStep.wf : MountStep → Bool
  | .check d => d.upper.wf && d.lower.wf
  | _ => true

/-- A mark run has at least one period (R378). -/
def MonitorSample.wf (m : MonitorSample) : Bool := m.marks.all fun k => decide (0 < k.len)

/-- A delivery status is one of those of R331. -/
def SectorCheck.wf (k : SectorCheck) : Bool := decide (k.status < 14)

/-- The fields of an ingot fit the metadata layout of R206. -/
def IngotRef.wf (i : IngotRef) : Bool :=
  decide (i.polder < 2 ^ 64) && decide (i.zone < 2 ^ 16) && decide (i.row < 2 ^ 16) && decide (i.member < 2 ^ 8) && decide (i.flags < 2 ^ 16)

/-- A work item names a side, a layer, a spiral and a slot, and lists at least one ingot (R355). -/
def WorkItem.wf (w : WorkItem) : Bool :=
  decide (w.side < 2) && decide (w.layer < 8) && decide (w.spiral < 4) && decide (w.slot < 2 ^ 19) && !w.ingots.isEmpty &&
    w.ingots.all IngotRef.wf

/-- Sums of 768 codes of 12 bits (R595). -/
def SlotSums.wf (s : SlotSums) : Bool :=
  decide (s.lo ≤ 768 * 4095) && decide (s.hi ≤ 768 * 4095) && decide (s.mid ≤ 768 * 4095)

/-- A block has 4,096 data bytes and 0, 8 or 16 metadata bytes (R686). -/
def Block.wf (b : Block) : Bool :=
  decide (b.data.length = 4096) && (decide (b.md.length = 0) || decide (b.md.length = 8) || decide (b.md.length = 16))

/-- The numbers of a frame header have 32 bits (R814). -/
def DaxHead.wf (h : DaxHead) : Bool := decide (h.seq < 2 ^ 32) && decide (h.ackCtl < 2 ^ 32) && decide (h.ackMir < 2 ^ 32)

/-- A batch carries well-formed blocks (R815). -/
def BatchCopy.wf (b : BatchCopy) : Bool := b.data.all Block.wf

/-- A command that the outside can give. -/
def Instr.wf : Instr → Bool
  | .powerOn => true
  | .resetNPulse => true
  | .resetNRelease _ _ => true
  | .softChipReset _ _ _ => true
  | .perstNAssert => true
  | .perstNDeassert => true
  | .nvmSubsystemReset _ => true
  | .trstNLow => true
  | .brownoutCore _ => true
  | .brownoutAon _ => true
  | .pwrGoodLoss _ => true
  | .flushRestart => true
  | .islandScrubDone _ => true
  | .rstoreMount _ _ => true
  | .nandIntentRecovery => true
  | .calibrationLoad => true
  | .inventoryZoneLoad => true
  | .journalReplay _ => true
  | .rstoreResync _ => true
  | .faultRecordCopy _ => true
  | .registerWrite _ _ _ _ _ _ env => env.opu.wf
  | .fenceStart _ _ => true
  | .fenceComplete _ => true
  | .fenceTimeout _ => true
  | .frameNumRead _ => true
  | .frameBoundary => true
  | .localCommit _ _ _ => true
  | .pageArm _ _ => true
  | .shadowDiscard _ _ => true
  | .globalCommitGo _ => true
  | .globalCommitArmDistribute _ => true
  | .globalCommitCancel _ => true
  | .lockAcquire _ _ => true
  | .lockRelease _ _ => true
  | .lockBreak _ _ _ => true
  | .pageEnable _ _ _ => true
  | .quiesceRequest _ _ _ => true
  | .quiesceDone _ => true
  | .pageSoftReset _ _ => true
  | .softResetDone _ => true
  | .intForce _ _ _ => true
  | .faultForce _ _ _ => true
  | .mctpRead _ => true
  | .mctpWrite _ env => env.opu.wf
  | .mctpFence _ => true
  | .headGateWrite _ _ => true
  | .crossingDelivery _ _ _ _ => true
  | .watchdogKick _ => true
  | .watchdogConfigWrite _ _ _ => true
  | .watchdogExpiry => true
  | .mgmtRestartRequest _ => true
  | .mgmtCoresResume => true
  | .adminResume => true
  | .linkTrain _ _ a => a.wf
  | .autoRetrain _ a => a.wf
  | .uplinkFrame _ u => u.wf
  | .downlinkFrame _ => true
  | .frameCutoff => true
  | .hkRequest _ _ _ _ _ => true
  | .hkResponse _ _ _ => true
  | .hkTimeout _ => true
  | .dlMarginPoll _ _ => true
  | .opuTempPoll _ _ => true
  | .laserArm _ _ _ => true
  | .presentNRise _ => true
  | .opuRemoved _ => true
  | .presentGlitch _ => true
  | .opuInserted _ => true
  | .beamSegmentField _ _ m => decide (m.bits.length = 136)
  | .slotStart _ _ => true
  | .sectorBoundary _ _ => true
  | .cancellerDeadline _ _ _ _ => true
  | .sectorDecodeDone _ _ ks => ks.toList.all Decode.wf
  | .decodeDeadline _ _ => true
  | .outerRecovery _ _ => true
  | .eqSnap _ _ _ => true
  | .writeWorkItem _ _ w => w.wf
  | .runMissed _ _ => true
  | .sectorPayload _ _ => true
  | .sectorEncodeDone _ _ => true
  | .dataLate _ _ => true
  | .writeSectorEnd _ _ mon => mon.wf
  | .writeStop _ _ _ => true
  | .writeAbort _ _ _ => true
  | .writeLinkingEnd _ _ => true
  | .verifyResult _ _ _ _ _ _ checks => decide (checks.length = 18) && checks.all SectorCheck.wf
  | .secondPassVerify _ => true
  | .verifyTrailOut _ => true
  | .powerTest _ _ e => e.all fun x => decide (x.2.length = 16)
  | .layerOpen _ _ sectors _ => sectors.all MediaSector.wf
  | .fifoMinReset _ _ => true
  | .opRead _ _ => true
  | .opBiquad _ _ => true
  | .opAdd _ _ => true
  | .opSub _ _ => true
  | .opMul _ _ => true
  | .opShift _ _ => true
  | .opLimit _ _ => true
  | .opMinsel _ _ => true
  | .opWrite _ _ => true
  | .opGclose _ _ => true
  | .opMark _ _ => true
  | .opNop _ _ => true
  | .bankCopy _ _ => true
  | .bankCopyDone _ => true
  | .bankValidate _ _ _ => true
  | .bankValidateDone _ => true
  | .engineMemAccess _ _ _ => true
  | .ownershipWrite _ _ _ _ => true
  | .bankSelectWrite _ _ _ => true
  | .traceArm _ _ => true
  | .traceStop _ _ => true
  | .traceForce _ _ => true
  | .traceSample _ => true
  | .traceRead _ _ => true
  | .servoFieldDecode _ _ f => decide (f.bits.length = 136)
  | .srvAcquire _ _ _ => true
  | .srvSeek _ _ _ => true
  | .seekFail _ => true
  | .srvPark _ => true
  | .parkDone _ => true
  | .srvStop _ => true
  | .srvCommandReject _ _ _ _ => true
  | .kappaRefine _ => true
  | .servoFail _ => true
  | .runoutClear _ _ => true
  | .spinStart _ => true
  | .spinBrake _ => true
  | .spinCoast _ => true
  | .spinOff _ => true
  | .spinClear _ => true
  | .spinCommandReject _ _ => true
  | .driverWake _ => true
  | .pwmPeriod _ _ _ _ => true
  | .detectAttempt _ _ => true
  | .rmeasDone _ _ _ => true
  | .alignDone _ => true
  | .breakawayTimeout _ => true
  | .catchTimeout _ => true
  | .startFail _ => true
  | .setpointLost _ => true
  | .backEmfEdge _ _ _ _ => true
  | .spinEdgeTimeout _ => true
  | .drvFault _ _ => true
  | .axisHome _ => true
  | .homeSettle _ => true
  | .axisMove _ => true
  | .axisFollow _ => true
  | .axisStop _ => true
  | .axisHold _ => true
  | .axisRelease _ => true
  | .axisClear _ => true
  | .axisCommandReject _ _ => true
  | .axisFrameUpdate _ => true
  | .chopperPeriod _ _ _ _ => true
  | .holdDelayExpiry _ => true
  | .encoderEdge _ _ _ _ => true
  | .indexEvent _ _ => true
  | .encoderSpeedTimeout _ => true
  | .limitAccept _ _ _ => true
  | .limitChatter _ _ _ => true
  | .limitClear _ _ _ => true
  | .targetLost _ => true
  | .brgFault _ _ => true
  | .calSlot i => [i.spin, i.axis, i.assay].all SlotSums.wf
  | .refOffsetMeasure _ => true
  | .tempConversion _ => true
  | .tempDeadline _ => true
  | .vholdSample _ => true
  | .capTestDue => true
  | .capTestRequest _ => true
  | .capTestEnd => true
  | .writeThroughEnter _ => true
  | .writeThroughLeave _ => true
  | .wtForceWrite _ _ => true
  | .partialRowTimeout _ _ => true
  | .captureCalibration _ _ => true
  | .interpolationCommit _ => true
  | .portEnableCommit _ => true
  | .calibrationItemWrite _ => true
  | .calStoreRequest _ => true
  | .calStore => true
  | .calStoreAbandon => true
  | .hallRestart _ _ => true
  | .hallFeed _ _ _ => true
  | .hallCommitRelease _ => true
  | .hallParity _ => true
  | .faultMessage _ _ => true
  | .faultCapture _ => true
  | .faultWindowStart _ _ => true
  | .alertMinExpiry => true
  | .alertRelease _ => true
  | .quenchHeadRelease _ _ => true
  | .quenchSpinRelease _ _ => true
  | .quenchAxisRelease _ _ => true
  | .recAck _ _ _ => true
  | .recCopied _ _ _ => true
  | .recDataRead _ => true
  | .srcRestore _ _ => true
  | .srcCfgWrite _ _ => true
  | .configParityCheck _ => true
  | .sqDoorbell _ _ _ => true
  | .cqDoorbell _ _ _ => true
  | .commandFetch _ => true
  | .cmdDmaDone _ _ => true
  | .mountTimeout _ => true
  | .ioWrite _ => true
  | .ioRead _ => true
  | .ioFlush _ => true
  | .ioCompare _ => true
  | .ioWriteZeroes _ => true
  | .ioVerify _ => true
  | .zoneAppend _ => true
  | .zoneOpen _ => true
  | .zoneClose _ => true
  | .zoneFinish _ => true
  | .zoneReset _ => true
  | .zoneOfflineAction _ => true
  | .setZoneDescriptorExtension _ => true
  | .reportZones _ => true
  | .unsupportedIoCommand _ => true
  | .createIoSq _ => true
  | .deleteIoSq _ => true
  | .createIoCq _ => true
  | .deleteIoCq _ => true
  | .getLogPage _ => true
  | .identify _ => true
  | .abort _ => true
  | .setFeatures _ _ => true
  | .getFeatures _ => true
  | .asyncEventRequest _ => true
  | .namespaceManagement _ _ => true
  | .namespaceAttachment _ _ => true
  | .firmwareImageDownload _ => true
  | .firmwareCommit _ _ => true
  | .firmwareRevert => true
  | .deviceSelfTest _ => true
  | .keepAlive _ => true
  | .keepAliveExpired _ => true
  | .virtualizationManagement _ => true
  | .nvmeMiSend _ _ => true
  | .nvmeMiReceive _ => true
  | .formatNvm _ _ => true
  | .sanitize _ => true
  | .sanitizeResume => true
  | .libraryGeometryWrite _ _ => true
  | .zoneMigrate _ => true
  | .unsupportedAdminCommand _ => true
  | .controllerEnable _ _ _ _ => true
  | .controllerReset _ => true
  | .functionLevelReset _ => true
  | .controllerShutdown _ _ => true
  | .pcieLinkTraining _ _ => true
  | .pcieLinkDown _ => true
  | .pcieRetrain _ => true
  | .stripeRowReconstruct _ _ _ _ _ _ => true
  | .erasureRetry _ _ _ => true
  | .directoryWrite _ => true
  | .directoryLoad _ _ => true
  | .spindleRequest _ => true
  | .discMount _ _ st => st.wf
  | .discUnmount _ _ _ => true
  | .pickFail => true
  | .pickerRecovery _ => true
  | .memberLost _ _ _ => true
  | .completionStart _ => true
  | .completionRow _ _ _ => true
  | .dikeWalkUnit _ _ _ _ _ _ ws => ws.all fun x => x.check.wf
  | .ingotRepair => true
  | .beamRetire _ _ => true
  | .opuRetired _ => true
  | .surfaceFinalise _ _ _ => true
  | .slotMapAppend _ _ => true
  | .layerClose _ _ => true
  | .burn _ _ _ _ => true
  | .memoryScrubStep _ _ => true
  | .memFlipArm _ _ => true
  | .cacheZeroLine _ => true
  | .cacheCleanLine _ => true
  | .cacheInvalidateLine _ => true
  | .cacheCleanInvalidateLine _ => true
  | .cacheInvAll _ => true
  | .cacheCleanAll _ => true
  | .cacheFlipArm _ _ => true
  | .victimWritebackDone => true
  | .cacheTagLost _ _ => true
  | .daxHello h m => h.wf && decide (m.geometry.length = 8)
  | .daxHeartbeat h _ => h.wf
  | .daxNak h _ => h.wf
  | .daxFrameDrop _ => true
  | .daxResendTimeout _ => true
  | .heartbeatSend => true
  | .heartbeatMiss => true
  | .daxLinkLoss _ => true
  | .mirrorData h _ b => h.wf && b.wf
  | .mirrorAck h _ _ => h.wf
  | .daxRelease h seqs => h.wf && decide (seqs.length ≤ 31)
  | .releaseAck h seqs => h.wf && decide (seqs.length ≤ 31)
  | .recoverReq h _ _ => h.wf
  | .tableUpdate h _ => h.wf
  | .pickReq h _ _ _ _ _ => h.wf
  | .pickDone h _ _ _ _ => h.wf
  | .fwdCmd h _ _ => h.wf
  | .fwdData h _ _ => h.wf
  | .fwdCpl h _ _ => h.wf
  | .leasePoll => true
  | .leaseRenew => true
  | .witnessResponse _ => true
  | .witnessTimeout => true
  | .leasePickerStop => true
  | .leaseLost => true
  | .witnessStatusWrite => true
  | .pickerGateOpen => true
  | .pickerGateClose => true
  | .splitNonholder => true
  | .takeover => true
  | .peerFenceLow _ => true
  | .fenceAssert => true
  | .unfence _ _ => true
  | .pairJoin => true
  | .handback _ => true
  | .wearLevelMove _ after => after.all fun x => decide (x.least ≤ x.mean) && decide (x.mean ≤ x.most)
  | .nandProgramFail _ _ => true
  | .packageHold _ _ => true
  | .packageReplace _ _ _ => true
  | .laserWearRead => true
  | .lifeSumUpdate => true
  | .pllUnlock _ => true
  | .daxLinkTrained _ => true
  | .daxTrainingFail => true
  | .nvmeMiMctpMessage _ _ => true
  | .peerGateWrite _ _ _ => true
  | .focusRecoveryTimeout _ => true
  | .registerRead _ _ _ _ => true

end Sys2Proof
end

