-- ==== Sys2Proof/Tests/Slice0.lean ====
section
/-!
SUPPORT. Tests: a premise of every statement is met by a state of its own, ill-formed commands are refused by WellFormed, and
the spec's worked examples.
-/
namespace Sys2Proof.Tests
open Sys2Proof Sys2Proof.Machine
set_option Elab.async false

/-- The block with every island released, frames running and firmware executing. -/
def up : Chip := { (State.reset.chip.put .clk Reg.CLK.HEAD_GATE_GATE 0).put .clk Reg.CLK.PEER_GATE_GATE 0 with
  isl := { aonUp := true, released := true, hostReleased := true, mgmtReleased := true, mgmtOnce := true }
  pins := { resetNLow := false, perstNLow := false }, framesRunning := true, mgmt := { resumed := true }
  host := { State.reset.chip.host with linkUp := true } }

/-- A block with an empty queue. -/
def st (c : Chip) : State := { chip := c }

/-- Field `f` of page `p` set to `v`, in force and in shadow. -/
def set (c : Chip) (p : Page) (f : Fld) (v : Nat) : Chip := (c.put p f v).putSh p f v

/-- Port 0 with its laser armed and running. -/
def lasing : Chip :=
  let c := (((up.put (.head 0) Reg.HEAD.LASER_CTL_WHY_ABSENT 0).put (.head 0) Reg.HDR.PAGE_CTL_EN 1).put (.head 0) Reg.HEAD.LINK_STAT_STATE 3).put (.head 0) Reg.HEAD.LASER_CTL_ARM 1
  { c with pins := { c.pins with killHigh := 1 } }

/-- The host holds the lock of SYS. -/
def sysLocked : Chip := (up.put .sys Reg.HDR.LOCK_HELD 1).put .sys Reg.HDR.LOCK_OWNER Requester.host.code

/-- The premises of StepTakesTheFrontCommand are met. -/
theorem witness_StepTakesTheFrontCommand :
    (∃ (s : State) (r : Requester), s.pending = [.frameNumRead r]) ∧
    (∃ (s : State), s.pending = []) :=
  ⟨⟨{ chip := up, pending := [.frameNumRead .host] }, .host, by decide +kernel⟩,
   ⟨st up, by decide +kernel⟩⟩

/-- The premises of ResetHoldsTheInterlock are met. -/
theorem witness_ResetHoldsTheInterlock :
    (∃ (p : Page) (f : Fld) (i : Nat), fieldKey p f i ≠ fieldKey .sys Reg.SYS.RESET_CAUSE_POR 0) :=
  ⟨.sys, Reg.SYS.RESET_CTL_KEY, 0, by decide +kernel⟩

/-- The premises of LaserInterlockKept are met. -/
theorem witness_LaserInterlockKept :
    (∃ (s : State) (h : Port), s.chip.Interlocked ∧ (match step s with | .next t => t.chip.killHigh h | _ => false) = true) :=
  ⟨st lasing, 0, by unfold Chip.Interlocked; decide +kernel⟩

/-- The premises of GatedAndLockedPagesDiscardWrites are met. -/
theorem witness_GatedAndLockedPagesDiscardWrites :
    (∃ (s : State) (r : Requester) (p : Page) (a : (BitVec 24)), s.chip.Interlocked ∧ s.chip.hears r = true ∧ a.toNat % 4 = 0 ∧ a.toNat / 4096 = p.num ∧ a.toNat % 4096 ≠ 0x028 ∧ s.chip.pageUp p = true ∧ s.chip.mayWrite r p = false ∧ s.chip.rd p Reg.HDR.PAGE_STAT_STATE ≠ 4 ∧ r ≠ .host) ∧
    (∃ (s : State) (p : Page) (a : (BitVec 24)), s.chip.Interlocked ∧ a.toNat % 4 = 0 ∧ a.toNat / 4096 = p.num ∧ s.chip.Reach p) ∧
    (∃ (s : State) (r : Requester) (a : (BitVec 24)), s.chip.Interlocked ∧ a.toNat / 4096 = Page.sys.num ∧ a.toNat % 4096 = 0x070 ∧ s.chip.Reach .sys ∧ s.chip.mayWrite r .sys = false ∧ (s.chip.rq r).fence.done = true ∧ (s.chip.rq r).gcState ≠ 1 ∧ s.chip.armedPages r = []) ∧
    (∃ (s : State) (p : Page) (r : Requester), s.chip.Interlocked ∧ s.chip.hears r = true ∧ s.chip.pageUp p = false) ∧
    (∃ (s : State) (r : Requester), s.chip.Interlocked ∧ s.chip.hears r = false) :=
  ⟨⟨st sysLocked, .mgmt, .sys, 0x10010, by unfold Chip.Interlocked; decide +kernel⟩,
   ⟨st up, .hall 112, 0x270FFC, by unfold Chip.Reach Chip.Interlocked; decide +kernel⟩,
   ⟨st sysLocked, .i3c, 0x10070, by unfold Chip.Reach Chip.Interlocked; decide +kernel⟩,
   ⟨State.reset, .beam 15 4, .i3c, by unfold Chip.Interlocked; decide +kernel⟩,
   ⟨State.reset, .host, by unfold Chip.Interlocked; decide +kernel⟩⟩

/-- Start-up done up to phase `n`, with a mounted store. -/
def phase (n : Nat) : Chip :=
  let c := up.put .sys Reg.SYS.BOOT_STAT_PHASE n
  { c with rs := { c.rs with mounted := true, slotA := ⟨1, true, 7⟩, calA := some ⟨1, 5, [], []⟩, calB := some ⟨2, 6, [], []⟩ } }

/-- The premises of FullResetsLeaveResetState are met. -/
theorem witness_FullResetsLeaveResetState :
    (∃ (s : State) (r : Requester), s.chip.Interlocked ∧ s.chip.isl.aonUp = true ∧ s.chip.Writable r .sys) ∧
    (∃ (s : State), s.chip.Interlocked ∧ s.chip.rd .sys Reg.SYS.BOOT_STAT_PHASE = 12) :=
  ⟨⟨st up, .i3c, by unfold Chip.Writable Chip.Reach Chip.Interlocked; decide +kernel⟩,
   ⟨st (up.put .sys Reg.SYS.BOOT_STAT_PHASE 12), by unfold Chip.Interlocked; decide +kernel⟩⟩

/-- The premises of HostSideResetsLeaveTheRest are met. -/
theorem witness_HostSideResetsLeaveTheRest :
    (∃ (s : State), s.chip.Interlocked ∧ s.chip.isl.hostReleased = true ∧ s.chip.host.linkUp = true) :=
  ⟨st { up with rqHost := {} }, by unfold Chip.Interlocked; decide +kernel⟩

/-- The premises of PowerLossFlushesAndHolds are met. -/
theorem witness_PowerLossFlushesAndHolds :
    (∃ (s : State), s.chip.Interlocked ∧ s.chip.isl.aonUp = true ∧ s.chip.rd .sys Reg.SYS.BOOT_STAT_PHASE ≠ 12) :=
  ⟨st up, by unfold Chip.Interlocked; decide +kernel⟩

/-- The premises of StartUpReleasesTheIslands are met. -/
theorem witness_StartUpReleasesTheIslands :
    (∃ (s : State) (b : BootIn), s.chip.Interlocked ∧ s.chip.isl.aonUp = false ∧ b.coreLow = false ∧ b.aonLow = false ∧ b.pgLow = false ∧ 450 ≤ b.rextMv ∧ b.rextMv ≤ 550 ∧ b.pllOk = true ∧ b.hbmOk = true ∧ (s.chip.rs.slotA.ok || s.chip.rs.slotB.ok) = true) ∧
    (∃ (s : State) (r : Requester), s.chip.Interlocked ∧ s.chip.Writable r .clk ∧ s.chip.commits = [] ∧ (∀ h : Port, s.chip.rd (.head h) Reg.HDR.PAGE_STAT_STATE = 0)) ∧
    (∃ (s : State) (i : Island), s.chip.Interlocked ∧ s.chip.islandUp i = true) :=
  ⟨⟨st { State.reset.chip with rs := { State.reset.chip.rs with slotA := ⟨1, true, 7⟩ } }, { rextMv := 500, pllOk := true, hbmOk := true, retainBad := false, xtsOk := true }, by unfold Chip.Interlocked; decide +kernel⟩,
   ⟨st up, .host, by unfold Chip.Writable Chip.Reach Chip.Interlocked; decide +kernel⟩,
   ⟨st up, .peer, by unfold Chip.Interlocked; decide +kernel⟩⟩

/-- The premises of StartUpPhasesOfFirmware are met. -/
theorem witness_StartUpPhasesOfFirmware :
    (∃ (s : State), s.chip.Interlocked ∧ s.chip.inPhase 5 = true) ∧
    (∃ (s : State), s.chip.Interlocked ∧ s.chip.inPhase 6 = true ∧ s.chip.rs.mounted = true) ∧
    (∃ (s : State) (a : CalCopy) (b : CalCopy), s.chip.Interlocked ∧ s.chip.inPhase 7 = true ∧ s.chip.rs.mounted = true ∧ s.chip.rs.calA = some a ∧ s.chip.rs.calB = some b) ∧
    (∃ (s : State), s.chip.Interlocked ∧ s.chip.inPhase 8 = true ∧ s.chip.rs.mounted = true ∧ s.chip.rs.formats = []) ∧
    (∃ (s : State), s.chip.Interlocked ∧ s.chip.inPhase 9 = true ∧ s.chip.rs.mounted = true ∧ s.chip.linkUp = false ∧ (∀ w ∈ s.chip.rs.recover, w.flush = none)) ∧
    (∃ (s : State), s.chip.Interlocked ∧ s.chip.inPhase 9 = true ∧ s.chip.rs.mounted = true ∧ s.chip.rs.asked = true) ∧
    (∃ (s : State) (k : (Fin 2)), s.chip.Interlocked ∧ s.chip.rd .sys Reg.SYS.BOOT_STAT_READY ≠ 0 ∧ (s.chip.pkg k).mounted = true ∧ (s.chip.pkg k).current = false ∧ s.chip.nandTurn k 5 = true) ∧
    (∃ (s : State) (i : (Fin 1024)) (x : FaultRec), s.chip.Interlocked ∧ assocGet i.val s.chip.col.recs = some x ∧ s.chip.mgmt.resumed = true ∧ s.chip.rs.mounted = true ∧ x.copied = false ∧ (∀ k : Fin 2, (s.chip.pkg k).mounted = true → s.chip.nandTurn k 6 = true)) :=
  ⟨⟨st (phase 4), by unfold Chip.Interlocked; decide +kernel⟩,
   ⟨st (phase 5), by unfold Chip.Interlocked; decide +kernel⟩,
   ⟨st (phase 6), ⟨1, 5, [], []⟩, ⟨2, 6, [], []⟩, by unfold Chip.Interlocked; decide +kernel⟩,
   ⟨st (phase 7), by unfold Chip.Interlocked; decide +kernel⟩,
   ⟨st (phase 8), by unfold Chip.Interlocked; decide +kernel⟩,
   ⟨st { phase 9 with rs := { (phase 9).rs with asked := true } }, by unfold Chip.Interlocked; decide +kernel⟩,
   ⟨st (let c := (phase 10).put .sys Reg.SYS.BOOT_STAT_READY 1; { c with rs := { c.rs with pkg1 := { c.rs.pkg1 with mounted := true, current := false } } }), 1, by unfold Chip.Interlocked; decide +kernel⟩,
   ⟨st { phase 10 with col := { (phase 10).col with recs := [(1023, ⟨5, 1, 1, 0, 2, false, false, false, false, false, false, 0, 0, 1, 0, 0, 0, 0, 0, false⟩)] } }, 1023, ⟨5, 1, 1, 0, 2, false, false, false, false, false, false, 0, 0, 1, 0, 0, 0, 0, 0, false⟩, by unfold Chip.Interlocked; decide +kernel⟩⟩

/-- A block whose SLUICE page the host has armed, with TARGET `t`. -/
def armed (t : Nat) : Chip :=
  let c := (up.put .sluice Reg.HDR.SHADOW_CTL_ARMED 1).put .sluice Reg.HDR.SHADOW_CTL_ARM_OWNER Requester.host.code
  { c with rqHost := { target := t } }

/-- The premises of FencesStartAndEnd are met. -/
theorem witness_FencesStartAndEnd :
    (∃ (s : State) (r : Requester), s.chip.Interlocked ∧ s.chip.rd .sys Reg.HDR.PAGE_STAT_STATE ≠ 4 ∧ (s.chip.rq r).fence.done = true) ∧
    (∃ (s : State) (r : Requester), s.chip.Interlocked ∧ s.chip.rd .sys Reg.HDR.PAGE_STAT_STATE ≠ 4 ∧ (s.chip.rq r).fence.done = false ∧ (s.chip.rq r).fence.ahead = 0 ∧ s.chip.now ≤ (s.chip.rq r).fence.since + 10000) :=
  ⟨⟨st up, .i3c, by unfold Chip.Interlocked; decide +kernel⟩,
   ⟨st { up with tb := 10000, rqMgmt := { fence := { done := false } } }, .mgmt, by unfold Chip.Interlocked; decide +kernel⟩⟩

/-- The premises of LocksAreTakenFreedAndBroken are met. -/
theorem witness_LocksAreTakenFreedAndBroken :
    (∃ (s : State) (p : Page) (r : Requester), s.chip.Interlocked ∧ s.chip.hears r = true ∧ s.chip.Reach p ∧ s.chip.rd p Reg.HDR.LOCK_HELD = 0) ∧
    (∃ (s : State) (r : Requester) (p : Page), s.chip.Interlocked ∧ s.chip.Reach p ∧ s.chip.rd p Reg.HDR.LOCK_HELD ≠ 0 ∧ s.chip.rd p Reg.HDR.LOCK_OWNER = r.code) ∧
    (∃ (s : State) (r : Requester) (p : Page), s.chip.Interlocked ∧ s.chip.Reach p ∧ s.chip.rd p Reg.HDR.LOCK_OWNER ≠ r.code ∧ r ≠ .host) :=
  ⟨⟨st up, .hall 0, .host, by unfold Chip.Reach Chip.Interlocked; decide +kernel⟩,
   ⟨st sysLocked, .host, .sys, by unfold Chip.Reach Chip.Interlocked; decide +kernel⟩,
   ⟨st sysLocked, .i3c, .sys, by unfold Chip.Reach Chip.Interlocked; decide +kernel⟩⟩

/-- The premises of PagesAreArmedDiscardedAndForced are met. -/
theorem witness_PagesAreArmedDiscardedAndForced :
    (∃ (s : State) (r : Requester) (p : Page), s.chip.Interlocked ∧ s.chip.Writable r p ∧ s.chip.frozen p = false ∧ s.chip.rd p Reg.HDR.SHADOW_CTL_ARMED = 0 ∧ s.chip.bankBad p = false) :=
  ⟨st up, .host, .loop 3, by unfold Chip.Writable Chip.Reach Chip.Interlocked; decide +kernel⟩

/-- The premises of GlobalCommitsAreSubmittedAndCancelled are met. -/
theorem witness_GlobalCommitsAreSubmittedAndCancelled :
    (∃ (s : State) (r : Requester), s.chip.Interlocked ∧ s.chip.hears r = true ∧ s.chip.rd .sys Reg.HDR.PAGE_STAT_STATE ≠ 4 ∧ (s.chip.rq r).gcState ≠ 1 ∧ s.chip.armedPages r ≠ [] ∧ (∀ p ∈ s.chip.armedPages r, s.chip.pageUp p = true) ∧ s.chip.framesRunning = true ∧ 4 ≤ s.chip.lead (s.chip.rq r).target ∧ s.chip.lead (s.chip.rq r).target ≤ 400000) ∧
    (∃ (s : State) (r : Requester), (s.chip.rq r).gcState ≠ 1 ∧ s.chip.armedPages r ≠ [] ∧ 4 ≤ s.chip.lead (s.chip.rq r).target ∧ s.chip.lead (s.chip.rq r).target ≤ 400000) ∧
    (∃ (s : State) (r : Requester), s.chip.Interlocked ∧ s.chip.rd .sys Reg.HDR.PAGE_STAT_STATE ≠ 4 ∧ (s.chip.rq r).gcState = 1 ∧ s.chip.now + 500 ≤ s.chip.frameStart + 250 * s.chip.lead (s.chip.rq r).gcFrame) :=
  ⟨⟨st (armed 4), .host, by unfold Chip.Interlocked; decide +kernel⟩,
   ⟨st (armed 400000), .host, by decide +kernel⟩,
   ⟨st { up with tb := 500, rqI3c := { gcState := 1, gcFrame := 4 } }, .i3c, by unfold Chip.Interlocked; decide +kernel⟩⟩

/-- State `n` of page `p`'s PAGE_STAT. -/
def pst (p : Page) (n : Nat) : State := st ((up.put p Reg.HDR.PAGE_CTL_EN 1).put p Reg.HDR.PAGE_STAT_STATE n)

/-- The premises of LocalCommitsWaitOrApply are met. -/
theorem witness_LocalCommitsWaitOrApply :
    (∃ (s : State) (r : Requester) (p : Page), s.chip.Interlocked ∧ s.chip.Writable r p ∧ s.chip.frozen p = false ∧ s.chip.rd p Reg.HDR.SHADOW_CTL_ARMED = 0 ∧ s.chip.bankBad p = false ∧ p ∈ [Page.assay, .host, .cmd, .mem, .cache, .sluice, .polder, .inv, .rstore, .peer]) ∧
    (∃ (s : State) (r : Requester) (p : Page), s.chip.Interlocked ∧ s.chip.Writable r p ∧ s.chip.frozen p = false ∧ s.chip.bankBad p = false ∧ s.chip.rd p Reg.HDR.SHADOW_CTL_ARMED ≠ 0) :=
  ⟨⟨st up, .host, .peer, by unfold Chip.Writable Chip.Reach Chip.Interlocked; decide +kernel⟩,
   ⟨st (armed 4), .mgmt, .sluice, by unfold Chip.Writable Chip.Reach Chip.Interlocked; decide +kernel⟩⟩

/-- The premises of BlocksAreEnabledQuiescedAndReset are met. -/
theorem witness_BlocksAreEnabledQuiescedAndReset :
    (∃ (s : State) (r : Requester) (p : Page) (en : Bool), s.chip.Interlocked ∧ s.chip.Writable r p ∧ s.chip.enabled p = !en ∧ p ∈ [Page.sys, .clk, .fault, .assay, .host, .cmd, .mem, .cache, .sluice, .polder, .inv, .rstore]) ∧
    (∃ (s : State) (r : Requester) (h : Port), s.chip.Interlocked ∧ s.chip.Writable r (.head h) ∧ s.chip.enabled (.head h) = true) ∧
    (∃ (s : State) (r : Requester) (p : Page), s.chip.Interlocked ∧ s.chip.Writable r p ∧ (∀ h, p ≠ .head h) ∧ (∀ h b, p ≠ .beam h b) ∧ s.chip.rd p Reg.HDR.PAGE_STAT_STATE = 1) ∧
    (∃ (s : State) (p : Page), s.chip.Interlocked ∧ s.chip.rd p Reg.HDR.PAGE_STAT_STATE = 2 ∧ s.chip.workDone p = true) ∧
    (∃ (s : State) (r : Requester) (p : Page), s.chip.Interlocked ∧ (p = .mem ∨ p = .polder ∨ p = .inv) ∧ s.chip.Writable r p ∧ s.chip.rd p Reg.HDR.PAGE_STAT_STATE = 3) ∧
    (∃ (s : State) (p : Page), s.chip.Interlocked ∧ s.chip.rd p Reg.HDR.PAGE_STAT_STATE = 4) :=
  ⟨⟨st (up.put .rstore Reg.HDR.PAGE_CTL_EN 0), .mgmt, .rstore, true, by unfold Chip.Writable Chip.Reach Chip.Interlocked; decide +kernel⟩,
   ⟨st lasing, .host, 0, by unfold Chip.Writable Chip.Reach Chip.Interlocked; decide +kernel⟩,
   ⟨pst (.axis 21) 1, .host, .axis 21, by unfold Chip.Writable Chip.Reach Chip.Interlocked; decide +kernel⟩,
   ⟨pst .mem 2, .mem, by unfold Chip.Interlocked; decide +kernel⟩,
   ⟨pst .inv 3, .i3c, .inv, by unfold Chip.Writable Chip.Reach Chip.Interlocked; decide +kernel⟩,
   ⟨pst .polder 4, .polder, by unfold Chip.Interlocked; decide +kernel⟩⟩

/-- The premises of FirmwareIsRestartedAndResumes are met. -/
theorem witness_FirmwareIsRestartedAndResumes :
    (∃ (s : State) (r : Requester), s.chip.Interlocked ∧ s.chip.Writable r .sys ∧ s.chip.isl.mgmtOnce = true ∧ s.chip.isl.mgmtReleased = true ∧ s.chip.rd .sys Reg.SYS.WDOG_CTL_EN ≠ 0) ∧
    (∃ (s : State), s.chip.rd .sys Reg.SYS.WDOG_CTL_EN = 0) ∧
    (∃ (s : State) (t : Nat), s.chip.Interlocked ∧ s.chip.mgmt.wdogStart = some t) ∧
    (∃ (s : State), s.chip.Interlocked ∧ s.chip.mgmt.restarting = true ∧ s.chip.isl.mgmtReleased = true) ∧
    (∃ (s : State), s.chip.Interlocked ∧ s.chip.isl.mgmtReleased = true ∧ s.chip.mgmt.restarting = false ∧ s.chip.mgmt.resumed = false ∧ s.chip.host.activation = none) :=
  ⟨⟨st (up.put .sys Reg.SYS.WDOG_CTL_EN 1), .host, by unfold Chip.Writable Chip.Reach Chip.Interlocked; decide +kernel⟩,
   ⟨st (up.put .sys Reg.SYS.WDOG_CTL_EN 0), by decide +kernel⟩,
   ⟨st { up with mgmt := { wdogStart := some 9 } }, 9, by unfold Chip.Interlocked; decide +kernel⟩,
   ⟨st { up with mgmt := { restarting := true } }, by unfold Chip.Interlocked; decide +kernel⟩,
   ⟨st { up with mgmt := {} }, by unfold Chip.Interlocked; decide +kernel⟩⟩

/-- The premises of RegisterWritesSetTheirFields are met. -/
theorem witness_RegisterWritesSetTheirFields :
    (∃ (s : State) (r : Requester) (p : Page) (k : (Fin 1024)) (a : (BitVec 24)), s.chip.Interlocked ∧ (p = .cmd ∨ p = .polder ∨ ∃ m, p = .spin m) ∧ 16 ≤ k.val ∧ a.toNat = p.num * 4096 + 4 * k.val ∧ s.chip.Writable r p ∧ s.chip.frozen p = false ∧ s.chip.hears r = true) ∧
    (∃ (s : State) (m : McMsg) (w : Word), s.chip.Interlocked ∧ s.chip.isl.aonUp = true ∧ s.chip.mgmt.mctpBusy = false ∧ m.typ = 0x7E ∧ m.vendor = 0x1F48 ∧ m.check = true ∧ m.body.length = 10 ∧ mcOpcode m = 2 ∧ mcCount m = 1 ∧ mcPage m < 0x1000 ∧ mcOffset m % 4 = 0 ∧ mcOffset m < 4096 ∧ mcWords m = [w]) ∧
    (∃ (r : Requester) (a : (BitVec 24)), a.toNat % 4 = 0 ∧ Page.ofNum (a.toNat / 4096) = none ∧ (0x4000 ≤ a.toNat ∨ r ≠ .host)) ∧
    (∃ (r : Requester) (a : (BitVec 24)), a.toNat % 4 = 0 ∧ Page.ofNum (a.toNat / 4096) = none ∧ (0x4000 ≤ a.toNat ∨ r ≠ .host)) ∧
    (∃ (a : (BitVec 24)), a.toNat % 4 ≠ 0) :=
  ⟨⟨st up, .host, .spin 7, 16, 0x37040, by unfold Chip.Writable Chip.Reach Chip.Interlocked; decide +kernel⟩,
   ⟨st up, ⟨0x7E, 0x1F48, true, [2, 1, 0x37, 0, 0x40, 0, 1, 0, 0, 0]⟩, 1, by unfold Chip.Interlocked; decide +kernel⟩,
   ⟨.i3c, 0x3FFC, by decide +kernel⟩,
   ⟨.host, 0x4000, by decide +kernel⟩,
   ⟨0xFFFFFF, by decide +kernel⟩⟩

/-- The premises of RegisterReadsAnswerTheirFields are met. -/
theorem witness_RegisterReadsAnswerTheirFields :
    (∃ (s : State) (p : Page) (k : (Fin 1024)) (a : (BitVec 24)), s.chip.Interlocked ∧ (p = .cmd ∨ p = .sluice ∨ p = .mem ∨ ∃ m, p = .spin m) ∧ 16 ≤ k.val ∧ a.toNat = p.num * 4096 + 4 * k.val ∧ s.chip.Reach p) ∧
    (∃ (s : State) (m : McMsg) (p : Page), s.chip.Interlocked ∧ s.chip.isl.aonUp = true ∧ s.chip.mgmt.mctpBusy = false ∧ m.typ = 0x7E ∧ m.vendor = 0x1F48 ∧ m.check = true ∧ m.body.length = 6 ∧ mcOpcode m = 1 ∧ mcCount m = 1 ∧ mcPage m = p.num ∧ mcOffset m % 4 = 0 ∧ mcOffset m < 4096 ∧ s.chip.Reach p) ∧
    (∃ (s : State) (p : Page) (a : (BitVec 24)), s.chip.Interlocked ∧ a.toNat % 4 = 0 ∧ a.toNat / 4096 = p.num ∧ s.chip.pageUp p = false) :=
  ⟨⟨st up, .mem, 1023, 0x16FFC, by unfold Chip.Reach Chip.Interlocked; decide +kernel⟩,
   ⟨st up, ⟨0x7E, 0x1F48, true, [1, 1, 0x16, 0, 0xFC, 0x0F]⟩, .mem, by unfold Chip.Reach Chip.Interlocked; decide +kernel⟩,
   ⟨State.reset, .cmd, 0x15000, by unfold Chip.Interlocked; decide +kernel⟩⟩

/-- The premises of MctpRequestsAreServed are met. -/
theorem witness_MctpRequestsAreServed :
    (∃ (s : State) (m : McMsg) (p : Page), s.chip.Interlocked ∧ s.chip.isl.aonUp = true ∧ s.chip.mgmt.mctpBusy = false ∧ m.typ = 0x7E ∧ m.vendor = 0x1F48 ∧ m.check = true ∧ mcOpcode m = 1 ∧ 1 ≤ mcCount m ∧ mcCount m ≤ 16 ∧ mcPage m < 0x1000 ∧ mcOffset m % 4 = 0 ∧ mcOffset m + 4 * mcCount m ≤ 4096 ∧ m.body.length = 6 ∧ mcPage m = p.num ∧ s.chip.pageUp p = true) ∧
    (∃ (m : McMsg), mcOpcode m = 2 ∧ mcCount m = 1 ∧ m.body.length = 6 + 4 * mcCount m) ∧
    (∃ (s : State) (m : McMsg), mcOpcode m = 3 ∧ mcCount m < 4 ∧ m.body.length = 2 ∧ s.chip.rqI3c.fence.done = true) ∧
    (∃ (s : State) (m : McMsg), s.chip.Interlocked ∧ s.chip.isl.aonUp = true ∧ s.chip.mgmt.mctpBusy = true ∧ m.typ = 0x7E ∧ m.vendor = 0x1F48 ∧ mcOpcode m = 1) :=
  ⟨⟨st up, ⟨0x7E, 0x1F48, true, [1, 16, 0x05, 0x02, 0xC0, 0x0F]⟩, .hall 5, by unfold Chip.Interlocked; decide +kernel⟩,
   ⟨⟨0x7E, 0x1F48, true, [2, 1, 0x16, 0, 0, 0, 1, 2, 3, 4]⟩, by decide +kernel⟩,
   ⟨st up, ⟨0x7E, 0x1F48, true, [3, 3]⟩, by decide +kernel⟩,
   ⟨st { up with mgmt := { mctpBusy := true } }, ⟨0x7E, 0x1F48, true, [1, 1, 0x10, 0, 0, 0]⟩, by unfold Chip.Interlocked; decide +kernel⟩⟩

/-- A message of source `src`, and a capture of it. -/
def msg (src : Nat) : Msg := ⟨src, 1, 0, 0, 0⟩
def cap (src : Nat) : Capture := ⟨msg src, 0, 1, false, false, 0, false, false⟩
/-- An open record of the source 5. -/
def rec5 : FaultRec := { src := 5, kindFirst := 1, kindLast := 1, hint := 0, cls := 1 }
/-- A block with one message in X16; with a capture and an open record of source 5 in slot `i`. -/
def sent (m : Msg) : State := st { up with x16 := [m] }
def caught (i : Nat) (src : Nat) : State := st { up with col := { recs := [(i, rec5)], queue := [cap src] } }

/-- The premises of FaultMessagesAreClassified are met. -/
theorem witness_FaultMessagesAreClassified :
    (∃ (s : State) (m : Msg) (rest : (List Msg)), s.chip.Interlocked ∧ s.chip.x16 = m :: rest ∧ srcPage m.src ≠ none ∧ s.chip.col.queue.length < 4096 ∧ (let cfg := s.chip.col.cfgOf m.src; let k := s.chip.col.cntOf m.src; let t := (s.chip.enterPort m.src).now; let a := min 255 ((if k.aIx = t / cfg.ticks then k.a else 0) + 1); let b := min 255 ((if k.bIx = (t + cfg.ticks / 2) / cfg.ticks then k.b else 0) + 1); let up := decide (max 1 cfg.n ≤ a ∨ max 1 cfg.n ≤ b); let base := if up then max cfg.base cfg.esc else cfg.base; let cls := if cfg.hintEn then max base m.hint else base; let react := cfg.react / 2 ^ (8 * cls) % 256; react.testBit 1 = false ∧ react.testBit 2 = false ∧ react.testBit 3 = false ∧ cls < 3)) ∧
    (∃ (src : (Fin 1024)), srcPage src.val ≠ none) ∧
    (∃ (s : State) (i : Nat) (m : Msg), s.chip.Interlocked ∧ s.chip.x16[i]? = some m ∧ (∃ x ∈ s.chip.x16.take i, sameSender x.src m.src = true)) :=
  ⟨⟨sent (msg 0), msg 0, [], by unfold Chip.Interlocked; decide +kernel⟩,
   ⟨0, by decide +kernel⟩,
   ⟨st { up with x16 := [msg 1, msg 2] }, 1, msg 2, by unfold Chip.Interlocked; decide +kernel⟩⟩

/-- The premises of QuenchReachesTheLasers are met. -/
theorem witness_QuenchReachesTheLasers :
    (∃ (s : State) (m : Msg) (rest : (List Msg)) (p : Page) (n : Nat) (h : Port), s.chip.Interlocked ∧ s.chip.x16 = m :: rest ∧ srcPage m.src = some (p, n) ∧ (let cfg := s.chip.col.cfgOf m.src; let k := (s.chip.col.cntOf m.src).arrive cfg (s.chip.enterPort m.src).now; (cfg.reaction (classify cfg k m.hint).1).testBit 1 = true ∧ (scopeUnits p cfg.scope).ports.testBit h.val = true)) :=
  ⟨sent { msg 3 with hint := 3 }, { msg 3 with hint := 3 }, [], .sys, 3, 15, by unfold Chip.Interlocked; decide +kernel⟩

/-- The premises of QuenchLinesHoldUntilReleased are met. -/
theorem witness_QuenchLinesHoldUntilReleased :
    (∃ (s : State) (r : Requester), s.chip.Interlocked ∧ s.chip.Writable r .fault ∧ s.chip.pins.alertLow = true ∧ s.chip.col.alertAt + 2000 ≤ s.chip.now ∧ (s.chip.rd .fault Reg.FAULT.ALERT_CTL_HOLD = 0 ∨ s.chip.col.alertRel = true)) ∧
    (∃ (s : State) (r : Requester), s.chip.Interlocked ∧ s.chip.Writable r .fault ∧ s.chip.pins.alertLow = true ∧ s.chip.now < s.chip.col.alertAt + 2000 ∧ s.chip.rd .fault Reg.FAULT.ALERT_CTL_HOLD ≠ 0 ∧ s.chip.col.alertRel = false) ∧
    (∃ (s : State) (r : Requester), s.chip.Interlocked ∧ s.chip.Writable r .fault ∧ s.chip.pins.alertLow = false) :=
  ⟨⟨st { up with tb := 2000, pins := { up.pins with alertLow := true } }, .host, by unfold Chip.Writable Chip.Reach Chip.Interlocked; decide +kernel⟩,
   ⟨st { up.put .fault Reg.FAULT.ALERT_CTL_HOLD 1 with tb := 1999, pins := { up.pins with alertLow := true } }, .host, by unfold Chip.Writable Chip.Reach Chip.Interlocked; decide +kernel⟩,
   ⟨st up, .mgmt, by unfold Chip.Writable Chip.Reach Chip.Interlocked; decide +kernel⟩⟩

/-- The premises of FaultRecordsAreKept are met. -/
theorem witness_FaultRecordsAreKept :
    (∃ (s : State) (q : Capture) (rest : (List Capture)) (i : Nat) (x : FaultRec), s.chip.Interlocked ∧ s.chip.col.queue = q :: rest ∧ s.chip.col.openRec q.msg.src = some (i, x)) ∧
    (∃ (s : State) (q : Capture) (rest : (List Capture)) (i : Nat), s.chip.Interlocked ∧ s.chip.col.queue = q :: rest ∧ s.chip.col.openRec q.msg.src = none ∧ s.chip.col.freeSlot = some i) ∧
    (∃ (s : State) (r : Requester) (i : (Fin 1024)) (n : (BitVec 14)) (x : FaultRec), s.chip.Interlocked ∧ s.chip.Writable r .fault ∧ assocGet i.val s.chip.col.recs = some x ∧ x.acked = false ∧ x.count = n.toNat ∧ (∀ q ∈ s.chip.arrivedNow, q.msg.src ≠ x.src)) ∧
    (∃ (s : State) (r : Requester) (i : (Fin 1024)) (_n : (BitVec 14)), s.chip.Interlocked ∧ s.chip.Writable r .fault ∧ assocGet i.val s.chip.col.recs = none) ∧
    (∃ (s : State) (x : FaultRec) (r : Requester), s.chip.Interlocked ∧ s.chip.hears r = true ∧ s.chip.rd .fault Reg.HDR.PAGE_STAT_STATE ≠ 4 ∧ assocGet (s.chip.rd .fault Reg.FAULT.REC_SEL_INDEX) s.chip.col.recs = some x) :=
  ⟨⟨caught 7 5, cap 5, [], 7, rec5, by unfold Chip.Interlocked; decide +kernel⟩,
   ⟨caught 0 6, cap 6, [], 1, by unfold Chip.Interlocked; decide +kernel⟩,
   ⟨st { up with tb := 1, col := { recs := [(1023, rec5)], queue := [cap 5] } }, .host, 1023, 1, rec5, by unfold Chip.Writable Chip.Reach Chip.Interlocked; decide +kernel⟩,
   ⟨st up, .host, 0, 1, by unfold Chip.Writable Chip.Reach Chip.Interlocked; decide +kernel⟩,
   ⟨caught 0 5, rec5, .host, by unfold Chip.Interlocked; decide +kernel⟩⟩

/-- The premises of FaultSourcesAreConfigured are met. -/
theorem witness_FaultSourcesAreConfigured :
    (∃ (s : State) (r : Requester), s.chip.Interlocked ∧ s.chip.Writable r .fault ∧ srcPage (s.chip.rd .fault Reg.FAULT.SRC_SEL_SOURCE) ≠ none) ∧
    (∃ (s : State) (r : Requester), s.chip.Interlocked ∧ s.chip.Writable r .fault ∧ srcPage (s.chip.rd .fault Reg.FAULT.SRC_SEL_SOURCE) = none) :=
  ⟨⟨st up, .host, by unfold Chip.Writable Chip.Reach Chip.Interlocked; decide +kernel⟩,
   ⟨st (up.put .fault Reg.FAULT.SRC_SEL_SOURCE 1023), .host, by unfold Chip.Writable Chip.Reach Chip.Interlocked; decide +kernel⟩⟩

/-- Port 0 with its page enabled and the OPU present, owned by the running engine 0. -/
def driven : Chip :=
  let c := (up.put (.loop 0) Reg.HDR.PAGE_CTL_EN 1).put (.loop 0) Reg.HDR.PAGE_STAT_STATE 1
  let c := (c.put (.loop 0) Reg.LOOP.OWN_HEAD_HEADS 1).put (.head 0) Reg.HDR.PAGE_CTL_EN 1
  let c := (c.put (.head 0) Reg.HEAD.LINK_STAT_PRESENT 1).put (.head 0) Reg.HEAD.LASER_CTL_WHY_ABSENT 0
  { c with pins := { c.pins with presentLow := 1 } }
/-- LINK_STAT.STATE of port 0 set to `n`. -/
def link (n : Nat) : Chip := driven.put (.head 0) Reg.HEAD.LINK_STAT_STATE n
/-- An answer of the OPU that completes training. -/
def ans : OpuAnswer := { failStep := 0, hkOk := true, opuId := 1, caps := 0x1F, txLat := 100, dlMargin := 9, ulMargin := 9 }
/-- Port 0 with latencies that fit, DEVCLK running since `t` and LINK_STAT.STATE `n`. -/
def ready (n : Nat) : Chip :=
  let c := ((link n).put (.head 0) Reg.HEAD.LINK_CFG_UL_DELAY 266).put (.head 0) Reg.HEAD.LINK_CFG_L_DL 436
  let c := (c.put (.head 0) Reg.HEAD.LINK_CFG_DL_RELEASE 0).put (.head 0) Reg.HEAD.LINK_CTL_AUTO_RETRAIN 1
  { c.modHd 0 fun x => { x with clkSince := some 0 } with tb := 100000 }

/-- The premises of LinksTrainOrFail are met. -/
theorem witness_LinksTrainOrFail :
    (∃ (s : State) (r : Requester) (h : Port) (a : OpuAnswer), s.chip.Interlocked ∧ s.chip.Writable r (.head h) ∧ s.chip.linkState h ≠ 5 ∧ a.reach ≠ 1 ∧ a.reach ≠ 2 ∧ (∃ t, (s.chip.hd h).clkSince = some t ∧ t + 100000 ≤ s.chip.now + 1000000 ∧ t + 100000 < 2 ^ 64) ∧ (let p : Page := .head h; let rate := s.chip.rd p Reg.HEAD.LINK_CTL_RATE; decide (a.failStep = 0) && decide (rate < 5) && bit a.caps.toNat rate && a.hkOk && decide (a.txLat + 166 ≤ s.chip.rd p Reg.HEAD.LINK_CFG_UL_DELAY) && decide (s.chip.rd p Reg.HEAD.LINK_CFG_DL_RELEASE ≤ s.chip.rd p Reg.HEAD.LINK_CFG_L_DL) && decide (s.chip.rd p Reg.HEAD.LINK_CFG_L_DL - s.chip.rd p Reg.HEAD.LINK_CFG_DL_RELEASE ≤ 436)) = true) ∧
    (∃ (s : State) (r : Requester) (h : Port), s.chip.Interlocked ∧ s.chip.Writable r (.head h) ∧ s.chip.linkState h ≠ 5 ∧ (s.chip.hd h).clkSince = none) ∧
    (∃ (s : State) (h : Port) (a : OpuAnswer), s.chip.Interlocked ∧ s.chip.pageUp (.head h) = true ∧ s.chip.linkState h = 4 ∧ s.chip.rd (.head h) Reg.HEAD.LINK_CTL_AUTO_RETRAIN ≠ 0 ∧ (s.chip.hd h).tries < 3 ∧ (s.chip.hd h).trainWait = false ∧ (s.chip.hd h).lostAt + 100000 < 2 ^ 64 ∧ (s.chip.hd h).clkSince = some 0 ∧ a.failStep ≤ 8) :=
  ⟨⟨st (ready 0), .host, 0, ans, by unfold Chip.Writable Chip.Reach Chip.Interlocked; refine ⟨by decide +kernel, by decide +kernel, by decide +kernel, by decide +kernel, by decide +kernel, ⟨0, by decide +kernel⟩, by decide +kernel⟩⟩,
   ⟨st (link 0), .i3c, 0, by unfold Chip.Writable Chip.Reach Chip.Interlocked; decide +kernel⟩,
   ⟨st ((ready 4).modHd 0 fun x => { x with tries := 2 }), 0, { ans with failStep := 8 }, by unfold Chip.Interlocked; decide +kernel⟩⟩

/-- The premises of UplinkFramesAreChecked are met. -/
theorem witness_UplinkFramesAreChecked :
    (∃ (s : State) (h : Port) (u : Uplink), s.chip.Interlocked ∧ s.chip.pageUp (.head h) = true ∧ s.chip.linkState h = 3 ∧ (u.locked && u.complete && decide (leBytes (octets u.lane0 0 2) = (s.chip.hd h).ulNext % 65536) && decide (leBytes (octets u.lane1 0 2) = (s.chip.hd h).ulNext % 65536) && (bit (leBytes (octets u.lane0 2 1)) 6 || s.chip.linkState h == 2)) = true) ∧
    (∃ (s : State) (h : Port), s.chip.Interlocked ∧ s.chip.linkState h ≠ 2 ∧ s.chip.linkState h ≠ 3) ∧
    (∃ (s : State) (h : Port), s.chip.pageUp (.head h) = true ∧ (s.chip.hd h).trainWait = true ∧ (s.chip.hd h).clkSince = none) :=
  ⟨⟨st (link 3), 0, ⟨[0, 0, 64], [0, 0, 64], true, true, 0, false, 5⟩, by unfold Chip.Interlocked; decide +kernel⟩,
   ⟨st up, 15, by unfold Chip.Interlocked; decide +kernel⟩,
   ⟨st ((link 1).modHd 0 fun x => { x with trainWait := true }), 0, by decide +kernel⟩⟩

/-- The premises of GroupsLeaveAtTheCutoff are met. -/
theorem witness_GroupsLeaveAtTheCutoff :
    (∃ (s : State) (h : Port), s.chip.Interlocked ∧ s.chip.pageUp (.head h) = true ∧ s.chip.headDriven h = true ∧ (s.chip.groups.get h).closed = false) ∧
    (∃ (s : State) (h : Port), s.chip.Interlocked ∧ s.chip.pageUp (.head h) = true ∧ s.chip.linkState h = 3 ∧ s.chip.headQuenched h = true) :=
  ⟨⟨st (link 3), 0, by unfold Chip.Interlocked; decide +kernel⟩,
   ⟨st ((link 3).put .fault Reg.FAULT.QUENCH_HEAD_PORTS 1), 0, by unfold Chip.Interlocked; decide +kernel⟩⟩

/-- The premises of HousekeepingIsServed are met. -/
theorem witness_HousekeepingIsServed :
    (∃ (s : State) (h : Port) (r : Requester), s.chip.Interlocked ∧ s.chip.Writable r (.head h) ∧ s.chip.rd (.head h) Reg.HEAD.HK_CTL_DONE ≠ 0 ∧ (s.chip.linkState h = 2 ∨ s.chip.linkState h = 3)) ∧
    (∃ (s : State) (h : Port), s.chip.Interlocked ∧ s.chip.rd (.head h) Reg.HEAD.HK_CTL_DONE = 0 ∧ (s.chip.hd h).hkSent ≠ none ∧ s.chip.linkState h = 3 ∧ s.chip.pageUp (.head h) = true) :=
  ⟨⟨st ((link 2).put (.head 0) Reg.HEAD.HK_CTL_DONE 1), 0, .host, by unfold Chip.Writable Chip.Reach Chip.Interlocked; decide +kernel⟩,
   ⟨st (((link 3).put (.head 0) Reg.HEAD.HK_CTL_DONE 0).modHd 0 fun x => { x with hkSent := some 7 }), 0, by unfold Chip.Interlocked; decide +kernel⟩⟩

/-- The premises of LasersFollowArmAndPresence are met. -/
theorem witness_LasersFollowArmAndPresence :
    (∃ (s : State) (h : Port) (r : Requester), s.chip.Interlocked ∧ s.chip.Writable r (.head h) ∧ s.chip.headDriven h = true ∧ s.chip.enabled (.head h) = true ∧ s.chip.linkState h = 3 ∧ bit s.chip.pins.presentLow h.val = true ∧ s.chip.headQuenched h = false ∧ s.chip.headGated h = false) ∧
    (∃ (s : State) (h : Port) (r : Requester), s.chip.Interlocked ∧ s.chip.Writable r (.head h) ∧ s.chip.headDriven h = false) ∧
    (∃ (s : State) (h : Port) (t : Nat), s.chip.Interlocked ∧ (s.chip.hd h).riseAt = some t ∧ s.chip.present h = true ∧ s.chip.now < t + 100000 * max 1 (s.chip.hd h).removeMs ∧ s.chip.pageUp (.head h) = true) ∧
    (∃ (s : State) (h : Port), s.chip.Interlocked ∧ s.chip.present h = false ∧ bit s.chip.pins.presentLow h.val = false) :=
  ⟨⟨st (link 3), 0, .host, by unfold Chip.Writable Chip.Reach Chip.Interlocked; decide +kernel⟩,
   ⟨st up, 15, .mgmt, by unfold Chip.Writable Chip.Reach Chip.Interlocked; decide +kernel⟩,
   ⟨st { ((link 3).put .clk Reg.CLK.OPU_PRESENT_PRESENT 1).modHd 0 fun x => { x with riseAt := some 1 } with tb := 100000 }, 0, 1, by unfold Chip.Interlocked; decide +kernel⟩,
   ⟨st up, 15, by unfold Chip.Interlocked; decide +kernel⟩⟩

/-- Beam 0 of port 0 changed by `f`, on a block with its page enabled and the link running. -/
def onBeam (c : Chip) (f : BeamSt → BeamSt) : State := st (c.modBm 0 0 f)
/-- Beam 0 of port 0 in role `role`, reading. -/
def beamUp (role : Nat) : Chip :=
  let c := ((link 3).put (.beam 0 0) Reg.HDR.PAGE_CTL_EN 1).put (.beam 0 0) Reg.HDR.PAGE_STAT_STATE 1
  let c := (c.put (.beam 0 0) Reg.BEAM.RD_CTL_READ_EN 1).put (.beam 0 0) Reg.BEAM.RD_STAT_ROLE role
  (c.put (.beam 0 0) Reg.BEAM.RD_STAT_COND_FAIL 0).put (.beam 0 0) Reg.BEAM.WR_CTL_WR_ALLOW 1
/-- Segments whose servo mark stands at offset `d` with identity word 0. -/
def field (d : Nat) : FieldMark := ⟨List.replicate (20 + d) false ++ servoMark false ++ List.replicate 100 false, none⟩
/-- A detector whose target is 0 sees one metric on every path. -/
theorem level_metrics (t : DetTarget) (ht : t.level = 0) (zs : List Int) (c : Int) :
    ∀ v ∈ scanMetrics t.forward (List.replicate 16 c) zs, ∃ c', v = List.replicate 16 c' := by
  induction zs generalizing c with
  | nil => simp [scanMetrics]
  | cons z r ih =>
    have e : t.forward (List.replicate 16 c) z = List.replicate 16 (c + 16 * z * (16 * z)) := by
      simp [DetTarget.forward, DetTarget.branch, DetTarget.ideal, ht, List.range_succ, List.replicate]
    simp only [scanMetrics, e, List.mem_cons]
    rintro v (rfl | hv)
    · exact ⟨c, rfl⟩
    · exact ih _ v hv
/-- The same of the metrics of the paths that follow. -/
theorem level_metrics_back (t : DetTarget) (ht : t.level = 0) (zs : List Int) (c : Int) :
    ∀ v ∈ scanMetrics t.backward (List.replicate 16 c) zs, ∃ c', v = List.replicate 16 c' := by
  induction zs generalizing c with
  | nil => simp [scanMetrics]
  | cons z r ih =>
    have e : t.backward (List.replicate 16 c) z = List.replicate 16 (16 * z * (16 * z) + c) := by
      simp [DetTarget.backward, DetTarget.branch, DetTarget.ideal, ht, List.range_succ, List.replicate, nextState, b2n]
    simp only [scanMetrics, e, List.mem_cons]
    rintro v (rfl | hv)
    · exact ⟨c, rfl⟩
    · exact ih _ v hv
/-- Zero over a number rounds to zero. -/
theorem divRound_zero (n : Nat) (hn : 0 < n) : divRound 0 n = 0 := by
  have q : (2 * (0 : Int).natAbs + (n : Int).natAbs) / (2 * (n : Int).natAbs) = 0 :=
    Nat.div_eq_of_lt (by simp only [Int.natAbs_natCast, Int.natAbs_zero]; omega)
  simp only [divRound, q]
  split
  · rfl
  · split <;> rfl
/-- It decides nothing. -/
theorem level_detect (t : DetTarget) (ht : t.level = 0) (shift : Nat) (zs : List Int) : ∀ v ∈ t.detect shift zs, v = 0 := by
  have block : ∀ ys : List Int, ∀ v ∈ t.blockLlr shift ys, v = 0 := by
    intro ys v hv
    simp only [DetTarget.blockLlr, List.mem_map] at hv
    obtain ⟨⟨z, f, g⟩, hm, rfl⟩ := hv
    have h1 := (List.of_mem_zip hm).2
    have h2 := List.of_mem_zip h1
    obtain ⟨x, rfl⟩ := level_metrics t ht ys 0 f h2.1
    obtain ⟨y, rfl⟩ := level_metrics_back t ht ys.reverse 0 g (List.mem_reverse.mp h2.2)
    have e : t.through (List.replicate 16 x) (List.replicate 16 y) true z = t.through (List.replicate 16 x) (List.replicate 16 y) false z := by
      simp [DetTarget.through, DetTarget.branch, DetTarget.ideal, ht, List.range_succ, List.replicate, nextState, b2n]
    simp only [DetTarget.llr, e, Int.sub_self]
    rw [divRound_zero _ (Nat.mul_pos (by decide) (Nat.two_pow_pos _))]; decide
  intro v hv
  simp only [DetTarget.detect, List.mem_flatMap] at hv
  obtain ⟨k, -, hk⟩ := hv
  exact block _ v (List.mem_of_mem_drop (List.mem_of_mem_take hk))
/-- Bits of a run of values that are not negative spell 0. -/
theorem zero_word (l : List Int) (hl : ∀ v ∈ l, v = 0) : natBits (l.map fun v => decide (v < 0)) = 0 := by
  have : ∀ n : Nat, (l.map fun v => decide (v < 0)).foldl (fun a v => 2 * a + b2n v) (0 * n) = 0 := by
    induction l with
    | nil => simp
    | cons z r ih =>
      intro n
      have hz := hl z (by simp)
      have := ih (fun v hv => hl v (by simp [hv])) n
      simpa [hz, b2n] using this
  simpa [natBits] using this 0
/-- With a detector level of 0 the first header copy reads as the word 0, whose CRC holds. -/
theorem zero_header (c : Chip) (h : Port) (b : BeamNo) (q : Passed) (hc : (c.target h b).level = 0) :
    pickHeader (c.search h b q) = some 0 := by
  have e : (c.search h b q).hdr1 = 0 := by
    simp only [Chip.search]
    exact zero_word _ fun v hv => level_detect _ hc _ _ v (List.mem_of_mem_drop (List.mem_of_mem_take hv))
  simp [pickHeader, e, show headerOk 0 = true by decide +kernel]
/-- A block whose beam 0 of port 0 waits for the decode of sector 0 of slot 0. -/
def decodes : State := onBeam ((up.put (.beam 0 0) Reg.BEAM.DET_CTL_LEVEL_A 0).put (.hall 0) Reg.HALL.HALL_CFG_POLY_SEL 1) fun x =>
  { x with passed := [{ slot := 0, sec := 0, turn := 16, layer := 0, ended := none }] }
/-- A decode that converged to zeros. -/
def zeros : Decode := ⟨true, 3, List.replicate 4160 0⟩
/-- CRC-8 of zeros is 0. -/
theorem crc_zeros (n : Nat) : (List.replicate n 0).foldl (crcByte crc8) 0 = 0 := by
  induction n with
  | zero => rfl
  | succ n ih => simpa [List.replicate_succ, show crcByte crc8 0 0 = 0 by decide] using ih
/-- The check value that the unit of beam 0 of port 0 forms of them. -/
theorem zeros_hall : decodes.chip.hallValue (beamHall 0 0) ((zeros.payload.take 4156).map (·.toNat)) = leNat (zeros.payload.drop 4156) := by
  have k : decodes.chip.hallSetting (beamHall 0 0) = crc8 := by decide +kernel
  have p : (decodes.chip.hallU (beamHall 0 0)).parity = false := by decide +kernel
  have m : (zeros.payload.take 4156).map (·.toNat) = List.replicate 4156 0 := by
    simp only [zeros, List.take_replicate, List.map_replicate]; rfl
  have d : zeros.payload.drop 4156 = List.replicate 4 0 := by simp only [zeros, List.drop_replicate]
  have v : crc crc8 (List.replicate 4156 0) = 0 := crc_zeros 4156
  simp only [Chip.hallValue, k, p, m, d, v]
  rfl

/-- The premises of FramesAndFieldsAdvance are met. -/
theorem witness_FramesAndFieldsAdvance :
    (∃ (s : State) (h : Port) (b : BeamNo) (m : FieldMark), s.chip.Interlocked ∧ s.chip.framesRunning = true ∧ s.chip.rd (.beam h b) Reg.BEAM.RD_STAT_SEG_LOCK ≠ 0 ∧ findMark m.bits = none) ∧
    (∃ (s : State), s.chip.Interlocked ∧ s.chip.framesRunning = false) ∧
    (∃ (s : State) (h : Port) (b : BeamNo) (m : FieldMark), s.chip.Interlocked ∧ s.chip.rd (.beam h b) Reg.BEAM.RD_STAT_SEG_LOCK ≠ 0 ∧ findMark m.bits = some (2, false)) ∧
    (∃ (s : State) (h : Port) (b : BeamNo) (m : FieldMark), s.chip.Interlocked ∧ s.chip.rd (.beam h b) Reg.BEAM.RD_STAT_SEG_LOCK ≠ 0 ∧ findMark m.bits = some (3, false)) ∧
    (∃ (s : State) (h : Port) (b : BeamNo) (m : FieldMark), s.chip.Interlocked ∧ s.chip.rd (.beam h b) Reg.BEAM.RD_STAT_SEG_LOCK = 0 ∧ findMark m.bits = some (0, false) ∧ identOk (identWord m.bits 0) = true) :=
  ⟨⟨st (up.put (.beam 15 4) Reg.BEAM.RD_STAT_SEG_LOCK 1), 15, 4, ⟨List.replicate 136 false, none⟩, by unfold Chip.Interlocked; decide +kernel⟩,
   ⟨State.reset, by unfold Chip.Interlocked; decide +kernel⟩,
   ⟨st (up.put (.beam 15 4) Reg.BEAM.RD_STAT_SEG_LOCK 1), 15, 4, field 2, by unfold Chip.Interlocked; decide +kernel⟩,
   ⟨st (up.put (.beam 15 4) Reg.BEAM.RD_STAT_SEG_LOCK 1), 15, 4, field 3, by unfold Chip.Interlocked; decide +kernel⟩,
   ⟨st up, 15, 4, field 0, by unfold Chip.Interlocked; decide +kernel⟩⟩

/-- The premises of SlotsAndSectorsAreFramed are met. -/
theorem witness_SlotsAndSectorsAreFramed :
    (∃ (x : BeamSt), x.unclassed = true ∧ x.slotKind = 1) ∧
    (∃ (x : BeamSt), x.unclassed = true ∧ 4096 ≤ (x.zn : Int) - x.slotStart ∧ x.linkAt = none ∧ x.slotKind = 3) ∧
    (∃ (s : State) (h : Port) (b : BeamNo), s.chip.Interlocked ∧ s.chip.commits = [] ∧ s.chip.wrActive h b = false ∧ (s.chip.bm h b).run = none ∧ s.chip.quiet h b = false ∧ s.chip.reads h b = true ∧ slotAt (s.chip.bm h b).turn (s.chip.bm h b).field = some 0 ∧ (s.chip.bm h b).slotKind = 1 ∧ (s.chip.bm h b).linkAt = none) ∧
    (∃ (s : State) (h : Port) (b : BeamNo), s.chip.Interlocked ∧ s.chip.commits = [] ∧ s.chip.wrActive h b = false ∧ (s.chip.bm h b).run = none ∧ s.chip.quiet h b = false ∧ s.chip.reads h b = true ∧ (s.chip.bm h b).slotKind = 1 ∧ (s.chip.bm h b).linkAt = some ((s.chip.bm h b).sector + 1)) ∧
    (∃ (s : State) (h : Port) (b : BeamNo), s.chip.Interlocked ∧ s.chip.commits = [] ∧ s.chip.wrActive h b = false ∧ (s.chip.bm h b).run = none ∧ s.chip.quiet h b = false ∧ s.chip.reads h b = false) :=
  ⟨⟨{ slotKind := 1, unclassed := true }, by decide +kernel⟩,
   ⟨{ slotKind := 3, unclassed := true, zn := 4096 }, by decide +kernel⟩,
   ⟨onBeam (beamUp 1) fun x => { x with turn := 16, field := 0, slotKind := 1, sector := 17 }, 0, 0, by unfold Chip.Interlocked; decide +kernel⟩,
   ⟨onBeam (beamUp 1) fun x => { x with turn := 16, field := 0, slotKind := 1, sector := 17, linkAt := some 18 }, 0, 0, by unfold Chip.Interlocked; decide +kernel⟩,
   ⟨st up, 3, 2, by unfold Chip.Interlocked; decide +kernel⟩⟩

/-- The premises of SectorDecodesAreDelivered are met. -/
theorem witness_SectorDecodesAreDelivered :
    (∃ (s : State) (h : Port) (b : BeamNo) (q : Passed) (n : Nat), s.chip.Interlocked ∧ (s.chip.bm h b).passed = [q] ∧ q.ended = some n) ∧
    (∃ (s : State) (h : Port) (b : BeamNo) (q : Passed) (ks : (Vector Decode 4)), s.chip.Interlocked ∧ (s.chip.bm h b).passed = [q] ∧ q.ended = none ∧ (∀ k ∈ ks.toList, k.converged = false)) ∧
    (∃ (s : State) (h : Port) (b : BeamNo) (q : Passed) (k : Decode), s.chip.Interlocked ∧ (s.chip.bm h b).passed = [q] ∧ q.ended = none ∧ k.converged = true ∧ k.iters ≤ s.chip.iterMax h b ∧ k.payload.length = 4160 ∧ pickHeader (s.chip.search h b q) = some 0 ∧ slice 38 2 0 = 0 ∧ s.chip.misplaced h b q 0 = false ∧ s.chip.hallValue (beamHall h b) ((k.payload.take 4156).map (·.toNat)) = leNat (k.payload.drop 4156)) ∧
    (∃ (s : State) (h : Port) (b : BeamNo), s.chip.Interlocked ∧ s.chip.rd (.beam h b) Reg.BEAM.RD_CTL_OUTER_EN ≠ 0 ∧ assocGet 17 (s.chip.bm h b).stats ≠ none) :=
  ⟨⟨onBeam up fun x => { x with passed := [{ slot := 5, sec := 17, turn := 16, layer := 0, ended := some 9 }] }, 0, 0, { slot := 5, sec := 17, turn := 16, layer := 0, ended := some 9 }, 9, by unfold Chip.Interlocked; decide +kernel⟩,
   ⟨decodes, 0, 0, { slot := 0, sec := 0, turn := 16, layer := 0, ended := none }, Vector.replicate 4 ⟨false, 48, []⟩, by unfold Chip.Interlocked; decide +kernel⟩,
   ⟨decodes, 0, 0, { slot := 0, sec := 0, turn := 16, layer := 0, ended := none }, zeros, by unfold Chip.Interlocked; refine ⟨by decide +kernel, by decide +kernel, rfl, rfl, by decide +kernel, by decide +kernel, zero_header _ _ _ _ (by decide +kernel), by decide, by decide +kernel, zeros_hall⟩⟩,
   ⟨onBeam (up.put (.beam 0 0) Reg.BEAM.RD_CTL_OUTER_EN 1) fun x => { x with stats := [(17, 0)] }, 0, 0, by unfold Chip.Interlocked; decide +kernel⟩⟩

/-- The premises of CancellersAndSnapshots are met. -/
theorem witness_CancellersAndSnapshots :
    (∃ (s : State) (r : Requester) (h : Port) (b : BeamNo), s.chip.Interlocked ∧ s.chip.pageUp (.beam h b) = true ∧ s.chip.Writable r (.beam h b) ∧ s.chip.frozen (.beam h b) = false) ∧
    (∃ (s : State) (r : Requester) (h : Port) (b : BeamNo), s.chip.Interlocked ∧ s.chip.pageUp (.beam h b) = true ∧ s.chip.Writable r (.beam h b) ∧ s.chip.frozen (.beam h b) = true) :=
  ⟨⟨st up, .host, 15, 4, by unfold Chip.Writable Chip.Reach Chip.Interlocked; decide +kernel⟩,
   ⟨st { up with commits := [⟨.beam 0 4, none, 1, 0⟩] }, .host, 0, 4, by unfold Chip.Writable Chip.Reach Chip.Interlocked; decide +kernel⟩⟩

/-- An ingot, a work item that starts at `slot` with `n` ingots, and its run. -/
def ing : IngotRef := ⟨1, 2, 3, 4, 0⟩
def item (slot n : Nat) : WorkItem := ⟨0, 0, 0, slot, List.replicate n ing, false⟩
def run1 : Run := { item := item 384 1, queue := [ing], slot := 384, rsn := 7 }
/-- Beam 0 of port 0 in write state `n` with the run `run1` and one buffered sector. -/
def writing (n : Nat) : State :=
  onBeam ((beamUp 1).put (.beam 0 0) Reg.BEAM.WR_STAT_STATE n) fun x => { x with run := some run1, bufs := [⟨3, [], none⟩], loadSec := 15 }
def kept (second monOk : Bool) : Recorded := ⟨ing, 2, 1, 400, 7, 0, monOk, second⟩
def goodSectors : List SectorCheck := List.replicate 18 ⟨0, 1, 0⟩
/-- Disc 0 on spindle 0, and the state with it. -/
def onDisc (c : Chip) : Chip := c.modLib fun l => { l with mounted := l.mounted.set 0 (some 0) }
/-- Beam 0 of port 0 with the layer 0 of that disc open, and a run of `n` ingots handed to it. -/
def layer0 : Chip := (onDisc (beamUp 1)).modHd 0 fun x => { x with layerOpen := some 0 }
/-- A polder of one zone, none of it on the disc yet. -/
def pol : Polder := { id := 1, nsid := 1 }
/-- The same beam, loading sector 15 of a member of a directory row. -/
def loading : State :=
  let i : IngotRef := { ing with polder := 1, zone := 0xFFFF, member := 0 }
  st ((layer0.modLib fun l => { l with polders := [pol] }).modBm 0 0 fun x => { x with run := some { run1 with queue := [i] }, loadSec := 15 })
/-- A directory sector has 4,112 bytes. -/
theorem dir_len (p : Polder) (i m s : Nat) : 4096 ≤ (p.dirBytes i m s).length := by
  have h (l : List Byte) : ((l.take 4092 ++ List.replicate 4092 0).take 4092).length = 4092 := by
    rw [List.length_take, List.length_append, List.length_replicate]; omega
  have e : (bytesLE 4 (crcBytes (((p.dirEntries.drop ((i * 192 + m * 16 + s) * 4092)).take 4092 ++ List.replicate 4092 0).take 4092))).length = 4 := rfl
  rw [Polder.dirBytes, List.length_append, List.length_append, h, e, List.length_replicate]; decide
/-- A number of 32 bits comes back from its bytes. -/
theorem le_four (v : Nat) (hv : v < 2 ^ 32) : leNat (bytesLE 4 v) = v := by
  simp [bytesLE, leNat]; omega
/-- The reversal of `w` bits has `w` bits. -/
theorem rev_lt (w n : Nat) : revBits w n < 2 ^ w := by
  induction w generalizing n with
  | zero => simp [revBits]
  | succ w ih =>
    have h := ih (n / 2)
    have p : n % 2 * 2 ^ w ≤ 1 * 2 ^ w := Nat.mul_le_mul_right _ (by omega)
    simp only [revBits, Nat.pow_succ]
    omega
/-- CRC-32C has 32 bits. -/
theorem crc_lt (l : List Byte) : crcBytes l < 2 ^ 32 := by
  simp only [crcBytes, crc, crcFinal, show crc32c.refOut = true from rfl, show crc32c.inv = true from rfl,
    show crc32c.w = 32 from rfl, if_true]
  exact Nat.xor_lt_two_pow (rev_lt 32 _) (by decide)
/-- A sector that carries the first 4,092 bytes `b` of a pressed information record, with both check values. -/
def pressedWith (b : List Byte) : MediaSector :=
  let u := b ++ bytesLE 4 (crcBytes b) ++ List.replicate 60 0
  ⟨true, u ++ bytesLE 4 (crcBytes u)⟩
/-- Such a sector with the signature and format of R225 yields its record. -/
theorem sector_ok (b : List Byte) (hl : b.length = 4092)
    (hs : ∀ z, recField (b ++ z) 0 4 = 0x49504C4E ∧ recField (b ++ z) 4 2 = 0x0100) :
    pressedOf [pressedWith b] = some (parsePressed (pressedWith b).payload) := by
  have hu : (b ++ bytesLE 4 (crcBytes b) ++ List.replicate 60 0).length = 4156 := by
    simp only [List.length_append, hl, List.length_replicate]; rfl
  have ha : (bytesLE 4 (crcBytes b)).length = 4 := rfl
  have p : (pressedWith b).payload.take 4156 = b ++ bytesLE 4 (crcBytes b) ++ List.replicate 60 0 := List.take_left' hu
  have q : (pressedWith b).payload.drop 4156 = bytesLE 4 (crcBytes (b ++ bytesLE 4 (crcBytes b) ++ List.replicate 60 0)) :=
    List.drop_left' hu
  obtain ⟨z, e⟩ : ∃ z, (pressedWith b).payload = b ++ (bytesLE 4 (crcBytes b) ++ z) :=
    ⟨_, by simp only [pressedWith, List.append_assoc]; rfl⟩
  have c : (pressedWith b).payload.take 4092 = b := by rw [e]; exact List.take_left' hl
  have d : ((pressedWith b).payload.drop 4092).take 4 = bytesLE 4 (crcBytes b) := by
    rw [e, List.drop_left' hl]; exact List.take_left' ha
  have s0 : recField (pressedWith b).payload 0 4 = 0x49504C4E := by rw [e]; exact (hs _).1
  have s4 : recField (pressedWith b).payload 4 2 = 0x0100 := by rw [e]; exact (hs _).2
  have f : recField (pressedWith b).payload 4092 4 = crcBytes b := by
    unfold recField; rw [d]; exact le_four _ (crc_lt _)
  have ok : MediaSector.pressedOk (pressedWith b) = true := by
    simp only [MediaSector.pressedOk, p, q, c, f, s0, s4, le_four _ (crc_lt _), beq_self_eq_true, Bool.and_true]
    rfl
  simp [pressedOf, ok]
/-- The signature and the format of R225, at the head of a record. -/
theorem head_ok (z : List Byte) : recField ([0x4E, 0x4C, 0x50, 0x49, 0, 1] ++ z) 0 4 = 0x49504C4E ∧
    recField ([0x4E, 0x4C, 0x50, 0x49, 0, 1] ++ z) 4 2 = 0x0100 :=
  ⟨show leNat [0x4E, 0x4C, 0x50, 0x49] = _ by decide +kernel, show leNat [0, 1] = _ by decide +kernel⟩
/-- The pressed information record of layer 0. -/
def pressBody : List Byte := [0x4E, 0x4C, 0x50, 0x49, 0, 1] ++ List.replicate 4086 0
def pressed : MediaSector := pressedWith pressBody
theorem press_len : pressBody.length = 4092 := by rw [pressBody, List.length_append, List.length_replicate]; rfl
theorem press_head (z : List Byte) : recField (pressBody ++ z) 0 4 = 0x49504C4E ∧ recField (pressBody ++ z) 4 2 = 0x0100 := by
  simp only [pressBody, List.append_assoc]; exact head_ok _
theorem press_ok : pressedOf [pressed] = some (parsePressed pressed.payload) := sector_ok _ press_len press_head

/-- The premises of WorkItemsAreLoadedAndEncoded are met. -/
theorem witness_WorkItemsAreLoadedAndEncoded :
    (∃ (s : State) (h : Port) (b : BeamNo) (w : WorkItem), s.chip.Interlocked ∧ s.chip.islandUp (.beam h b) = true ∧ s.chip.runMay h w = true ∧ s.chip.itemOk h b w = true ∧ (s.chip.bm h b).run = none ∧ s.chip.quiet h b = false) ∧
    (∃ (s : State) (h : Port) (b : BeamNo) (w : WorkItem), s.chip.Interlocked ∧ s.chip.islandUp (.beam h b) = true ∧ s.chip.runMay h w = true ∧ s.chip.itemOk h b w = true ∧ (s.chip.bm h b).run ≠ none) ∧
    (∃ (s : State) (h : Port) (b : BeamNo) (w : WorkItem), s.chip.Interlocked ∧ s.chip.islandUp (.beam h b) = true ∧ s.chip.runMay h w = true ∧ s.chip.itemOk h b w = false) ∧
    (∃ (s : State) (h : Port) (b : BeamNo) (w : WorkItem), s.chip.Interlocked ∧ s.chip.islandUp (.beam h b) = true ∧ s.chip.runMay h w = false) ∧
    (∃ (s : State) (h : Port) (b : BeamNo), s.chip.Interlocked ∧ s.chip.islandUp (.beam h b) = false ∧ s.chip.pageUp .sys = true) ∧
    (∃ (s : State) (h : Port) (b : BeamNo) (r : Run) (q : Requester), s.chip.Interlocked ∧ (s.chip.bm h b).run = some r ∧ s.chip.wrState h b = 1 ∧ s.chip.Writable q (.beam h b)) ∧
    (∃ (s : State) (h : Port) (b : BeamNo) (v : WriteSector) (l : (List WriteSector)), (s.chip.bm h b).bufs = v :: l ∧ v.coded = none) ∧
    (∃ (s : State) (h : Port) (b : BeamNo) (r : Run) (i : IngotRef) (w : ToRecord), s.chip.Interlocked ∧ s.chip.islandUp (.beam h b) = true ∧ s.chip.loads h b = true ∧ (s.chip.bm h b).run = some r ∧ (r.queue.drop (b2n (s.chip.bm h b).loadsNext)).head? = some i ∧ (s.chip.bm h b).nextSec = 15 ∧ s.chip.toRecord i (s.chip.bm h b).nextSec = some w ∧ 4096 ≤ w.data.length) ∧
    (∃ (s : State) (h : Port) (b : BeamNo) (r : Run) (i : IngotRef), s.chip.Interlocked ∧ s.chip.islandUp (.beam h b) = true ∧ s.chip.loads h b = true ∧ (s.chip.bm h b).run = some r ∧ (r.queue.drop (b2n (s.chip.bm h b).loadsNext)).head? = some i ∧ s.chip.toRecord i (s.chip.bm h b).nextSec = none) ∧
    (∃ (s : State) (h : Port) (b : BeamNo), s.chip.Interlocked ∧ s.chip.islandUp (.beam h b) = true ∧ s.chip.loads h b = false) :=
  ⟨⟨st layer0, 0, 0, item 384 1, by unfold Chip.Interlocked; decide +kernel⟩,
   ⟨st (layer0.modBm 0 0 fun x => { x with run := some run1 }), 0, 0, item 384 1, by unfold Chip.Interlocked; decide +kernel⟩,
   ⟨st (layer0.put (.beam 0 0) Reg.BEAM.RD_STAT_ROLE 2), 0, 0, item 384 1, by unfold Chip.Interlocked; decide +kernel⟩,
   ⟨st (beamUp 1), 0, 0, item 384 1, by unfold Chip.Interlocked; decide +kernel⟩,
   ⟨st (up.put .clk Reg.CLK.HEAD_GATE_GATE 1), 0, 0, by unfold Chip.Interlocked; decide +kernel⟩,
   ⟨writing 1, 0, 0, run1, .host, by unfold Chip.Writable Chip.Reach Chip.Interlocked; decide +kernel⟩,
   ⟨writing 1, 0, 0, ⟨3, [], none⟩, [], by decide +kernel⟩,
   ⟨loading, 0, 0, { run1 with queue := [{ ing with polder := 1, zone := 0xFFFF, member := 0 }] }, { ing with polder := 1, zone := 0xFFFF, member := 0 }, ⟨pol.dirBytes 3 0 15, { hostMd := (pol.dirBytes 3 0 15).drop 4096, polder := 1, zone := 0xFFFF, row := 3 }, false⟩, by unfold Chip.Interlocked; exact ⟨by decide +kernel, by decide +kernel, by decide +kernel, rfl, rfl, rfl, rfl, dir_len _ _ _ _⟩⟩,
   ⟨st (layer0.modBm 0 0 fun x => { x with run := some run1 }), 0, 0, run1, ing, by unfold Chip.Interlocked; decide +kernel⟩,
   ⟨st layer0, 0, 0, by unfold Chip.Interlocked; decide +kernel⟩⟩

/-- The premises of WritesEndWithTheirCause are met. -/
theorem witness_WritesEndWithTheirCause :
    (∃ (s : State) (h : Port) (b : BeamNo) (q : Requester), s.chip.Interlocked ∧ s.chip.wrState h b = 3 ∧ s.chip.Writable q (.beam h b) ∧ s.chip.payloadLate h b = true) ∧
    (∃ (s : State) (h : Port) (b : BeamNo), s.chip.Interlocked ∧ s.chip.wrState h b = 3 ∧ s.chip.payloadLate h b = false) ∧
    (∃ (s : State) (h : Port) (b : BeamNo) (r : Run) (i : IngotRef) (l : (List IngotRef)), s.chip.Interlocked ∧ s.chip.wrState h b = 4 ∧ (s.chip.bm h b).run = some r ∧ r.queue = i :: l ∧ (s.chip.bm h b).failIngot ≠ some i ∧ r.slot < 481855) ∧
    (∃ (s : State) (h : Port) (b : BeamNo) (r : Run) (m : MonitorSample) (e : Int), s.chip.Interlocked ∧ (s.chip.bm h b).run = some r ∧ s.chip.wrState h b = 3 ∧ s.chip.rd (.beam h b) Reg.BEAM.WR_CTL_MON_EN ≠ 0 ∧ s.chip.rd (.beam h b) Reg.BEAM.WR_CTL_RPC_EN ≠ 0 ∧ (s.chip.monitor h b m).1 = some e) ∧
    (∃ (s : State) (h : Port) (b : BeamNo), s.chip.Interlocked ∧ s.chip.wrState h b = 3 ∧ s.chip.rd (.beam h b) Reg.BEAM.WR_CTL_MON_EN = 0) :=
  ⟨⟨st ((writing 3).chip.put (.beam 0 0) Reg.BEAM.WR_STAT_SECTOR 3), 0, 0, .host, by unfold Chip.Writable Chip.Reach Chip.Interlocked; decide +kernel⟩,
   ⟨st ((writing 3).chip.put (.beam 0 0) Reg.BEAM.WR_STAT_SECTOR 2), 0, 0, by unfold Chip.Interlocked; decide +kernel⟩,
   ⟨writing 4, 0, 0, run1, ing, [], by unfold Chip.Interlocked; decide +kernel⟩,
   ⟨st ((((writing 3).chip.put (.beam 0 0) Reg.BEAM.WR_CTL_MON_EN 1).put (.beam 0 0) Reg.BEAM.WR_CTL_RPC_EN 1).modHd 0 fun x => { x with lastGroup := List.replicate 20 100 }), 0, 0, run1, ⟨[100], [⟨4, 1, 50⟩]⟩, 2048, by unfold Chip.Interlocked; decide +kernel⟩,
   ⟨st ((writing 3).chip.put (.beam 0 0) Reg.BEAM.WR_CTL_MON_EN 0), 0, 0, by unfold Chip.Interlocked; decide +kernel⟩⟩

/-- The premises of IngotsAreVerified are met. -/
theorem witness_IngotsAreVerified :
    (∃ (s : State) (h : Port) (y : Recorded) (layer : (Fin 8)) (spiral : (Fin 4)) (slot : (BitVec 19)) (rsn : (BitVec 64)) (k : (List SectorCheck)), s.chip.Interlocked ∧ (s.chip.hd h).recorded.find? (fun r => r.layer = layer.val && r.spiral = spiral.val && r.slot = slot.toNat && r.rsn = rsn.toNat) = some y ∧ y.second = true ∧ judgeReadback k (max 1 (s.chip.rd (.beam h 0) Reg.BEAM.VFY_CFG_VFY_ITER)) (s.chip.rd (.beam h 0) Reg.BEAM.VFY_CFG_VFY_ERRS) = 0 ∧ y.monOk = true) ∧
    (∃ (k : (List SectorCheck)) (j : (List SectorCheck)), judgeReadback k 1 0 = 1 ∧ judgeReadback j 1 0 = 2) ∧
    (∃ (s : State) (h : Port), s.chip.Interlocked ∧ s.chip.trailing h = true ∧ (∀ b : BeamNo, s.chip.wrActive h b = false)) ∧
    (∃ (s : State) (h : Port) (b : BeamNo), s.chip.Interlocked ∧ s.chip.wrActive h b = true) ∧
    (∃ (s : State) (h : Port), s.chip.Interlocked ∧ s.chip.discAt h = none) ∧
    (∃ (s : State) (h : Port) (a : (Fin 2)) (l : (List Nat)) (n : Nat), s.chip.Interlocked ∧ s.chip.pageUp (.head h) = true ∧ s.chip.discAt h = some 0 ∧ (s.chip.hd h).layerOpen = some 0 ∧ (assocGet (0 * 2 + a.val) (s.chip.surf 0 (h.val % 2)).tests).getD 0 < 256 ∧ powerStep l = some n) ∧
    (∃ (s : State) (h : Port) (a : (Fin 2)), s.chip.Interlocked ∧ s.chip.pageUp (.head h) = true ∧ s.chip.discAt h = some 0 ∧ (s.chip.hd h).layerOpen = some 0 ∧ 256 ≤ (assocGet (0 * 2 + a.val) (s.chip.surf 0 (h.val % 2)).tests).getD 0) ∧
    (∃ (s : State) (h : Port) (l : (List MediaSector)) (r : Pressed), s.chip.Interlocked ∧ s.chip.pageUp (.head h) = true ∧ s.chip.discAt h = some 0 ∧ pressedOf l = some r ∧ r.layer = 0 ∧ (s.chip.syncSurf h).layerMay 0 (h.val % 2) 0 = true ∧ 18 < (s.chip.surf 0 (h.val % 2)).blankCtrl 0) ∧
    (∃ (s : State) (h : Port) (r : Requester), s.chip.Interlocked ∧ s.chip.pageUp (.head h) = true ∧ s.chip.Writable r (.head h)) :=
  ⟨⟨st (up.modHd 3 fun x => { x with recorded := [kept true true] }), 3, kept true true, 2, 1, 400, 7, goodSectors, by unfold Chip.Interlocked; decide +kernel⟩,
   ⟨⟨7, 1, 0⟩ :: goodSectors.tail, ⟨8, 1, 0⟩ :: goodSectors.tail, by decide +kernel⟩,
   ⟨st ((set (link 3) (.head 0) Reg.HEAD.BEAM_MAP_SPARE 0).modHd 0 fun x => { x with layerOpen := some 0 }), 0, by unfold Chip.Interlocked; decide +kernel⟩,
   ⟨writing 3, 0, 0, by unfold Chip.Interlocked; decide +kernel⟩,
   ⟨st up, 15, by unfold Chip.Interlocked; decide +kernel⟩,
   ⟨st layer0, 0, 1, [100, 50, 0, 0, 0, 50], 3, by unfold Chip.Interlocked; decide +kernel⟩,
   ⟨st (layer0.modSurf 0 0 fun x => { x with tests := [(1, 256)] }), 0, 1, by unfold Chip.Interlocked; decide +kernel⟩,
   ⟨st (onDisc up), 1, [pressed], parsePressed pressed.payload, by unfold Chip.Interlocked; exact ⟨by decide +kernel, by decide +kernel, by decide +kernel, press_ok, rfl, by decide +kernel, by decide +kernel⟩⟩,
   ⟨st up, 15, .host, by unfold Chip.Writable Chip.Reach Chip.Interlocked; decide +kernel⟩⟩

/-- A command of controller 0 from queue `sq`. -/
def cmd (sq opc nsid d10 d11 d12 d13 : Nat) : Cmd :=
  { ctrl := 0, sq := sq, seq := 0, since := 0
    sqe := { opc := BitVec.ofNat 8 opc, cid := 1, nsid := BitVec.ofNat 32 nsid, cdw10 := BitVec.ofNat 32 d10
             cdw11 := BitVec.ofNat 32 d11, cdw12 := BitVec.ofNat 32 d12, cdw13 := BitVec.ofNat 32 d13 } }
/-- Command `k` in slot 0. -/
def hold (c : Chip) (k : Cmd) : Chip := { c with host := { c.host with slots := [(0, k)] } }
/-- Controller 0 in state `x`. -/
def withCtrl (c : Chip) (x : CtrlSt) : Chip := { c with host := { c.host with ctrls := c.host.ctrls.set 0 x } }
/-- Controller 0 enabled, with an admin queue that holds one entry, and one pair of I/O queues. -/
def queues : CtrlSt :=
  { online := true, en := true, rdy := true, vq := 480, vi := 480, sqs := [{ id := 0, size := 4, cq := 0, tail := 1 }, { id := 1, size := 4, cq := 1 }]
    cqs := [{ id := 0, size := 4 }, { id := 1, size := 4, entries := [{ ctrl := 0, sq := 1, cid := 7, sct := 0, sc := 0 }] }] }

/-- The premises of HostQueuesAndFetch are met. -/
theorem witness_HostQueuesAndFetch :
    (∃ (s : State) (n : Ctrl) (v : (BitVec 16)) (q : SQueue), s.chip.Interlocked ∧ s.chip.islandUp .host = true ∧ s.chip.host.linkUp = true ∧ (s.chip.ctl n.val).en = true ∧ (s.chip.ctl n.val).sqs.find? (fun q => q.id == 1) = some q ∧ v.toNat < q.size) ∧
    (∃ (s : State) (n : Ctrl) (v : (BitVec 16)) (q : CQueue), s.chip.Interlocked ∧ s.chip.islandUp .host = true ∧ s.chip.host.linkUp = true ∧ (s.chip.ctl n.val).en = true ∧ (s.chip.ctl n.val).cqs.find? (fun q => q.id == 0) = some q ∧ v.toNat < q.size ∧ s.chip.host.cplWait = [] ∧ (v.toNat + q.size - q.head) % q.size ≤ q.entries.length) ∧
    (∃ (s : State) (q : SQueue) (n : Nat) (slot : Nat), s.chip.Interlocked ∧ s.chip.islandUp .host = true ∧ s.chip.islandUp .cmd = true ∧ s.chip.rd .sluice Reg.SLUICE.SLUICE_STAT_FLUSHING = 0 ∧ s.chip.host.nextCtrl < 16 ∧ (s.chip.ctl s.chip.host.nextCtrl).served = true ∧ (s.chip.arbitrate s.chip.host.nextCtrl).map (fun a => (a.1, a.2.next)) = some (q, n) ∧ s.chip.freeSlot = some slot) ∧
    (∃ (s : State) (k : Cmd), s.chip.Interlocked ∧ s.chip.AdminReady 0 k 0x05 ∧ (2 ≤ s.chip.ioQueues k.ctrl ∧ 0 < s.chip.vectors k.ctrl)) ∧
    (∃ (s : State) (k : Cmd), s.chip.AdminReady 0 k 0x01 ∧ (∃ y ∈ (s.chip.ctl 0).cqs, y.id = 1)) ∧
    (∃ (s : State) (k : Cmd), s.chip.AdminReady 0 k 0x00 ∧ (∃ q ∈ (s.chip.ctl 0).sqs, q.id = 1) ∧ (∀ e ∈ s.chip.host.slots, ¬ (e.2.ctrl = k.ctrl ∧ e.2.sq = 1 ∧ e.2.origin = 0))) ∧
    (∃ (s : State) (k : Cmd), s.chip.AdminReady 0 k 0x04 ∧ (∃ y ∈ (s.chip.ctl 0).cqs, y.id = 1) ∧ (∀ q ∈ (s.chip.ctl 0).sqs, q.cq ≠ 1)) :=
  ⟨⟨st (withCtrl up queues), 0, 3, { id := 1, size := 4, cq := 1 }, by unfold Chip.Interlocked; decide +kernel⟩,
   ⟨st (withCtrl up queues), 0, 0, { id := 0, size := 4 }, by unfold Chip.Interlocked; decide +kernel⟩,
   ⟨st (withCtrl up queues), { id := 0, size := 4, cq := 0, tail := 1 }, 1, 0, by unfold Chip.Interlocked; decide +kernel⟩,
   ⟨st (hold (withCtrl up queues) (cmd 0 5 0 (2 + 65536 * 4095) 1 0 0)), cmd 0 5 0 (2 + 65536 * 4095) 1 0 0, by unfold Chip.AdminReady Chip.Interlocked; decide +kernel⟩,
   ⟨st (hold (withCtrl up queues) (cmd 0 1 0 (2 + 65536) 65537 0 0)), cmd 0 1 0 (2 + 65536) 65537 0 0, by unfold Chip.AdminReady; decide +kernel⟩,
   ⟨st (hold (withCtrl up queues) (cmd 0 0 0 1 0 0 0)), cmd 0 0 0 1 0 0 0, by unfold Chip.AdminReady; decide +kernel⟩,
   ⟨st (hold (withCtrl up { queues with sqs := [] }) (cmd 0 4 0 1 0 0 0)), cmd 0 4 0 1 0 0 0, by unfold Chip.AdminReady; decide +kernel⟩⟩

/-- The premises of ControllersAndPcieLink are met. -/
theorem witness_ControllersAndPcieLink :
    (∃ (s : State) (n : Ctrl), s.chip.Interlocked ∧ s.chip.islandUp .host = true ∧ s.chip.host.linkUp = true ∧ (s.chip.ctl n.val).online = true ∧ (s.chip.ctl n.val).en = false) ∧
    (∃ (s : State) (n : Ctrl), s.chip.islandUp .host = true ∧ s.chip.host.linkUp = true ∧ (s.chip.ctl n.val).online = false ∧ (s.chip.host.slots.map (·.1)).Pairwise (· < ·) ∧ (∀ e ∈ s.chip.host.slots, e.2.ctrl = n.val → e.2.origin = 0 → e.2.batch = none)) ∧
    (∃ (s : State) (n : Ctrl), s.chip.Interlocked ∧ s.chip.islandUp .host = true ∧ s.chip.host.linkUp = true ∧ (s.chip.ctl n.val).en = true ∧ (s.chip.ctl n.val).shst = 0 ∧ (∀ e ∈ s.chip.host.slots, e.2.ctrl = n.val → e.2.origin = 0 → e.2.phase = .event)) ∧
    (∃ (s : State), s.chip.Interlocked ∧ s.chip.islandUp .host = true ∧ s.chip.host.linkUp = false) ∧
    (∃ (s : State), s.chip.Interlocked ∧ s.chip.islandUp .host = true ∧ s.chip.pins.perstNLow = true) ∧
    (∃ (s : State) (r : Requester), s.chip.Interlocked ∧ s.chip.islandUp .host = true ∧ s.chip.host.linkUp = true ∧ s.chip.pins.perstNLow = false ∧ s.chip.pageUp .host = true ∧ s.chip.Writable r .host) :=
  ⟨⟨st up, 0, by unfold Chip.Interlocked; decide +kernel⟩,
   ⟨st up, 15, by decide +kernel⟩,
   ⟨st (withCtrl up queues), 0, by unfold Chip.Interlocked; decide +kernel⟩,
   ⟨st { up with host := { up.host with linkUp := false } }, by unfold Chip.Interlocked; decide +kernel⟩,
   ⟨st { up with pins := { up.pins with perstNLow := true } }, by unfold Chip.Interlocked; decide +kernel⟩,
   ⟨st { up with host := { up.host with linkUp := true } }, .mgmt, by unfold Chip.Writable Chip.Reach Chip.Interlocked; decide +kernel⟩⟩

/-- A standard namespace of two zones, whose zone 0 is open and bound; a maintenance namespace. -/
def nsA : NsSt := { nsid := 5, std := true, size := 2 * 524288, attached := 1, zones := [(0, { st := .eOpen, bind := some (1, 0) })] }
def nsM : NsSt := { nsid := 1, std := false, size := 64, attached := 1 }
def withNs (c : Chip) (n : NsSt) : Chip := { c with host := { c.host with nss := [n] }, rs := { c.rs with mounted := true } }
/-- An I/O command in slot 0 for namespace `n`. -/
def io (n : NsSt) (opc lba nlb d13 : Nat) : Chip := hold (withNs up n) (cmd 1 opc n.nsid lba 0 (nlb - 1) d13)
/-- The command of a batch under transfer. -/
def batch1 : Batch := { id := 4, kind := 1, slot := some 0, nsid := 5, zone := 0, ofs := 0, nlb := 1, keyTag := 1, since := 0, seq := some 1 }
def dmaCmd : Cmd := { cmd 1 1 5 0 0 0 0 with phase := .dma, batch := some 4 }
/-- A Read under transfer with PSDT `p`. -/
def sglCmd (p : BitVec 2) : Cmd := { cmd 1 2 5 0 0 0 0 with phase := .dma, sqe := { (cmd 1 2 5 0 0 0 0).sqe with psdt := p } }
def block0 : Block := ⟨List.replicate 4096 0, []⟩
/-- The zone 0 of `nsA` in state `z`, with an admin or I/O command. -/
def zoneIn (z : ZState) (opc d13 : Nat) : Chip := io { nsA with zones := [(0, { st := z, bind := some (1, 0) })] } opc 0 1 d13

/-- The premises of WritesReachStaging are met. -/
theorem witness_WritesReachStaging :
    (∃ (s : State) (k : Cmd) (n : NsSt), s.chip.Interlocked ∧ s.chip.NsReady 0 k 0x01 n ∧ n.size < Sqe.slba k.sqe + Sqe.nlb k.sqe) ∧
    (∃ (s : State) (k : Cmd) (n : NsSt), s.chip.Interlocked ∧ s.chip.NsReady 0 k 0x01 n ∧ Sqe.slba k.sqe + Sqe.nlb k.sqe ≤ n.size ∧ 64 < Sqe.nlb k.sqe) ∧
    (∃ (s : State) (k : Cmd) (n : NsSt), s.chip.Interlocked ∧ s.chip.NsReady 0 k 0x7D n ∧ Sqe.slba k.sqe + Sqe.nlb k.sqe ≤ n.size ∧ Sqe.nlb k.sqe ≤ 64 ∧ n.std = true ∧ Sqe.slba k.sqe % zoneSize ≠ 0) ∧
    (∃ (s : State) (k : Cmd) (n : NsSt), s.chip.Interlocked ∧ s.chip.NsReady 0 k 0x01 n ∧ Sqe.slba k.sqe + Sqe.nlb k.sqe ≤ n.size ∧ Sqe.nlb k.sqe ≤ 64 ∧ n.std = true ∧ n.badRef (Sqe.pi k.sqe) (Sqe.slba k.sqe) = false ∧ s.chip.nsWt n.nsid = false ∧ s.chip.sluice.batches = [] ∧ 4160 * Sqe.nlb k.sqe + 64 ≤ s.chip.sluice.budget ∧ (n.zone 0).st.isOpen = true ∧ (n.zone 0).wp + Sqe.nlb k.sqe ≤ zoneCap ∧ s.chip.peer.handback = none ∧ s.chip.polder? 1 = none) ∧
    (∃ (s : State) (k : Cmd) (n : NsSt), s.chip.NsReady 0 k 0x08 n ∧ n.std = true ∧ n.badRef (Sqe.pi k.sqe) (Sqe.slba k.sqe) = false ∧ s.chip.nsWt n.nsid = false ∧ s.chip.sluice.budget < s.chip.admitted + (4160 * Sqe.nlb k.sqe + 64)) ∧
    (∃ (s : State) (k : Cmd) (n : NsSt), s.chip.Interlocked ∧ s.chip.NsReady 0 k 0x01 n ∧ n.std = false ∧ s.chip.rs.mounted = true ∧ Sqe.slba k.sqe + Sqe.nlb k.sqe ≤ n.size ∧ Sqe.nlb k.sqe ≤ 64 ∧ n.badRef (Sqe.pi k.sqe) (Sqe.slba k.sqe) = false) ∧
    (∃ (s : State) (k : Cmd) (n : NsSt), s.chip.Interlocked ∧ s.chip.NsReady 0 k 0x08 n ∧ n.std = false ∧ s.chip.rs.mounted = true ∧ Sqe.slba k.sqe + Sqe.nlb k.sqe ≤ n.size ∧ n.lbaf = 0) ∧
    (∃ (s : State) (k : Cmd) (n : NsSt) (b : Batch), s.chip.Interlocked ∧ s.chip.islandUp .host = true ∧ s.chip.islandUp .mem = true ∧ s.chip.cmdAt 0 = some k ∧ k.phase = .dma ∧ k.origin ≠ 1 ∧ k.ctrl < 16 ∧ k.sqe.opc = 0x01 ∧ k.batch = some b.id ∧ s.chip.sluice.batches = [b] ∧ b.slot = some 0 ∧ b.wt = false ∧ b.staged = false ∧ b.nlb = Sqe.nlb k.sqe ∧ s.chip.ns? k.sqe.nsid.toNat = some n ∧ b.nsid = n.nsid ∧ n.lbaf = 0 ∧ (n.zone b.zone).st.isOpen = true ∧ s.chip.linkUp = false ∧ s.chip.shared b.nsid = false ∧ (∀ y ∈ [block0], Block.fits n (Sqe.pi k.sqe) y = true) ∧ n.bufferStatus k.sqe { blocks := [block0] } = none) :=
  ⟨⟨st (io nsA 1 1048575 2 0), cmd 1 1 5 1048575 0 1 0, nsA, by unfold Chip.NsReady Chip.IoReady Chip.Interlocked; decide +kernel⟩,
   ⟨st (io nsA 1 0 65 0), cmd 1 1 5 0 0 64 0, nsA, by unfold Chip.NsReady Chip.IoReady Chip.Interlocked; decide +kernel⟩,
   ⟨st (io nsA 0x7D 1 1 0), cmd 1 0x7D 5 1 0 0 0, nsA, by unfold Chip.NsReady Chip.IoReady Chip.Interlocked; decide +kernel⟩,
   ⟨st { io nsA 1 0 64 0 with sluice := { up.sluice with budget := 4160 * 64 + 64 } }, cmd 1 1 5 0 0 63 0, nsA, by unfold Chip.NsReady Chip.IoReady Chip.Interlocked; decide +kernel⟩,
   ⟨st { io nsA 8 0 1 0 with sluice := { up.sluice with budget := 4223 } }, cmd 1 8 5 0 0 0 0, nsA, by unfold Chip.NsReady Chip.IoReady; decide +kernel⟩,
   ⟨st (io nsM 1 0 64 0), cmd 1 1 1 0 0 63 0, nsM, by unfold Chip.NsReady Chip.IoReady Chip.Interlocked; decide +kernel⟩,
   ⟨st (io nsM 8 63 1 0), cmd 1 8 1 63 0 0 0, nsM, by unfold Chip.NsReady Chip.IoReady Chip.Interlocked; decide +kernel⟩,
   ⟨st { hold (withNs up nsA) dmaCmd with sluice := { up.sluice with batches := [batch1] } }, dmaCmd, nsA, batch1, by unfold Chip.Interlocked; decide +kernel⟩⟩

/-- The premises of ReadsFlushAndTransferFaults are met. -/
theorem witness_ReadsFlushAndTransferFaults :
    (∃ (s : State) (k : Cmd) (n : NsSt), s.chip.Interlocked ∧ s.chip.NsReady 0 k 0x02 n ∧ n.size < Sqe.slba k.sqe + Sqe.nlb k.sqe) ∧
    (∃ (s : State) (k : Cmd) (n : NsSt), s.chip.Interlocked ∧ s.chip.NsReady 0 k 0x0C n ∧ Sqe.slba k.sqe + Sqe.nlb k.sqe ≤ n.size ∧ n.badRef (Sqe.pi k.sqe) (Sqe.slba k.sqe) = false ∧ n.std = true ∧ Sqe.slba k.sqe / zoneSize ≠ (Sqe.slba k.sqe + Sqe.nlb k.sqe - 1) / zoneSize) ∧
    (∃ (s : State) (k : Cmd) (n : NsSt), s.chip.Interlocked ∧ s.chip.NsReady 0 k 0x05 n ∧ Sqe.slba k.sqe + Sqe.nlb k.sqe ≤ n.size ∧ Sqe.nlb k.sqe ≤ 64 ∧ n.badRef (Sqe.pi k.sqe) (Sqe.slba k.sqe) = false ∧ n.std = true ∧ Sqe.slba k.sqe / zoneSize = (Sqe.slba k.sqe + Sqe.nlb k.sqe - 1) / zoneSize ∧ (n.zone 0).st ≠ .offline ∧ (n.zone 0).dataEnd ≤ Sqe.slba k.sqe % zoneSize ∧ n.lbaf = 0) ∧
    (∃ (s : State) (k : Cmd) (n : NsSt), s.chip.Interlocked ∧ s.chip.IoReady 0 k 0x02 ∧ s.chip.ns? k.sqe.nsid.toNat = some n ∧ k.origin = 0 ∧ n.attached.testBit k.ctrl = false) ∧
    (∃ (s : State) (k : Cmd), s.chip.Interlocked ∧ s.chip.IoReady 0 k 0x00 ∧ s.chip.marked k = false ∧ ((s.chip.ns? k.sqe.nsid.toNat).isSome = true ∨ k.sqe.nsid = 0xFFFFFFFF)) ∧
    (∃ (s : State) (k : Cmd), s.chip.Interlocked ∧ s.chip.IoReady 0 k k.sqe.opc ∧ ioSupported (((s.chip.ns? k.sqe.nsid.toNat).map (·.std)).getD true) k.sqe.opc = false) ∧
    (∃ (s : State) (k : Cmd) (n : NsSt), s.chip.Interlocked ∧ s.chip.islandUp .host = true ∧ s.chip.islandUp .mem = true ∧ s.chip.cmdAt 0 = some k ∧ k.phase = .dma ∧ k.origin ≠ 1 ∧ k.ctrl < 16 ∧ s.chip.ns? k.sqe.nsid.toNat = some n ∧ n.lbaf = 0 ∧ (k.sqe.opc = 0x02 ∨ k.sqe.opc = 0x05) ∧ s.chip.pageUp .host = true) ∧
    (∃ (s : State) (k : Cmd) (n : NsSt) (r : DmaResult), s.chip.Interlocked ∧ s.chip.islandUp .host = true ∧ s.chip.islandUp .mem = true ∧ s.chip.cmdAt 0 = some k ∧ k.phase = .dma ∧ k.origin ≠ 1 ∧ k.ctrl < 16 ∧ s.chip.ns? k.sqe.nsid.toNat = some n ∧ n.lbaf = 0 ∧ k.sqe.opc = 0x02 ∧ r.cqFault = false ∧ r.fault = none ∧ n.bufferStatus k.sqe r = none) ∧
    (∃ (s : State) (k : Cmd) (n : NsSt) (r : DmaResult), s.chip.Interlocked ∧ s.chip.islandUp .host = true ∧ s.chip.islandUp .mem = true ∧ s.chip.cmdAt 0 = some k ∧ k.phase = .dma ∧ k.origin ≠ 1 ∧ k.ctrl < 16 ∧ s.chip.ns? k.sqe.nsid.toNat = some n ∧ n.lbaf = 0 ∧ k.sqe.opc = 0x02 ∧ r.cqFault = false ∧ r.fault = none ∧ n.bufferStatus k.sqe r = some 0x0F) ∧
    (∃ (s : State) (k : Cmd), s.chip.Interlocked ∧ s.chip.cmdAt 0 = some k ∧ k.phase = .mount ∧ k.origin ≠ 1 ∧ k.ctrl < 16 ∧ s.chip.pageUp .cmd = true) :=
  ⟨⟨st (io nsA 2 1048576 1 0), cmd 1 2 5 1048576 0 0 0, nsA, by unfold Chip.NsReady Chip.IoReady Chip.Interlocked; decide +kernel⟩,
   ⟨st (io nsA 0x0C 524287 2 0), cmd 1 0x0C 5 524287 0 1 0, nsA, by unfold Chip.NsReady Chip.IoReady Chip.Interlocked; decide +kernel⟩,
   ⟨st (io nsA 5 0 64 0), cmd 1 5 5 0 0 63 0, nsA, by unfold Chip.NsReady Chip.IoReady Chip.Interlocked; decide +kernel⟩,
   ⟨st (io { nsA with attached := 2 } 2 0 1 0), cmd 1 2 5 0 0 0 0, { nsA with attached := 2 }, by unfold Chip.IoReady Chip.Interlocked; decide +kernel⟩,
   ⟨st (io nsA 0 0 1 0), cmd 1 0 5 0 0 0 0, by unfold Chip.IoReady Chip.Interlocked; decide +kernel⟩,
   ⟨st (io nsA 0xFF 0 1 0), cmd 1 0xFF 5 0 0 0 0, by unfold Chip.IoReady Chip.Interlocked; decide +kernel⟩,
   ⟨st (hold (withNs up nsA) { cmd 1 2 5 0 0 0 0 with phase := .dma }), { cmd 1 2 5 0 0 0 0 with phase := .dma }, nsA, by unfold Chip.Interlocked; decide +kernel⟩,
   ⟨st (hold (withNs up nsA) (sglCmd 1)), sglCmd 1, nsA, { sgl := [[.block 4000, .bucket 96]] }, by unfold Chip.Interlocked; decide +kernel⟩,
   ⟨st (hold (withNs up nsA) (sglCmd 1)), sglCmd 1, nsA, { sgl := [[.block 4095]] }, by unfold Chip.Interlocked; decide +kernel⟩,
   ⟨st (hold up { cmd 1 2 5 0 0 0 0 with phase := .mount }), { cmd 1 2 5 0 0 0 0 with phase := .mount }, by unfold Chip.Interlocked; decide +kernel⟩⟩

/-- The premises of ZonesAreManaged are met. -/
theorem witness_ZonesAreManaged :
    (∃ (s : State) (k : Cmd) (n : NsSt), s.chip.Interlocked ∧ n.std = true ∧ s.chip.NsReady 0 k 0x79 n ∧ Sqe.slba k.sqe < n.size ∧ k.sqe.cdw13.toNat % 256 = 1 ∧ Sqe.slba k.sqe % zoneSize ≠ 0) ∧
    (∃ (s : State) (k : Cmd) (n : NsSt), s.chip.Interlocked ∧ s.chip.NsReady 0 k 0x79 n ∧ k.sqe.cdw13.toNat = 2 ∧ s.chip.sluice.batches = [] ∧ (n.zone 0).st = .offline) ∧
    (∃ (s : State) (k : Cmd) (n : NsSt), s.chip.Interlocked ∧ s.chip.NsReady 0 k 0x79 n ∧ k.sqe.cdw13.toNat = 3 ∧ (n.zone 1).st = .empty ∧ n.countZones ZState.isActive < 256 ∧ s.chip.countZones ZState.isActive < 1024 ∧ n.countZones ZState.isOpen < 256 ∧ (∃ p ∈ s.chip.lib.polders, p.nsid = n.nsid ∧ p.recording = true ∧ p.nextZone < 7450)) ∧
    (∃ (s : State) (k : Cmd) (n : NsSt), s.chip.Interlocked ∧ s.chip.NsReady 0 k 0x79 n ∧ k.sqe.cdw13.toNat = 4 ∧ (n.zone 0).st ≠ .offline ∧ (n.zone 0).moving = none ∧ s.chip.sluice.batches = []) ∧
    (∃ (s : State) (k : Cmd) (n : NsSt), s.chip.Interlocked ∧ s.chip.NsReady 0 k 0x7A n ∧ k.sqe.cdw13.toNat % 256 = 0 ∧ slice 8 8 k.sqe.cdw13.toNat ≤ 7 ∧ (k.sqe.cdw12.toNat + 1) * 4 ≤ 262144 ∧ Sqe.slba k.sqe < n.size) :=
  ⟨⟨st (io nsA 0x79 1 1 1), cmd 1 0x79 5 1 0 0 1, nsA, by unfold Chip.NsReady Chip.IoReady Chip.Interlocked; decide +kernel⟩,
   ⟨st (zoneIn .offline 0x79 2), cmd 1 0x79 5 0 0 0 2, { nsA with zones := [(0, { st := .offline, bind := some (1, 0) })] }, by unfold Chip.NsReady Chip.IoReady Chip.Interlocked; decide +kernel⟩,
   ⟨st { io nsA 0x79 524288 1 3 with lib := { up.lib with polders := [{ id := 1, nsid := 5, nextZone := 7449 }] } }, cmd 1 0x79 5 524288 0 0 3, nsA, by unfold Chip.NsReady Chip.IoReady Chip.Interlocked; decide +kernel⟩,
   ⟨st (zoneIn .full 0x79 4), cmd 1 0x79 5 0 0 0 4, { nsA with zones := [(0, { st := .full, bind := some (1, 0) })] }, by unfold Chip.NsReady Chip.IoReady Chip.Interlocked; decide +kernel⟩,
   ⟨st (io nsA 0x7A 0 65536 0x700), cmd 1 0x7A 5 0 0 65535 0x700, nsA, by unfold Chip.NsReady Chip.IoReady Chip.Interlocked; decide +kernel⟩⟩

/-- Admin command in slot 0 for namespace `n`. -/
def adm (n : NsSt) (opc nsid d10 d11 : Nat) : Chip := hold (withNs up n) (cmd 0 opc nsid d10 d11 0 0)
def admK (opc nsid d10 d11 : Nat) : Cmd := cmd 0 opc nsid d10 d11 0 0
def withHost (c : Chip) (f : HostSt → HostSt) : Chip := { c with host := f c.host }
/-- A creation of a namespace of one zone. -/
def createData : List Byte := [0, 0, 8] ++ List.replicate 5 0 ++ [0, 0, 8] ++ List.replicate 117 0

/-- The premises of AdminCommandsAndFeatures are met. -/
theorem witness_AdminCommandsAndFeatures :
    (∃ (s : State) (k : Cmd), s.chip.Interlocked ∧ s.chip.AdminReady 0 k 0x09 ∧ k.sqe.cdw10.toNat.testBit 31 = false ∧ k.sqe.cdw10.toNat % 256 = 7 ∧ (∀ q ∈ (s.chip.ctl 0).sqs, q.id = 0)) ∧
    (∃ (s : State) (k : Cmd), s.chip.AdminReady 0 k 0x09 ∧ k.sqe.cdw10.toNat.testBit 31 = true) ∧
    (∃ (s : State) (k : Cmd), s.chip.Interlocked ∧ s.chip.AdminReady 0 k 0x0A ∧ slice 8 3 k.sqe.cdw10.toNat = 0 ∧ k.sqe.cdw10.toNat % 256 = 2) ∧
    (∃ (s : State) (k : Cmd), s.chip.Interlocked ∧ s.chip.AdminReady 0 k 0x02 ∧ k.sqe.cdw10.toNat % 256 ∈ [0x00, 0x01, 0x04, 0x05, 0xC1, 0xC2, 0xC3] ∧ (k.sqe.cdw10.toNat / 65536 + k.sqe.cdw11.toNat % 65536 * 65536 + 1) * 4 ≤ 262144) ∧
    (∃ (s : State) (k : Cmd), s.chip.Interlocked ∧ s.chip.AdminReady 0 k 0x06 ∧ (match s.chip.identData k with | .inr _ => true | .inl _ => false) = true) ∧
    (∃ (s : State) (k : Cmd), s.chip.Interlocked ∧ s.chip.AdminReady 0 k 0x06 ∧ s.chip.identData k = .inl (0, 0x0B)) ∧
    (∃ (s : State) (k : Cmd), s.chip.Interlocked ∧ s.chip.AdminReady 0 k 0x08 ∧ (∀ e ∈ s.chip.slotsOn 0 (k.sqe.cdw10.toNat % 65536), (e.2.sqe.cid.toNat == k.sqe.cdw10.toNat / 65536 && e.2.waits) = false)) ∧
    (∃ (s : State) (k : Cmd), s.chip.Interlocked ∧ s.chip.AdminReady 0 k 0x0C ∧ (s.chip.ctl 0).events = []) ∧
    (∃ (s : State) (k : Cmd) (e : (Nat × Nat × Nat)) (r : (List) (Nat × Nat × Nat)), s.chip.AdminReady 0 k 0x0C ∧ (s.chip.ctl 0).events = e :: r) ∧
    (∃ (s : State) (k : Cmd), s.chip.Interlocked ∧ s.chip.cmdAt 0 = some k ∧ k.phase = .fetched ∧ k.sq = 0 ∧ k.sqe.opc = 0x18 ∧ k.origin ≠ 1 ∧ k.ctrl < 16 ∧ s.chip.islandUp .cmd = true) ∧
    (∃ (s : State) (m : Ctrl) (t : Nat), s.chip.Interlocked ∧ (s.chip.ctl m.val).kaAt = some t ∧ s.chip.pageUp .cmd = true) ∧
    (∃ (s : State) (k : Cmd), s.chip.Interlocked ∧ s.chip.AdminReady 0 k 0x14 ∧ s.chip.host.selfTest = none ∧ k.sqe.cdw10.toNat % 16 = 2) ∧
    (∃ (s : State) (k : Cmd), s.chip.AdminReady 0 k 0x14 ∧ s.chip.host.selfTest = some (1, 0) ∧ s.chip.now < 0 + secs 120 ∧ k.sqe.cdw10.toNat % 16 = 15) ∧
    (∃ (s : State) (k : Cmd), s.chip.Interlocked ∧ s.chip.AdminReady 0 k 0x1D) ∧
    (∃ (s : State) (k : Cmd) (r : (List Byte)) (rest : (List) (List Byte)), s.chip.Interlocked ∧ s.chip.AdminReady 0 k 0x1E ∧ k.origin = 0 ∧ s.chip.host.miOut = r :: rest) ∧
    (∃ (s : State) (k : Cmd), s.chip.Interlocked ∧ s.chip.AdminReady 0 k k.sqe.opc ∧ k.sqe.opc.toNat ∉ adminOpcodes) :=
  ⟨⟨st (adm nsA 9 0 7 65537), admK 9 0 7 65537, by unfold Chip.AdminReady Chip.Interlocked; decide +kernel⟩,
   ⟨st (adm nsA 9 0 0x80000001 5), admK 9 0 0x80000001 5, by unfold Chip.AdminReady; decide +kernel⟩,
   ⟨st (adm nsA 10 0 2 0), admK 10 0 2 0, by unfold Chip.AdminReady Chip.Interlocked; decide +kernel⟩,
   ⟨st (adm nsA 2 0 0xFFFF0004 0), admK 2 0 0xFFFF0004 0, by unfold Chip.AdminReady Chip.Interlocked; decide +kernel⟩,
   ⟨st (adm nsA 6 5 0 0), admK 6 5 0 0, by unfold Chip.AdminReady Chip.Interlocked; decide +kernel⟩,
   ⟨st (adm nsA 6 0 0 0), admK 6 0 0 0, by unfold Chip.AdminReady Chip.Interlocked; decide +kernel⟩,
   ⟨st (adm nsA 8 0 1 0), admK 8 0 1 0, by unfold Chip.AdminReady Chip.Interlocked; decide +kernel⟩,
   ⟨st (adm nsA 12 0 0 0), admK 12 0 0 0, by unfold Chip.AdminReady Chip.Interlocked; decide +kernel⟩,
   ⟨st (hold (withCtrl up { queues with events := [(2, 1, 0)] }) (admK 12 0 0 0)), admK 12 0 0 0, (2, 1, 0), [], by unfold Chip.AdminReady; decide +kernel⟩,
   ⟨st (adm nsA 0x18 0 0 0), admK 0x18 0 0 0, by unfold Chip.Interlocked; decide +kernel⟩,
   ⟨st (withCtrl up { queues with kaAt := some 3 }), 0, 3, by unfold Chip.Interlocked; decide +kernel⟩,
   ⟨st (adm nsA 0x14 0 2 0), admK 0x14 0 2 0, by unfold Chip.AdminReady Chip.Interlocked; decide +kernel⟩,
   ⟨st (withHost (adm nsA 0x14 0 15 0) fun h => { h with selfTest := some (1, 0) }), admK 0x14 0 15 0, by unfold Chip.AdminReady; decide +kernel⟩,
   ⟨st (adm nsA 0x1D 0 0 0), admK 0x1D 0 0 0, by unfold Chip.AdminReady Chip.Interlocked; decide +kernel⟩,
   ⟨st (withHost (adm nsA 0x1E 0 0 0) fun h => { h with miOut := [[1], [2]] }), admK 0x1E 0 0 0, [1], [[2]], by unfold Chip.AdminReady Chip.Interlocked; decide +kernel⟩,
   ⟨st (adm nsA 0xFF 0 0 0), admK 0xFF 0 0 0, by unfold Chip.AdminReady Chip.Interlocked; decide +kernel⟩⟩

/-- The premises of NamespacesFirmwareSanitizeAndVendor are met. -/
theorem witness_NamespacesFirmwareSanitizeAndVendor :
    (∃ (s : State) (k : Cmd), s.chip.Interlocked ∧ s.chip.cmdAt 0 = some k ∧ k.phase = .fetched ∧ k.sq = 0 ∧ k.origin ≠ 1 ∧ k.ctrl < 16 ∧ s.chip.islandUp .cmd = true ∧ s.chip.mgmt.resumed = true ∧ s.chip.host.sanWait = true ∧ k.sqe.opc = 0xC0) ∧
    (∃ (s : State) (k : Cmd), s.chip.Interlocked ∧ s.chip.AdminReady 0 k 0x0D ∧ k.sqe.cdw10.toNat % 16 = 0 ∧ (match s.chip.createCheck k createData with | .inr _ => true | .inl _ => false) = true) ∧
    (∃ (s : State) (k : Cmd) (n : NsSt), s.chip.Interlocked ∧ s.chip.AdminReady 0 k 0x0D ∧ k.sqe.cdw10.toNat % 16 = 1 ∧ k.sqe.nsid ≠ 0xFFFFFFFF ∧ s.chip.ns? k.sqe.nsid.toNat = some n) ∧
    (∃ (s : State) (k : Cmd) (n : NsSt) (d : (List Byte)), s.chip.Interlocked ∧ s.chip.AdminReady 0 k 0x15 ∧ s.chip.ns? k.sqe.nsid.toNat = some n ∧ n.std = true ∧ k.sqe.cdw10.toNat % 16 ≤ 1 ∧ ctrlListOf d ≠ [] ∧ (∀ i ∈ ctrlListOf d, i < 16 ∧ n.attached.testBit i ≠ (k.sqe.cdw10.toNat % 16 == 0))) ∧
    (∃ (s : State) (k : Cmd), s.chip.Interlocked ∧ s.chip.AdminReady 0 k 0x11 ∧ (k.sqe.cdw10.toNat + 1) * 4 % 4096 = 0 ∧ k.sqe.cdw11.toNat * 4 % 4096 = 0 ∧ k.sqe.cdw11.toNat * 4 + (k.sqe.cdw10.toNat + 1) * 4 ≤ 2 ^ 23) ∧
    (∃ (s : State) (k : Cmd), s.chip.Interlocked ∧ s.chip.AdminReady 0 k 0x10 ∧ k.sqe.cdw10.toNat % 8 ≤ 2 ∧ s.chip.runningSlot ≤ 1 ∧ s.chip.host.download.pieces ≠ [] ∧ slice 3 3 k.sqe.cdw10.toNat = 3 ∧ s.chip.activeLately = false) ∧
    (∃ (s : State) (a : Activation), s.chip.Interlocked ∧ s.chip.host.revert = false ∧ s.chip.host.activation = some a ∧ s.chip.mgmt.resumed = false ∧ a.slot ≤ 1) ∧
    (∃ (s : State) (k : Cmd), s.chip.Interlocked ∧ s.chip.AdminReady 0 k 0x1C ∧ k.ctrl = 0 ∧ k.sqe.cdw10.toNat / 65536 = 15 ∧ k.sqe.cdw10.toNat % 16 = 8 ∧ slice 8 3 k.sqe.cdw10.toNat = 0 ∧ (s.chip.ctl 15).online = false ∧ k.sqe.cdw11.toNat % 65536 ≤ s.chip.unassigned (·.vq) + (s.chip.ctl 15).vq) ∧
    (∃ (s : State) (k : Cmd) (n : NsSt), s.chip.Interlocked ∧ s.chip.AdminReady 0 k 0x80 ∧ s.chip.ns? k.sqe.nsid.toNat = some n ∧ n.fpi = none ∧ k.sqe.cdw10.toNat % 16 ≤ 2 ∧ k.ses ≤ 2 ∧ (n.std = true → k.ses ≠ 1) ∧ slice 5 3 k.sqe.cdw10.toNat = 0 ∧ s.chip.sluice.batches = [] ∧ (∀ e ∈ s.chip.host.slots, e.2.sq ≠ 0 → e.2.sqe.nsid ≠ k.sqe.nsid)) ∧
    (∃ (s : State) (k : Cmd) (n : NsSt), s.chip.Interlocked ∧ s.chip.cmdAt 0 = some k ∧ k.phase = .firmware ∧ k.sq = 0 ∧ k.sqe.opc = 0x80 ∧ s.chip.mgmt.resumed = true ∧ s.chip.ns? k.sqe.nsid.toNat = some n ∧ n.zones = []) ∧
    (∃ (s : State) (k : Cmd), s.chip.Interlocked ∧ s.chip.AdminReady 0 k 0x84 ∧ k.sqe.cdw10.toNat % 8 = 4 ∧ (∀ e ∈ s.chip.host.slots, e.2.phase ≠ .mount)) ∧
    (∃ (s : State) (k : Cmd), s.chip.Interlocked ∧ s.chip.rs.san.action = 4 ∧ s.chip.mgmt.resumed = true ∧ (∀ n ∈ s.chip.host.nss, n.zones = []) ∧ (s.chip.host.nss.map (·.nsid)).Pairwise (· ≠ ·) ∧ s.chip.cmdAt 0 = some k ∧ k.phase = .firmware ∧ k.sq = 0 ∧ k.sqe.opc = 0x84 ∧ s.chip.sanitizeHeld 0 = false) ∧
    (∃ (s : State), s.chip.rs.san.action = 4 ∧ s.chip.rs.san.status = 2 ∧ s.chip.rs.san.erased = false ∧ s.chip.rs.mounted = true) ∧
    (∃ (s : State) (k : Cmd), s.chip.Interlocked ∧ s.chip.AdminReady 0 k 0xC0 ∧ k.ctrl = 0 ∧ k.sqe.cdw11.toNat % 256 + 1 ≤ 128 ∧ k.sqe.cdw10.toNat % 2048 + (k.sqe.cdw11.toNat % 256 + 1) ≤ 1032) ∧
    (∃ (s : State) (k : Cmd) (h : Port) (b : BeamNo), s.chip.Interlocked ∧ s.chip.AdminReady 0 k 0xC1 ∧ k.ctrl = 0 ∧ unitOf 16 0 (slice 8 4 k.sqe.cdw10.toNat) = some h ∧ unitOf 5 0 (slice 12 3 k.sqe.cdw10.toNat) = some b ∧ s.chip.assay.cal.wf = true ∧ k.sqe.cdw10.toNat % 4 = 2 ∧ k.sqe.cdw10.toNat.testBit 2 = true ∧ sext 16 (k.sqe.cdw11.toNat % 65536) = -3) ∧
    (∃ (s : State) (k : Cmd) (n : NsSt), s.chip.Interlocked ∧ s.chip.AdminReady 0 k 0xC2 ∧ s.chip.ns? k.sqe.nsid.toNat = some n ∧ n.std = true ∧ k.ctrl = 0 ∧ Sqe.slba k.sqe = 0 ∧ (n.zone 0).moving = none ∧ (n.zone 0).st = .full ∧ s.chip.sluice.batches = [] ∧ (n.zone 0).bind.isSome = true ∧ (∃ p ∈ s.chip.lib.polders, p.nsid = n.nsid ∧ p.recording = true ∧ p.nextZone < 7450)) ∧
    (∃ (s : State) (k : Cmd) (n : NsSt), s.chip.Interlocked ∧ s.chip.cmdAt 0 = some k ∧ k.phase = .firmware ∧ k.sq = 0 ∧ k.sqe.opc = 0xC2 ∧ s.chip.mgmt.resumed = true ∧ s.chip.ns? k.sqe.nsid.toNat = some n ∧ n.std = true ∧ (n.zone 0).st ≠ .empty ∧ (n.zone 0).moving = some (2, 0) ∧ (n.zone 0).bind = some (1, 0) ∧ s.chip.polder? 2 = none) :=
  ⟨⟨st (withHost (adm nsA 0xC0 0 0 0) fun h => { h with sanWait := true }), admK 0xC0 0 0 0, by unfold Chip.Interlocked; decide +kernel⟩,
   ⟨st (adm nsA 0x0D 0 0 0x2000000), admK 0x0D 0 0 0x2000000, by unfold Chip.AdminReady Chip.Interlocked; decide +kernel⟩,
   ⟨st (adm nsA 0x0D 5 1 0), admK 0x0D 5 1 0, nsA, by unfold Chip.AdminReady Chip.Interlocked; decide +kernel⟩,
   ⟨st (adm nsA 0x15 5 0 0), admK 0x15 5 0 0, nsA, [1, 0, 15, 0], by unfold Chip.AdminReady Chip.Interlocked; decide +kernel⟩,
   ⟨st (adm nsA 0x11 0 1023 (2097152 - 1024)), admK 0x11 0 1023 (2097152 - 1024), by unfold Chip.AdminReady Chip.Interlocked; decide +kernel⟩,
   ⟨st (withHost (adm nsA 0x10 0 24 0) fun h => { h with download := ⟨[0]⟩ }), admK 0x10 0 24 0, by unfold Chip.AdminReady Chip.Interlocked; decide +kernel⟩,
   ⟨st { withHost up (fun h => { h with activation := some ⟨1, none, 0, ⟨1, true, 7⟩⟩ }) with mgmt := {} }, ⟨1, none, 0, ⟨1, true, 7⟩⟩, by unfold Chip.Interlocked; decide +kernel⟩,
   ⟨st (adm nsA 0x1C 0 (15 * 65536 + 8) 0), admK 0x1C 0 (15 * 65536 + 8) 0, by unfold Chip.AdminReady Chip.Interlocked; decide +kernel⟩,
   ⟨st (adm nsA 0x80 5 2 0), admK 0x80 5 2 0, nsA, by unfold Chip.AdminReady Chip.Interlocked; decide +kernel⟩,
   ⟨st (hold (withNs up nsM) { admK 0x80 1 0 0 with phase := .firmware }), { admK 0x80 1 0 0 with phase := .firmware }, nsM, by unfold Chip.Interlocked; decide +kernel⟩,
   ⟨st (adm nsA 0x84 0 4 0), admK 0x84 0 4 0, by unfold Chip.AdminReady Chip.Interlocked; decide +kernel⟩,
   ⟨st (let c := hold (withNs up nsM) { admK 0x84 0 4 0 with phase := .firmware }; { c with rs := { c.rs with san := { c.rs.san with action := 4 } } }), { admK 0x84 0 4 0 with phase := .firmware }, by unfold Chip.Interlocked; decide +kernel⟩,
   ⟨st (let c := withNs up nsM; { c with rs := { c.rs with san := { c.rs.san with action := 4, status := 2 } } }), by decide +kernel⟩,
   ⟨st (adm nsA 0xC0 0 904 127), admK 0xC0 0 904 127, by unfold Chip.AdminReady Chip.Interlocked; decide +kernel⟩,
   ⟨st (adm nsA 0xC1 0 0x4F06 65533), admK 0xC1 0 0x4F06 65533, 15, 4, by unfold Chip.AdminReady Chip.Interlocked; decide +kernel⟩,
   ⟨st { adm { nsA with zones := [(0, { st := .full, bind := some (1, 0) })] } 0xC2 5 0 0 with lib := { up.lib with polders := [{ id := 1, nsid := 5 }] } }, admK 0xC2 5 0 0, { nsA with zones := [(0, { st := .full, bind := some (1, 0) })] }, by unfold Chip.AdminReady Chip.Interlocked; decide +kernel⟩,
   ⟨st (hold (withNs up { nsA with zones := [(0, { st := .full, bind := some (1, 0), moving := some (2, 0) })] }) { admK 0xC2 5 0 0 with phase := .firmware }), { admK 0xC2 5 0 0 with phase := .firmware }, { nsA with zones := [(0, { st := .full, bind := some (1, 0), moving := some (2, 0) })] }, by unfold Chip.Interlocked; decide +kernel⟩⟩

/-- The picker's gate open and its axes homed. -/
def picker : Chip :=
  pickerAxes.foldl (fun (c : Chip) a => c.put (.axis a) Reg.AXIS.AX_STAT_HOMED 1) (up.put .clk Reg.CLK.PEER_GATE_SOLO_PICKER 1)
def withLib (c : Chip) (l : LibSt) : Chip := { c with lib := l }
/-- A request of kind `k` for disc 7, granted spindle `n`. -/
def req (k n : Nat) : SpinReq := { cls := 1, kind := k, spin := n, disc := 7, at' := 0 }
/-- Spindle 0 at standstill. -/
def still (c : Chip) : Chip := (c.put (.spin 0) Reg.SPIN.SPEED_VALID 1).put (.spin 0) Reg.SPIN.SPIN_STAT_STATE 0
def on0 (d : Nat) : Vector (Option Nat) 8 := (Vector.replicate 8 none).set 0 (some d)
/-- The disc 7 on spindle 0, of an OPEN polder 1 whose position 0 it is. -/
def rec7 (state : Nat) : InvRec := { state := state, spindle := 0, polder := 1, position := 0, media := 1, discId := 9 }
def polder1 : Polder := { id := 1, nsid := 5, nextQ := 20, segs := (List.replicate 8 []).set 0 [⟨7, 0⟩] }
def lib1 : LibSt := { polders := [polder1], mounted := on0 7, ready := 1, inv := [(7, rec7 3)] }
def walked : Chip :=
  let c := withCtrl (withLib up lib1) { queues with feats := [(0x0E, 2000000000000)] }
  (c.put .polder Reg.POLDER.POLDER_CTL_WALK_EN 1).put .polder Reg.POLDER.BG_CFG_WALK_PCT 50
/-- The polder 1 with a run of rows, on spindle 0 under a reading beam, and one row with 12 members read. -/
def mended : Polder := { polder1 with runs := [(0, [⟨0, 0, 8⟩])] }
def mends : Chip := withLib (beamUp 1) { lib1 with polders := [mended], sectors := (List.range 12).map fun m => ⟨1, 3, m, 15, some [], 0, none⟩ }
def late : ReadItem := ⟨0, 0, 0, 0, 0, 400, 16, 0, 0, 0, 0, 0, [], false, [⟨1, 3, 15, true⟩]⟩
def move (kind : Nat) (holding : Bool) : PickMove := ⟨7, 2 ^ 20, kind, 0, holding⟩
def spun : Chip := withLib (up.put (.spin 0) Reg.SPIN.SPIN_STAT_STATE 5) { lib1 with ready := 0 }
/-- The first 4,092 bytes of a pressed information record of side `n` of the disc 9. -/
def sideBody (n : Nat) : List Byte :=
  [0x4E, 0x4C, 0x50, 0x49, 0, 1] ++ ([BitVec.ofNat 8 n, 0, 9, 0, 0, 0, 0, 0, 0, 0] ++ List.replicate 4076 0)
def sideA : MediaSector := pressedWith (sideBody 0)
def sideB : MediaSector := pressedWith (sideBody 1)
theorem side_len (n : Nat) : (sideBody n).length = 4092 := by
  rw [sideBody, List.length_append, List.length_append, List.length_replicate]
  simp only [List.length_cons, List.length_nil]
theorem side_head (n : Nat) (z : List Byte) : recField (sideBody n ++ z) 0 4 = 0x49504C4E ∧ recField (sideBody n ++ z) 4 2 = 0x0100 := by
  simp only [sideBody, List.append_assoc]; exact head_ok _
theorem sideA_ok : pressedOf [sideA] = some (parsePressed sideA.payload) := sector_ok _ (side_len 0) (side_head 0)
theorem sideB_ok : pressedOf [sideB] = some (parsePressed sideB.payload) := sector_ok _ (side_len 1) (side_head 1)
def burn1 (step : Nat) (san : Bool) (bad : List (Nat × Nat)) : BurnSt := { bad := bad, disc := 7, side := 0, layer := 7, first := 0, last := 9, step := step, sanitize := san }

/-- The premises of PickerMovesDiscs are met. -/
theorem witness_PickerMovesDiscs :
    (∃ (s : State) (n : Spin) (r : SpinReq), s.chip.Interlocked ∧ s.chip.islandUp .polder = true ∧ s.chip.needsOf = [] ∧ s.chip.bestReq n = some r ∧ (∀ k, s.chip.heldBy n = some k → r.cls < k) ∧ s.chip.mgmt.resumed = true ∧ s.chip.inUnit n = false ∧ s.chip.mustStay n = false) ∧
    (∃ (s : State) (n : Spin) (r : SpinReq), s.chip.Interlocked ∧ s.chip.linkUp = false ∧ s.chip.ownReq n 0 = some r ∧ s.chip.pickerReady = true ∧ (s.chip.inv r.disc).state = 1 ∧ s.chip.slotExists r.disc = true ∧ s.chip.discOn n = none ∧ s.chip.opusParked n = true ∧ s.chip.spinIdle n = true) ∧
    (∃ (s : State) (n : Spin) (r : SpinReq), s.chip.Interlocked ∧ s.chip.linkUp = false ∧ s.chip.ownReq n 1 = some r ∧ s.chip.pickerReady = true ∧ s.chip.discOn n = some r.disc ∧ s.chip.mayUnmount n r.disc = true) ∧
    (∃ (s : State) (n : Spin) (m : PickMove), s.chip.Interlocked ∧ s.chip.linkUp = false ∧ s.chip.lib.move = some m ∧ m.station = n.val ∧ m.kind = 1 ∧ m.holding = true) ∧
    (∃ (s : State) (n : Spin) (m : PickMove), s.chip.Interlocked ∧ s.chip.linkUp = false ∧ s.chip.lib.move = some m ∧ m.station = n.val ∧ m.kind = 2 ∧ m.holding = false) ∧
    (∃ (s : State) (m : PickMove), s.chip.Interlocked ∧ s.chip.linkUp = false ∧ s.chip.lib.move = some m ∧ (∃ a ∈ pickerAxes, s.chip.axisGone a = true) ∧ s.chip.pageUp .inv = true) ∧
    (∃ (s : State) (n : Spin) (m : PickMove) (x : Int) (y : Int), s.chip.Interlocked ∧ s.chip.linkUp = false ∧ s.chip.lib.move = some m ∧ m.station = n.val ∧ m.kind = 1 ∧ m.holding = false ∧ s.chip.gripHeld x = true ∧ s.chip.gripHeld y = false) ∧
    (∃ (s : State) (n : Spin) (d : Nat) (f : DiscFound), s.chip.Interlocked ∧ s.chip.discOn n = some d ∧ bit s.chip.lib.ready n.val = false ∧ s.chip.spState n = 5 ∧ (s.chip.inv d).media ≤ 2 ∧ pressedOf f.upper.pressed = none) ∧
    (∃ (s : State) (n : Spin) (d : Nat) (f : DiscFound) (r : Pressed) (r' : Pressed), s.chip.Interlocked ∧ s.chip.discOn n = some d ∧ bit s.chip.lib.ready n.val = false ∧ s.chip.spState n = 5 ∧ (s.chip.inv d).media ≤ 2 ∧ pressedOf f.upper.pressed = some r ∧ pressedOf f.lower.pressed = some r' ∧ r.side = 0 ∧ r'.side = 1 ∧ (s.chip.inv d).discId = r.discId ∧ r.discId ≠ 0) ∧
    (∃ (s : State) (d : Nat) (r : InvRec) (x : Int), s.chip.Interlocked ∧ s.chip.lib.inv.find? (fun e => e.2.state == 2) = some (d, r) ∧ s.chip.pickerReady = true ∧ s.chip.gripHeld x = false) ∧
    (∃ (s : State) (d : Nat) (r : InvRec), s.chip.Interlocked ∧ s.chip.lib.inv.find? (fun e => e.2.state == 2) = some (d, r) ∧ s.chip.pickerReady = true) :=
  ⟨⟨st (withLib picker { reqs := [req 0 8], inv := [(7, rec7 1)] }), 7, req 0 8, by unfold Chip.Interlocked; decide +kernel⟩,
   ⟨st (let c := withLib (still picker) { reqs := [req 0 0], inv := [(7, rec7 1)] }; { c with rs := { c.rs with geometry := [(0, [0, 0, 0, 0, 1, 1])] } }), 0, req 0 0, by unfold Chip.Interlocked; decide +kernel⟩,
   ⟨st (withLib (still picker) { reqs := [req 1 0], inv := [(7, rec7 3)], mounted := on0 7 }), 0, req 1 0, by unfold Chip.Interlocked; decide +kernel⟩,
   ⟨st (withLib picker { move := some (move 1 true) }), 0, move 1 true, by unfold Chip.Interlocked; decide +kernel⟩,
   ⟨st (withLib picker { move := some (move 2 false) }), 0, move 2 false, by unfold Chip.Interlocked; decide +kernel⟩,
   ⟨st (withLib up { move := some (move 1 true) }), move 1 true, by unfold Chip.Interlocked; decide +kernel⟩,
   ⟨st (withLib (picker.put .polder Reg.POLDER.GRIP_CFG_GRIP_WIN 5) { move := some (move 1 false) }), 0, move 1 false, -5, 6, by unfold Chip.Interlocked; decide +kernel⟩,
   ⟨st spun, 0, 7, ⟨⟨[], [], []⟩, ⟨[], [], []⟩⟩, by unfold Chip.Interlocked; decide +kernel⟩,
   ⟨st spun, 0, 7, ⟨⟨[sideA], [], []⟩, ⟨[sideB], [], []⟩⟩, parsePressed sideA.payload, parsePressed sideB.payload, by unfold Chip.Interlocked; exact ⟨by decide +kernel, by decide +kernel, by decide +kernel, by decide +kernel, by decide +kernel, sideA_ok, sideB_ok, by decide +kernel, by decide +kernel, by decide +kernel, by decide +kernel⟩⟩,
   ⟨st (withLib picker { inv := [(7, rec7 2)] }), 7, rec7 2, -70000, by unfold Chip.Interlocked; decide +kernel⟩,
   ⟨st (withLib picker { inv := [(7, rec7 2)] }), 7, rec7 2, by unfold Chip.Interlocked; decide +kernel⟩⟩

/-- The premises of SurfacesBurnsAndRetiredParts are met. -/
theorem witness_SurfacesBurnsAndRetiredParts :
    (∃ (s : State) (h : Port) (d : Nat), s.chip.Interlocked ∧ s.chip.discAt h = some d ∧ ((s.chip.outstanding d 0).filter (·.layer == 0)) ≠ [] ∧ (let t := (s.chip.syncSurf h).surf d 0; t.testLog = [] ∧ t.finalised = none ∧ 17 < t.blankCtrl 0)) ∧
    (∃ (s : State) (h : Port) (d : Nat), s.chip.Interlocked ∧ s.chip.discAt h = some d ∧ ((s.chip.outstanding d 0).filter (·.layer == 7)) = [] ∧ (s.chip.syncSurf h).layerFull d 0 7 = true ∧ (let t := (s.chip.syncSurf h).surf d 0; t.finalised = none ∧ 7 ∉ t.closed ∧ t.testLog = [] ∧ 17 < t.blankCtrl 0)) ∧
    (∃ (s : State) (h : Port) (d : Nat), s.chip.Interlocked ∧ s.chip.discAt h = some d ∧ (s.chip.syncSurf h).finaliseCause d 0 4 = true ∧ s.chip.outstanding d 0 = [] ∧ (let t := (s.chip.syncSurf h).surf d 0; t.plan = [] ∧ t.finalised = none ∧ 0 < t.blankCtrl 0 ∧ (∀ x ∈ t.ctrl, x.csn ≤ t.csn) ∧ t.testLog = [] ∧ t.openLayer = none)) ∧
    (∃ (s : State) (n : Spin) (d : Nat) (b : BurnSt), s.chip.Interlocked ∧ s.chip.discOn n = some d ∧ bit s.chip.lib.ready n.val = true ∧ s.chip.lib.burns.find? (fun b => b.disc == d && b.side == 0 && b.layer == 7) = some b ∧ 18 < (s.chip.surf d 0).blankCtrl 0 ∧ b.sanitize = true ∧ b.step < 2) ∧
    (∃ (s : State) (n : Spin) (d : Nat) (b : BurnSt) (l : (List) (Nat × Nat)), s.chip.discOn n = some d ∧ bit s.chip.lib.ready n.val = true ∧ s.chip.lib.burns.find? (fun b => b.disc == d && b.side == 0 && b.layer == 7) = some b ∧ 18 < (s.chip.surf d 0).blankCtrl 0 ∧ b.sanitize = false ∧ 2 ≤ b.step ∧ (l.filter fun x => x.1 < 4 && b.first ≤ x.2 && x.2 ≤ b.last && (b.step < 2 || b.bad.contains x)) ≠ [] ∧ l.length ≤ 8000) ∧
    (∃ (s : State) (h : Port) (b : BeamNo), s.chip.Interlocked ∧ s.chip.mgmt.resumed = true ∧ s.chip.pageUp (.head h) = true ∧ 1 ≤ (s.chip.col.cntOf (srcBase (.beam h b) + 1)).last ∧ bit (s.chip.rd (.head h) Reg.HEAD.BEAM_MAP_RETIRED) b.val = false) ∧
    (∃ (s : State) (h : Port), s.chip.Interlocked ∧ bit s.chip.lib.retiredPorts h.val = false ∧ (allBeams.filter fun b => s.chip.liveBeam h b.val).length < 2 ∧ s.chip.discAt h = none) :=
  ⟨⟨st { withLib up lib1 with consumed := [⟨0, 0, 1, 400, 2⟩] }, 0, 7, by unfold Chip.Interlocked; decide +kernel⟩,
   ⟨st ((withLib up lib1).modHd 0 fun x => { x with topSlot := [(28, 480000), (29, 480000), (30, 480000), (31, 480000)] }), 0, 7, by unfold Chip.Interlocked; decide +kernel⟩,
   ⟨st (withLib up { lib1 with surfaces := [(14, { burns := [(7, 0, 9, 0)] })] }), 0, 7, by unfold Chip.Interlocked; decide +kernel⟩,
   ⟨st (withLib up { lib1 with burns := [burn1 1 true []] }), 0, 7, burn1 1 true [], by unfold Chip.Interlocked; decide +kernel⟩,
   ⟨st (withLib up { lib1 with burns := [burn1 2 false [(3, 9)]] }), 0, 7, burn1 2 false [(3, 9)], [(3, 9)], by decide +kernel⟩,
   ⟨st { up with col := { cnt := [(srcBase (.beam 15 4) + 1, { last := 1 })] } }, 15, 4, by unfold Chip.Interlocked; decide +kernel⟩,
   ⟨st (up.put (.head 3) Reg.HEAD.BEAM_MAP_RETIRED 0x0F), 3, by unfold Chip.Interlocked; decide +kernel⟩⟩

/-- The premises of PoldersRecoverCompleteAndWalk are met. -/
theorem witness_PoldersRecoverCompleteAndWalk :
    (∃ (s : State) (i : Island) (j : Island), s.chip.Interlocked ∧ s.chip.islandUp i = false ∧ s.chip.islandUp j = true ∧ s.chip.pageUp .sys = true) ∧
    (∃ (s : State) (pid : (BitVec 64)) (q : (BitVec 24)) (sec : (Fin 16)) (p : Polder) (h : Port) (b : BeamNo), s.chip.Interlocked ∧ s.chip.islandUp .polder = true ∧ s.chip.polder? pid.toNat = some p ∧ p.lag = [] ∧ (s.chip.erasedOf p.id q.toNat sec.val).length = 4 ∧ (p.rowOf q.toNat).isSome = true ∧ s.chip.mayCheck p h b = true) ∧
    (∃ (s : State) (u : (Fin 80)) (n : Nat) (k : ReadItem) (a : ReconCheck) (p : Polder), s.chip.Interlocked ∧ s.chip.islandUp .polder = true ∧ s.chip.stripe.findIdx? (fun k => 5 * k.port + k.beam == u.val) = some n ∧ s.chip.stripe[n]? = some k ∧ k.sec = 16 ∧ k.checks = [a] ∧ s.chip.polder? a.polder = some p ∧ a.q < 2 ^ 24 ∧ s.chip.waitingReads = [] ∧ s.chip.erasedOf p.id a.q a.sec ≠ [] ∧ (s.chip.erasedOf p.id a.q a.sec).length ≤ 4) ∧
    (∃ (s : State) (pid : (BitVec 64)) (q : (BitVec 24)) (sec : (Fin 16)) (p : Polder), s.chip.islandUp .polder = true ∧ s.chip.polder? pid.toNat = some p ∧ p.lag = [] ∧ 4 < (s.chip.erasedOf p.id q.toNat sec.val).length ∧ (p.id, q.toNat, sec.val) ∉ s.chip.lib.retried) ∧
    (∃ (s : State) (pid : (BitVec 64)) (p : Polder) (m : (Fin 16)), s.chip.Interlocked ∧ s.chip.polder? pid.toNat = some p ∧ s.chip.islandUp .polder = true ∧ p.st ≠ .retired ∧ p.targets = [] ∧ (∀ l ∈ p.lag, l.1 ≠ m.val)) ∧
    (∃ (s : State) (pid : (BitVec 64)) (p : Polder), s.chip.Interlocked ∧ s.chip.polder? pid.toNat = some p ∧ p.lagSince = some 0 ∧ p.lag = [(1, 3)] ∧ p.targets = [] ∧ p.st = .degraded ∧ s.chip.mgmt.resumed = true ∧ s.chip.rd .polder Reg.POLDER.POLDER_CTL_COMP_EN ≠ 0 ∧ p.discOf 0 p.nextQ = some 7 ∧ (s.chip.inv 7).usable = true ∧ 3 < p.nextQ) ∧
    (∃ (s : State) (pid : (BitVec 64)) (p : Polder) (t : Target) (m : (Fin 16)), s.chip.Interlocked ∧ s.chip.polder? pid.toNat = some p ∧ p.targets = [t] ∧ t.member = m.val ∧ s.chip.rd .polder Reg.POLDER.POLDER_CTL_COMP_EN ≠ 0 ∧ s.chip.isMounted t.disc = true ∧ t.next + 1 < p.nextQ ∧ p.released? t.next = false ∧ s.chip.waitingReads = [] ∧ ((List.range 16).filter fun k => k == m.val || s.chip.memberLost p t.next k).length ≤ 4) ∧
    (∃ (s : State) (pid : (BitVec 64)) (p : Polder), s.chip.Interlocked ∧ s.chip.polder? pid.toNat = some p ∧ p.st = .opened ∧ p.rows = [] ∧ s.chip.mgmt.resumed = true ∧ p.lag = [] ∧ p.targets = [] ∧ (∀ z ∈ p.zones, (s.chip.zone p.nsid z.2).st.isActive = false)) ∧
    (∃ (s : State) (pid : (BitVec 64)) (p : Polder), s.chip.Interlocked ∧ s.chip.polder? pid.toNat = some p ∧ p.dirLoaded = false ∧ (∃ x ∈ s.chip.discsOf p, s.chip.isMounted x = true)) ∧
    (∃ (s : State) (n : Spin) (x : Nat) (p : Polder), s.chip.Interlocked ∧ s.chip.discOn n = some x ∧ s.chip.polder? (s.chip.inv x).polder = some p ∧ s.chip.walkMay n = true ∧ s.chip.walkPolder.map (·.id) = some p.id ∧ (s.chip.inv x).tWalked + s.chip.walkPeriod < s.chip.wall ∧ p.released? (p.firstRow x) = false ∧ p.firstRow x + 1 < p.nextQ ∧ (∀ g ∈ p.segs.getD (s.chip.inv x).position [], p.firstRow x < g.first → p.firstRow x + 1 < g.first)) ∧
    (∃ (s : State) (x : Nat) (p : Polder) (v : (BitVec 24)) (w : WalkSector), s.chip.Interlocked ∧ s.chip.polder? (s.chip.inv x).polder = some p ∧ (s.chip.inv x).position < 8 ∧ s.chip.weakSector w.check = true ∧ (∃ e ∈ s.chip.lib.walkNow, e.1 = p.id ∧ e.2.1 = v.toNat ∧ bit e.2.2 (s.chip.inv x).position = true)) ∧
    (∃ (s : State), s.chip.Interlocked ∧ s.chip.lib.toRepair ≠ [] ∧ (∃ p ∈ s.chip.lib.polders, p.st = .opened ∧ s.chip.takesRows p = true ∧ p.repairRows < 2048) ∧ s.chip.rd .polder Reg.POLDER.POLDER_CTL_REPAIR_EN ≠ 0 ∧ s.chip.rd .sluice Reg.SLUICE.SLUICE_STAT_SHORT = 0 ∧ s.chip.mgmt.resumed = true) :=
  ⟨⟨st (up.put .clk Reg.CLK.PEER_GATE_GATE 1), .peer, .polder, by unfold Chip.Interlocked; decide +kernel⟩,
   ⟨st mends, 1, 3, 15, mended, 0, 0, by unfold Chip.Interlocked; decide +kernel⟩,
   ⟨st { mends with stripe := [late] }, 0, 0, late, ⟨1, 3, 15, true⟩, mended, by unfold Chip.Interlocked; decide +kernel⟩,
   ⟨st (withLib up lib1), 1, 3, 0, polder1, by decide +kernel⟩,
   ⟨st (withLib up lib1), 1, polder1, 15, by unfold Chip.Interlocked; decide +kernel⟩,
   ⟨st ((withLib up { lib1 with polders := [{ polder1 with lag := [(1, 3)], lagSince := some 0, st := .degraded }] }).put .polder Reg.POLDER.POLDER_CTL_COMP_EN 1), 1, { polder1 with lag := [(1, 3)], lagSince := some 0, st := .degraded }, by unfold Chip.Interlocked; decide +kernel⟩,
   ⟨st ((withLib up { lib1 with polders := [{ polder1 with segs := List.replicate 8 [⟨7, 0⟩], targets := [⟨1, 18, 7⟩] }] }).put .polder Reg.POLDER.POLDER_CTL_COMP_EN 1), 1, { polder1 with segs := List.replicate 8 [⟨7, 0⟩], targets := [⟨1, 18, 7⟩] }, ⟨1, 18, 7⟩, 1, by unfold Chip.Interlocked; decide +kernel⟩,
   ⟨st (withLib up lib1), 1, polder1, by unfold Chip.Interlocked; decide +kernel⟩,
   ⟨st (withLib up { lib1 with polders := [{ polder1 with dirLoaded := false }] }), 1, { polder1 with dirLoaded := false }, by unfold Chip.Interlocked; decide +kernel⟩,
   ⟨st walked, 0, 7, polder1, by unfold Chip.Interlocked; decide +kernel⟩,
   ⟨st (withLib up { lib1 with walkNow := [(1, 3, 255)] }), 7, polder1, 3, ⟨1, 15, ⟨3, 0, 0⟩⟩, by unfold Chip.Interlocked; decide +kernel⟩,
   ⟨st ((withLib up { lib1 with toRepair := [(1, 3, 4)] }).put .polder Reg.POLDER.POLDER_CTL_REPAIR_EN 1), by unfold Chip.Interlocked; decide +kernel⟩⟩

/-- The peer page enabled, lanes trained, PAIR_STAT.STATE `n`, HOLDER `hold`, LINK_UP `link`, and the peer island's state `p`. -/
def pair (n hold link : Nat) (p : PeerSt) : Chip :=
  let c := (up.put .peer Reg.HDR.PAGE_CTL_EN 1).put .peer Reg.PEER.PAIR_STAT_STATE n
  { (c.put .peer Reg.PEER.PAIR_STAT_HOLDER hold).put .peer Reg.PEER.PAIR_STAT_LINK_UP link with peer := p }
def paired (p : PeerSt) : Chip := pair 2 1 1 { p with lanes := 4 }
def head0 : DaxHead := ⟨0, 0, 0⟩
def frame1 : DaxFrame := { seq := 5, typ := 2, len := 0, at' := 0 }
def copy1 : BatchCopy := ⟨9, 1, 5, 0, 0, 1, 1, [⟨[0], []⟩]⟩
def withBatch (c : Chip) (b : Batch) : Chip := { c with sluice := { c.sluice with batches := [b] } }

/-- The premises of DaxlinkCarriesThePair are met. -/
theorem witness_DaxlinkCarriesThePair :
    (∃ (s : State), s.chip.Interlocked ∧ s.chip.pairing = true ∧ s.chip.peer.lanes = 0 ∧ s.chip.linkUp = false ∧ s.chip.pageUp .peer = true) ∧
    (∃ (s : State) (h : DaxHead), s.chip.Interlocked ∧ s.chip.pairing = true ∧ s.chip.peer.lanes ≠ 0 ∧ s.chip.pageUp .peer = true ∧ h.seq ≠ s.chip.peer.ctl.rx) ∧
    (∃ (s : State) (h : DaxHead) (m : Bool), s.chip.Interlocked ∧ s.chip.Accepts false h ∧ s.chip.linkUp = true ∧ (∀ f ∈ (s.chip.chan m).unacked, f.seq ≠ if m then h.ackMir else h.ackCtl) ∧ (s.chip.chan m).waiting = []) ∧
    (∃ (s : State) (m : Bool), s.chip.Interlocked ∧ s.chip.pairing = true ∧ (s.chip.chan m).unacked ≠ []) ∧
    (∃ (s : State) (h : DaxHead) (m : Hello), s.chip.Interlocked ∧ s.chip.Accepts false h ∧ s.chip.linkUp = false ∧ s.chip.peer.helloIn = false ∧ m.version = 0x0100 ∧ b2n m.role1 ≠ s.chip.role ∧ s.chip.peer.helloOut = true ∧ s.chip.peer.ctl.unacked = [] ∧ s.chip.peer.ctl.waiting = []) ∧
    (∃ (s : State) (h : DaxHead), s.chip.Interlocked ∧ s.chip.Accepts false h ∧ s.chip.linkUp = true ∧ s.chip.pairState ≠ 2) ∧
    (∃ (s : State), s.chip.Interlocked ∧ s.chip.pairing = true ∧ s.chip.linkUp = true ∧ s.chip.peer.lanes ≠ 0 ∧ s.chip.pairState ≠ 1 ∧ s.chip.pageUp .peer = true) ∧
    (∃ (s : State) (h : DaxHead) (b : BatchCopy) (k : Nat), s.chip.Interlocked ∧ s.chip.linkUp = true ∧ s.chip.Accepts true h ∧ assocGet b.seq s.chip.peer.mirror = none ∧ b.data.length = b.nlb ∧ s.chip.freeSlot = some k) ∧
    (∃ (s : State) (h : DaxHead) (b : BatchCopy) (x : Batch), s.chip.Interlocked ∧ s.chip.linkUp = true ∧ s.chip.Accepts true h ∧ s.chip.sluice.batches.find? (fun x => x.seq == some b.seq) = some x ∧ assocGet b.seq s.chip.peer.ownIn = none ∧ b.data.length = b.nlb ∧ x.nlb = b.nlb) ∧
    (∃ (s : State) (h : DaxHead) (k : Cmd), s.chip.Accepts true h ∧ s.chip.cmdAt 0 = some k ∧ k.phase = .forwarded ∧ k.origin = 0 ∧ k.ctrl < 16) ∧
    (∃ (s : State) (h : DaxHead) (b : Batch), s.chip.Interlocked ∧ s.chip.linkUp = true ∧ s.chip.Accepts false h ∧ s.chip.sluice.batches.find? (fun b => b.seq == some 1) = some b ∧ s.chip.batch? b.id = some b ∧ b.slot = some 0 ∧ b.rows ≠ [] ∧ s.chip.shared b.nsid = false ∧ s.chip.peer.handback = none) ∧
    (∃ (s : State) (h : DaxHead) (b : Batch), s.chip.linkUp = true ∧ s.chip.Accepts false h ∧ b ∈ s.chip.sluice.batches ∧ b.releasing = true ∧ b.seq = some 1 ∧ b.slot = none) ∧
    (∃ (s : State) (h : DaxHead) (e : (Nat × BatchCopy)), s.chip.linkUp = true ∧ s.chip.Accepts false h ∧ e ∈ s.chip.peer.mirror ∧ 9 ≤ e.1 ∧ e.1 ≤ 9 ∧ e.2.data.length = e.2.nlb ∧ 0 < e.2.nlb) ∧
    (∃ (s : State) (r : SpinReq), s.chip.linkUp = true ∧ s.chip.Accepts false head0 ∧ s.chip.peer.pickOut.contains r.disc = true ∧ s.chip.ownReq 0 0 = some r ∧ r.kind = 0) ∧
    (∃ (s : State) (r : SpinReq), s.chip.linkUp = true ∧ s.chip.Accepts false head0 ∧ s.chip.peer.pickOut.contains r.disc = true ∧ s.chip.ownReq 0 1 = some r ∧ r.kind = 1) :=
  ⟨⟨st (pair 1 0 0 {}), by unfold Chip.Interlocked; decide +kernel⟩,
   ⟨st (paired {}), ⟨1, 0, 0⟩, by unfold Chip.Interlocked; decide +kernel⟩,
   ⟨st (paired { mir := { unacked := [frame1] } }), head0, true, by unfold Chip.Accepts Chip.Interlocked; decide +kernel⟩,
   ⟨st (paired { ctl := { unacked := [frame1] } }), false, by unfold Chip.Interlocked; decide +kernel⟩,
   ⟨st (pair 4 0 0 { lanes := 4, helloOut := true }), head0, ⟨7, true, 0x0100, [], 3⟩, by unfold Chip.Accepts Chip.Interlocked; decide +kernel⟩,
   ⟨st (pair 1 0 1 { lanes := 4 }), head0, by unfold Chip.Accepts Chip.Interlocked; decide +kernel⟩,
   ⟨st (paired {}), by unfold Chip.Interlocked; decide +kernel⟩,
   ⟨st (paired {}), head0, copy1, 0, by unfold Chip.Accepts Chip.Interlocked; decide +kernel⟩,
   ⟨st (withBatch (paired {}) batch1), head0, { copy1 with seq := 1 }, batch1, by unfold Chip.Accepts Chip.Interlocked; decide +kernel⟩,
   ⟨st (hold (paired {}) { cmd 1 2 5 0 0 0 0 with phase := .forwarded }), head0, { cmd 1 2 5 0 0 0 0 with phase := .forwarded }, by unfold Chip.Accepts; decide +kernel⟩,
   ⟨st (withBatch (paired {}) { batch1 with rows := [0] }), head0, { batch1 with rows := [0] }, by unfold Chip.Accepts Chip.Interlocked; decide +kernel⟩,
   ⟨st (withBatch (paired {}) { batch1 with slot := none, releasing := true }), head0, { batch1 with slot := none, releasing := true }, by unfold Chip.Accepts; decide +kernel⟩,
   ⟨st (paired { mirror := [(9, copy1)] }), head0, (9, copy1), by unfold Chip.Accepts; decide +kernel⟩,
   ⟨st (withLib (paired { pickOut := [7] }) { reqs := [req 0 0] }), req 0 0, by unfold Chip.Accepts; decide +kernel⟩,
   ⟨st (withLib (paired { pickOut := [7] }) { reqs := [req 1 0], mounted := on0 7 }), req 1 0, by unfold Chip.Accepts; decide +kernel⟩⟩

/-- The premises of LeaseStatesAndFences are met. -/
theorem witness_LeaseStatesAndFences :
    (∃ (s : State), s.chip.Interlocked ∧ s.chip.pairing = true ∧ s.chip.isHolder = true ∧ s.chip.linkUp = false ∧ s.chip.peer.stopped = false ∧ s.chip.pageUp .peer = true) ∧
    (∃ (s : State) (t : Nat), s.chip.Interlocked ∧ s.chip.pairing = true ∧ s.chip.isHolder = true ∧ s.chip.peer.acquiredAt = some t ∧ s.chip.pairState = 3 ∧ (∀ a ∈ pickerAxes, s.chip.rd (.axis a) Reg.AXIS.AX_STAT_HOMED ≠ 0) ∧ (∀ e ∈ s.chip.lib.inv, e.2.state ≠ 2)) ∧
    (∃ (s : State) (t : Nat), s.chip.Interlocked ∧ s.chip.pairing = true ∧ s.chip.isHolder = true ∧ s.chip.peer.tL = some t ∧ s.chip.linkUp = false ∧ s.chip.peer.pFreed = false ∧ s.chip.rd .peer Reg.PEER.PAIR_CTL_ASSERT_EN ≠ 0 ∧ s.chip.pairState = 3 ∧ s.chip.peer.takeover = 0) ∧
    (∃ (s : State), s.chip.pairing = true ∧ s.chip.isHolder = true ∧ s.chip.peer.takeover = 1 ∧ s.chip.mgmt.resumed = true) ∧
    (∃ (s : State) (t : Nat) (v : (BitVec 64)), s.chip.Interlocked ∧ s.chip.peer.ops = [(.readLease, t)] ∧ s.chip.isHolder = false ∧ s.chip.linkUp = false ∧ s.chip.pairState ≠ 0 ∧ s.chip.pairState ≠ 5 ∧ leaseHolder v.toNat = 0 ∧ s.chip.pageUp .peer = true) ∧
    (∃ (s : State) (t : Nat), s.chip.Interlocked ∧ s.chip.peer.ops = [(.cas 1 2 false, t)] ∧ s.chip.pairState ≠ 0 ∧ s.chip.pairState ≠ 5) ∧
    (∃ (s : State) (t : Nat) (v : (BitVec 64)), s.chip.Interlocked ∧ s.chip.peer.ops = [(.cas 1 2 true, t)] ∧ s.chip.isHolder = true ∧ s.chip.now < s.chip.peer.s + ms 400 ∧ leaseGen v.toNat ≠ leaseGen s.chip.lease ∧ s.chip.pairState ≠ 5) ∧
    (∃ (s : State) (t : Nat), s.chip.Interlocked ∧ s.chip.peer.ops = [(.readStatus, t)] ∧ s.chip.pageUp .peer = true) ∧
    (∃ (s : State) (t : Nat), s.chip.Interlocked ∧ s.chip.pairing = true ∧ s.chip.isHolder = false ∧ s.chip.linkUp = false ∧ s.chip.peer.tL = some t ∧ s.chip.pairState ≠ 4 ∧ s.chip.pairState ≠ 5) ∧
    (∃ (s : State), s.chip.Interlocked ∧ s.chip.pairing = true ∧ s.chip.pins.fenceDrive = false ∧ s.chip.isHolder = false ∧ s.chip.pairState ≠ 0 ∧ s.chip.pairState ≠ 5) ∧
    (∃ (s : State) (r : Requester), s.chip.Interlocked ∧ s.chip.Writable r .peer ∧ s.chip.pairState = 5) ∧
    (∃ (s : State) (n : Nat), s.chip.Interlocked ∧ s.chip.pairing = true ∧ s.chip.linkUp = true ∧ s.chip.pairState = 1 ∧ s.chip.peer.join = n ∧ n = 3 ∧ s.chip.peer.mir.unacked = [] ∧ s.chip.peer.mir.waiting = [] ∧ s.chip.peer.pState = 2) ∧
    (∃ (s : State) (r : Requester), s.chip.Interlocked ∧ s.chip.Writable r .peer ∧ s.chip.role ≤ 1 ∧ s.chip.pairState = 2 ∧ s.chip.owns s.chip.awayGroup = true ∧ s.chip.peer.handback = none ∧ s.chip.sluice.batches = []) ∧
    (∃ (s : State) (r : Requester), s.chip.Writable r .peer ∧ s.chip.pairState = 2 ∧ s.chip.owns s.chip.awayGroup = true ∧ (∃ b ∈ s.chip.sluice.batches, s.chip.group b.nsid = s.chip.awayGroup ∧ b.kind ≠ 0 ∧ b.seq.isSome = true ∧ b.mirrored = false)) ∧
    (∃ (s : State) (k : Nat) (r : Requester), s.chip.Interlocked ∧ s.chip.isl.aonUp = true ∧ s.chip.freeSlot = some k ∧ s.chip.Writable r .clk ∧ s.chip.pairState = 0) :=
  ⟨⟨st (pair 3 1 0 {}), by unfold Chip.Interlocked; decide +kernel⟩,
   ⟨st { (picker.put .peer Reg.HDR.PAGE_CTL_EN 1).put .peer Reg.PEER.PAIR_STAT_STATE 3 |>.put .peer Reg.PEER.PAIR_STAT_HOLDER 1 with peer := { acquiredAt := some 4 } }, 4, by unfold Chip.Interlocked; decide +kernel⟩,
   ⟨st ((pair 3 1 0 { tL := some 2 }).put .peer Reg.PEER.PAIR_CTL_ASSERT_EN 1), 2, by unfold Chip.Interlocked; decide +kernel⟩,
   ⟨st (pair 3 1 0 { takeover := 1 }), by decide +kernel⟩,
   ⟨st (pair 1 0 0 { ops := [(.readLease, 3)] }), 3, 0xFFFFFFFFFFFFFF00, by unfold Chip.Interlocked; decide +kernel⟩,
   ⟨st (pair 4 0 0 { ops := [(.cas 1 2 false, 0)] }), 0, by unfold Chip.Interlocked; decide +kernel⟩,
   ⟨st { pair 3 1 0 { ops := [(.cas 1 2 true, 0)], s := 0 } with tb := 39999999 }, 0, 0x100000000, by unfold Chip.Interlocked; decide +kernel⟩,
   ⟨st (pair 3 1 0 { ops := [(.readStatus, 0)] }), 0, by unfold Chip.Interlocked; decide +kernel⟩,
   ⟨st (pair 1 0 0 { tL := some 0 }), 0, by unfold Chip.Interlocked; decide +kernel⟩,
   ⟨st (pair 4 0 0 {}), by unfold Chip.Interlocked; decide +kernel⟩,
   ⟨st (pair 5 0 0 {}), .i3c, by unfold Chip.Writable Chip.Reach Chip.Interlocked; decide +kernel⟩,
   ⟨st (pair 1 0 1 { join := 3, pState := 2 }), 3, by unfold Chip.Interlocked; decide +kernel⟩,
   ⟨st ((paired {}).put .peer Reg.PEER.PAIR_STAT_OWN_4 1), .host, by unfold Chip.Writable Chip.Reach Chip.Interlocked; decide +kernel⟩,
   ⟨st (let c := (paired {}).put .peer Reg.PEER.PAIR_STAT_OWN_4 1; withBatch { c with host := { c.host with nss := [{ nsA with ana := 4 }] } } batch1), .host, by unfold Chip.Writable Chip.Reach; decide +kernel⟩,
   ⟨st up, 0, .host, by unfold Chip.Writable Chip.Reach Chip.Interlocked; decide +kernel⟩⟩

/-- Engine 0 running, with an entry of operation `op`, P = 1, Q = 2 and R = `r` next, in chain `chain`; `bad` chains are missed. -/
def engine (op chain r : Nat) (bad : List Nat) : Chip :=
  let c := (up.put (.loop 0) Reg.HDR.PAGE_CTL_EN 1).put (.loop 0) Reg.HDR.PAGE_STAT_STATE 1
  let c := c.put (.loop 0) Reg.LOOP.OWN_HEAD_HEADS 1
  { c with engs := c.engs.set 0 { next := 0, missed := bad, mem :=
      [(0, BitVec.ofNat 32 (op * 4096 + chain * 65536)), (1, BitVec.ofNat 32 (1 + 2 * 1024 + r * 2 ^ 20)), (0x1900, 3)] } }
/-- A trace unit with a buffer of one sample. -/
def trace (n : Nat) (x : TraceSt) : Chip :=
  let c := up.put (.trace 0) Reg.TRACE.TR_STAT_STATE n
  { c with traces := c.traces.set 0 x }

/-- The premises of ScheduleEntriesExecute are met. -/
theorem witness_ScheduleEntriesExecute :
    (∃ (s : State) (e : Eng) (k : (Fin 3)), s.chip.Interlocked ∧ s.chip.engRuns e = true ∧ (s.chip.en e).next < 1024 ∧ k.val ≠ 2 ∧ (let t := (s.chip.en e).entry (s.chip.engBank e) (s.chip.en e).next; t.chain ∉ (s.chip.en e).missed ∧ s.chip.chainHeld e t.chain = false ∧ t.op = 1 ∧ (match s.chip.readSid t.r (t.arg % 8) (slice 3 2 t.arg) with | .ok _ => true | .error _ => false) = true)) ∧
    (∃ (s : State) (e : Eng), s.chip.Interlocked ∧ s.chip.engRuns e = true ∧ (let t := (s.chip.en e).entry (s.chip.engBank e) (s.chip.en e).next; t.op = 8 ∧ (let ins := (s.chip.en e).nodeInputs (s.chip.engBank e) 0; ∃ i ∈ ins, (∀ j ∈ ins, j.1 < i.1 → (s.chip.en e).loc i.2.1 < (s.chip.en e).loc j.2.1) ∧ (∀ j ∈ ins, (s.chip.en e).loc i.2.1 ≤ (s.chip.en e).loc j.2.1)))) ∧
    (∃ (s : State) (e : Eng) (h : Port), s.chip.Interlocked ∧ s.chip.engRuns e = true ∧ (let t := (s.chip.en e).entry (s.chip.engBank e) (s.chip.en e).next; t.op = 9 ∧ 0x400 ≤ t.r ∧ t.r < 0x600 ∧ h.val = (t.r - 0x400) / 32 ∧ s.chip.headOwner h = some e)) ∧
    (∃ (s : State) (e : Eng), s.chip.engRuns e = true ∧ (let t := (s.chip.en e).entry (s.chip.engBank e) (s.chip.en e).next; t.op = 9 ∧ t.r < 0x400 ∧ t.chain ∈ (s.chip.en e).missed)) ∧
    (∃ (s : State) (e : Eng) (h : Port), s.chip.engRuns e = true ∧ (let t := (s.chip.en e).entry (s.chip.engBank e) (s.chip.en e).next; t.op = 10 ∧ h.val = t.r % 16 ∧ s.chip.headOwner h = some e)) ∧
    (∃ (s : State) (e : Eng), s.chip.engRuns e = true ∧ ((s.chip.en e).entry (s.chip.engBank e) (s.chip.en e).next).chain ≠ 0) :=
  ⟨⟨st (let c := engine 1 3 0x300 []; { c with exch := [(0x300, ⟨0, 0, true⟩)] }), 0, 1, by unfold Chip.Interlocked; decide +kernel⟩,
   ⟨st (engine 8 0 0 []), 0, by unfold Chip.Interlocked; decide +kernel⟩,
   ⟨st (engine 9 0 0x41F []), 0, 0, by unfold Chip.Interlocked; decide +kernel⟩,
   ⟨st (engine 9 255 0x3FF [255]), 0, by decide +kernel⟩,
   ⟨st (engine 10 0 0 []), 0, 0, by decide +kernel⟩,
   ⟨st (engine 2 1 0 []), 0, by decide +kernel⟩⟩

/-- The premises of BanksAndTraceUnits are met. -/
theorem witness_BanksAndTraceUnits :
    (∃ (s : State) (r : Requester) (e : Eng), s.chip.Interlocked ∧ s.chip.Writable r (.loop e) ∧ s.chip.Writable r (.trace e) ∧ s.chip.rd (.loop e) Reg.LOOP.ENG_STAT_VALIDATING = 0 ∧ s.chip.rd (.loop e) Reg.LOOP.ENG_STAT_COPYING = 0 ∧ s.chip.commitOpen (.loop e) = false) ∧
    (∃ (s : State) (r : Requester) (e : Eng), s.chip.Interlocked ∧ s.chip.Writable r (.loop e) ∧ s.chip.Writable r (.trace e) ∧ s.chip.traceReady e = true) ∧
    (∃ (s : State) (e : Eng), s.chip.Interlocked ∧ s.chip.rd (.loop e) Reg.LOOP.ENG_STAT_COPYING ≠ 0 ∧ s.chip.engBank e < 2 ∧ (s.chip.en e).mem.wf = true) ∧
    (∃ (s : State) (e : Eng), s.chip.Interlocked ∧ s.chip.rd (.loop e) Reg.LOOP.ENG_STAT_VALIDATING ≠ 0 ∧ (s.chip.en e).valBank < 2 ∧ (s.chip.en e).valTouched = false) ∧
    (∃ (s : State) (e : Eng), s.chip.rd (.loop e) Reg.LOOP.MEM_ADDR_AUTOINC = 0 ∧ s.chip.engBank e < 2 ∧ s.chip.commitOpen (.loop e) = false ∧ (let a := s.chip.rd (.loop e) Reg.LOOP.MEM_ADDR_ADDR; a < 0x8000 ∧ a % 0x4000 < 0x1A00 ∧ a / 0x4000 ≠ s.chip.engBank e)) ∧
    (∃ (s : State) (e : Eng), s.chip.rd (.loop e) Reg.LOOP.MEM_ADDR_AUTOINC = 0 ∧ s.chip.engBank e < 2 ∧ 0x8000 ≤ s.chip.rd (.loop e) Reg.LOOP.MEM_ADDR_ADDR ∧ s.chip.rd (.loop e) Reg.LOOP.MEM_ADDR_ADDR < 0x8C20) ∧
    (∃ (s : State) (e : Eng), s.chip.Interlocked ∧ s.chip.rd (.trace e) Reg.TRACE.TR_STAT_STATE = 1 ∧ (s.chip.tr e).cont = false ∧ s.chip.frameNum.toNat % ((s.chip.tr e).decim + 1) = 0 ∧ (s.chip.tr e).buf.length < 16384 ∧ (s.chip.tr e).pending = true ∧ (s.chip.tr e).pre < 16383) ∧
    (∃ (s : State) (e : Eng), s.chip.rd (.trace e) Reg.TRACE.TR_STAT_STATE = 2 ∧ s.chip.frameNum.toNat % ((s.chip.tr e).decim + 1) = 0 ∧ 1 < (s.chip.tr e).left) ∧
    (∃ (s : State) (e : Eng) (row : (List Word)) (w : Word) (nd : TraceNode), s.chip.Interlocked ∧ (s.chip.tr e).buf.reverse[s.chip.rd (.trace e) Reg.TRACE.TR_RD_ADDR_INDEX]? = some row ∧ row[s.chip.rd (.trace e) Reg.TRACE.TR_RD_ADDR_NODE]? = some w ∧ (s.chip.tr e).nodes[s.chip.rd (.trace e) Reg.TRACE.TR_RD_ADDR_NODE]? = some nd ∧ nd.kind ≠ 3) :=
  ⟨⟨st up, .host, 3, by unfold Chip.Writable Chip.Reach Chip.Interlocked; decide +kernel⟩,
   ⟨st ((up.put (.trace 3) Reg.HDR.PAGE_CTL_EN 1).put (.trace 3) Reg.HDR.PAGE_STAT_STATE 1), .host, 3, by unfold Chip.Writable Chip.Reach Chip.Interlocked; decide +kernel⟩,
   ⟨st ((engine 1 0 0 []).put (.loop 0) Reg.LOOP.ENG_STAT_COPYING 1), 0, by unfold Chip.Interlocked; decide +kernel⟩,
   ⟨st (up.put (.loop 1) Reg.LOOP.ENG_STAT_VALIDATING 1), 1, by unfold Chip.Interlocked; decide +kernel⟩,
   ⟨st (((up.put (.loop 0) Reg.LOOP.MEM_ADDR_ADDR 0x59FF).put (.loop 0) Reg.LOOP.MEM_ADDR_AUTOINC 0).put (.loop 0) Reg.LOOP.ENG_STAT_ACTIVE_BANK 0), 0, by decide +kernel⟩,
   ⟨st (((up.put (.loop 0) Reg.LOOP.MEM_ADDR_ADDR 0x8C1F).put (.loop 0) Reg.LOOP.MEM_ADDR_AUTOINC 0).put (.loop 0) Reg.LOOP.ENG_STAT_ACTIVE_BANK 1), 0, by decide +kernel⟩,
   ⟨st (trace 1 { pending := true, pre := 16382 }), 0, by unfold Chip.Interlocked; decide +kernel⟩,
   ⟨st (trace 2 { left := 2 }), 0, by decide +kernel⟩,
   ⟨st (trace 3 { nodes := [{}], buf := [[42]] }), 0, [42], 42, {}, by unfold Chip.Interlocked; decide +kernel⟩⟩

/-- Port 0 with its laser on, SRV_STAT.STATE `n` and the servo state `x`. -/
def servo (n : Nat) (x : ServoSt) : Chip :=
  let c := lasing.put (.head 0) Reg.HEAD.SRV_STAT_STATE n
  { c with servos := c.servos.set 0 x }

/-- The premises of ServoCommandsAndFields are met. -/
theorem witness_ServoCommandsAndFields :
    (∃ (s : State) (h : Port) (_l : (Fin 8)) (t : (BitVec 16)), s.chip.Interlocked ∧ s.chip.linkState h = 3 ∧ s.chip.killHigh h = true ∧ s.chip.headQuenched h = false ∧ t.toNat ≤ 50028 ∧ s.chip.srvState h = 11) ∧
    (∃ (s : State) (h : Port) (l : (Fin 8)), s.chip.Interlocked ∧ s.chip.linkState h = 3 ∧ s.chip.killHigh h = true ∧ s.chip.headQuenched h = false ∧ s.chip.srvState h = 4 ∧ l.val ≠ s.chip.portLayer h ∧ (s.chip.sv h).inRec = false) ∧
    (∃ (s : State) (h : Port), s.chip.Interlocked ∧ s.chip.srvState h = 9 ∧ (s.chip.sv h).cmd ≠ 0) ∧
    (∃ (s : State) (h : Port), s.chip.Interlocked ∧ (s.chip.linkState h ≠ 3 ∨ s.chip.killHigh h = false ∨ s.chip.headQuenched h = true)) ∧
    (∃ (s : State) (h : Port), s.chip.Interlocked ∧ s.chip.srvState h = 6 ∧ s.chip.rd (.head h) Reg.HEAD.RECOVER_CTL_AUTO ≠ 0 ∧ (s.chip.sv h).recs = [] ∧ (s.chip.sv h).cmd ≠ 0) ∧
    (∃ (s : State) (h : Port), s.chip.Interlocked ∧ s.chip.srvState h = 8 ∧ (s.chip.sv h).phase = .walk ∧ s.chip.rd (.head h) Reg.HEAD.SRV_STAT_FOCUS_LOCK = 0 ∧ (s.chip.sv h).gTrk = false) ∧
    (∃ (s : State) (h : Port), s.chip.Interlocked ∧ (s.chip.sv h).phase = .refine ∧ 1024 ≤ (s.chip.sv h).fields ∧ (s.chip.sv h).dMax = some 40960 ∧ (s.chip.sv h).dMin = some 0 ∧ (s.chip.sv h).kappaWrite = none ∧ (let old := s.chip.kappa h (s.chip.portLayer h); s.chip.portLayer h < 8 ∧ ((40960 : Int).toNat * 16 + 32768) / 65536 < 256 ∧ 4 * ((40960 : Int) * 16 - old * 65536).natAbs ≤ old * 65536)) ∧
    (∃ (s : State) (r : Requester) (h : Port) (b : BeamNo), s.chip.Interlocked ∧ s.chip.Writable r (.head h) ∧ b ∉ s.chip.workers h ∧ s.chip.demodRuns h b = false) ∧
    (∃ (s : State) (h : Port) (b : BeamNo), s.chip.Interlocked ∧ b ∉ s.chip.workers h ∧ s.chip.pageUp (.head h) = true ∧ s.chip.demodRuns h b = true) :=
  ⟨⟨st (servo 11 {}), 0, 7, 50028, by unfold Chip.Interlocked; decide +kernel⟩,
   ⟨st (servo 4 {}), 0, 1, by unfold Chip.Interlocked; decide +kernel⟩,
   ⟨st (servo 9 { cmd := 3 }), 0, by unfold Chip.Interlocked; decide +kernel⟩,
   ⟨st up, 15, by unfold Chip.Interlocked; decide +kernel⟩,
   ⟨st ((servo 6 { cmd := 2 }).put (.head 0) Reg.HEAD.RECOVER_CTL_AUTO 1), 0, by unfold Chip.Interlocked; decide +kernel⟩,
   ⟨st (servo 8 { phase := .walk }), 0, by unfold Chip.Interlocked; decide +kernel⟩,
   ⟨st ((servo 3 { phase := .refine, fields := 1024, dMax := some 40960, dMin := some 0 }).put (.head 0) Reg.HEAD.KAPPA_LO_K0_K3 10), 0, by unfold Chip.Interlocked; decide +kernel⟩,
   ⟨st (up.put (.head 0) Reg.HEAD.BEAM_MAP_RETIRED 1), .host, 0, 0, by unfold Chip.Writable Chip.Reach Chip.Interlocked; decide +kernel⟩,
   ⟨st ((set (set up (.head 0) Reg.HEAD.BEAM_MAP_SPARE 0) (.head 0) Reg.HEAD.RAMP_CFG_DEMOD_PMIN 0)), 0, 0, by unfold Chip.Interlocked; decide +kernel⟩⟩

/-- Spindle 0 with SPIN_STAT.STATE `n`, at standstill, and the state `x`. -/
def spin (n : Nat) (x : SpinSt) : Chip :=
  let c := (up.put (.spin 0) Reg.SPIN.SPEED_VALID 1).put (.spin 0) Reg.SPIN.SPIN_STAT_STATE n
  { c with spins := c.spins.set 0 x }

/-- The premises of SpindlesFollowTheirCommands are met. -/
theorem witness_SpindlesFollowTheirCommands :
    (∃ (s : State) (n : Spin), s.chip.Interlocked ∧ s.chip.rd (.spin n) Reg.HDR.PAGE_STAT_STATE ≠ 3 ∧ s.chip.spQuenched n = false ∧ s.chip.spState n = 1 ∧ s.chip.spSpeed n = 0 ∧ s.chip.spValid n = true ∧ s.chip.enabled (.spin n) = true) ∧
    (∃ (s : State) (n : Spin) (t : Nat), s.chip.Interlocked ∧ (s.chip.sp n).wakeAt = some t ∧ s.chip.spState n = 0 ∧ s.chip.spSpeed n = 0 ∧ s.chip.spValid n = true) ∧
    (∃ (s : State) (n : Spin), s.chip.spState n = 5 ∧ ((256 * s.chip.rd (.spin n) Reg.SPIN.BRAKE_CFG_SHORT_RPM : Nat) : Int) ≤ s.chip.spSpeed n) ∧
    (∃ (s : State) (n : Spin), s.chip.spState n = 10 ∧ bit s.chip.pins.drvFaultLow n.val = false) ∧
    (∃ (s : State) (n : Spin), s.chip.Interlocked ∧ s.chip.rd (.spin n) Reg.HDR.PAGE_STAT_STATE = 3) ∧
    (∃ (s : State) (n : Spin), s.chip.Interlocked ∧ s.chip.spState n = 2 ∧ (s.chip.sp n).measuring = false ∧ (s.chip.sp n).detFails = 2 ∧ s.chip.rd (.spin n) Reg.SPIN.START_CFG_ALIGN_EN ≠ 0) ∧
    (∃ (s : State) (n : Spin) (t : DetectRises), s.chip.spState n = 2 ∧ (s.chip.sp n).measuring = false ∧ s.chip.detectReached n t = true ∧ s.chip.rd (.spin n) Reg.SPIN.START_CFG_DETECT_MIN = 0) ∧
    (∃ (s : State) (n : Spin) (t : DetectRises), s.chip.spState n = 2 ∧ (s.chip.sp n).measuring = false ∧ s.chip.detectReached n t = false ∧ (s.chip.sp n).detFails < 2) ∧
    (∃ (s : State) (n : Spin), s.chip.spState n = 2 ∧ (s.chip.sp n).measuring = true) ∧
    (∃ (s : State) (n : Spin), s.chip.spState n = 3) ∧
    (∃ (s : State) (n : Spin), s.chip.spState n = 4 ∧ (s.chip.sp n).edgeSeen = false ∧ (s.chip.sp n).iRamp < s.chip.rd (.spin n) Reg.SPIN.RAMP_CFG_I_RAMP_MAX_MA) ∧
    (∃ (s : State) (n : Spin), s.chip.spState n = 9 ∧ ¬ (s.chip.spSpeed n = 0 ∧ s.chip.spValid n = true)) ∧
    (∃ (s : State) (n : Spin), (s.chip.sp n).starting = true) ∧
    (∃ (s : State) (n : Spin) (mv : (BitVec 16)), s.chip.Interlocked ∧ s.chip.spState n = 1 ∧ (s.chip.sp n).polePairs ≠ 0 ∧ 1 ≤ (s.chip.sp n).edgeRun ∧ (s.chip.sp n).lastFwd = true ∧ 10 * s.chip.rd (.spin n) Reg.SPIN.OBS_CFG_EDGE_HYST ≤ mv.toInt.natAbs ∧ decide (0 < mv.toInt) ≠ bit (s.chip.sp n).signs 2 ∧ edgeDir (s.chip.sp n).signs (setBit (s.chip.sp n).signs 2 (decide (0 < mv.toInt))) = some true) ∧
    (∃ (s : State) (n : Spin), s.chip.Interlocked ∧ s.chip.pwmDue n = true ∧ s.chip.spState n = 1) ∧
    (∃ (s : State) (n : Spin), s.chip.Interlocked ∧ s.chip.pwmDue n = false) :=
  ⟨⟨st (((spin 1 {}).put (.spin 0) Reg.HDR.PAGE_CTL_EN 1).put (.spin 0) Reg.HDR.PAGE_STAT_STATE 1), 0, by unfold Chip.Interlocked; decide +kernel⟩,
   ⟨st (spin 0 { wakeAt := some 1 }), 0, 1, by unfold Chip.Interlocked; decide +kernel⟩,
   ⟨st ((spin 5 {}).put (.spin 0) Reg.SPIN.SPEED_RPM 1536000), 0, by decide +kernel⟩,
   ⟨st (spin 10 {}), 0, by decide +kernel⟩,
   ⟨pst (.spin 7) 3, 7, by unfold Chip.Interlocked; decide +kernel⟩,
   ⟨st ((spin 2 { detFails := 2 }).put (.spin 0) Reg.SPIN.START_CFG_ALIGN_EN 1), 0, by unfold Chip.Interlocked; decide +kernel⟩,
   ⟨st (((spin 2 {}).put (.spin 0) Reg.SPIN.START_CFG_DETECT_MIN 0).put (.spin 0) Reg.SPIN.START_CFG_DETECT_REPS 1), 0, Vector.replicate 12 [some 100000], by decide +kernel⟩,
   ⟨st (spin 2 {}), 0, Vector.replicate 12 [some 100001], by decide +kernel⟩,
   ⟨st (spin 2 { measuring := true }), 0, by decide +kernel⟩,
   ⟨st (spin 3 {}), 0, by decide +kernel⟩,
   ⟨st ((spin 4 { iRamp := 9 }).put (.spin 0) Reg.SPIN.RAMP_CFG_I_RAMP_MAX_MA 10), 0, by decide +kernel⟩,
   ⟨st ((spin 9 {}).put (.spin 0) Reg.SPIN.SPEED_VALID 0), 0, by decide +kernel⟩,
   ⟨st (spin 4 { starting := true }), 0, by decide +kernel⟩,
   ⟨st ((spin 1 { polePairs := 4, edgeRun := 1, lastFwd := true, signs := 5 }).put (.spin 0) Reg.SPIN.OBS_CFG_EDGE_HYST 10), 0, -100, by unfold Chip.Interlocked; decide +kernel⟩,
   ⟨st (spin 1 { pwmDiv := 1 }), 0, by unfold Chip.Interlocked; decide +kernel⟩,
   ⟨st (spin 1 { pwmFrame := some 0 }), 0, by unfold Chip.Interlocked; decide +kernel⟩⟩

/-- Axis 0 in state `n`, homed or not, with its own state `x`. -/
def axis (n homed : Nat) (x : AxisSt) : Chip :=
  let c := (up.put (.axis 0) Reg.AXIS.AX_STAT_STATE n).put (.axis 0) Reg.AXIS.AX_STAT_HOMED homed
  { c with axes := c.axes.set 0 x }
/-- Axis 0 tracking indexes with a reference of 0 counts and 16 counts a revolution. -/
def indexed (x : AxisSt) : Chip := ((axis 4 1 x).put (.axis 0) Reg.AXIS.ENC_CFG_INDEX_EN 1).put (.axis 0) Reg.AXIS.ENC_CPR_CPR 16

/-- The premises of AxesTakeTheirCommands are met. -/
theorem witness_AxesTakeTheirCommands :
    (∃ (s : State) (a : Axis), s.chip.Interlocked ∧ bit (s.chip.rd .fault Reg.FAULT.QUENCH_AXIS_AXES) a.val = false ∧ s.chip.rd (.axis a) Reg.HDR.PAGE_STAT_STATE ≠ 3 ∧ s.chip.axState a = 1) ∧
    (∃ (s : State) (a : Axis), s.chip.Interlocked ∧ bit (s.chip.rd .fault Reg.FAULT.QUENCH_AXIS_AXES) a.val = false ∧ s.chip.rd (.axis a) Reg.HDR.PAGE_STAT_STATE ≠ 3 ∧ s.chip.axState a = 2 ∧ s.chip.rd (.axis a) Reg.AXIS.AX_STAT_HOMED ≠ 0 ∧ s.chip.axLimit a false = false ∧ s.chip.axLimit a true = false ∧ (s.chip.ax a).boundLo = none ∧ (s.chip.ax a).boundHi = none) ∧
    (∃ (s : State) (a : Axis), bit (s.chip.rd .fault Reg.FAULT.QUENCH_AXIS_AXES) a.val = false ∧ s.chip.rd (.axis a) Reg.HDR.PAGE_STAT_STATE ≠ 3 ∧ s.chip.axState a = 7 ∧ bit s.chip.pins.brgFaultLow a.val = false) ∧
    (∃ (s : State) (a : Axis), s.chip.Interlocked ∧ s.chip.axState a = 3 ∧ (s.chip.ax a).cmd ≠ 0) ∧
    (∃ (s : State) (a : Axis), s.chip.Interlocked ∧ bit (s.chip.rd .fault Reg.FAULT.QUENCH_AXIS_AXES) a.val = true) ∧
    (∃ (s : State) (a : Axis), s.chip.axState a = 5 ∧ (s.chip.ax a).homeStep = 3) ∧
    (∃ (s : State) (a : Axis), s.chip.axState a = 4 ∧ (s.chip.ax a).v = 0) :=
  ⟨⟨st (axis 1 0 {}), 0, by unfold Chip.Interlocked; decide +kernel⟩,
   ⟨st (axis 2 1 {}), 0, by unfold Chip.Interlocked; decide +kernel⟩,
   ⟨st (axis 7 0 {}), 0, by decide +kernel⟩,
   ⟨st (axis 3 1 { cmd := 2 }), 0, by unfold Chip.Interlocked; decide +kernel⟩,
   ⟨st (up.put .fault Reg.FAULT.QUENCH_AXIS_AXES (2 ^ 21)), 21, by unfold Chip.Interlocked; decide +kernel⟩,
   ⟨st (axis 5 0 { homeStep := 3 }), 0, by decide +kernel⟩,
   ⟨st (axis 4 1 {}), 0, by decide +kernel⟩⟩

/-- The premises of AxesMoveAndAreSupervised are met. -/
theorem witness_AxesMoveAndAreSupervised :
    (∃ (s : State) (a : Axis), s.chip.Interlocked ∧ (s.chip.ax a).targetIn = none ∧ (s.chip.ax a).genFrame ≠ some s.chip.frameNum.toNat ∧ s.chip.axState a = 6 ∧ (s.chip.ax a).toOff = false ∧ sgn (s.chip.ax a).v * max 0 (absI (s.chip.ax a).v - divRound (4 * (max 1 (s.chip.rd (.axis a) Reg.AXIS.DSTOP_DSTOP) : Nat) * 4294967296) 400000) ≠ 0) ∧
    (∃ (s : State) (a : Axis), s.chip.Interlocked ∧ (s.chip.ax a).targetIn = none ∧ (s.chip.ax a).genFrame ≠ some s.chip.frameNum.toNat ∧ s.chip.axState a = 6 ∧ (s.chip.ax a).toOff = false ∧ sgn (s.chip.ax a).v * max 0 (absI (s.chip.ax a).v - divRound (4 * (max 1 (s.chip.rd (.axis a) Reg.AXIS.DSTOP_DSTOP) : Nat) * 4294967296) 400000) = 0 ∧ (s.chip.ax a).cmd = 4) ∧
    (∃ (s : State) (a : Axis), (s.chip.ax a).targetIn = none ∧ (s.chip.ax a).genFrame ≠ some s.chip.frameNum.toNat ∧ s.chip.axState a = 3 ∧ (s.chip.ax a).kind = 0 ∧ s.chip.axLimit a false = false ∧ s.chip.axLimit a true = false ∧ (s.chip.ax a).streak + 1 < s.chip.rd (.axis a) Reg.AXIS.STALL_CFG_STALL_N ∧ (let p : Page := .axis a; let x := s.chip.ax a; let prof : Fld → Int := fun f => (max 1 (s.chip.rd p f) : Nat); (x.advance (trapStep x.v (x.target * 4294967296 - x.p) (prof Reg.AXIS.VMAX_VMAX) (prof Reg.AXIS.V1_V1) (4 * prof Reg.AXIS.A1_A1) (4 * prof Reg.AXIS.A2_A2) (4 * prof Reg.AXIS.D1_D1) (4 * prof Reg.AXIS.D2_D2))).arrived = false)) ∧
    (∃ (s : State) (a : Axis) (A : Bool) (B : Bool) (n : Nat), s.chip.encAccepts a n = true ∧ A ≠ (s.chip.ax a).encA ∧ B ≠ (s.chip.ax a).encB) ∧
    (∃ (s : State) (a : Axis) (n : Nat), s.chip.encAccepts a n = false) ∧
    (∃ (s : State) (a : Axis), s.chip.chopDue a = true) ∧
    (∃ (s : State) (a : Axis), s.chip.chopDue a = false) ∧
    (∃ (s : State) (a : Axis) (A : Bool) (B : Bool), s.chip.rd (.axis a) Reg.AXIS.ENC_CFG_ENC_DIR = 0 ∧ A ≠ (s.chip.ax a).encA ∧ B = (s.chip.ax a).encB) ∧
    (∃ (s : State) (a : Axis) (A : Bool) (B : Bool), s.chip.rd (.axis a) Reg.AXIS.ENC_CFG_ENC_DIR = 0 ∧ A = (s.chip.ax a).encA ∧ B ≠ (s.chip.ax a).encB) ∧
    (∃ (s : State) (a : Axis), s.chip.rd (.axis a) Reg.AXIS.ENC_CFG_INDEX_EN ≠ 0 ∧ s.chip.axState a ≠ 5 ∧ s.chip.rd (.axis a) Reg.AXIS.AX_STAT_HOMED ≠ 0 ∧ (s.chip.ax a).idxKnown = false) ∧
    (∃ (s : State) (a : Axis), s.chip.rd (.axis a) Reg.AXIS.ENC_CFG_INDEX_EN ≠ 0 ∧ s.chip.rd (.axis a) Reg.AXIS.AX_STAT_HOMED ≠ 0 ∧ s.chip.axState a = 4 ∧ (s.chip.ax a).idxKnown = true ∧ (let x := s.chip.ax a; let ref := s.chip.rdS (.axis a) Reg.AXIS.INDEX_REF_COUNT; let cpr : Nat := max 1 (s.chip.rd (.axis a) Reg.AXIS.ENC_CPR_CPR); let dev := x.enc - (ref + divRound (x.enc - ref) cpr * cpr); dev ≠ 0 ∧ dev.natAbs ≤ 2)) ∧
    (∃ (s : State) (a : Axis), s.chip.rd (.axis a) Reg.AXIS.ENC_CFG_INDEX_EN ≠ 0 ∧ s.chip.rd (.axis a) Reg.AXIS.AX_STAT_HOMED ≠ 0 ∧ s.chip.axState a = 4 ∧ (s.chip.ax a).idxKnown = true ∧ (let x := s.chip.ax a; let ref := s.chip.rdS (.axis a) Reg.AXIS.INDEX_REF_COUNT; let cpr : Nat := max 1 (s.chip.rd (.axis a) Reg.AXIS.ENC_CPR_CPR); let dev := x.enc - (ref + divRound (x.enc - ref) cpr * cpr); 2 < dev.natAbs)) ∧
    (∃ (s : State) (a : Axis) (hi : Bool), s.chip.axState a = 3 ∧ (s.chip.ax a).cmd ≠ 0 ∧ (s.chip.ax a).limSeen = false ∧ (if hi then 0 < (s.chip.ax a).v else (s.chip.ax a).v < 0)) ∧
    (∃ (s : State) (a : Axis) (hi : Bool) (n : Nat), max 1 (s.chip.rd (.axis a) Reg.AXIS.LIMIT_CFG_CHATTER_K) < (AxisSt.chatter (if hi then (s.chip.ax a).chatHi else (s.chip.ax a).chatLo) ((s.chip.now - (s.chip.ax a).onAt) / ms (max 1 (s.chip.rd (.axis a) Reg.AXIS.LIMIT_CFG_CHATTER_WIN_MS))) n).2 ∧ s.chip.rd (.axis a) (if hi then Reg.AXIS.AX_STAT_HI_FAULTY else Reg.AXIS.AX_STAT_LO_FAULTY) = 0 ∧ s.chip.axState a = 3 ∧ (s.chip.ax a).cmd ≠ 0) ∧
    (∃ (s : State) (a : Axis) (r : Requester), s.chip.Interlocked ∧ s.chip.Writable r (.axis a) ∧ (s.chip.ax a).hiChange + 100000000 ≤ s.chip.now) ∧
    (∃ (s : State) (a : Axis), s.chip.axState a = 4 ∧ 400 ≤ (s.chip.ax a).noTarget) :=
  ⟨⟨st (axis 6 1 { v := 4294967296000000 }), 0, by unfold Chip.Interlocked; decide +kernel⟩,
   ⟨st (axis 6 1 { cmd := 4 }), 0, by unfold Chip.Interlocked; decide +kernel⟩,
   ⟨st (((axis 3 1 { cmd := 2, target := 100000 }).put (.axis 0) Reg.AXIS.STALL_CFG_STALL_N 4).put (.axis 0) Reg.AXIS.VMAX_VMAX 1000), 0, by decide +kernel⟩,
   ⟨st (axis 1 0 {}), 0, true, true, 16, by decide +kernel⟩,
   ⟨st up, 0, 0, by decide +kernel⟩,
   ⟨st (axis 1 0 { chop := 1 }), 0, by decide +kernel⟩,
   ⟨st (axis 1 0 { chopFrame := some 0 }), 0, by decide +kernel⟩,
   ⟨st (axis 1 0 {}), 0, true, false, by decide +kernel⟩,
   ⟨st (axis 1 0 {}), 0, false, true, by decide +kernel⟩,
   ⟨st (indexed {}), 0, by decide +kernel⟩,
   ⟨st (indexed { idxKnown := true, enc := 18 }), 0, by decide +kernel⟩,
   ⟨st (indexed { idxKnown := true, enc := 19 }), 0, by decide +kernel⟩,
   ⟨st (axis 3 1 { cmd := 2, v := -1 }), 0, false, by decide +kernel⟩,
   ⟨st (axis 3 1 { cmd := 2 }), 0, true, 16, by decide +kernel⟩,
   ⟨st { up with tb := 100000000 }, 21, .host, by unfold Chip.Writable Chip.Reach Chip.Interlocked; decide +kernel⟩,
   ⟨st (axis 4 1 { noTarget := 400 }), 0, by decide +kernel⟩⟩

/-- A test of the hold-up bank whose samples, newest first, fall from 16,383 to 16,000. -/
def capTest : CapTest := { t0 := some 0, len := 1, codes := 16000 :: List.replicate 99 16383 }
def inSluice (f : SluiceSt → SluiceSt) : Chip := { up with sluice := f up.sluice }
def inAssay (c : Chip) (f : AssaySt → AssaySt) : Chip := { c with assay := f c.assay }
/-- Port 0's link running and its OPU at 25 °C. -/
def warmPort : Chip := let c := link 3; { c with heads := c.heads.set 0 { c.heads.get 0 with opuTemp := some 40 } }
def ramp0 : CalCopy := ⟨1, 0, [], []⟩
def inZone : ZoneSt := { st := .eOpen, bind := some (1, 0), dataEnd := 191 }

/-- The premises of ReferenceTemperaturesAndHoldup are met. -/
theorem witness_ReferenceTemperaturesAndHoldup :
    (∃ (s : State), s.chip.Interlocked ∧ s.chip.islandUp .assay = true ∧ s.chip.framesRunning = true ∧ 3584 ≤ s.chip.frameNum.toNat % 4096 ∧ s.chip.assay.lastSlot ≠ some (s.chip.frameNum.toNat / 4096)) ∧
    (∃ (s : State), s.chip.Interlocked ∧ s.chip.islandUp .assay = true ∧ s.chip.islandUp .mem = true ∧ s.chip.assay.refOut = true ∧ s.chip.frameNum.toNat % 40 = 0 ∧ s.chip.rd .sluice Reg.SLUICE.SLUICE_STAT_FLUSHING = 0) ∧
    (∃ (s : State) (r : Requester), s.chip.Interlocked ∧ s.chip.Writable r .sluice) ∧
    (∃ (s : State) (t : Nat), s.chip.Interlocked ∧ s.chip.sluice.dueAt = some t) ∧
    (∃ (s : State) (t : CapTest) (t0 : Nat) (uf : Nat) (esr : Nat), s.chip.Interlocked ∧ s.chip.sluice.test = some t ∧ t.t0 = some t0 ∧ 100 * t.len ≤ t.codes.length ∧ s.chip.testResult t = some (uf, esr) ∧ s.chip.cRef ≤ 2 * uf ∧ uf ≤ 2 * s.chip.cRef) ∧
    (∃ (s : State) (t : CapTest) (t0 : Nat), s.chip.Interlocked ∧ s.chip.sluice.test = some t ∧ t.t0 = some t0 ∧ 100 * t.len ≤ t.codes.length ∧ s.chip.testResult t = none ∧ s.chip.islandUp .mem = true) :=
  ⟨⟨st { up with frameNum := 4095 }, by unfold Chip.Interlocked; decide +kernel⟩,
   ⟨st (inAssay up fun a => { a with refOut := true }), by unfold Chip.Interlocked; decide +kernel⟩,
   ⟨st up, .host, by unfold Chip.Writable Chip.Reach Chip.Interlocked; decide +kernel⟩,
   ⟨st (inSluice fun x => { x with dueAt := some 6 }), 6, by unfold Chip.Interlocked; decide +kernel⟩,
   ⟨st (let c := set (inSluice fun x => { x with test := some capTest }) .sluice Reg.SLUICE.DIVIDER_RATIO 50000; { c with rs := { c.rs with capStored := some 4148 } }), capTest, 0, 4148, 0, by unfold Chip.Interlocked; decide +kernel⟩,
   ⟨st (inSluice fun x => { x with test := some { capTest with codes := List.replicate 100 7 } }), { capTest with codes := List.replicate 100 7 }, 0, by unfold Chip.Interlocked; decide +kernel⟩⟩

/-- The premises of CalibrationSetIsCapturedAndStored are met. -/
theorem witness_CalibrationSetIsCapturedAndStored :
    (∃ (s : State) (h : Port) (b : BeamNo) (k : Nat) (l : Nat) (z : Nat), s.chip.Interlocked ∧ (s.chip.bm h b).capReady = some (l, z) ∧ s.chip.calPoint (s.chip.portTemp h) = some k ∧ s.chip.beamRole h b = 1 ∧ s.chip.headQuenched h = false ∧ s.chip.headGated h = false ∧ s.chip.linkState h = 3 ∧ s.chip.mgmt.resumed = true ∧ k < 6 ∧ l < 8 ∧ z < 24 ∧ assocGet (calKey k h b (24 * l + z)) s.chip.assay.capAt = none) ∧
    (∃ (s : State) (h : Port), s.chip.Interlocked ∧ s.chip.calDue h = true ∧ s.chip.headGated h = false ∧ s.chip.headQuenched h = false ∧ s.chip.linkState h = 3 ∧ s.chip.mgmt.resumed = true ∧ s.chip.rqMgmt.gcState ≠ 1) ∧
    (∃ (s : State) (h : Port) (m : (BitVec 16)), s.chip.Interlocked ∧ s.chip.assay.setValid = true ∧ s.chip.rqMgmt.gcState ≠ 1 ∧ m.getLsbD h.val = true ∧ s.chip.headGated h = false) ∧
    (∃ (s : State) (r : Requester), s.chip.Interlocked ∧ s.chip.Writable r .assay) ∧
    (∃ (s : State), s.chip.Interlocked ∧ s.chip.sluice.calStore = none ∧ s.chip.mgmt.resumed = true ∧ s.chip.rs.mounted = true ∧ s.chip.calStoreDue = true) ∧
    (∃ (s : State) (k : CalStore), s.chip.Interlocked ∧ s.chip.sluice.calStore = some k ∧ ((s.chip.batch? k.batch).bind (·.seq)).isSome = true ∧ s.chip.rs.mounted = true ∧ s.chip.mgmt.resumed = true ∧ k.erased = true) ∧
    (∃ (s : State) (k : CalStore), s.chip.Interlocked ∧ s.chip.sluice.calStore = some k ∧ ((s.chip.batch? k.batch).bind (·.seq)).isSome = false) :=
  ⟨⟨onBeam (warmPort.put (.beam 0 0) Reg.BEAM.RD_STAT_ROLE 1) fun x => { x with capReady := some (7, 23) }, 0, 0, 2, 7, 23, by unfold Chip.Interlocked; decide +kernel⟩,
   ⟨st (inAssay warmPort fun a => { a with setValid := true, dirty := [0] }), 0, by unfold Chip.Interlocked; decide +kernel⟩,
   ⟨st (inAssay warmPort fun a => { a with setValid := true }), 0, 1, by unfold Chip.Interlocked; decide +kernel⟩,
   ⟨st up, .host, by unfold Chip.Writable Chip.Reach Chip.Interlocked; decide +kernel⟩,
   ⟨st (let c := inAssay up fun a => { a with storeReq := true, changed := some 0 }; { c with rs := { c.rs with mounted := true } }), by unfold Chip.Interlocked; decide +kernel⟩,
   ⟨st (let c := inSluice fun x => { x with calStore := some { batch := 4, copyB := true, since := 0, snap := ramp0, erased := true }, batches := [{ batch1 with kind := 0 }] }; { c with rs := { c.rs with mounted := true } }), { batch := 4, copyB := true, since := 0, snap := ramp0, erased := true }, by unfold Chip.Interlocked; decide +kernel⟩,
   ⟨st (inSluice fun x => { x with calStore := some { batch := 4, copyB := false, since := 0, snap := ramp0 } }), { batch := 4, copyB := false, since := 0, snap := ramp0 }, by unfold Chip.Interlocked; decide +kernel⟩⟩

/-- The premises of WriteThroughAndHallmarks are met. -/
theorem witness_WriteThroughAndHallmarks :
    (∃ (s : State) (n : (Fin 1025)) (b : Batch), s.chip.Interlocked ∧ s.chip.sluice.batches.find? (fun b => b.nsid == n.val && b.seq.isNone && !b.wt && b.kind != 0 && !s.chip.heldBack b) = some b ∧ s.chip.islandUp .mem = true) ∧
    (∃ (s : State) (n : (Fin 1025)) (t : Nat), s.chip.Interlocked ∧ s.chip.sluice.roomSince = some t ∧ n.val ∈ s.chip.sluice.wt) ∧
    (∃ (s : State) (n : (Fin 1025)) (z : Nat) (id : Nat) (pz : Nat) (p : Polder), s.chip.Interlocked ∧ (s.chip.zone n.val z).bind = some (id, pz) ∧ s.chip.polder? id = some p ∧ (s.chip.zone n.val z).st ≠ .full ∧ (s.chip.zone n.val z).dataEnd - (s.chip.zone n.val z).rowNext * rowBlocks ≠ 0 ∧ (s.chip.zone n.val z).dataEnd - (s.chip.zone n.val z).rowNext * rowBlocks < rowBlocks ∧ (s.chip.zone n.val z).padAt ≠ (s.chip.zone n.val z).dataEnd ∧ s.chip.takesRows p = true ∧ (s.chip.sluice.batches.any fun b => b.wt && b.staged && b.nsid == n.val && b.zone == z && b.rows.contains (s.chip.zone n.val z).rowNext) = true) ∧
    (∃ (s : State) (n : HallNo) (r : Requester) (t : Nat), s.chip.Interlocked ∧ s.chip.Writable r (.hall n) ∧ (s.chip.hallU n).test = some t ∧ s.chip.pageUp (.hall n) = true) ∧
    (∃ (s : State) (n : HallNo), s.chip.Interlocked ∧ s.chip.rd (.hall n) Reg.HALL.HALL_STAT_HELD ≠ 0 ∧ s.chip.rd (.hall n) Reg.HALL.HALL_STAT_IDLE ≠ 0 ∧ s.chip.frozen (.hall n) = true) :=
  ⟨⟨st (inSluice fun x => { x with batches := [{ batch1 with seq := none }] }), 5, { batch1 with seq := none }, by unfold Chip.Interlocked; decide +kernel⟩,
   ⟨st (inSluice fun x => { x with roomSince := some 9, wt := [1024] }), 1024, 9, by unfold Chip.Interlocked; decide +kernel⟩,
   ⟨st (let c := withNs (withLib up { polders := [{ id := 1, nsid := 5 }] }) { nsA with zones := [(0, inZone)] }; withBatch c { batch1 with wt := true, staged := true, rows := [0] }), 5, 0, 1, 0, { id := 1, nsid := 5 }, by unfold Chip.Interlocked; decide +kernel⟩,
   ⟨st { up with halls := [(79, { test := some 0 })] }, 79, .mgmt, 0, by unfold Chip.Writable Chip.Reach Chip.Interlocked; decide +kernel⟩,
   ⟨st (({ up with commits := [⟨.hall 80, none, 0, 0⟩] }.put (.hall 80) Reg.HALL.HALL_STAT_HELD 1).put (.hall 80) Reg.HALL.HALL_STAT_IDLE 1), 80, by unfold Chip.Interlocked; decide +kernel⟩⟩

def inMem (f : MemSt → MemSt) : Chip := { up with mem := f up.mem }
/-- A line of line address 0, clean or dirty. -/
def line0 (dirty : Bool) : CacheLine := ⟨0, dirty, List.replicate 8 0, false, false, 0⟩
/-- The block whose cache has finished its last operation, holding line 0. -/
def cached (dirty : Bool) : Chip := (inMem fun m => { m with lines := [(3, line0 dirty)] }).put .cache Reg.CACHE.OP_CTL_DONE 1
/-- The scrub is on and stands at word `a`. -/
def scrub (a : Nat) : State := st ((inMem fun m => { m with scrubAt := a }).put .mem Reg.MEM.ECC_CTL_SCRUB_EN 1)
def inStore (f : PkgSt → PkgSt) : Chip := { up with rs := { up.rs with mounted := true, pkg0 := f up.rs.pkg0 } }

/-- Some column of the check matrix is the last check column's value, whatever the vendor's file holds. -/
theorem eccCol_last : ∃ i, i < 144 ∧ (List.range 144).find? (fun i => eccCol 135 i == 256) = some i := by
  have h : ((List.range 144).find? (fun i => eccCol 135 i == 256)).isSome = true := by
    rw [List.find?_isSome]; exact ⟨143, by simp, by decide +kernel⟩
  obtain ⟨i, hi⟩ := Option.isSome_iff_exists.mp h
  exact ⟨i, by simpa using List.mem_of_find?_eq_some hi, hi⟩

/-- A word of check bits alone decodes by the columns. -/
theorem eccDecode_checks (k : Nat) (hk : k ≠ 0) (r : Option Nat)
    (h : (List.range 144).find? (fun i => eccCol 135 i == k) = r) :
    eccDecode 135 (k * 2 ^ 135) = r.elim .bad .fixed := by
  have h0 : eccCheck 135 0 = 0 := by decide +kernel
  have h1 : k * 2 ^ 135 % 2 ^ 135 = 0 := Nat.mul_mod_left _ _
  have h2 : k * 2 ^ 135 / 2 ^ 135 = k := Nat.mul_div_cancel _ (by decide)
  cases r <;> simp [eccDecode, h0, h1, h2, hk, h]

theorem clean0 : eccDecode 128 (0 : BitVec 137).toNat = .clean := by decide +kernel
theorem line0_clean (d : Bool) : ∀ v ∈ (line0 d).sub, eccDecode 128 v.toNat = .clean := by
  intro v h; rw [List.eq_of_mem_replicate h]; exact clean0

/-- Numbers 1 to n + 1 are more than n values. -/
theorem pigeonhole (n : Nat) : ∀ f : Nat → Nat, ∃ k, 1 ≤ k ∧ k ≤ n + 1 ∧ ∀ i, i < n → f i ≠ k := by
  induction n with
  | zero => exact fun f => ⟨1, by omega, by omega, fun i h => by omega⟩
  | succ n ih =>
    intro f
    obtain ⟨k, h1, h2, h⟩ := ih fun i => if f i = n + 2 then f n else f i
    by_cases e : f n = k
    · refine ⟨n + 2, by omega, by omega, fun i hi => ?_⟩
      by_cases g : i = n
      · subst g; omega
      · have := h i (by omega); simp only [e] at this; intro c; simp [c] at this
    · refine ⟨k, h1, by omega, fun i hi => ?_⟩
      by_cases g : i = n
      · subst g; exact e
      · have := h i (by omega); by_cases c : f i = n + 2
        · omega
        · simpa [c] using this

/-- The scrub's word at `a` with the bits `u` turned over so that it is `v`. -/
theorem scrub_raw (a : Nat) (v : BitVec 144) :
    (scrub a).chip.mem.raw (scrub a).chip.mem.scrubAt ^^^ ((scrub a).chip.mem.raw a ^^^ v) = v := by
  show (scrub a).chip.mem.raw a ^^^ ((scrub a).chip.mem.raw a ^^^ v) = v
  generalize (scrub a).chip.mem.raw a = w
  rw [← BitVec.xor_assoc, BitVec.xor_self, BitVec.zero_xor]

theorem scrub_reg (a : Nat) : (scrub a).chip.reg = (scrub 0).chip.reg := rfl

theorem scrub_on (a : Nat) :
    (scrub a).chip.rd .mem Reg.MEM.ECC_CTL_SCRUB_EN ≠ 0 ∧ (scrub a).chip.rd .mem Reg.MEM.FLIP_CTL_ARMED = 0 := by
  simp only [Chip.rd, Chip.rdI, scrub_reg]; decide +kernel

/-- A word with one wrong check bit is met by the scrub. -/
theorem witness_BufferMemoryAndCacheAreChecked_corrected : ∃ (s : State) (u : BitVec 144) (i : Nat),
    s.chip.rd .mem Reg.MEM.ECC_CTL_SCRUB_EN ≠ 0 ∧ s.chip.rd .mem Reg.MEM.FLIP_CTL_ARMED = 0 ∧
    eccDecode 135 (s.chip.mem.raw s.chip.mem.scrubAt ^^^ u).toNat = .fixed i ∧
    slice 128 7 ((s.chip.mem.raw s.chip.mem.scrubAt ^^^ u).toNat ^^^ 2 ^ i) = eccTag s.chip.mem.scrubAt := by
  obtain ⟨i, hi, h⟩ := eccCol_last
  have q : ∀ i : Fin 144, slice 128 7 (256 * 2 ^ 135 ^^^ 2 ^ i.val) =
      eccTag (if 128 ≤ i.val ∧ i.val < 135 then 2 ^ (i.val - 128) else 0) := by decide +kernel
  obtain ⟨a, ha⟩ : ∃ a, slice 128 7 (256 * 2 ^ 135 ^^^ 2 ^ i) = eccTag a := ⟨_, q ⟨i, hi⟩⟩
  have e : (BitVec.ofNat 144 (256 * 2 ^ 135)).toNat = 256 * 2 ^ 135 := by decide +kernel
  refine ⟨scrub a, (scrub a).chip.mem.raw a ^^^ BitVec.ofNat 144 (256 * 2 ^ 135), i, (scrub_on a).1, (scrub_on a).2, ?_, ?_⟩
  · rw [scrub_raw, e]; exact eccDecode_checks 256 (by decide) _ h
  · rw [scrub_raw, e]; exact ha

/-- A word that no column corrects is met by the scrub in the stripe buffers, whatever the vendor's file holds. -/
theorem witness_BufferMemoryAndCacheAreChecked_bad : ∃ (s : State) (u : BitVec 144),
    s.chip.rd .mem Reg.MEM.ECC_CTL_SCRUB_EN ≠ 0 ∧ s.chip.rd .mem Reg.MEM.FLIP_CTL_ARMED = 0 ∧
    eccDecode 135 (s.chip.mem.raw s.chip.mem.scrubAt ^^^ u).toNat = .bad ∧
    0x280000000 ≤ 16 * s.chip.mem.scrubAt ∧ 16 * s.chip.mem.scrubAt < 0x380000000 := by
  obtain ⟨k, h1, h2, h⟩ := pigeonhole 144 (eccCol 135)
  have e : (BitVec.ofNat 144 (k * 2 ^ 135)).toNat = k * 2 ^ 135 := by
    rw [BitVec.toNat_ofNat]; exact Nat.mod_eq_of_lt (by omega)
  refine ⟨scrub 0x28000000, (scrub 0x28000000).chip.mem.raw 0x28000000 ^^^ BitVec.ofNat 144 (k * 2 ^ 135), (scrub_on _).1,
    (scrub_on _).2, ?_, by decide +kernel, by decide +kernel⟩
  rw [scrub_raw, e]
  exact eccDecode_checks k (by omega) none (by simp only [List.find?_eq_none, List.mem_range, beq_iff_eq]; exact h)

/-- The premises of BufferMemoryAndCacheAreChecked are met. -/
theorem witness_BufferMemoryAndCacheAreChecked :
    (∃ (s : State) (r : Requester) (u : (BitVec 144)), s.chip.Interlocked ∧ s.chip.Writable r .mem ∧ s.chip.Writable r .cache ∧ s.chip.rd .mem Reg.MEM.ECC_CTL_SCRUB_EN ≠ 0 ∧ s.chip.rd .mem Reg.MEM.FLIP_CTL_ARMED = 0 ∧ eccDecode 135 (s.chip.mem.raw s.chip.mem.scrubAt ^^^ u).toNat = .clean ∧ slice 128 7 (s.chip.mem.raw s.chip.mem.scrubAt ^^^ u).toNat = eccTag s.chip.mem.scrubAt) ∧
    (∃ (s : State) (r : Requester), s.chip.Interlocked ∧ s.chip.Writable r .mem ∧ s.chip.Writable r .cache ∧ 0x140000000 ≤ 16 * s.chip.flipAddr ∧ 16 * s.chip.flipAddr < 0x1C0000000) ∧
    (∃ (s : State) (r : Requester) (k : Nat) (x : CacheLine), s.chip.Interlocked ∧ s.chip.Writable r .mem ∧ s.chip.Writable r .cache ∧ s.chip.rd .cache Reg.CACHE.OP_CTL_DONE ≠ 0 ∧ s.chip.mem.cacheFlip = false ∧ (∀ e ∈ s.chip.mem.lines, e.2.badA = false) ∧ 128 * s.chip.opLine < 0x140000000 ∧ s.chip.wayOf s.chip.opLine = some (k, x) ∧ (∀ v ∈ s.chip.mem.victims, v.1 ≠ s.chip.opLine) ∧ x.dirty = false) ∧
    (∃ (s : State) (k : Nat) (x : CacheLine), s.chip.rd .cache Reg.CACHE.OP_CTL_DONE ≠ 0 ∧ s.chip.mem.cacheFlip = false ∧ (∀ e ∈ s.chip.mem.lines, e.2.badA = false) ∧ 128 * s.chip.opLine < 0x140000000 ∧ s.chip.wayOf s.chip.opLine = some (k, x) ∧ x.dirty = true ∧ x.sub.length = 8 ∧ (∀ v ∈ x.sub, eccDecode 128 v.toNat = .clean) ∧ s.chip.rd .mem Reg.MEM.FLIP_CTL_ARMED = 0) ∧
    (∃ (s : State), s.chip.rd .cache Reg.CACHE.OP_CTL_DONE ≠ 0 ∧ s.chip.mem.cacheFlip = false ∧ 0x140000000 ≤ 128 * s.chip.opLine) ∧
    (∃ (s : State) (r : Requester), s.chip.Interlocked ∧ s.chip.Writable r .mem ∧ s.chip.Writable r .cache ∧ s.chip.rd .cache Reg.CACHE.OP_CTL_DONE = 0) ∧
    (∃ (s : State) (r : Requester), s.chip.Interlocked ∧ s.chip.Writable r .mem ∧ s.chip.Writable r .cache ∧ s.chip.rd .cache Reg.CACHE.CACHE_CTL_BUSY = 0 ∧ s.chip.mem.cacheFlip = false ∧ (s.chip.mem.lines.map (·.1)).Pairwise (· < ·)) ∧
    (∃ (s : State) (v : (Nat) × List (BitVec 137)) (l : (List) (Nat × List (BitVec 137))), s.chip.Interlocked ∧ s.chip.mem.victims = v :: l ∧ s.chip.mem.zeroWait = none ∧ v.2.length = 8 ∧ (∀ x ∈ v.2, eccDecode 128 x.toNat = .clean) ∧ s.chip.rd .mem Reg.MEM.FLIP_CTL_ARMED = 0) ∧
    (∃ (s : State) (set : (Fin 4096)) (way : (Fin 16)), s.chip.Interlocked ∧ assocGet (16 * set.val + way.val) s.chip.mem.lines ≠ none) :=
  ⟨⟨scrub 0, .host, 0, by unfold Chip.Writable Chip.Reach Chip.Interlocked; decide +kernel⟩,
   ⟨st (up.put .mem Reg.MEM.FLIP_ADDR_LO_ADDR 0xBFFFFFF |>.put .mem Reg.MEM.FLIP_ADDR_HI_ADDR 1), .host, by unfold Chip.Writable Chip.Reach Chip.Interlocked; decide +kernel⟩,
   ⟨st (cached false), .mgmt, 3, line0 false, by unfold Chip.Writable Chip.Reach Chip.Interlocked; decide +kernel⟩,
   ⟨st (cached true), 3, line0 true, by refine ⟨by decide +kernel, by decide +kernel, by decide +kernel, by decide +kernel, by decide +kernel, rfl, rfl, line0_clean true, by decide +kernel⟩⟩,
   ⟨st ((cached true).put .cache Reg.CACHE.OP_ADDR_HI_ADDR 2), by decide +kernel⟩,
   ⟨st (up.put .cache Reg.CACHE.OP_CTL_DONE 0), .host, by unfold Chip.Writable Chip.Reach Chip.Interlocked; decide +kernel⟩,
   ⟨st (cached true), .i3c, by unfold Chip.Writable Chip.Reach Chip.Interlocked; decide +kernel⟩,
   ⟨st (inMem fun m => { m with victims := [(1, (line0 true).sub)] }), (1, (line0 true).sub), [], by unfold Chip.Interlocked; refine ⟨by decide +kernel, rfl, rfl, rfl, line0_clean true, by decide +kernel⟩⟩,
   ⟨st (cached true), 0, 3, by unfold Chip.Interlocked; decide +kernel⟩⟩

/-- The premises of StorageIsWatchedOver are met. -/
theorem witness_StorageIsWatchedOver :
    (∃ (s : State) (r : Requester) (k : (Fin 2)), s.chip.Interlocked ∧ s.chip.Writable r .rstore ∧ (s.chip.pkg k).mounted = true ∧ 1 < (s.chip.pkg k).spare ∧ (s.chip.pkg (1 - k)).serves = false) ∧
    (∃ (s : State) (r : Requester) (k : (Fin 2)), s.chip.Interlocked ∧ s.chip.Writable r .rstore ∧ (s.chip.pkg k).mounted = true ∧ (s.chip.pkg k).spare ≤ 1) ∧
    (∃ (s : State) (r : Requester) (k : (Fin 2)), s.chip.Interlocked ∧ s.chip.Writable r .rstore ∧ (s.chip.pkg (1 - k)).serves = true) ∧
    (∃ (s : State) (r : Requester) (k : (Fin 2)), s.chip.Interlocked ∧ s.chip.Writable r .rstore ∧ (s.chip.pkg k).held = true) ∧
    (∃ (s : State) (k : (Fin 2)), s.chip.Interlocked ∧ (∀ i ∈ s.chip.rs.intents, i.pkg = k.val → i.what ≠ 0) ∧ s.chip.mgmt.resumed = true ∧ s.chip.bgSuspended = false ∧ (s.chip.pkg k).mounted = true ∧ s.chip.nandTurn k 7 = true ∧ (s.chip.pkg k).eraseMin + max 1 (s.chip.rd .rstore Reg.RSTORE.WEAR_CFG_WL_SPREAD) < (s.chip.pkg k).eraseMax) ∧
    (∃ (s : State) (k : (Fin 2)), s.chip.Interlocked ∧ (∃ i ∈ s.chip.rs.intents, i.pkg = k.val ∧ i.what = 0)) ∧
    (∃ (s : State) (k : (Fin 2)), s.chip.Interlocked ∧ s.chip.nandTurn k 7 = false) ∧
    (∃ (s : State), s.chip.mgmt.resumed = false) ∧
    (∃ (s : State), s.chip.Interlocked ∧ s.chip.mgmt.resumed = true ∧ s.chip.log.wearAt + 360000000000 < 2 ^ 64 ∧ s.chip.log.lifeAt + 6000000000 < 2 ^ 64) :=
  ⟨⟨st (inStore fun p => { p with mounted := true, spare := 2 }), .host, 0, by unfold Chip.Writable Chip.Reach Chip.Interlocked; decide +kernel⟩,
   ⟨st (inStore fun p => { p with mounted := true, spare := 1 }), .host, 0, by unfold Chip.Writable Chip.Reach Chip.Interlocked; decide +kernel⟩,
   ⟨st (inStore fun p => { p with mounted := true }), .host, 1, by unfold Chip.Writable Chip.Reach Chip.Interlocked; decide +kernel⟩,
   ⟨st (inStore fun p => { p with held := true }), .host, 0, by unfold Chip.Writable Chip.Reach Chip.Interlocked; decide +kernel⟩,
   ⟨st (inStore fun p => { p with mounted := true, current := true, eraseMax := 65536 }), 0, by unfold Chip.Interlocked; decide +kernel⟩,
   ⟨st { up with rs := { up.rs with intents := [⟨1, 0⟩] } }, 1, by unfold Chip.Interlocked; decide +kernel⟩,
   ⟨st (up.put .sluice Reg.SLUICE.SLUICE_STAT_FLUSHING 1), 1, by unfold Chip.Interlocked; decide +kernel⟩,
   ⟨State.reset, by decide +kernel⟩,
   ⟨st up, by unfold Chip.Interlocked; decide +kernel⟩⟩

/-! ## Ill-formed commands: one term for each check, which WellFormed refuses -/

def byte0 (n : Nat) : List Byte := List.replicate n 0
def answer0 (n : Nat) : OpuAnswer := ⟨n, true, 0, 0, 0, 0, 0, 3⟩
def ingot0 : IngotRef := ⟨1, 0, 0, 0, 0⟩
def work0 : WorkItem := ⟨0, 0, 0, 384, [ingot0], false⟩

theorem wf_opu : (answer0 6).wf = true ∧ (answer0 7).wf = false := by decide
theorem wf_train : (Instr.linkTrain .host 0 (answer0 7)).wf = false ∧ (Instr.autoRetrain 0 (answer0 7)).wf = false ∧
    (Instr.registerWrite .host 0 .b4 0 0 0 ⟨answer0 7, none, false⟩).wf = false ∧
    (Instr.mctpWrite ⟨0x7E, 0, true, []⟩ ⟨answer0 7, none, false⟩).wf = false := by decide +kernel
theorem wf_uplink : (Uplink.mk [] [] true false 0 false 0).wf = true ∧ (Uplink.mk (byte0 600) (byte0 599) true true 0 false 0).wf = false ∧
    (Instr.uplinkFrame 0 ⟨[], [], true, true, 0, false, 0⟩).wf = false := by decide +kernel
theorem wf_field : (Instr.beamSegmentField 0 0 ⟨List.replicate 136 false, none⟩).wf = true ∧
    (Instr.beamSegmentField 0 0 ⟨List.replicate 135 false, none⟩).wf = false := by decide +kernel
theorem wf_sector : (Instr.sectorDecodeDone 0 0 (Vector.replicate 4 ⟨true, 3, byte0 4159⟩)).wf = false ∧
    (Instr.layerOpen 0 0 [⟨true, byte0 4159⟩] 0).wf = false := by decide +kernel
theorem wf_ctrl : (CtrlRead.mk 7 true 255 none).wf = true ∧ (CtrlRead.mk 8 true 0 none).wf = false ∧ (CtrlRead.mk 0 true 256 none).wf = false ∧
    (Instr.discMount 0 true (.check ⟨⟨[], [⟨8, true, 0, none⟩], []⟩, ⟨[], [], []⟩⟩)).wf = false := by decide +kernel
theorem wf_monitor : (Instr.writeSectorEnd 0 0 ⟨[], [⟨1, 1, 0⟩]⟩).wf = true ∧ (Instr.writeSectorEnd 0 0 ⟨[], [⟨0, 1, 0⟩]⟩).wf = false := by decide
theorem wf_check : (SectorCheck.mk 13 0 0).wf = true ∧ (SectorCheck.mk 14 0 0).wf = false := by decide
theorem wf_ingot : ingot0.wf = true ∧ { ingot0 with polder := 2 ^ 64 }.wf = false ∧ { ingot0 with zone := 65536 }.wf = false ∧
    { ingot0 with row := 65536 }.wf = false ∧ { ingot0 with member := 256 }.wf = false ∧ { ingot0 with flags := 65536 }.wf = false := by decide
theorem wf_work : work0.wf = true ∧ { work0 with side := 2 }.wf = false ∧ { work0 with layer := 8 }.wf = false ∧
    { work0 with spiral := 4 }.wf = false ∧ { work0 with slot := 2 ^ 19 }.wf = false ∧ { work0 with ingots := [] }.wf = false ∧
    (Instr.writeWorkItem 0 0 { work0 with side := 2 }).wf = false := by decide +kernel
theorem wf_verify : (Instr.verifyResult 0 0 0 0 384 1 (List.replicate 18 ⟨0, 3, 0⟩)).wf = true ∧
    (Instr.verifyResult 0 0 0 0 384 1 (List.replicate 17 ⟨0, 3, 0⟩)).wf = false ∧
    (Instr.verifyResult 0 0 0 0 384 1 (List.replicate 18 ⟨14, 3, 0⟩)).wf = false := by decide +kernel
theorem wf_power : (Instr.powerTest 0 0 [(0, List.replicate 16 0)]).wf = true ∧ (Instr.powerTest 0 0 [(0, List.replicate 15 0)]).wf = false := by
  decide +kernel
theorem wf_sums : (SlotSums.mk 3144960 0 0).wf = true ∧ (SlotSums.mk 3144961 0 0).wf = false ∧ (SlotSums.mk 0 3144961 0).wf = false ∧
    (SlotSums.mk 0 0 3144961).wf = false ∧
    (Instr.calSlot ⟨true, true, ⟨3144961, 0, 0⟩, ⟨0, 0, 0⟩, ⟨0, 0, 0⟩⟩).wf = false := by decide +kernel
theorem wf_walk : (Instr.dikeWalkUnit 0 0 none 0 0 0 [⟨0, 0, ⟨14, 0, 0⟩⟩]).wf = false := by decide +kernel
theorem wf_block : (Block.mk [] []).wf = false ∧ (Block.mk (byte0 4096) (byte0 7)).wf = false := by decide +kernel
theorem wf_frames : (Instr.daxNak ⟨2 ^ 32 - 1, 0, 0⟩ true).wf = true ∧ (Instr.daxNak ⟨2 ^ 32, 0, 0⟩ true).wf = false ∧
    (Instr.daxNak ⟨0, 2 ^ 32, 0⟩ true).wf = false ∧ (Instr.daxNak ⟨0, 0, 2 ^ 32⟩ true).wf = false := by decide +kernel
theorem wf_messages : (Instr.daxHello head0 ⟨0, true, 0, [], 0⟩).wf = false ∧ (Instr.mirrorData head0 false copy1).wf = false ∧
    (Instr.daxRelease head0 (List.replicate 32 1)).wf = false ∧ (Instr.releaseAck head0 (List.replicate 32 1)).wf = false := by decide +kernel
theorem wf_wear : (Instr.wearLevelMove 0 (some ⟨1, 3, 2⟩)).wf = true ∧ (Instr.wearLevelMove 0 (some ⟨3, 3, 2⟩)).wf = false ∧
    (Instr.wearLevelMove 0 (some ⟨1, 2, 3⟩)).wf = false := by decide +kernel

/-! ## The spec's worked examples -/

/-- Page numbers (the examples under the page map of 04). -/
theorem test_page_numbers : (Page.head 7).num = 0x087 ∧ (Page.beam 7 2).num = 0x13A ∧ (Page.axis 17).num = 0x051 ∧
    (Page.hall 45).num = 0x22D := by decide +kernel
/-- The identity word of the example of R192. -/
theorem test_identity_word : identField 0x2BC12A = 700 ∧ identSpiral 0x2BC12A = 0 ∧ identTurn 0x2BC12A = 18 ∧ identLayer 0x2BC12A = 5 ∧
    identOk 0x2BC12A = true ∧ identOk 0x2BC12B = false ∧ identOk 0x2BC128 = false := by decide +kernel
/-- The example of R199: user ingot 462,720 of L5. -/
theorem test_slot_position : slotAt 12050 700 = some 116064 ∧ slotTurn 116064 = 12050 ∧ physTurn 5 12050 = 37978 ∧ zoneOf 5 12050 = 18 ∧
    radiusNm 5 12050 0 / 1000000 = 48 := by decide +kernel
/-- Two erasures of the example of R215, solved as R328 solves them. -/
theorem test_outer_code : gfPow 2 = 4 ∧ gfMul (0x02 ^^^ gfMul 0x02 0x02) (gfInv (4 ^^^ 2)) = 1 ∧ gfMul 0x03 1 = 3 := by decide +kernel
/-- Check values of R773, and the guard over 0x01, 0x00 worked by hand in chapter 17. -/
theorem test_crc_catalogue : crc crc16 [0x31, 0x32, 0x33, 0x34, 0x35, 0x36, 0x37, 0x38, 0x39] = 0xD0DB ∧
    crc crc64 [0x31, 0x32, 0x33, 0x34, 0x35, 0x36, 0x37, 0x38, 0x39] = 0xAE8B14860A799888 ∧ crc crc16 [1, 0] = 0x7562 := by decide +kernel
/-- The front-end example of chapter 7: x = 50 gives 94. -/
theorem test_condition : condition 1024 8 (-128) 512 32768 50 = 94 := by decide +kernel
/-- The canceller example of chapter 7, with the taps rounded to Q0.12: 102. -/
theorem test_cancel : cancel 120 (dot [123, 492, 123] [150, 200, 180]) (410 * -160) = 102 := by decide +kernel
/-- The interpolation example of chapter 13: GAIN 614 and OFFSET 9 at 58 °C, the point 3 value at 130 °C. -/
theorem test_interpolate : interpolate [(2560, 576), (5440, 672)] 0 3712 = 614 ∧ interpolate [(2560, 6), (5440, 14)] 0 3712 = 9 ∧
    interpolate [(2560, 576), (5440, 672)] 0 8320 = 672 := by decide +kernel
/-- The windows of the LINK example of chapter 18: the fourth message escalates, the first three do not. -/
theorem test_windows :
    let cfg : SrcCfg := { n := 3, base := 0, esc := 2, hintEn := false, scope := 0, tMant := 1, tExp := 3 }
    let k1 := SrcCnt.arrive {} cfg 140000
    let k2 := k1.arrive cfg 190000
    let k3 := k2.arrive cfg 200000
    let k4 := k3.arrive cfg 249999
    (k1.a, k1.b) = (1, 1) ∧ (k2.a, k2.b) = (2, 1) ∧ (k3.a, k3.b) = (1, 2) ∧ (k4.a, k4.b) = (2, 3) ∧
    (classify cfg k3 0).1 = 0 ∧ classify cfg k4 0 = (2, true) := by decide +kernel
/-- ENC_SCALE of the example of chapter 12: one revolution of 51,200 microsteps is 4,000 counts. -/
theorem test_encoder_scale : encOfPos (51200 * uStep) 5120 = 4000 := by decide +kernel
/-- The picker X move of chapter 12: A1 of 12,800,000 gains 32 microsteps/s in a frame. -/
theorem test_first_frame : trapStep 0 (512000 * uStep) 1280000 384000 12800000 3840000 12800000 3840000 = 32 * uStep := by decide +kernel
/-- The address example of R640: offset 300,000 is sector 0 of member 6 of row 42,062, in slot 10,902 of spiral 2. -/
theorem test_row_place :
    Polder.place { id := 1, nsid := 5, runs := [(0, [⟨40000, 0, 1000⟩, ⟨41500, 1000, 1048⟩])] } 0 300000 = some (42062, 6, 0) ∧
    Chip.ordinalOf { up with lib := { up.lib with surfaces := [(14, { consumed := [⟨0, 2, 400, 1⟩, ⟨0, 2, 500, 1⟩, ⟨0, 2, 600, 1⟩] })] } } 7 0 0 2 10902
      = 42062 := by decide +kernel
/-- The rates of R94's example, in 10^-6: a(105 °C) = 1.792, a(80 °C) = 0.392, a(120 °C) = 4.067, each within 0.001. -/
theorem test_life_rates :
    [(105, 1792000), (80, 392000), (120, 4067000)].all (fun v => ((lifeRate (v.1 * 64) : Int) - v.2).natAbs < 1000) = true ∧
    lifeRate (95 * 64) = 1000000 := by decide +kernel
/-- The pulses of the example of R193, in 1/256 sample: D is 17.20 within the rounding of the times. -/
theorem test_displacement :
    let d := (fieldD ⟨[], 100, ⟨100, 256000⟩, ⟨100, 275661⟩, ⟨100, 266875⟩, ⟨100, 266875⟩, ⟨100, 272159⟩, ⟨100, 272159⟩⟩).1
    (d - 1127219).natAbs < 200 := by decide +kernel
/-- The neighbour of the example of R310: 39 samples ahead. -/
theorem test_neighbour : neighbourDelta 1500 1288597000 48502000 = 39 := by decide +kernel
/-- The example of R630: member 11 holds 1; members 12 to 15 hold 0x0F, 0x36, 0x78 and 0x40. -/
theorem test_cross_surface :
    let known := (List.range 12).map fun m => (m, if m = 11 then 1 else 0)
    [12, 13, 14, 15].map (fun m => rsByte [12, 13, 14, 15] m known) = [0x0F, 0x36, 0x78, 0x40] := by decide +kernel
/-- R774: a CRC-32C of the nine digits, least significant byte first. -/
theorem test_byte_order : bytesLE 8 (crc crc32c [0x31, 0x32, 0x33, 0x34, 0x35, 0x36, 0x37, 0x38, 0x39]) = [0x83, 0x92, 0x06, 0xE3, 0, 0, 0, 0] := by
  decide +kernel
/-- A step on an empty queue is one tick of the timebase, which stands still before the first lock; one with a command at the front runs it and takes it away. -/
theorem test_step : (match Machine.step State.reset with | .next t => decide (t.chip.tb = 0 ∧ t.chip.reg = State.reset.chip.reg ∧ t.pending = []) | _ => false) = true ∧
    (match Machine.step { chip := { up with isl := { up.isl with tbRuns := true } }, pending := [] } with | .next t => decide (t.chip.tb = up.tb + 1) | _ => false) = true ∧
    (match Machine.step { chip := up, pending := [.frameBoundary] } with | .next t => t.pending.isEmpty | _ => false) = true := by decide +kernel

end Sys2Proof.Tests
end

section
namespace Sys2Proof.Machine

/-! ## The layout of the register words (R8, R9, R137, R142) -/

/-- The offset of the last word of a field. -/
def Fld.last (f : Fld) : Nat := f.off + (f.cnt - 1) * f.stride

/-- The field has a bit, ends within bit 31, and its words lie within the page. -/
def Fld.inWord (f : Fld) : Bool := decide (0 < f.w) && decide (f.lo + f.w ≤ 32) && decide (f.last < 4096)

/-- Two fields share no bit of any word: one ends before the other begins, or their bits are apart, or they alternate in
steps of one stride. -/
def Fld.noClash (f g : Fld) : Bool :=
  f.last.blt g.off || g.last.blt f.off || (f.lo + f.w).ble g.lo || (g.lo + g.w).ble f.lo ||
    (f.stride == g.stride && f.off % f.stride != g.off % g.stride)

/-- No two fields of a table clash. -/
def noClashes : List Fld → Bool
  | [] => true
  | f :: r => r.all f.noClash && noClashes r

theorem pairwise_of_noClashes {l : List Fld} (h : noClashes l = true) : l.Pairwise fun f g => f.noClash g = true := by
  induction l with
  | nil => exact .nil
  | cons f r ih =>
    simp only [noClashes, Bool.and_eq_true, List.all_eq_true] at h
    exact List.pairwise_cons.2 ⟨h.1, ih h.2⟩

/-- The field tables of the chapters: the page header's and one for each kind of page. -/
def fieldTables : List (List Fld) :=
  [Reg.HDR.fields, Reg.SYS.fields, Reg.CLK.fields, Reg.FAULT.fields, Reg.ASSAY.fields, Reg.HOST.fields, Reg.CMD.fields,
    Reg.MEM.fields, Reg.CACHE.fields, Reg.SLUICE.fields, Reg.POLDER.fields, Reg.INV.fields, Reg.RSTORE.fields,
    Reg.PEER.fields, Reg.LOOP.fields, Reg.TRACE.fields, Reg.SPIN.fields, Reg.AXIS.fields, Reg.HEAD.fields,
    Reg.BEAM.fields, Reg.HALL.fields]

theorem fieldTables_inWord : ∀ l ∈ fieldTables, ∀ f ∈ l, f.inWord = true := by decide +kernel

theorem fieldTables_noClashes : fieldTables.all noClashes = true := by decide +kernel

/-- The field table that decodes the word at offset `off` of a page. -/
def tableAt (p : Page) (off : Nat) : List Fld := if off < 0x040 then Reg.HDR.fields else blockFields p

theorem tableAt_mem (p : Page) (off : Nat) : tableAt p off ∈ fieldTables := by
  unfold tableAt
  split
  · simp [fieldTables]
  · cases p <;> simp [fieldTables, blockFields]

theorem wordFields_eq (p : Page) (off : Nat) :
    wordFields p off = (tableAt p off).filterMap fun f => (f.place off).map fun i => (f, i) := by
  cases p <;> rfl

/-- A field with a place at an offset has its word there, and the place is one of its repetitions. -/
theorem Fld.place_eq_some {f : Fld} {off i : Nat} (h : f.place off = some i) : f.off + i * f.stride = off ∧ i < f.cnt := by
  unfold Fld.place at h
  split at h
  · cases h
  · simp only at h
    split at h
    · next hlt hc =>
      cases h
      have := Nat.div_mul_cancel (Nat.dvd_of_mod_eq_zero hc.1)
      exact ⟨by omega, hc.2.1⟩
    · cases h

theorem mem_wordFields {p : Page} {off : Nat} {e : Fld × Nat} :
    e ∈ wordFields p off ↔ e.1 ∈ tableAt p off ∧ e.1.place off = some e.2 := by
  obtain ⟨f, i⟩ := e
  simp only [wordFields_eq, List.mem_filterMap, Option.map_eq_some_iff, Prod.mk.injEq]
  constructor
  · rintro ⟨g, hg, j, hj, rfl, rfl⟩; exact ⟨hg, hj⟩
  · rintro ⟨hf, hi⟩; exact ⟨f, hf, i, hi, rfl, rfl⟩

/-- A field's word at one of its places is no later than its last. -/
theorem Fld.place_le_last {f : Fld} {off i : Nat} (h : f.place off = some i) : off ≤ f.last := by
  obtain ⟨ho, hi⟩ := Fld.place_eq_some h
  have := Nat.mul_le_mul_right f.stride (show i ≤ f.cnt - 1 by omega)
  unfold Fld.last; omega

/-- Two fields that do not clash have disjoint bits in a word that both have. -/
theorem Fld.noClash_bits {f g : Fld} {off i j : Nat} (h : f.noClash g = true) (hf : f.place off = some i)
    (hg : g.place off = some j) : f.lo + f.w ≤ g.lo ∨ g.lo + g.w ≤ f.lo := by
  have hf' := Fld.place_eq_some hf
  have hg' := Fld.place_eq_some hg
  have lf := Fld.place_le_last hf
  have lg := Fld.place_le_last hg
  simp only [Fld.noClash, Bool.or_eq_true, Bool.and_eq_true, Nat.blt_eq, Nat.ble_eq, beq_iff_eq, bne_iff_ne] at h
  rcases h with (((h | h) | h) | h) | ⟨hs, hm⟩
  · omega
  · omega
  · exact .inl h
  · exact .inr h
  · refine absurd ?_ hm
    have ef : off % f.stride = f.off % f.stride := by rw [← hf'.1, Nat.add_mul_mod_self_right]
    have eg : off % g.stride = g.off % g.stride := by rw [← hg'.1, Nat.add_mul_mod_self_right]
    rw [← ef, ← eg, hs]

/-- A field of a word has a bit, ends within bit 31, and its word lies in the page. -/
theorem wordFields_inWord {p : Page} {off : Nat} {e : Fld × Nat} (h : e ∈ wordFields p off) :
    0 < e.1.w ∧ e.1.lo + e.1.w ≤ 32 ∧ e.1.Fits e.2 = true := by
  obtain ⟨hm, hp⟩ := mem_wordFields.1 h
  have hw := fieldTables_inWord _ (tableAt_mem p off) _ hm
  simp only [Fld.inWord, Bool.and_eq_true, decide_eq_true_eq] at hw
  obtain ⟨⟨h0, h32⟩, hl⟩ := hw
  have := (Fld.place_eq_some hp).1
  have := Fld.place_le_last hp
  refine ⟨h0, h32, ?_⟩
  simp only [Fld.Fits, Bool.and_eq_true, decide_eq_true_eq]
  omega

theorem wordFields_fits {p : Page} {off : Nat} {e : Fld × Nat} (h : e ∈ wordFields p off) : e.1.Fits e.2 = true :=
  (wordFields_inWord h).2.2

theorem wordFields_width {p : Page} {off : Nat} {e : Fld × Nat} (h : e ∈ wordFields p off) : e.1.w ≤ 32 := by
  have := (wordFields_inWord h).2.1
  omega

/-- The fields of a word have disjoint bits. -/
theorem wordFields_disjoint (p : Page) (off : Nat) :
    (wordFields p off).Pairwise fun a b => a.1.lo + a.1.w ≤ b.1.lo ∨ b.1.lo + b.1.w ≤ a.1.lo := by
  rw [wordFields_eq, List.pairwise_filterMap]
  have hn := List.all_eq_true.1 fieldTables_noClashes _ (tableAt_mem p off)
  refine (pairwise_of_noClashes hn).imp fun hc a ha b hb => ?_
  obtain ⟨i, hi, rfl⟩ := Option.map_eq_some_iff.1 ha
  obtain ⟨j, hj, rfl⟩ := Option.map_eq_some_iff.1 hb
  exact Fld.noClash_bits hc hi hj

/-- The fields of a word have different keys in the register store. -/
theorem wordFields_keys (p : Page) (off : Nat) :
    (wordFields p off).Pairwise fun a b => fieldKey p a.1 a.2 ≠ fieldKey p b.1 b.2 := by
  refine (wordFields_disjoint p off).imp_of_mem fun {a b} ha hb hd => ?_
  have wa := wordFields_inWord ha
  have wb := wordFields_inWord hb
  exact fieldKey_ne_place wa.2.2 wb.2.2 (.inr (by omega))

end Sys2Proof.Machine

open Sys2Proof Sys2Proof.Machine

/-- Settles O17: no two fields of a table clash, and a word takes from one table the fields that have a place in it. -/
theorem wordFieldsDoNotOverlap : Obligations.WordFieldsDoNotOverlap := by
  intro p k
  exact ⟨fun e he => (wordFields_inWord he).2, wordFields_disjoint p _⟩

end

section
namespace Sys2Proof.Machine

/-! ## Steps and the state of reset -/

theorem step_cons {s : State} {i : Instr} {r : List Instr} (h : s.pending = i :: r) :
    step s = exec i { s with pending := r } := by
  unfold step; rw [h]

theorem step_nil {s : State} (h : s.pending = []) : step s = .next { s with chip := s.chip.tick } := by
  unfold step; rw [h]

/-- A tick moves the timebase and raises VDD_IO and changes nothing else. -/
theorem Chip.tick_sameBut (c : Chip) : c.SameBut c.tick [.tb, .pins] := fun q hq => by
  cases q
  case tb | pins => simp at hq
  all_goals rfl

/-- In the state of reset one word of the register store is listed: RESET_CAUSE.POR. -/
theorem reset_rdI {p : Page} {f : Fld} {i : Nat} (h : fieldKey p f i ≠ porKey) :
    State.reset.chip.rdI p f i = fieldReset p f i % 2 ^ 32 := by
  have hp : Sparse.get (BitVec.ofNat 32 (fieldReset p f i)) [(porKey, 1)] (fieldKey p f i) =
      BitVec.ofNat 32 (fieldReset p f i) := by simp [Sparse.get, h]
  have ha : Sparse.get (BitVec.ofNat 32 (fieldReset p f i)) [] (fieldKey p f i) =
      BitVec.ofNat 32 (fieldReset p f i) := rfl
  unfold Chip.rdI RegFile.rdI State.reset
  split
  · rw [ha, BitVec.toNat_ofNat]
  · rw [hp, BitVec.toNat_ofNat]

theorem reset_killHigh (h : Port) : State.reset.chip.killHigh h = false := Nat.zero_testBit h.val

/-- With every LASER_KILL_N low the interlock holds. -/
theorem reset_interlocked : State.reset.chip.Interlocked := fun h hk => by
  rw [reset_killHigh] at hk; cases hk

theorem reset_regsWf : State.reset.chip.RegsWf := ⟨by decide, rfl, rfl⟩

theorem reset_por : State.reset.chip.rd .sys Reg.SYS.RESET_CAUSE_POR = 1 := by decide +kernel

end Sys2Proof.Machine

open Sys2Proof Sys2Proof.Machine

/-- Settles O1: by the two cases of the queue, and since every meaning ends with the interlock and a next state. -/
theorem stepTakesTheFrontCommand : Obligations.StepTakesTheFrontCommand := by
  refine ⟨fun s i r h => step_cons h, fun s h => ⟨_, step_nil h, h, rfl, rfl, s.chip.tick_sameBut⟩, fun i s => ?_⟩
  obtain ⟨c, hc⟩ := exec_next i s
  exact ⟨_, hc, rfl⟩

/-- Settles O2: the register store of reset lists RESET_CAUSE.POR alone, and every line is low. -/
theorem resetHoldsTheInterlock : Obligations.ResetHoldsTheInterlock :=
  ⟨rfl, reset_interlocked, reset_regsWf, reset_killHigh, reset_por, fun _ _ _ h => reset_rdI h⟩

end

section
namespace Sys2Proof.Machine

/-! ## The interlock and a change of one page -/

/-- A change of registers of pages other than HEAD, CLK and FAULT keeps the interlock. -/
theorem Chip.Interlocked.of_samePages {c d : Chip} {W : Page → Bool} (h : c.Interlocked) (hs : c.reg.SamePages W d.reg)
    (hh : ∀ q, W (.head q) = false) (hc : W .clk = false) (hf : W .fault = false) (hi : d.isl = c.isl)
    (hp : d.pins = c.pins) : d.Interlocked := by
  have e : ∀ (p : Page) (f : Fld), W p = false → f.Fits 0 = true → d.rd p f = c.rd p f := fun p f hw hf => (hs p f 0 hw hf).1
  intro q hq
  have hk : c.killHigh q = true := by simpa [Chip.killHigh, hp] using hq
  have hl := h q hk
  simpa only [Chip.laserOk, Chip.enabled, Chip.headGated, Chip.linkState, Chip.laserArmed, Chip.headQuenched, Chip.flag, hi,
    e _ Reg.HDR.PAGE_CTL_EN (hh q) (by decide), e _ Reg.CLK.HEAD_GATE_GATE hc (by decide),
    e _ Reg.HEAD.LINK_STAT_STATE (hh q) (by decide), e _ Reg.HEAD.LASER_CTL_WHY_ABSENT (hh q) (by decide),
    e _ Reg.HEAD.LASER_CTL_ARM (hh q) (by decide), e _ Reg.FAULT.QUENCH_HEAD_PORTS hf (by decide)] using hl

/-- A change that leaves registers, islands and pins alone keeps the interlock. -/
theorem Chip.Interlocked.of_sameBut {c d : Chip} {l : List Part} (h : c.Interlocked) (hs : c.SameBut d l)
    (hl : Part.reg ∉ l ∧ Part.isl ∉ l ∧ Part.pins ∉ l) : d.Interlocked := by
  have hr : d.reg = c.reg := hs .reg hl.1
  refine h.of_samePages (W := fun _ => false) ?_ (fun _ => rfl) rfl rfl (hs .isl hl.2.1) (hs .pins hl.2.2)
  rw [hr]; exact RegFile.SamePages.rfl' _ _

/-! ## Faults of the register space -/

/-- SYS always runs: a fault of its source REGISTER is always sent. -/
theorem Chip.regFault_eq (c : Chip) (k : Nat) : c.regFault k = { c with x16 := c.x16 ++ [⟨0, k, 0, 0, 0x10⟩] } := rfl

theorem Chip.regFault_sameBut (c : Chip) (k : Nat) : c.SameBut (c.regFault k) [.x16] := fun q hq => by
  cases q
  case x16 => simp at hq
  all_goals rfl

/-- A command whose effect is a fault of the source REGISTER. -/
theorem completes_regFault {i : Instr} {s : State} {c : Chip} {k : Nat}
    (he : exec i s = .next { s with chip := c.interlock }) (hd : c = s.chip.regFault k) (hI : s.chip.Interlocked) :
    Completes i s fun d => d.x16 = s.chip.x16 ++ [⟨0, k, 0, 0, 0x10⟩] ∧ s.chip.SameBut d [.x16] :=
  completes_of he hd (hI.of_sameBut (s.chip.regFault_sameBut k) (by decide))
    ⟨by rw [Chip.regFault_eq], s.chip.regFault_sameBut k⟩

/-! ## Page numbers -/

/-- A page's number names the page (R137). -/
theorem Page.ofNum_num (p : Page) : Page.ofNum p.num = some p := by
  cases p with
  | loop e => revert e; decide
  | trace t => revert t; decide
  | spin n => revert n; decide
  | axis a => revert a; decide
  | head h => revert h; decide
  | beam h b => revert h b; decide
  | hall n => revert n; decide +kernel
  | _ => rfl

theorem Page.num_lt (p : Page) : p.num < 4096 := by
  cases p <;> simp only [Page.num] <;> omega

/-- The page and the offset of an address of the register space (R136). -/
theorem Page.addr_split {p : Page} {a off : Nat} (h : a = p.num * 4096 + off) (ho : off < 4096) :
    Page.ofNum (a / 4096) = some p ∧ a % 4096 = off := by
  have e : a / 4096 = p.num := by omega
  exact ⟨by rw [e]; exact Page.ofNum_num p, by omega⟩

/-! ## Accesses that reach their page -/

theorem Chip.settle_of_ne {c : Chip} {p : Page} (h : c.rd p Reg.HDR.PAGE_STAT_STATE ≠ 4) : c.settle p = c := if_neg h

/-- A write to a page that the requester may write takes effect. -/
theorem Chip.write_of_writable {c : Chip} {r : Requester} {p : Page} (h : c.Writable r p) (f : Chip → Chip) :
    c.write r p f = f c := by
  obtain ⟨hh, ⟨hu, hs⟩, hm⟩ := h
  simp [Chip.write, hh, hu, hm, Chip.settle_of_ne hs]

/-- A read of a reached page takes effect. -/
theorem Chip.readPort_of_reach {c : Chip} {r : Requester} {p : Page} (hh : c.hears r = true) (h : c.Reach p) (f : Chip → Chip) :
    c.readPort r p f = f c := by
  obtain ⟨hu, hs⟩ := h
  simp [Chip.readPort, hh, hu, Chip.settle_of_ne hs]

/-- A read of a page of a gated island answers all ones and is reported (R174). -/
theorem Chip.readPort_of_absent {c : Chip} {r : Requester} {p : Page} (hh : c.hears r = true) (h : c.pageUp p = false)
    (f : Chip → Chip) : c.readPort r p f = (c.answer r 0xFFFFFFFF).regFault 1 := by
  simp [Chip.readPort, hh, h]

/-- A register write that arrives, the host's through function 0. -/
theorem exec_registerWrite {s : State} {r : Requester} {n : Ctrl} (hh : s.chip.hears r = true) (hn : r = .host → n = 0)
    (z : AccSize) (a : BitVec 24) (lo hi : Word) (env : WriteEnv) :
    exec (.registerWrite r n z a lo hi env) s =
      .next { s with chip := (s.chip.writeReg r z a.toNat lo.toNat hi.toNat env).interlock } := by
  have hv : ¬ (r = .host ∧ n ≠ 0) := fun h => h.2 (hn h.1)
  show execRegisterWrite r n z a lo hi env s = _
  simp [execRegisterWrite, State.to, hh, hv]

/-- A register read that arrives, the host's through function 0. -/
theorem exec_registerRead {s : State} {r : Requester} {n : Ctrl} (hh : s.chip.hears r = true) (hn : r = .host → n = 0)
    (z : AccSize) (a : BitVec 24) :
    exec (.registerRead r n z a) s = .next { s with chip := (s.chip.readReg r z a.toNat).interlock } := by
  have hv : ¬ (r = .host ∧ n ≠ 0) := fun h => h.2 (hn h.1)
  show execRegisterRead r n z a s = _
  simp [execRegisterRead, State.to, hh, hv]

/-! ## Chains of steps over the fields of a word -/

/-- A step over a field of page `p` changes that field alone. -/
def FieldStep (p : Page) (g : Chip → Fld × Nat → Chip) : Prop :=
  ∀ (c : Chip) (e : Fld × Nat), c.SameBut (g c e) [.reg] ∧ c.SameRegs (g c e) [(p, e.1, e.2)]

section
variable {p : Page} {g : Chip → Fld × Nat → Chip}

theorem FieldStep.foldl_sameBut (hg : FieldStep p g) (l : List (Fld × Nat)) (c : Chip) : c.SameBut (l.foldl g c) [.reg] := by
  induction l generalizing c with
  | nil => exact Chip.SameBut.rfl' c _
  | cons e r ih => exact (hg c e).1.trans (ih _)

/-- A chain of steps leaves every other field alone. -/
theorem FieldStep.foldl_sameRegs (hg : FieldStep p g) (l : List (Fld × Nat)) (c : Chip) :
    c.SameRegs (l.foldl g c) (l.map fun e => (p, e.1, e.2)) := by
  induction l generalizing c with
  | nil => exact Chip.SameRegs.rfl' c _
  | cons e r ih => exact ((hg c e).2.mono (by simp)).trans ((ih _).mono (by simp +contextual))

/-- In a chain over fields with different keys each field takes what its own step gives it from its old value. -/
theorem FieldStep.foldl_at (hg : FieldStep p g) {l : List (Fld × Nat)}
    (hk : l.Pairwise fun a b => fieldKey p a.1 a.2 ≠ fieldKey p b.1 b.2) {e : Fld × Nat} (he : e ∈ l) (c : Chip) :
    ∃ m : Chip, c.SameBut m [.reg] ∧ m.rdI p e.1 e.2 = c.rdI p e.1 e.2 ∧
      (l.foldl g c).rdI p e.1 e.2 = (g m e).rdI p e.1 e.2 ∧ (l.foldl g c).shI p e.1 e.2 = (g m e).shI p e.1 e.2 := by
  obtain ⟨a, b, rfl⟩ := List.append_of_mem he
  obtain ⟨-, hb, hab⟩ := List.pairwise_append.1 hk
  have ha : ∀ x ∈ a.map (fun x => (p, x.1, x.2)), fieldKey x.1 x.2.1 x.2.2 ≠ fieldKey p e.1 e.2 := by
    simp only [List.forall_mem_map]
    exact fun x hx => hab x hx e (by simp)
  have hb : ∀ x ∈ b.map (fun x => (p, x.1, x.2)), fieldKey x.1 x.2.1 x.2.2 ≠ fieldKey p e.1 e.2 := by
    simp only [List.forall_mem_map]
    exact fun x hx => ((List.pairwise_cons.1 hb).1 x hx).symm
  have before := hg.foldl_sameRegs a c p e.1 e.2 ha
  have after := hg.foldl_sameRegs b (g (a.foldl g c) e) p e.1 e.2 hb
  refine ⟨a.foldl g c, hg.foldl_sameBut a c, before.1, ?_⟩
  rw [List.foldl_append, List.foldl_cons]
  exact after

/-- A chain over the fields of a word changes registers of its page only. -/
theorem FieldStep.foldl_samePages (hg : FieldStep p g) (off : Nat) (c : Chip) :
    c.reg.SamePages (fun q => decide (q = p)) ((wordFields p off).foldl g c).reg := by
  intro q f i hq hf
  refine hg.foldl_sameRegs (wordFields p off) c q f i ?_
  simp only [List.forall_mem_map]
  exact fun e he => fieldKey_ne_page (Ne.symm (of_decide_eq_false hq)) (wordFields_fits he) hf

/-- A chain over the fields of a word of a page other than HEAD, CLK and FAULT keeps the interlock. -/
theorem FieldStep.foldl_interlocked (hg : FieldStep p g) (off : Nat) {c : Chip} (h : c.Interlocked) (hh : ∀ q, p ≠ .head q)
    (hc : p ≠ .clk) (hf : p ≠ .fault) : ((wordFields p off).foldl g c).Interlocked :=
  h.of_samePages (hg.foldl_samePages off c) (fun q => decide_eq_false (hh q).symm) (decide_eq_false hc.symm)
    (decide_eq_false hf.symm) (hg.foldl_sameBut _ c .isl (by decide)) (hg.foldl_sameBut _ c .pins (by decide))

end

/-! ## Stage 1 of a write -/

theorem Chip.reg_sameBut (c : Chip) (g : RegFile) : c.SameBut { c with reg := g } [.reg] := fun q hq => by
  cases q
  case reg => simp at hq
  all_goals rfl

theorem Chip.putI_sameBut (c : Chip) (p : Page) (f : Fld) (i v : Nat) : c.SameBut (c.putI p f i v) [.reg] :=
  c.reg_sameBut _

theorem Chip.putShI_sameBut (c : Chip) (p : Page) (f : Fld) (i v : Nat) : c.SameBut (c.putShI p f i v) [.reg] :=
  c.reg_sameBut _

theorem Chip.putI_sameRegs (c : Chip) (p : Page) (f : Fld) (i v : Nat) : c.SameRegs (c.putI p f i v) [(p, f, i)] :=
  RegFile.Same.putI p f i v (RegFile.Same.rfl' c.reg _) (by simp)

theorem Chip.putShI_sameRegs (c : Chip) (p : Page) (f : Fld) (i v : Nat) : c.SameRegs (c.putShI p f i v) [(p, f, i)] :=
  (Chip.SameRegs.rfl' c _).putShI p f i v (by simp)

/-- Writing one field of a word changes that field alone. -/
theorem fieldWrite_step (p : Page) (w : Nat) : FieldStep p fun c e => c.fieldWrite p w e := by
  intro c e
  simp only [Chip.fieldWrite]
  split
  · exact ⟨c.putI_sameBut _ _ _ _, c.putI_sameRegs _ _ _ _⟩
  · split
    · exact ⟨Chip.SameBut.rfl' c _, Chip.SameRegs.rfl' c _⟩
    · exact ⟨c.putShI_sameBut _ _ _ _, c.putShI_sameRegs _ _ _ _⟩
  · exact ⟨c.putI_sameBut _ _ _ _, c.putI_sameRegs _ _ _ _⟩
  · exact ⟨Chip.SameBut.rfl' c _, Chip.SameRegs.rfl' c _⟩

section
variable {c : Chip} {p : Page} {e : Fld × Nat}

/-- An RW field takes its bits of the written word (R9). -/
theorem Chip.rdI_fieldWrite_rw (w : Nat) (ha : e.1.acc = .rw) (hw : e.1.w ≤ 32) :
    (c.fieldWrite p w e).rdI p e.1 e.2 = w / 2 ^ e.1.lo % 2 ^ e.1.w := by
  simp only [Chip.fieldWrite, ha, slice]
  rw [Chip.rdI_putI_same _ _ _ _ _ hw, Nat.mod_mod]

/-- An RWS field with an open shadow takes its bits in its shadow; its value in force stays (R9, R153). -/
theorem Chip.fieldWrite_rws (w : Nat) (ha : e.1.acc = .rws) (hw : e.1.w ≤ 32) (hf : c.frozen p = false)
    (hx : fixedField p e.1 = false) :
    (c.fieldWrite p w e).shI p e.1 e.2 = w / 2 ^ e.1.lo % 2 ^ e.1.w ∧
      (c.fieldWrite p w e).rdI p e.1 e.2 = c.rdI p e.1 e.2 := by
  simp only [Chip.fieldWrite, ha, hf, hx, slice, Bool.or_self, Bool.false_eq_true, if_false]
  exact ⟨by rw [Chip.shI_putShI_same _ _ _ _ _ hw, Nat.mod_mod], rfl⟩

/-- A W1C field keeps its bits where the written ones are 0 (R9). -/
theorem Chip.rdI_fieldWrite_w1c (w : Nat) (ha : e.1.acc = .w1c) (hw : e.1.w ≤ 32) :
    (c.fieldWrite p w e).rdI p e.1 e.2 =
      (c.rdI p e.1 e.2 &&& (2 ^ e.1.w - 1 - w / 2 ^ e.1.lo % 2 ^ e.1.w)) := by
  simp only [Chip.fieldWrite, ha, slice]
  rw [Chip.rdI_putI_same _ _ _ _ _ hw]
  refine Nat.mod_eq_of_lt (Nat.lt_of_le_of_lt Nat.and_le_right ?_)
  have := Nat.two_pow_pos e.1.w
  omega

/-- A write leaves an RO field alone (R9). -/
theorem Chip.fieldWrite_ro (w : Nat) (ha : e.1.acc = .ro) : c.fieldWrite p w e = c := by
  simp only [Chip.fieldWrite, ha]

end

theorem Chip.frozen_congr {c m : Chip} {l : List Part} (h : c.SameBut m l) (hl : Part.commits ∉ l) (p : Page) :
    m.frozen p = c.frozen p := by
  have e : m.commits = c.commits := h .commits hl
  simp only [Chip.frozen, e]

/-- The note that a command register of the page has been written (R490, R516, R568). -/
def Chip.noteCommand (c : Chip) (p : Page) (off : Nat) : Chip :=
  if isCommand p off then { c with cmdPages := c.cmdPages.filter (fun q => !(q == p)) ++ [p] } else c

theorem Chip.noteCommand_sameBut (c : Chip) (p : Page) (off : Nat) : c.SameBut (c.noteCommand p off) [.cmdPages] := by
  unfold Chip.noteCommand
  split
  · intro q hq
    cases q
    case cmdPages => simp at hq
    all_goals rfl
  · exact Chip.SameBut.rfl' c _

@[simp] theorem Chip.noteCommand_reg (c : Chip) (p : Page) (off : Nat) : (c.noteCommand p off).reg = c.reg :=
  c.noteCommand_sameBut p off .reg (by decide)

/-- A word written while the page's shadow is open: the note of a command, then field by field. -/
theorem Chip.wordWrite_open {c : Chip} {p : Page} (hf : c.frozen p = false) (off w : Nat) :
    c.wordWrite p off w = (wordFields p off).foldl (fun c e => c.fieldWrite p w e) (c.noteCommand p off) := by
  simp only [Chip.wordWrite, hf, Bool.false_and, Bool.false_eq_true, if_false, Bool.not_false, Bool.and_true, Chip.noteCommand]

/-- Each field of a word written while the shadow is open, by its access type. -/
theorem Chip.wordWrite_fields {c : Chip} {p : Page} (hf : c.frozen p = false) (hx : ∀ f, fixedField p f = false) (off w : Nat)
    {e : Fld × Nat} (he : e ∈ wordFields p off) :
    (e.1.acc = .rw → (c.wordWrite p off w).rdI p e.1 e.2 = w / 2 ^ e.1.lo % 2 ^ e.1.w) ∧
    (e.1.acc = .rws → (c.wordWrite p off w).shI p e.1 e.2 = w / 2 ^ e.1.lo % 2 ^ e.1.w ∧
      (c.wordWrite p off w).rdI p e.1 e.2 = c.rdI p e.1 e.2) ∧
    (e.1.acc = .w1c → (c.wordWrite p off w).rdI p e.1 e.2 =
      (c.rdI p e.1 e.2 &&& (2 ^ e.1.w - 1 - w / 2 ^ e.1.lo % 2 ^ e.1.w))) ∧
    (e.1.acc = .ro → (c.wordWrite p off w).rdI p e.1 e.2 = c.rdI p e.1 e.2) := by
  have hw := wordFields_width he
  obtain ⟨m, hm, hold, hr, hs⟩ := (fieldWrite_step p w).foldl_at (wordFields_keys p off) he (c.noteCommand p off)
  have hfm : m.frozen p = false := by
    rw [Chip.frozen_congr hm (by decide), Chip.frozen_congr (c.noteCommand_sameBut p off) (by decide), hf]
  have hold : m.rdI p e.1 e.2 = c.rdI p e.1 e.2 := by rw [hold]; simp only [Chip.rdI, Chip.noteCommand_reg]
  rw [Chip.wordWrite_open hf, hr, hs, ← hold]
  exact ⟨fun ha => Chip.rdI_fieldWrite_rw w ha hw, fun ha => Chip.fieldWrite_rws w ha hw hfm (hx _),
    fun ha => Chip.rdI_fieldWrite_w1c w ha hw, fun ha => by rw [Chip.fieldWrite_ro w ha]⟩

theorem Chip.wordWrite_samePages {c : Chip} {p : Page} (hf : c.frozen p = false) (off w : Nat) :
    c.reg.SamePages (fun q => decide (q = p)) (c.wordWrite p off w).reg := by
  have := (fieldWrite_step p w).foldl_samePages off (c.noteCommand p off)
  rwa [Chip.noteCommand_reg, ← Chip.wordWrite_open hf] at this

theorem Chip.wordWrite_sameBut {c : Chip} {p : Page} (hf : c.frozen p = false) (off w : Nat) :
    c.SameBut (c.wordWrite p off w) [.reg, .cmdPages] := by
  rw [Chip.wordWrite_open hf]
  exact ((c.noteCommand_sameBut p off).mono (by simp)).trans
    (((fieldWrite_step p w).foldl_sameBut _ _).mono (by simp))

theorem Chip.wordWrite_interlocked {c : Chip} {p : Page} (hf : c.frozen p = false) (off w : Nat) (h : c.Interlocked)
    (hh : ∀ q, p ≠ .head q) (hc : p ≠ .clk) (hq : p ≠ .fault) : (c.wordWrite p off w).Interlocked := by
  rw [Chip.wordWrite_open hf]
  exact (fieldWrite_step p w).foldl_interlocked off (h.of_sameBut (c.noteCommand_sameBut p off) (by decide)) hh hc hq

/-! ## Writes to pages whose words have no effect of their own -/

/-- The pages in which every block word takes its fields and does nothing else. -/
def PlainWrite (p : Page) : Prop := p = .cmd ∨ p = .polder ∨ ∃ m, p = .spin m

theorem Chip.blockWrite_plain {p : Page} (h : PlainWrite p) (c : Chip) (off w : Nat) (env : WriteEnv) :
    c.blockWrite p off w env = c.wordWrite p off w := by
  rcases h with rfl | rfl | ⟨m, rfl⟩ <;> rfl

theorem Chip.pageWrite_block {off : Nat} (h : 64 ≤ off) (c : Chip) (r : Requester) (p : Page) (w : Nat) (env : WriteEnv) :
    c.pageWrite r p off w env = c.blockWrite p off w env := by
  unfold Chip.pageWrite
  split
  · omega
  · omega
  · omega
  · omega
  · rfl

/-- A write that the requester may make of a block word of such a page. -/
theorem Chip.write32_plain {c : Chip} {r : Requester} {p : Page} {a off : Nat} (hp : PlainWrite p) (ha : a = p.num * 4096 + off)
    (hl : 64 ≤ off) (hu : off < 4096) (hw : c.Writable r p) (w : Nat) (env : WriteEnv) :
    c.write32 r a w env = c.wordWrite p off w := by
  obtain ⟨hn, ho⟩ := Page.addr_split ha hu
  have hs : p ≠ .sys := by rcases hp with rfl | rfl | ⟨m, rfl⟩ <;> simp
  have h28 : off ≠ 0x028 := by omega
  simp only [Chip.write32, hn, ho, h28, hs, if_false, false_and]
  rw [Chip.write_of_writable hw, Chip.pageWrite_block hl, Chip.blockWrite_plain hp]

/-! ## Requests over the management bus -/

section
variable (c : Chip) (h : Port) (a : McResp)

theorem Chip.rd_mctpAnswer (p : Page) (f : Fld) : (c.mctpAnswer a).rd p f = c.rd p f := rfl
theorem Chip.sv_mctpAnswer : (c.mctpAnswer a).sv h = c.sv h := rfl
theorem Chip.now_mctpAnswer : (c.mctpAnswer a).now = c.now := rfl
theorem Chip.frameNum_mctpAnswer : (c.mctpAnswer a).frameNum = c.frameNum := rfl
theorem Chip.killHigh_mctpAnswer : (c.mctpAnswer a).killHigh h = c.killHigh h := rfl
theorem Chip.laserOk_mctpAnswer : (c.mctpAnswer a).laserOk h = c.laserOk h := rfl

theorem Chip.put_mctpAnswer (p : Page) (f : Fld) (v : Nat) : (c.mctpAnswer a).put p f v = (c.put p f v).mctpAnswer a := rfl

theorem Chip.modSv_mctpAnswer (f : ServoSt → ServoSt) : (c.mctpAnswer a).modSv h f = (c.modSv h f).mctpAnswer a := rfl

theorem Chip.setKill_mctpAnswer (b : Bool) : (c.mctpAnswer a).setKill h b = (c.setKill h b).mctpAnswer a := rfl

theorem Chip.srvEnd_mctpAnswer (n : Nat) : (c.mctpAnswer a).srvEnd h n = (c.srvEnd h n).mctpAnswer a := by
  by_cases hx : (c.sv h).cmd = 0
  · simp only [Chip.srvEnd, Chip.sv_mctpAnswer, hx, if_true]
  · simp only [Chip.srvEnd, hx, if_false, Chip.srvReport, Chip.event, Chip.orBits, Chip.sv_mctpAnswer,
      Chip.frameNum_mctpAnswer, Chip.put_mctpAnswer, Chip.rd_mctpAnswer, Chip.modSv_mctpAnswer]

theorem Chip.srvAbort_mctpAnswer : (c.mctpAnswer a).srvAbort h = (c.srvAbort h).mctpAnswer a := by
  simp only [Chip.srvAbort, Chip.srvIdle, Chip.srvEnter, Chip.srvGates, Bool.false_eq_true, if_false,
    Chip.srvEnd_mctpAnswer, Chip.put_mctpAnswer, Chip.modSv_mctpAnswer, Chip.now_mctpAnswer]

theorem Chip.killArm_mctpAnswer (fall : Bool) : (c.mctpAnswer a).killArm h fall = (c.killArm h fall).mctpAnswer a := by
  cases fall <;> rfl

theorem Chip.killEdge_mctpAnswer (was ok : Bool) :
    (c.mctpAnswer a).killEdge h was ok = (c.killEdge h was ok).mctpAnswer a := by
  simp only [Chip.killEdge, Chip.srvAbort_mctpAnswer, Chip.modSv_mctpAnswer, Chip.now_mctpAnswer]
  split
  · rfl
  · split <;> rfl

theorem Chip.killShow_mctpAnswer (ok : Bool) : (c.mctpAnswer a).killShow h ok = (c.killShow h ok).mctpAnswer a := rfl

theorem Chip.updKill_mctpAnswer : (c.mctpAnswer a).updKill h = (c.updKill h).mctpAnswer a := by
  simp only [Chip.updKill, Chip.killHigh_mctpAnswer, Chip.laserOk_mctpAnswer, Chip.killArm_mctpAnswer,
    Chip.setKill_mctpAnswer, Chip.killEdge_mctpAnswer, Chip.killShow_mctpAnswer]

end

/-- The answer to a request is kept apart from all that the laser interlock reads and sets. -/
theorem Chip.interlock_mctpAnswer (c : Chip) (a : McResp) : (c.mctpAnswer a).interlock = c.interlock.mctpAnswer a := by
  unfold Chip.interlock
  generalize allPorts = l
  induction l generalizing c with
  | nil => rfl
  | cons h r ih =>
    rw [List.foldl_cons, List.foldl_cons, ← ih, Chip.killHigh_mctpAnswer, Chip.laserOk_mctpAnswer]
    split
    · rw [Chip.updKill_mctpAnswer]
    · rfl

/-- A good request of one word within a page (R177, R178), its body as long as its OPCODE asks. -/
theorem mcOk_of {m : McMsg} (hc : m.check = true) (h1 : mcCount m = 1) (hp : mcPage m < 0x1000)
    (ho : mcOffset m % 4 = 0) (hu : mcOffset m < 4096)
    (hl : m.body.length = if mcOpcode m = 2 then 6 + 4 else 6) : mcOk m = true := by
  simp only [mcOk, hc, h1, ho, hl, Bool.and_eq_true, decide_eq_true_eq, beq_iff_eq, Bool.true_and]
  exact ⟨⟨⟨⟨by decide, hp⟩, trivial⟩, by omega⟩, trivial⟩

theorem mcMine_of {m : McMsg} (ht : m.typ = 0x7E) (hv : m.vendor = 0x1F48) : mcMine m = true := by
  simp [mcMine, ht, hv, vendorId]

theorem Chip.mctpServe_idle {c : Chip} (ha : c.isl.aonUp = true) (hb : c.mgmt.mctpBusy = false) (f : Chip → Chip) :
    c.mctpServe f = f c := by
  simp [Chip.mctpServe, ha, hb]

/-- A good write request that is served is the write of its words (R177). -/
theorem exec_mctpWrite {s : State} {m : McMsg} (env : WriteEnv) (ha : s.chip.isl.aonUp = true)
    (hb : s.chip.mgmt.mctpBusy = false) (hm : mcMine m = true) (h2 : mcOpcode m = 2) (hk : mcOk m = true) :
    exec (.mctpWrite m env) s = .next { s with chip := (s.chip.mctpWrite m env).interlock } := by
  show execMctpWrite m env s = _
  simp [execMctpWrite, State.to, hm, h2, hk, Chip.mctpServe_idle ha hb]

/-- A good read request that is served is the read of its words (R177). -/
theorem exec_mctpRead {s : State} {m : McMsg} (ha : s.chip.isl.aonUp = true)
    (hb : s.chip.mgmt.mctpBusy = false) (hm : mcMine m = true) (h1 : mcOpcode m = 1) (hk : mcOk m = true) :
    exec (.mctpRead m) s = .next { s with chip := (s.chip.mctpRead m).interlock } := by
  show execMctpRead m s = _
  simp [execMctpRead, State.to, hm, h1, hk, Chip.mctpServe_idle ha hb]

/-- The write of a request of one word is that write by the I3C requester, and the answer. -/
theorem Chip.mctpWrite_one (c : Chip) {m : McMsg} {w : Word} (env : WriteEnv) (hw : mcWords m = [w]) :
    ∃ st, c.mctpWrite m env = (c.write32 .i3c (mcPage m * 4096 + mcOffset m) w.toNat env).mctpAnswer { status := st } := by
  simp only [Chip.mctpWrite, hw, Chip.mctpWrites]
  exact ⟨_, rfl⟩

/-- An aligned 4-byte write of the I3C requester, whose accesses always arrive, at an address of the register space. -/
theorem exec_registerWrite_i3c (s : State) {a : Nat} (ha : a < 2 ^ 24) (h4 : a % 4 = 0) (w : Word) (env : WriteEnv) :
    exec (.registerWrite .i3c 0 .b4 (BitVec.ofNat 24 a) w 0 env) s =
      .next { s with chip := (s.chip.write32 .i3c a w.toNat env).interlock } := by
  rw [exec_registerWrite rfl (fun h => by cases h), BitVec.toNat_ofNat, Nat.mod_eq_of_lt ha]
  simp only [Chip.writeReg, Chip.writeWith, h4, if_true]

/-! ## The clauses about register writes -/

/-- A write to a block word of CMD, POLDER or a SPIN page. -/
theorem completes_plainWrite {s : State} {r : Requester} {n : Ctrl} {p : Page} {off : Nat} {a : BitVec 24} (w hi : Word)
    (env : WriteEnv) (hI : s.chip.Interlocked) (hn : r = .host → n = 0) (hp : PlainWrite p)
    (ha : a.toNat = p.num * 4096 + off) (h4 : off % 4 = 0) (hl : 64 ≤ off) (hu : off < 4096) (hw : s.chip.Writable r p)
    (hf : s.chip.frozen p = false) :
    Completes (.registerWrite r n .b4 a w hi env) s fun d => d = s.chip.wordWrite p off w.toNat := by
  have hh : s.chip.hears r = true := hw.1
  refine completes_of (exec_registerWrite hh hn _ a w hi env) (d := s.chip.wordWrite p off w.toNat) ?_ ?_ rfl
  · have : a.toNat % 4 = 0 := by omega
    simp only [Chip.writeReg, Chip.writeWith, this, if_true]
    exact Chip.write32_plain hp ha hl hu hw _ env
  · refine Chip.wordWrite_interlocked hf off _ hI ?_ ?_ ?_ <;> rcases hp with rfl | rfl | ⟨k, rfl⟩ <;> simp

/-- A write request of one word over the management bus. -/
theorem completes_mctpWrite_one {s : State} {m : McMsg} {w : Word} (env : WriteEnv) (ha : s.chip.isl.aonUp = true)
    (hb : s.chip.mgmt.mctpBusy = false) (hm : mcMine m = true) (h2 : mcOpcode m = 2) (hk : mcOk m = true)
    (hp : mcPage m < 0x1000) (ho : mcOffset m % 4 = 0) (hu : mcOffset m < 4096) (hw : mcWords m = [w]) :
    Completes (.mctpWrite m env) s fun d => d.mgmt.mctpResp.data = [] ∧ d.mgmt.mctpResp.busy = false ∧ ∃ t,
      exec (.registerWrite .i3c 0 .b4 (BitVec.ofNat 24 (mcPage m * 4096 + mcOffset m)) w 0 env) s = .next t ∧
      d = { t.chip with mgmt := { t.chip.mgmt with mctpResp := d.mgmt.mctpResp } } := by
  obtain ⟨st, hst⟩ := s.chip.mctpWrite_one env hw
  refine ⟨_, exec_mctpWrite env ha hb hm h2 hk, rfl, ?_⟩
  rw [hst, Chip.interlock_mctpAnswer]
  exact ⟨rfl, rfl, _, exec_registerWrite_i3c s (by omega) (by omega) w env, rfl⟩

end Sys2Proof.Machine

open Sys2Proof Sys2Proof.Machine

/-- Settles O18: by the fields of a word taking their own bits one by one, and the management bus's write being that of the I3C
requester with an answer that the interlock does not see. -/
theorem registerWritesSetTheirFields : Obligations.RegisterWritesSetTheirFields := by
  intro s r n env hi hI hh hn
  refine ⟨fun p k a w hp hk ha hw hf => ?_, fun a w ha => ?_, fun a w => ⟨?_, ?_⟩, ?_, fun a w ha hp hr => ?_⟩
  · have hx : ∀ f, fixedField p f = false := by rcases hp with rfl | rfl | ⟨m, rfl⟩ <;> exact fun _ => rfl
    obtain ⟨t, he, hq, hd⟩ := completes_plainWrite w hi env hI hn hp ha (by omega) (by omega) (by omega) hw hf
    refine ⟨t, he, hq, ?_⟩
    rw [hd]
    exact ⟨fun e he => Chip.wordWrite_fields hf hx _ _ he,
      fun q f i hq hfit => Chip.wordWrite_samePages hf _ _ q f i (decide_eq_false hq) hfit, Chip.wordWrite_sameBut hf _ _⟩
  · exact completes_regFault (exec_registerWrite hh hn _ a w hi env) (if_neg ha) hI
  · exact completes_regFault (exec_registerWrite hh hn _ a w hi env) rfl hI
  · exact completes_regFault (exec_registerWrite hh hn _ a w hi env) rfl hI
  · intro m w ha hb ht hv hc hl h2 h1 hpg ho hu hw
    exact completes_mctpWrite_one env ha hb (mcMine_of ht hv) h2 (mcOk_of hc h1 hpg ho hu (by rw [hl, h2]; rfl)) hpg ho hu hw
  · refine completes_regFault (exec_registerWrite hh hn _ a w hi env) ?_ hI
    have hwin : ¬ (a.toNat < 0x4000 ∧ r = .host) := fun h => hr.elim (fun g => absurd h.1 (by omega)) fun g => g h.2
    simp only [Chip.writeReg, Chip.writeWith, ha, if_true, Chip.write32, hp, hwin, if_false]

end

section
namespace Sys2Proof.Machine

/-! ## Bits of a word -/

theorem testBit_slice (lo w x i : Nat) : (slice lo w x).testBit i = (decide (i < w) && x.testBit (lo + i)) := by
  unfold slice
  rw [Nat.testBit_mod_two_pow, Nat.testBit_div_two_pow, Nat.add_comm]

/-- A word with a value put in a place has the value's bits there and its own elsewhere. -/
theorem testBit_putBits (x lo w v i : Nat) :
    (putBits x lo w v).testBit i = if lo ≤ i ∧ i < lo + w then v.testBit (i - lo) else x.testBit i := by
  obtain ⟨l, hl⟩ : ∃ l, l = x % 2 ^ lo := ⟨_, rfl⟩
  obtain ⟨y, hy⟩ : ∃ y, y = x / 2 ^ lo := ⟨_, rfl⟩
  have hlt : l < 2 ^ lo := hl ▸ Nat.mod_lt _ (Nat.two_pow_pos _)
  have hx : x = 2 ^ lo * y + l := by rw [hl, hy, Nat.div_add_mod]
  have hp : putBits x lo w v = 2 ^ lo * (2 ^ w * (y / 2 ^ w) + v % 2 ^ w) + l := by
    have e1 : 2 ^ lo * y = 2 ^ lo * (2 ^ w * (y / 2 ^ w)) + y % 2 ^ w * 2 ^ lo := by
      rw [Nat.mul_comm (y % 2 ^ w) (2 ^ lo), ← Nat.mul_add, Nat.div_add_mod]
    rw [putBits, slice, ← hy, Nat.mul_add, Nat.mul_comm (2 ^ lo) (v % 2 ^ w)]
    omega
  rw [hp, hx, Nat.testBit_two_pow_mul_add _ hlt, Nat.testBit_two_pow_mul_add _ hlt,
    Nat.testBit_two_pow_mul_add _ (Nat.mod_lt _ (Nat.two_pow_pos _)), Nat.testBit_mod_two_pow]
  by_cases h1 : i < lo
  · rw [if_pos h1, if_pos h1, if_neg (by omega)]
  · rw [if_neg h1, if_neg h1]
    by_cases h2 : i - lo < w
    · rw [if_pos h2, if_pos (by omega)]; simp [h2]
    · rw [if_neg h2, if_neg (by omega), Nat.testBit_div_two_pow]
      congr 1; omega

theorem slice_putBits_same (x lo w v : Nat) : slice lo w (putBits x lo w v) = v % 2 ^ w := by
  refine Nat.eq_of_testBit_eq fun i => ?_
  rw [testBit_slice, testBit_putBits, Nat.testBit_mod_two_pow]
  by_cases h : i < w
  · rw [if_pos (by omega), Nat.add_sub_cancel_left]
  · simp [h]

/-- A value put in a place leaves the places apart from it alone. -/
theorem slice_putBits_disjoint {a u lo w : Nat} (h : a + u ≤ lo ∨ lo + w ≤ a) (x v : Nat) :
    slice a u (putBits x lo w v) = slice a u x := by
  refine Nat.eq_of_testBit_eq fun i => ?_
  rw [testBit_slice, testBit_slice, testBit_putBits]
  by_cases hi : i < u
  · rw [if_neg (by omega)]
  · simp [hi]

/-- The 32 bits of a word hold every place that ends within bit 31. -/
theorem slice_mod_word {lo w : Nat} (h : lo + w ≤ 32) (x : Nat) : slice lo w (x % 2 ^ 32) = slice lo w x := by
  refine Nat.eq_of_testBit_eq fun i => ?_
  rw [testBit_slice, testBit_slice, Nat.testBit_mod_two_pow]
  by_cases hi : i < w
  · have : lo + i < 32 := by omega
    simp [this]
  · simp [hi]

/-- Values put in places apart from a place leave it alone. -/
theorem slice_foldl_putBits_disjoint {a u : Nat} (v : Fld × Nat → Nat) {l : List (Fld × Nat)}
    (h : ∀ e ∈ l, a + u ≤ e.1.lo ∨ e.1.lo + e.1.w ≤ a) (x : Nat) :
    slice a u (l.foldl (fun x e => putBits x e.1.lo e.1.w (v e)) x) = slice a u x := by
  induction l generalizing x with
  | nil => rfl
  | cons e r ih =>
    rw [List.foldl_cons, ih (fun y hy => h y (by simp [hy])), slice_putBits_disjoint (h e (by simp))]

/-- A word put together from the values of disjoint fields shows each value in its field's bits. -/
theorem slice_foldl_putBits (v : Fld × Nat → Nat) {l : List (Fld × Nat)}
    (hd : l.Pairwise fun a b => a.1.lo + a.1.w ≤ b.1.lo ∨ b.1.lo + b.1.w ≤ a.1.lo) {e : Fld × Nat} (he : e ∈ l) (x : Nat) :
    slice e.1.lo e.1.w (l.foldl (fun x e => putBits x e.1.lo e.1.w (v e)) x) = v e % 2 ^ e.1.w := by
  obtain ⟨a, b, rfl⟩ := List.append_of_mem he
  have hb := (List.pairwise_cons.1 (List.pairwise_append.1 hd).2.1).1
  rw [List.foldl_append, List.foldl_cons, slice_foldl_putBits_disjoint v hb, slice_putBits_same]

/-! ## What a read answers -/

@[simp] theorem Chip.rq_answer_same (c : Chip) (r : Requester) (w : Nat) :
    ((c.answer r w).rq r).readData = BitVec.ofNat 32 w := by
  cases r <;> rfl

theorem Chip.rq_answer_ne (c : Chip) {r q : Requester} (h : q ≠ r) (w : Nat) : (c.answer r w).rq q = c.rq q := by
  cases q <;> exact congrArg id (if_neg (Ne.symm h))

theorem Chip.answer_sameBut (c : Chip) (r : Requester) (w : Nat) : c.SameBut (c.answer r w) [.rqHost, .rqMgmt, .rqI3c] :=
  fun q hq => by
    cases q
    case rqHost | rqMgmt | rqI3c => simp at hq
    all_goals rfl

theorem Chip.rq_congr {c d : Chip} {l : List Part} (h : c.SameBut d l)
    (hl : Part.rqHost ∉ l ∧ Part.rqMgmt ∉ l ∧ Part.rqI3c ∉ l) (q : Requester) : d.rq q = c.rq q := by
  cases q
  · exact h .rqHost hl.1
  · exact h .rqMgmt hl.2.1
  · exact h .rqI3c hl.2.2

/-- A command whose effect is a fixed answer to a read and a fault of the source REGISTER. -/
theorem completes_answerFault {i : Instr} {s : State} {c : Chip} {r : Requester} {k v : Nat} {w : Word}
    (he : exec i s = .next { s with chip := c.interlock }) (hd : c = (s.chip.answer r v).regFault k)
    (hv : BitVec.ofNat 32 v = w) (hI : s.chip.Interlocked) :
    Completes i s fun d => (d.rq r).readData = w ∧ d.x16 = s.chip.x16 ++ [⟨0, k, 0, 0, 0x10⟩] ∧
      s.chip.SameBut d [.x16, .rqHost, .rqMgmt, .rqI3c] := by
  have hs : s.chip.SameBut ((s.chip.answer r v).regFault k) [.x16, .rqHost, .rqMgmt, .rqI3c] :=
    ((s.chip.answer_sameBut r v).mono (by simp +contextual)).trans
      (((s.chip.answer r v).regFault_sameBut k).mono (by simp))
  refine completes_of he hd (hI.of_sameBut hs (by decide)) ⟨?_, by rw [Chip.regFault_eq]; rfl, hs⟩
  rw [Chip.rq_congr (Chip.regFault_sameBut _ k) (by decide), Chip.rq_answer_same, hv]

/-- A field that clears on read is 0 after it (R9). -/
def Chip.clearOnRead (c : Chip) (p : Page) (e : Fld × Nat) : Chip := if e.1.acc = .rc then c.putI p e.1 e.2 0 else c

theorem clearOnRead_step (p : Page) : FieldStep p fun c e => c.clearOnRead p e := by
  intro c e
  simp only [Chip.clearOnRead]
  split
  · exact ⟨c.putI_sameBut _ _ _ _, c.putI_sameRegs _ _ _ _⟩
  · exact ⟨Chip.SameBut.rfl' c _, Chip.SameRegs.rfl' c _⟩

/-- The pages whose block words are held in the register store alone. -/
def StoreHeld (p : Page) : Prop := p = .cmd ∨ p = .sluice ∨ p = .mem ∨ ∃ m, p = .spin m

theorem StoreHeld.interlockFree {p : Page} (h : StoreHeld p) : (∀ q, p ≠ .head q) ∧ p ≠ .clk ∧ p ≠ .fault := by
  rcases h with rfl | rfl | rfl | ⟨m, rfl⟩ <;> simp

/-- Only PAGE_STAT, FAULT_STAT and LOCK of such a page show what other state holds (R146, R150, R154). -/
theorem Chip.live_of_storeHeld {p : Page} (h : StoreHeld p) {off : Nat} (ho : 64 ≤ off) (c : Chip) (r : Requester) :
    c.live r p off = [] := by
  have hstat : off ≠ 0x008 := by omega
  have hfault : off ≠ 0x018 := by omega
  have hlock : off ≠ 0x028 := by omega
  rcases h with rfl | rfl | rfl | ⟨m, rfl⟩ <;> simp only [Chip.live]

/-- A block word of such a page shows in each field's bits what a read of the field shows. -/
theorem Chip.slice_wordAt {p : Page} (h : StoreHeld p) {off : Nat} (ho : 64 ≤ off) (c : Chip) (r : Requester)
    {e : Fld × Nat} (he : e ∈ wordFields p off) :
    slice e.1.lo e.1.w (c.wordAt r p off) = c.fieldRead p e.1 e.2 % 2 ^ e.1.w := by
  simp only [Chip.wordAt, Chip.live_of_storeHeld h ho, List.foldl_nil]
  exact slice_foldl_putBits (fun e => c.fieldRead p e.1 e.2) (wordFields_disjoint p off) he 0

/-- The block after a read of such a page: the answer stands at the requester, and the word's RC fields are cleared. -/
def Chip.storeRead (c : Chip) (r : Requester) (p : Page) (off : Nat) : Chip :=
  (wordFields p off).foldl (fun c e => c.clearOnRead p e) (c.answer r (c.wordAt r p off))

theorem Chip.read32_storeHeld {c : Chip} {r : Requester} {p : Page} {a off : Nat} (h : StoreHeld p)
    (ha : a = p.num * 4096 + off) (hu : off < 4096) (hh : c.hears r = true) (hr : c.Reach p) :
    c.read32 r a = c.storeRead r p off := by
  obtain ⟨hn, ho⟩ := Page.addr_split ha hu
  simp only [Chip.read32, hn, ho, Chip.pageRead]
  rw [Chip.readPort_of_reach hh hr]
  rcases h with rfl | rfl | rfl | ⟨m, rfl⟩ <;> rfl

section
variable (c : Chip) (r : Requester) (p : Page) (off : Nat)

theorem Chip.storeRead_rq (q : Requester) : (c.storeRead r p off).rq q = (c.answer r (c.wordAt r p off)).rq q :=
  Chip.rq_congr ((clearOnRead_step p).foldl_sameBut _ _) (by decide) q

theorem Chip.storeRead_data : ((c.storeRead r p off).rq r).readData = BitVec.ofNat 32 (c.wordAt r p off) := by
  rw [Chip.storeRead_rq, Chip.rq_answer_same]

theorem Chip.storeRead_sameBut : c.SameBut (c.storeRead r p off) [.reg, .rqHost, .rqMgmt, .rqI3c] :=
  ((c.answer_sameBut r _).mono (by simp +contextual)).trans
    (((clearOnRead_step p).foldl_sameBut _ _).mono (by simp))

theorem Chip.storeRead_interlocked (h : StoreHeld p) (hI : c.Interlocked) : (c.storeRead r p off).Interlocked := by
  obtain ⟨hh, hc, hf⟩ := h.interlockFree
  exact (clearOnRead_step p).foldl_interlocked off (hI.of_sameBut (c.answer_sameBut r _) (by decide)) hh hc hf

/-- After the read the word's RC fields are 0 and its other fields keep their values. -/
theorem Chip.storeRead_fields {e : Fld × Nat} (he : e ∈ wordFields p off) :
    (e.1.acc = .rc → (c.storeRead r p off).rdI p e.1 e.2 = 0) ∧
    (e.1.acc ≠ .rc → (c.storeRead r p off).rdI p e.1 e.2 = c.rdI p e.1 e.2) := by
  obtain ⟨m, -, hold, hr, -⟩ :=
    (clearOnRead_step p).foldl_at (wordFields_keys p off) he (c.answer r (c.wordAt r p off))
  unfold Chip.storeRead
  rw [hr]
  constructor
  · intro ha
    rw [Chip.clearOnRead, if_pos ha, Chip.rdI_putI_same _ _ _ _ _ (wordFields_width he), Nat.zero_mod]
  · intro ha
    rw [Chip.clearOnRead, if_neg ha, hold]; rfl

end

/-- The bits of each field in the answer to a read of a block word (R9). -/
theorem Chip.storeRead_bits {p : Page} (h : StoreHeld p) {off : Nat} (ho : 64 ≤ off) (c : Chip) (r : Requester)
    {e : Fld × Nat} (he : e ∈ wordFields p off) :
    ((c.storeRead r p off).rq r).readData.toNat / 2 ^ e.1.lo % 2 ^ e.1.w = c.fieldRead p e.1 e.2 % 2 ^ e.1.w := by
  rw [Chip.storeRead_data, BitVec.toNat_ofNat, ← Chip.slice_wordAt h ho c r he]
  exact slice_mod_word (wordFields_inWord he).2.1 _

/-! ## The clauses about register reads -/

/-- A read request of one word over the management bus is that read by the I3C requester, and the answer. -/
theorem completes_mctpRead_one {s : State} {m : McMsg} {p : Page} (hI : s.chip.Interlocked) (ha : s.chip.isl.aonUp = true)
    (hb : s.chip.mgmt.mctpBusy = false) (hm : mcMine m = true) (h1 : mcOpcode m = 1) (hk : mcOk m = true)
    (hc : mcCount m = 1) (hp : mcPage m = p.num) (hu : mcOffset m < 4096) (hr : s.chip.Reach p) (hs : StoreHeld p) :
    Completes (.mctpRead m) s fun d =>
      d.mgmt.mctpResp = { status := 0, data := [BitVec.ofNat 32 (s.chip.wordAt .i3c p (mcOffset m))] } ∧
      d.x16 = s.chip.x16 := by
  have hst : s.chip.wordStatus false (mcPage m) (mcOffset m) = 0 := by
    simp [Chip.wordStatus, hp, Page.ofNum_num, hr.1]
  have hrd : s.chip.read32 .i3c (mcPage m * 4096 + mcOffset m) = s.chip.storeRead .i3c p (mcOffset m) :=
    Chip.read32_storeHeld hs (by rw [hp]) hu rfl hr
  have he : s.chip.mctpRead m = (s.chip.storeRead .i3c p (mcOffset m)).mctpAnswer
      { status := 0, data := [BitVec.ofNat 32 (s.chip.wordAt .i3c p (mcOffset m))] } := by
    simp only [Chip.mctpRead, hc, Chip.mctpReads, hst, hrd, List.nil_append, Chip.storeRead_data]
  refine ⟨_, exec_mctpRead ha hb hm h1 hk, rfl, ?_⟩
  rw [he, Chip.interlock_mctpAnswer, Chip.interlock_eq (Chip.storeRead_interlocked _ _ _ _ hs hI)]
  exact ⟨rfl, s.chip.storeRead_sameBut .i3c p _ .x16 (by decide)⟩

end Sys2Proof.Machine

open Sys2Proof Sys2Proof.Machine

/-- Settles O19: a word is put together from disjoint fields and then cleared field by field; the reads that reach no word
answer a constant with a fault. -/
theorem registerReadsAnswerTheirFields : Obligations.RegisterReadsAnswerTheirFields := by
  intro s r n hI hh hn
  refine ⟨fun p k a hp hk ha hr => ?_, fun p a h4 ha hu => ?_, fun a h4 hp hr => ?_, ?_, fun a h4 => ?_⟩
  · refine completes_of (exec_registerRead hh hn _ a) (d := s.chip.storeRead r p (4 * k.val)) ?_
      (Chip.storeRead_interlocked _ _ _ _ hp hI) ⟨fun e he => ?_, fun q hq => ?_, s.chip.storeRead_sameBut r p _⟩
    · have h4 : a.toNat % 4 = 0 := by omega
      simp only [Chip.readReg, Chip.readWith, h4, if_true]
      exact Chip.read32_storeHeld hp ha (by omega) hh hr
    · exact ⟨Chip.storeRead_bits hp (by omega) _ r he, s.chip.storeRead_fields r p _ he⟩
    · rw [Chip.storeRead_rq, Chip.rq_answer_ne _ hq]
  · refine completes_answerFault (exec_registerRead hh hn _ a) ?_ rfl hI
    have hpn : Page.ofNum (a.toNat / 4096) = some p := by rw [ha, Page.ofNum_num]
    simp only [Chip.readReg, Chip.readWith, h4, if_true, Chip.read32, hpn, Chip.pageRead, Chip.readPort_of_absent hh hu]
  · refine completes_answerFault (exec_registerRead hh hn _ a) ?_ rfl hI
    have hwin : ¬ (a.toNat < 0x4000 ∧ r = .host) := fun h => hr.elim (fun g => absurd h.1 (by omega)) fun g => g h.2
    simp only [Chip.readReg, Chip.readWith, h4, if_true, Chip.read32, hp, hwin, if_false]
  · intro m p ha hb ht hv hc hl h1 hn1 hpg ho hu hr hp
    have hlt : mcPage m < 0x1000 := by rw [hpg]; exact Page.num_lt p
    exact completes_mctpRead_one hI ha hb (mcMine_of ht hv) h1 (mcOk_of hc hn1 hlt ho hu (by rw [hl, h1]; rfl)) hn1 hpg hu hr hp
  · exact completes_answerFault (exec_registerRead hh hn _ a) (if_neg h4) rfl hI

end
